-- ==== Sys2Proof/Word.lean ====
section
/-! DEFINITION. The word types of the HZ-3T: bytes of memory and packets, 64-bit registers, 128-bit instructions. -/
namespace Sys2Proof

/-- One byte of a Tidepool, of HBM, of a frame or of a packet (R12: little-endian throughout). -/
abbrev Byte := BitVec 8
/-- A 64-bit register or configuration word. -/
abbrev Word := BitVec 64
/-- A 128-bit tile instruction (R173). -/
abbrev IWord := BitVec 128

end Sys2Proof
end

