-- ==== Sys2Proof/Syntax.lean ====
section
/-! DEFINITION. The commands of the block: one constructor of Instr for every row of the opcode table (R57 for the
commands of the host, R184 to R194 for tile instructions, and the chapters' own events), with their operands. -/
namespace Sys2Proof

/-- A command message (R43, R44) with, in bulk, the data of its BULK frames in offset order (R40). -/
structure Msg where
  /-- arrival port: 0 A, 1 B (R36) -/
  port : Nat := 0
  major : Nat := 3
  minor : Nat := 0
  opcode : Nat := 0
  ctx : Nat := 0
  /-- header bits [31:12] of offset 0x04, bit 0 being bit 12 (R44) -/
  flags : Nat := 0
  seq : Nat := 0
  /-- the payload length field (R46) -/
  plen : Nat := 0
  /-- admission class: 0 NONE, 1 BOUNDED, 2 ELASTIC -/
  cls : Nat := 0
  partition : Nat := 0xFF
  /-- bytes 0x12 and 0x13 -/
  reserved : Nat := 0
  deadline : Nat := 0
  param : Nat := 0
  payload : List Byte := []
  bulk : List Byte := []
  deriving DecidableEq, Repr

/-- A fabric packet: the header of R406 and its data. -/
structure Pkt where
  dst : Nat := 0
  src : Nat := 0
  via : Nat := 0
  kind : Nat := 0
  phase : Nat := 0
  dateline : Bool := false
  alt : Bool := false
  resent : Bool := false
  pseq : Nat := 0
  tag : Nat := 0
  hops : Nat := 0
  part : Nat := 0
  addr : Nat := 0
  len : Nat := 0
  status : Nat := 0
  cause : Nat := 0
  data : List Byte := []
  deriving DecidableEq, Repr

/-- An access arriving at a Tidepool through network ingress (R226): a write of data, a read request of len bytes, or a
read reply of data. -/
inductive IngressKind where
  | write | read | reply
  deriving DecidableEq, Repr

structure Ingress where
  kind : IngressKind
  cove : Nat
  addr : Nat
  len : Nat := 0
  data : List Byte := []
  deriving DecidableEq, Repr

/-- An access served by a memory controller (R352): 64-byte units of local HBM addresses, the partition whose key is in
force, and what the check bits of each unit read are found to say. -/
structure HbmAccess where
  write : Bool
  part : Nat
  addr : Nat
  len : Nat := 0
  data : List Byte := []
  /-- offsets of units of the access found correctable (R357) -/
  corrected : List Nat := []
  /-- offsets of units of the access found uncorrectable (R358) -/
  uncorrectable : List Nat := []
  deriving DecidableEq, Repr

/-- The commands: one constructor per row of the opcode table. -/
inductive Instr where
  /-- CMD_NOP (R57). Host command that does nothing and is answered with its final reply. -/
  | cmdNop (m : Msg)
  /-- CMD_HELLO (R58). Returns DV_ID, DV_SERIAL, the arrival port and the sequence the context expects next, without entering the context's series. -/
  | cmdHello (m : Msg)
  /-- CMD_FW_LOAD (R453). Receives a firmware image as bulk data while the device is in ROM and starts its verification. -/
  | cmdFwLoad (m : Msg)
  /-- FW_VERIFY_DONE (R489). Verification of a loaded image ends; Nimtar starts and the device enters SVC, or stays in ROM on failure. -/
  | fwVerifyDone
  /-- CERT_SIGNED (R492). The identity key signs the attestation certificate and its private part is erased. -/
  | certSigned
  /-- CMD_CTX_OPEN (R52). Context 0 opens a client context with its partition binding, queue depth, home port, failover enable and privileges. -/
  | cmdCtxOpen (m : Msg)
  /-- CMD_CTX_CLOSE (R55). Cancels every uncompleted command of the context, discards its event queue and closes it. -/
  | cmdCtxClose (m : Msg)
  /-- CMD_CFG_READ (R63). Reads words of configuration space after checking every word for mapping and reach. -/
  | cmdCfgRead (m : Msg)
  /-- CMD_CFG_WRITE (R63). Writes words of configuration space after checking every word before any is written. -/
  | cmdCfgWrite (m : Msg)
  /-- CMD_PROG_LOAD (R167). Checks and loads a tile program image from each Cove's Tidepool into its program buffer. -/
  | cmdProgLoad (m : Msg)
  /-- CMD_PROG_START (R169). Chooses a start instant and starts the program of every Cove of the set with a register image. -/
  | cmdProgStart (m : Msg)
  /-- PROG_START_INSTANT (R169). At the chosen Tide clock instant every Cove of the set clears predicates, loop counters and CONT, applies the image and begins at the entry. -/
  | progStartInstant (ctx : Nat) (seq : Nat)
  /-- PROG_START_COMPLETE (R170). When every Cove of the set has left RUN and SUSPENDED, the final reply with one exit record per Cove is sent. -/
  | progStartComplete (ctx : Nat) (seq : Nat)
  /-- CMD_PROG_STOP (R171). Stops the programs of a Cove set at the next instruction boundary and abandons waiting instructions. -/
  | cmdProgStop (m : Msg)
  /-- CMD_SPAN_OPEN (R155). Opens a replay span once the context's earlier commands have completed. -/
  | cmdSpanOpen (m : Msg)
  /-- CMD_SPAN_CLOSE (R160). Waits for every logged command of the span to complete, then commits or replays. -/
  | cmdSpanClose (m : Msg)
  /-- SPAN_COMMIT_POINT (R160). The last logged command completes with no replay running, fixing the commit point of the span. -/
  | spanCommitPoint (part : Nat) (span : Nat)
  /-- SPAN_STAGING_COPY_DONE (R163). The copy of every staging range to its destination ends and CMD_SPAN_CLOSE completes. -/
  | spanStagingCopyDone (part : Nat) (span : Nat)
  /-- CMD_WATCH_SET (R154). Writes the four control words of a watch slot, discarding the open sample and restarting warm-up. -/
  | cmdWatchSet (m : Msg)
  /-- CMD_MEM_WRITE (R58). Writes host data, from the payload or bulk frames, to a global address. -/
  | cmdMemWrite (m : Msg)
  /-- CMD_MEM_READ (R58). Reads bytes at a global address and returns them as bulk frames before the final reply. -/
  | cmdMemRead (m : Msg)
  /-- CMD_DMA_SUBMIT (R370). Queues up to 1,024 descriptors on a Bay DMA engine's queue 16. -/
  | cmdDmaSubmit (m : Msg)
  /-- CMD_TABLE_BUILD (R383). Reserves a compression table slot and builds a new table generation from a histogram source or given lengths. -/
  | cmdTableBuild (m : Msg)
  /-- TABLE_BUILD_DONE (R383). The histogram is counted and the lengths computed; the new slot becomes CURRENT and the previous one OLD. -/
  | tableBuildDone (ctx : Nat) (seq : Nat)
  /-- CMD_CACHE_INVALIDATE (R213). Invalidates every line of the cache portion of each Cove of the set. -/
  | cmdCacheInvalidate (m : Msg)
  /-- CMD_REQ_SUBMIT (R326). Checks and admits a serving request, returning its first-token promise. -/
  | cmdReqSubmit (m : Msg)
  /-- CMD_REQ_CANCEL (R337). Cancels a request, deciding against the seal of the step it is in. -/
  | cmdReqCancel (m : Msg)
  /-- CMD_SPEC_COMMIT (R284). Commits the accepted tokens of a sequence and closes its speculation epoch. -/
  | cmdSpecCommit (m : Msg)
  /-- CMD_ACCOUNT_SET (R339). Sets, binds, fills or queries a budget account and returns its balance. -/
  | cmdAccountSet (m : Msg)
  /-- CMD_POOL_SET (R322). Sets pool limits and installs a serving plan, or turns serving off. -/
  | cmdPoolSet (m : Msg)
  /-- PLAN_BUILD_DONE (R324). The shadow build of a serving plan ends, writing the TS table and IN_FORCE pending, or REFUSED. -/
  | planBuildDone (part : Nat)
  /-- CMD_CHAN_OPEN (R422). Opens a collective channel, reserving channel buffer and sending COLL_CREDIT to upstream members. -/
  | cmdChanOpen (m : Msg)
  /-- CMD_CHAN_CLOSE (R440). Fails the running operation, cancels posted operations and releases the channel's reservation. -/
  | cmdChanClose (m : Msg)
  /-- CMD_SLICE_BARRIER (R444). Sends BARRIER_ARRIVE to the Harbourmaster and waits for the release. -/
  | cmdSliceBarrier (m : Msg)
  /-- CMD_SLICE_JOIN (R404). Sets the device's identity, slice dimensions and Harbourmaster and repeats the identity exchange. -/
  | cmdSliceJoin (m : Msg)
  /-- SLICE_LEAVE (R404). Clears the slice identity and makes every link QUARANTINED with cause SLICE. -/
  | sliceLeave (m : Msg)
  /-- CMD_CABLING_PLAN (R401). Installs a cabling plan and re-runs the check on every trained link. -/
  | cmdCablingPlan (m : Msg)
  /-- LINK_SET_DISABLED (R403). Moves the link's traffic to siblings and turns its transmitters off. -/
  | linkSetDisabled (m : Msg)
  /-- LINK_SET_ENABLED (R403). Re-runs the check on a trained link or starts training an untrained one. -/
  | linkSetEnabled (m : Msg)
  /-- LINK_SET_FENCED (R403). Stops new packets on the link and fences the peer end by a LINKCTL message. -/
  | linkSetFenced (m : Msg)
  /-- LINK_SET_ACTIVE (R403). Asks to bring a FENCED link to ACTIVE once both ends have asked. -/
  | linkSetActive (m : Msg)
  /-- LINK_ACTIVE_ASK_TIMEOUT (R403). The peer has not asked for ACTIVE within 10 ms and the command completes with ST_FENCED. -/
  | linkActiveAskTimeout (link : Nat)
  /-- CMD_ROUTE_SHADOW (R409). Checks and writes route entries into the shadow route table. -/
  | cmdRouteShadow (m : Msg)
  /-- CMD_MODE_PREPARE (R447). Starts a two-phase mode change of slice or device scope. -/
  | cmdModePrepare (m : Msg)
  /-- CMD_WINDOW_OPEN (R415). Opens a remote Tidepool window for a peer outside SERVICE mode. -/
  | cmdWindowOpen (m : Msg)
  /-- CMD_WINDOW_CLOSE (R416). Refuses new accesses to a window and completes when accepted ones finish. -/
  | cmdWindowClose (m : Msg)
  /-- CMD_PART_CREATE (R479). Creates a partition from Headlands and HBM granules in state UNKEYED. -/
  | cmdPartCreate (m : Msg)
  /-- CMD_PART_KEY (R482). Decapsulates, unwraps and loads a partition's XTS key into all memory controllers. -/
  | cmdPartKey (m : Msg)
  /-- CMD_PART_KILL (R485). Kills a partition: stops its work, crypto-erases its HBM and zeroes its on-chip state. -/
  | cmdPartKill (m : Msg)
  /-- KILL_SCRUB_DONE (R485). On-chip zeroing of the killed partition ends; SCRUB_DONE and the final reply are sent. -/
  | killScrubDone (part : Nat)
  /-- BACKGROUND_ZERO_DONE (R488). The last ZEROING granule is written with zeros and a second SCRUB_DONE is sent. -/
  | backgroundZeroDone (part : Nat)
  /-- CMD_ATTEST (R494). Returns a signed attestation report with measurements and the certificate. -/
  | cmdAttest (m : Msg)
  /-- POWER_ENTER_SLACK (R469). Drains running Coves to SUSPENDED and clock-gates compute units of the scope. -/
  | powerEnterSlack (m : Msg)
  /-- POWER_ENTER_NEAP (R470). Accepts NEAP entry, blocks new work and waits for seals, DMA and collectives to drain. -/
  | powerEnterNeap (m : Msg)
  /-- POWER_ENTER_DORMANT (R470). Accepts DORMANT entry, blocks new work and waits for seals, DMA and collectives to drain. -/
  | powerEnterDormant (m : Msg)
  /-- POWER_ENTRY_DRAINED (R470). After the drain, the device saves groups, lowers power and completes the NEAP or DORMANT entry. -/
  | powerEntryDrained
  /-- POWER_WAKE (R472). CMD_POWER_STATE ACTIVE starts returning power to the islands. -/
  | powerWake (m : Msg)
  /-- POWER_WAKE_DONE (R472). Clearing and restore end; WAKE with the lost-settings bitmap and the final reply are sent. -/
  | powerWakeDone
  /-- RESET_DEVICE (R462). Cancels every command, resets every island but the Beacon ports and returns the device to ROM. -/
  | resetDevice (m : Msg)
  /-- RESET_DEVICE_DONE (R462). The DEVICE reset finishes in ROM and RESET_DONE is sent with bitmap 0x01FF_0FFF. -/
  | resetDeviceDone
  /-- RESET_LIGHTHOUSE (R463). Reloads Nimtar from the verified image held in Lighthouse memory, losing nothing. -/
  | resetLighthouse (m : Msg)
  /-- RESET_PARTITION (R464). Kills the partition without DISSOLVE or zeroing, keeping its composition and contexts. -/
  | resetPartition (m : Msg)
  /-- RESET_COVE (R465). Stops one Cove, cancels its unstarted DMA and clears its Tidepool and ACM. -/
  | resetCove (m : Msg)
  /-- RESET_LINK (R466). Moves one link's traffic and retrains the link. -/
  | resetLink (m : Msg)
  /-- RESET_STACK (R466). Retrains one HBM stack with its contents held in self-refresh. -/
  | resetStack (m : Msg)
  /-- CMD_ERRLOG_READ (R503). Returns a header and the held error records of an index range. -/
  | cmdErrlogRead (m : Msg)
  /-- CMD_COVE_SPARE (R508). Pauses a Bay, copies a Cove's state to a spare slot, remaps it and retires the old slot. -/
  | cmdCoveSpare (m : Msg)
  /-- CMD_HBM_REPAIR (R361). Copies an HBM row, applies post-package repair and writes it to the spare row. -/
  | cmdHbmRepair (m : Msg)
  /-- LANE_SPARE_LINK (R398). Switches the spare lane of a link in place of a named lane. -/
  | laneSpareLink (m : Msg)
  /-- LANE_SPARE_STACK (R506). Switches a spare lane of an HBM channel in place of a named lane. -/
  | laneSpareStack (m : Msg)
  /-- CMD_LH_SPARE (R510). Moves a logical Lighthouse core to the lowest spare physical core and retires the old one. -/
  | cmdLhSpare (m : Msg)
  /-- CMD_FW_STAGE (R509). Verifies and holds a firmware image for later activation. -/
  | cmdFwStage (m : Msg)
  /-- CMD_FW_ACTIVATE (R509). Stops intake and hands all state over to the staged firmware image. -/
  | cmdFwActivate (m : Msg)
  /-- FW_ACTIVATE_TIMEOUT (R509). The new image has not resumed intake within 50 ms; the previous image returns and ST_HW_ERROR is reported. -/
  | fwActivateTimeout
  /-- CMD_PORT_FAILOVER (R58). Moves named contexts, or all, to a target Beacon port and sends their held frames there. -/
  | cmdPortFailover (m : Msg)
  /-- BEACON_FRAME_RX (R38). A Beacon frame arrives and is checked for CRC, order and credit, then acknowledged and dispatched. -/
  | beaconFrameRx (port : Nat) (frame : List Byte)
  /-- BULK_FRAME_RX (R40). A BULK frame's data is attached to its pending command in rising offset order. -/
  | bulkFrameRx (port : Nat) (body : List Byte)
  /-- BEACON_RESEND_TIMEOUT (R38). No acknowledgement progress for 100 µs; the device resends from the first unacknowledged frame. -/
  | beaconResendTimeout (port : Nat)
  /-- BEACON_LANE_LOSS (R36). A Beacon lane loses signal and the port carries no further frames. -/
  | beaconLaneLoss (port : Nat) (lane : Nat)
  /-- BEACON_PORT_DOWN (R41). A port is declared down after lane loss of 100 µs or 1 ms without acknowledgement progress. -/
  | beaconPortDown (port : Nat)
  /-- BEACON_PORT_RETRY (R511). A down Beacon port retries training every 100 ms and sends READY when up. -/
  | beaconPortRetry (port : Nat) (trained : Bool)
  /-- BEACON_PORT_TRAINED (R453). A Beacon port finishes training and sends READY for itself. -/
  | beaconPortTrained (port : Nat)
  /-- NOP (R184). Control instruction that does nothing for one cycle. -/
  | nop (cove : Nat)
  /-- HALT (R184). Waits for every issued instruction and then puts the Cove in HALTED. -/
  | halt (cove : Nat)
  /-- BR (R184). Branches to TARGET when its guard allows. -/
  | br (cove : Nat)
  /-- LOOP (R185). Runs the body up to END the counted number of times. -/
  | loop (cove : Nat)
  /-- SLI (R184). Loads a 64-bit immediate into a scalar register. -/
  | sli (cove : Nat)
  /-- SOP (R184). Performs a scalar ALU operation selected by FN. -/
  | sop (cove : Nat)
  /-- SCMP (R184). Compares scalars and writes a predicate, optionally ANDed with another. -/
  | scmp (cove : Nat)
  /-- SLD (R184). Loads an 8-byte word from the Tidepool into a scalar register. -/
  | sld (cove : Nat)
  /-- SST (R184). Stores a scalar register into an 8-byte Tidepool word. -/
  | sst (cove : Nat)
  /-- SGET (R184). Reads a Cove, device, clock, CONT, partition or cycle value into a scalar register. -/
  | sget (cove : Nat)
  /-- PROGRAM_RUNOFF (R178). The sequencer comes to issue at or beyond the loaded count and the program faults with RUNOFF. -/
  | programRunoff (cove : Nat)
  /-- WLOAD (R99). Fills one weight slot from plane images or tile records through the load port. -/
  | wload (cove : Nat)
  /-- WLOAD_FILL_DONE (R100). A fill ends its load time; the slot becomes READY, or EMPTY with ST_FORMAT_FAULT. -/
  | wloadFillDone (cove : Nat) (slot : Nat)
  /-- MACC (R105). Streams tokens through the passes of a parallel-mode slot into ACM rows. -/
  | macc (cove : Nat)
  /-- RIPPLE (R111). Streams INT4 or INT8 tokens digit by digit through a Ripple slot into ACM rows. -/
  | ripple (cove : Nat)
  /-- BINACC (R116). Streams BIN1 tokens through a binary slot into ACM rows. -/
  | binacc (cove : Nat)
  /-- PLANEX (R110). Converts a 64 x 32 operand into a TQ3 or TQ6 tile record in the Tidepool. -/
  | planex (cove : Nat)
  /-- ACLR (R130). Zeroes a range of ACM rows and stamps them with its domain and anchor. -/
  | aclr (cove : Nat)
  /-- ACVT (R131). Re-expresses ACM rows from one stamp to another with rounding. -/
  | acvt (cove : Nat)
  /-- AREAD (R133). Reads ACM rows or raw records out to the Tidepool in an element format and delivers statistics. -/
  | aread (cove : Nat)
  /-- VEW (R189). Performs an element-wise vector operation selected by OP. -/
  | vew (cove : Nat)
  /-- VFN (R189). Applies a vector function selected by OP to each element. -/
  | vfn (cove : Nat)
  /-- VRED (R190). Reduces groups of elements in a fixed pairwise tree. -/
  | vred (cove : Nat)
  /-- VCVT (R190). Converts, ternarises or shifts vector elements with measured block scales. -/
  | vcvt (cove : Nat)
  /-- VOPT (R190). Applies the optimiser moment and weight update to each element. -/
  | vopt (cove : Nat)
  /-- TMOV (R191). Copies bytes within the Cove's Tidepool. -/
  | tmov (cove : Nat)
  /-- TSTR (R191). Gathers strided elements of rows into a packed range. -/
  | tstr (cove : Nat)
  /-- TTRN (R210). Transposes blocks of 64 rows at byte or half-word grain. -/
  | ttrn (cove : Nat)
  /-- TPUT (R191). Writes bytes into an inbox of another Cove's Tidepool against credit. -/
  | tput (cove : Nat)
  /-- TGET (R191). Reads bytes from another Cove's Tidepool into the local Tidepool. -/
  | tget (cove : Nat)
  /-- RPUT (R221). Fills the next slot of a ring against a producer credit. -/
  | rput (cove : Nat)
  /-- RGET (R221). Consumes the head slot of a ring once it is FULL. -/
  | rget (cove : Nat)
  /-- DMAQ (R192). Queues descriptors from the Tidepool on the Cove's queue of the Bay DMA engine. -/
  | dmaq (cove : Nat)
  /-- DMAW (R192). Holds issue until every earlier DMAQ of the named tags has completed. -/
  | dmaw (cove : Nat)
  /-- CMM (R192). Runs a BF16 or FP8 matrix product on the Bay's shared CMU. -/
  | cmm (cove : Nat)
  /-- META_CHECK (R237). Validates sparse metadata and stamps the descriptor. -/
  | metaCheck (cove : Nat)
  /-- SPMATCH_LOAD (R255). Loads sorted keys into the index match table and holds it. -/
  | spmatchLoad (cove : Nat)
  /-- SPMATCH_PROBE (R256). Probes the match table and writes a record for each matching key. -/
  | spmatchProbe (cove : Nat)
  /-- SCATTER_ACCUM (R243). Applies indexed updates to BAB or HIA entries in the descriptor's stamp. -/
  | scatterAccum (cove : Nat)
  /-- SCATTER_FLUSH (R251). Writes BAB or HIA entries as raw values to the Tidepool, optionally clearing them. -/
  | scatterFlush (cove : Nat)
  /-- SCATTER_CLEAR (R244). Zeroes a BAB range or HIA space and writes its tag. -/
  | scatterClear (cove : Nat)
  /-- SCATTER_EXPAND (R241). Expands a stamped sparse operand to dense rows. -/
  | scatterExpand (cove : Nat)
  /-- PREDICT (R258). Turns neuron scores into a list of neurons to compute under the chosen mode. -/
  | predict (cove : Nat)
  /-- TALLY (R260). Counts flagged neurons whose computed output was nonzero. -/
  | tally (cove : Nat)
  /-- MERGE (R250). Applies spilled records back to the HIA. -/
  | merge (cove : Nat)
  /-- BAR (R194). Arrives at a Bay, Headland or partition barrier and holds issue until release. -/
  | bar (cove : Nat)
  /-- BAR_RELEASE (R194). After the K-th arrival and its latency, every waiting Cove is released and a new generation starts. -/
  | barRelease (scope : Nat) (idx : Nat) (bid : Nat)
  /-- WAIT (R194). Holds issue until earlier instructions of the named units have completed. -/
  | wait (cove : Nat)
  /-- TWAIT (R194). Holds issue until the Tide clock reaches a register value. -/
  | twait (cove : Nat)
  /-- UNIT_INSTR_COMPLETE (R181). A queued unit instruction completes, setting CONT state or faulting the program. -/
  | unitInstrComplete (cove : Nat) (queue : Nat)
  /-- RING_SLOT_FULL (R221). The last byte of a ring slot is written and the owner marks it FULL. -/
  | ringSlotFull (owner : Nat) (ring : Nat)
  /-- RING_CREDIT_RETURN (R221). An EMPTY mark returns one credit to the ring's producer. -/
  | ringCreditReturn (owner : Nat) (ring : Nat)
  /-- RING_WAIT_TIMEOUT (R222). A waiting RPUT or RGET reaches its ring timeout and completes with ST_RING_TIMEOUT. -/
  | ringWaitTimeout (cove : Nat)
  /-- GRANT_WORD_WRITE (R218). A local write to an inbox's grant word sets its grant. -/
  | grantWordWrite (cove : Nat) (inbox : Nat) (value : Nat)
  /-- GRANT_UPDATE_ARRIVE (R218). A new grant reaches the inbox's source and raises its available credit. -/
  | grantUpdateArrive (cove : Nat) (inbox : Nat)
  /-- TIDEPOOL_INGRESS (R226). A write, read request or reply arrives at a Tidepool through network ingress. -/
  | tidepoolIngress (acc : Ingress)
  /-- TP_ARB_SET (R201). Writing ARB of CV_TP_CTL selects native, HZ-1 or fixed time-slot arbitration. -/
  | tpArbSet (m : Msg)
  /-- TP_CACHE_RESIZE (R214). Writing CACHE of CV_TP_CTL resizes the cache portion, invalidating lines and zeroing bytes that move. -/
  | tpCacheResize (m : Msg)
  /-- TP_SLOTMAP_WRITE (R205). Checks and installs a fixed time-slot group map. -/
  | tpSlotmapWrite (m : Msg)
  /-- TP_INBOX_WRITE (R216). Enables or disables an inbox, setting its grant and the source's consumed count. -/
  | tpInboxWrite (m : Msg)
  /-- TP_RING_WRITE (R220). Enables or disables a ring, emptying its slots and giving the producer COUNT credits. -/
  | tpRingWrite (m : Msg)
  /-- SR_RESEED (R91). Writing RESEED sets all 64 generator states from the Cove seed. -/
  | srReseed (m : Msg)
  /-- SR_STATE_WRITE (R91). Writes generator states, rejecting zero, at the next instruction boundary. -/
  | srStateWrite (m : Msg)
  /-- ARR_CTL_WRITE (R119). Writes SKIP_EN, taking effect at the start of the next pass. -/
  | arrCtlWrite (m : Msg)
  /-- SEQ_SREG_WRITE (R197). Writes a scalar register, rejected while the Cove is RUN or SUSPENDED. -/
  | seqSregWrite (m : Msg)
  /-- SPILL_CFG_WRITE (R263). Writes a Cove's spill ring and HBM spill buffer words after checking them. -/
  | spillCfgWrite (m : Msg)
  /-- TABLE_HOLD_WRITE (R381). Sets or clears HOLD on a compression table slot, adding or removing a reference. -/
  | tableHoldWrite (m : Msg)
  /-- HBM_MAP_WRITE (R351). Changes the HBM interleave mode while no partition exists. -/
  | hbmMapWrite (m : Msg)
  /-- ALERT_CLEAR (R530). Writing 1 to a latched DV_ALERT bit clears it. -/
  | alertClear (m : Msg)
  /-- WATCH_SAMPLE_CLOSE (R151). A sample closes after its last delivery and is compared with the moving average. -/
  | watchSampleClose (part : Nat) (slot : Nat)
  /-- REPLAY_DRAINED (R160). After the span's programs stop and drain, scales are rewritten, generators restored and the log reissued. -/
  | replayDrained (part : Nat) (span : Nat)
  /-- DMA_COPY (R373). A COPY descriptor starts and moves strided runs between global addresses. -/
  | dmaCopy (bay : Nat) (queue : Nat)
  /-- DMA_GATHER (R373). A GATHER descriptor starts and copies a list of ranges back to back. -/
  | dmaGather (bay : Nat) (queue : Nat)
  /-- DMA_COMPRESS (R379). A descriptor with COMPRESS codes its bytes into frames with its bound table. -/
  | dmaCompress (bay : Nat) (queue : Nat)
  /-- DMA_EXPAND (R380). A descriptor with EXPAND checks frame headers and decodes a compressed stream. -/
  | dmaExpand (bay : Nat) (queue : Nat)
  /-- DMA_BUILD (R384). A COMPRESS descriptor with BUILD first builds a table from its own source. -/
  | dmaBuild (bay : Nat) (queue : Nat)
  /-- DMA_DESCRIPTOR_COMPLETE (R370). A descriptor completes and writes status, detail and PROGRESS. -/
  | dmaDescriptorComplete (bay : Nat) (serial : Nat)
  /-- SPILL_HALF_COPY (R248). A full half of a spill ring is copied by the DMA engine to the HBM spill buffer. -/
  | spillHalfCopy (cove : Nat)
  /-- SPILL_HALF_COPY_DONE (R248). The copy of a spill ring half ends, raising HUSED and freeing the half. -/
  | spillHalfCopyDone (cove : Nat)
  /-- KV_APPEND (R274). Writes tokens into a sequence's pages, opening or copying pages as needed. -/
  | kvAppend (bay : Nat) (queue : Nat)
  /-- KV_GATHER (R280). Copies the live pages of a range, with bias, scale and map outputs, into the Tidepool. -/
  | kvGather (bay : Nat) (queue : Nat)
  /-- KV_FOLD (R282). Adds attention masses into page scores or speculation shadows. -/
  | kvFold (bay : Nat) (queue : Nat)
  /-- KV_COMMIT (R284). Commits accepted tokens and closes the epoch, as CMD_SPEC_COMMIT. -/
  | kvCommit (bay : Nat) (queue : Nat)
  /-- KV_SHARE (R287). Shares the first pages of every segment of a source sequence with a destination. -/
  | kvShare (bay : Nat) (queue : Nat)
  /-- EX_ROUTE (R300). Selects experts, applies capacity, forms gate weights and writes route records and counts. -/
  | exRoute (bay : Nat) (queue : Nat)
  /-- EX_PACK_FORWARD (R306). Packs tokens' rows into one segment per exchange member by expert. -/
  | exPackForward (bay : Nat) (queue : Nat)
  /-- EX_PACK_RETURN (R307). Packs expert output rows into one segment per source device. -/
  | exPackReturn (bay : Nat) (queue : Nat)
  /-- EX_COLLATE (R311). Builds contiguous expert blocks and the group table from received segments. -/
  | exCollate (bay : Nat) (queue : Nat)
  /-- EX_GROUP (R313). Walks the group table into work records for the issuing Cove. -/
  | exGroup (bay : Nat) (queue : Nat)
  /-- EX_COMBINE (R317). Adds returned rows times gate weight exactly into BAB entries. -/
  | exCombine (bay : Nat) (queue : Nat)
  /-- HBM_ACCESS (R352). A memory controller serves a read or write of 64-byte units, with encryption and check bits. -/
  | hbmAccess (acc : HbmAccess)
  /-- HBM_PARITY_ERROR (R359). The stack reports a parity error and the controller reissues the command, up to four times. -/
  | hbmParityError (stack : Nat) (acc : HbmAccess) (retries : Nat)
  /-- HBM_REFRESH (R356). The controller refreshes banks at the standard's interval, halved when hot. -/
  | hbmRefresh (stack : Nat) (bank : Nat)
  /-- HBM_RFM_REQUEST (R356). The stack requests refresh management and the controller issues it. -/
  | hbmRfmRequest (stack : Nat) (bank : Nat)
  /-- HBM_TEMP_READOUT (R353). Every 1 ms the stack temperature is read into MC_STAT. -/
  | hbmTempReadout (stack : Nat) (temp : Nat)
  /-- HBM_STACK_TRAINED (R354). A stack finishes training and lane repair and sends READY. -/
  | hbmStackTrained (stack : Nat) (failed : Bool) (laneFails : List Nat)
  /-- HEADLAND_SELFTEST_DONE (R455). A Headland's self-test ends and READY reports PASS, PASS_WITH_FAULTS or FAIL. -/
  | headlandSelftestDone (headland : Nat) (failed : List Nat) (unmasked : Bool)
  /-- LINK_SIGNAL_DETECT (R400). Signal on all nine lanes of an enabled link starts training. -/
  | linkSignalDetect (link : Nat)
  /-- LINK_TRAINING_DONE (R400). Training reaches CHECKING and the identity exchange begins. -/
  | linkTrainingDone (link : Nat)
  /-- LINK_TRAINING_TIMEOUT (R400). A link not in CHECKING after 150 ms returns to DOWN and retries. -/
  | linkTrainingTimeout (link : Nat)
  /-- LINKCTL_IDENTITY_RX (R402). The peer's identity arrives and the cabling check sets ACTIVE, FENCED or QUARANTINED. -/
  | linkctlIdentityRx (link : Nat) (serial : Nat) (devid : Nat) (port : Nat) (slice : Nat)
  /-- LINKCTL_NAK_RX (R394). A NAK makes the sender resend from the named flit sequence. -/
  | linkctlNakRx (link : Nat) (fseq : Nat)
  /-- LINKCTL_FENCE_RX (R403). A fence message from the peer fences this end of the link. -/
  | linkctlFenceRx (link : Nat)
  /-- LINKCTL_LANE_MSG_RX (R397). A sparing or width message from the peer switches lanes or width. -/
  | linkctlLaneMsgRx (link : Nat) (kind : Nat) (arg : Nat)
  /-- LINK_FLIT_RX (R394). A flit arrives and is checked for CRC and order, taking ACK and credits and accepting DATA. -/
  | linkFlitRx (link : Nat) (flit : List Byte)
  /-- LINK_REPLAY_TIMEOUT (R394). No ACK progress for 2 µs; the sender resends from its oldest unacknowledged flit. -/
  | linkReplayTimeout (link : Nat)
  /-- LINK_LANE_SIGNAL_LOSS (R397). A link lane loses signal and fails. -/
  | linkLaneSignalLoss (link : Nat) (lane : Nat)
  /-- LANE_SER_EXCEEDED (R397). A lane's corrected symbols exceed 2^SER_LIM in one millisecond and it fails. -/
  | laneSerExceeded (link : Nat) (lane : Nat)
  /-- PKT_TRANSIT (R407). A packet for another device is forwarded by dimension order, or discarded with a notice at a dead face. -/
  | pktTransit (p : Pkt)
  /-- PKT_WRITE_RX (R406). A WRITE packet for this device is checked and applied, and a WRITE_ACK returned. -/
  | pktWriteRx (p : Pkt)
  /-- PKT_READ_RX (R406). A READ packet for this device is checked and answered with READ_DATA. -/
  | pktReadRx (p : Pkt)
  /-- PKT_READ_DATA_RX (R406). READ_DATA for a request of this device arrives and completes its read. -/
  | pktReadDataRx (p : Pkt)
  /-- PKT_WRITE_ACK_RX (R406). A WRITE_ACK for a request of this device arrives and completes its write. -/
  | pktWriteAckRx (p : Pkt)
  /-- PKT_NOTICE_RX (R411). A NOTICE arrives and the origin resends on the alternate or completes the access. -/
  | pktNoticeRx (p : Pkt)
  /-- REMOTE_REQUEST_TIMEOUT (R411). A remote request without reply or notice within TIMEOUT completes with ST_ROUTE_LOST. -/
  | remoteRequestTimeout (tag : Nat)
  /-- FACE_STATE_RX (R413). The Harbourmaster receives a neighbour's report of its face toward a device. -/
  | faceStateRx (p : Pkt)
  /-- MISSING_TIMER (R413). Every face to a device has been dark for 1 ms and the Harbourmaster marks it missing. -/
  | missingTimer (device : Nat)
  /-- MISSING_MARK_RX (R413). A member sets or clears a device's DV_MISSING bit and sends DEVICE_MISSING. -/
  | missingMarkRx (link : Nat) (p : Pkt)
  /-- COLL_POST_WORD_WRITE (R424). A participant's post word write posts operations the engine reads and copies. -/
  | collPostWordWrite (channel : Nat) (part : Nat) (value : Nat)
  /-- COLL_DATA_RX (R438). A COLL_DATA chunk arrives, is added or written once and acknowledged. -/
  | collDataRx (p : Pkt)
  /-- COLL_ACK_RX (R438). A COLL_ACK releases the sender's copy of a chunk. -/
  | collAckRx (p : Pkt)
  /-- COLL_CREDIT_RX (R423). A COLL_CREDIT grants chunks that a member may send as partials. -/
  | collCreditRx (p : Pkt)
  /-- COLL_SIZE_RX (R429). A segment size for an ALL_TO_ALLV arrives; with all sizes the receiver accepts or refuses. -/
  | collSizeRx (p : Pkt)
  /-- COLL_GO_RX (R429). A COLL_GO gives a sender its segment's offset or a refusal. -/
  | collGoRx (p : Pkt)
  /-- COLL_FAIL_RX (R439). A COLL_FAIL fails the running operation with its status and puts the channel in FAILED. -/
  | collFailRx (p : Pkt)
  /-- COLL_ARRIVE_RX (R428). A COLL_ARRIVE of a barrier or empty operation is counted toward completion. -/
  | collArriveRx (p : Pkt)
  /-- COLL_RESEND_TIMEOUT (R438). A COLL_DATA without COLL_ACK for 100 µs is resent. -/
  | collResendTimeout (channel : Nat)
  /-- COLL_OP_TIMEOUT (R439). An operation exceeds the channel's TIMEOUT and fails with ST_ROUTE_LOST. -/
  | collOpTimeout (channel : Nat)
  /-- TIDE_SYNC_SEND (R442). Every 65,536 ns the device sends TIDE_SYNC on one live link of every live face. -/
  | tideSyncSend
  /-- TIDE_SYNC_RX (R442). A TIDE_SYNC arrives and the device corrects its rate toward its parent. -/
  | tideSyncRx (link : Nat) (p : Pkt)
  /-- TIDE_HOLDOVER (R442). No sync for 1 ms puts the Tide clock in HOLDOVER. -/
  | tideHoldover
  /-- PPS_EDGE (R443). A pulse-per-second edge latches the Tide value into DV_TIDE_PPS. -/
  | ppsEdge
  /-- TREF_LOSS (R522). The 10 MHz reference is absent for 10 µs; the Tide rate follows SYSCLK and TREF_OK clears. -/
  | trefLoss
  /-- BARRIER_ARRIVE_RX (R444). The Harbourmaster counts an arrival and floods BARRIER_RELEASE when all have arrived. -/
  | barrierArriveRx (p : Pkt)
  /-- BARRIER_RELEASE_RX (R444). A release arrives and the waiting CMD_SLICE_BARRIER completes. -/
  | barrierReleaseRx (link : Nat) (p : Pkt)
  /-- MODE_PREPARE_RX (R447). A member stages the change in its units and sends MODE_ACK or a NACK. -/
  | modePrepareRx (link : Nat) (p : Pkt)
  /-- MODE_ACK_RX (R447). The Harbourmaster records an acknowledgement and, with the last, chooses E and floods MODE_COMMIT. -/
  | modeAckRx (p : Pkt)
  /-- MODE_COMMIT_RX (R447). A member records the commit epoch and returns COMMIT_ACK. -/
  | modeCommitRx (link : Nat) (p : Pkt)
  /-- COMMIT_ACK_RX (R447). The Harbourmaster stops resending MODE_COMMIT to that member. -/
  | commitAckRx (p : Pkt)
  /-- MODE_COMMIT_RESEND (R447). Every 100 µs MODE_COMMIT is resent to members that have not returned COMMIT_ACK. -/
  | modeCommitResend
  /-- MODE_ABORT_RX (R448). A member discards its staged change and sends MODE_ABORTED. -/
  | modeAbortRx (link : Nat) (p : Pkt)
  /-- MODE_ACK_TIMEOUT (R448). TIMEOUT passes before every member has acknowledged and the change aborts. -/
  | modeAckTimeout
  /-- MODE_IN_DOUBT (R449). An acknowledged member hearing neither commit nor abort enters IN_DOUBT. -/
  | modeInDoubt
  /-- MODE_EPOCH_SWITCH (R447). At epoch E every unit switches to the committed change and MODE_COMMITTED is sent. -/
  | modeEpochSwitch
  /-- STEP_BOUNDARY (R329). At a step boundary accounts refill, a pending plan swaps in, the split is chosen and the batch formed. -/
  | stepBoundary (part : Nat)
  /-- STEP_START_INSTANT (R329). Both pools' entries start at one Tide clock instant. -/
  | stepStartInstant (part : Nat)
  /-- STEP_POOLS_DONE (R332). The last Cove of both pools leaves RUN; exit records and results are checked. -/
  | stepPoolsDone (part : Nat)
  /-- ERR_MERGE_WINDOW_END (R502). At the end of each window one ERROR event carries merged records whose counts rose. -/
  | errMergeWindowEnd
  /-- LH_WATCHDOG_EXPIRY (R504). A Lighthouse core's 10 ms watchdog expires and the core restarts or is held stopped. -/
  | lhWatchdogExpiry (core : Nat)
  /-- LH_MEM_UE (R504). An uncorrectable word in a core's memory restarts or holds the core. -/
  | lhMemUe (core : Nat)
  /-- PWR_OK_ASSERT (R517). Assertion of PWR_OK starts a COLD reset and the boot ROM. -/
  | pwrOkAssert
  /-- PWR_OK_DEASSERT (R517). Deassertion of PWR_OK removes power from every island at once. -/
  | pwrOkDeassert
  /-- MRST_N_ASSERT (R519). MRST_N held low for 10 µs starts a DEVICE reset and holds the device in reset. -/
  | mrstNAssert
  /-- MRST_N_RELEASE (R519). The rising edge of MRST_N lets the device reach ROM and send RESET_DONE. -/
  | mrstNRelease
  /-- MAIN_INPUT_WARN (R518). The main input in a warning band for 1 ms latches MAIN_WARN. -/
  | mainInputWarn (mv : Nat)
  /-- MAIN_INPUT_FAULT (R518). The main input out of range for 1 ms puts the device in FATAL with code SUPPLY. -/
  | mainInputFault (mv : Nat)
  /-- MAIN_INPUT_COLLAPSE (R518). The main input below 36 V stops the power stages and the boot ROM enters FATAL. -/
  | mainInputCollapse (mv : Nat)
  /-- SYSCLK_LOSS (R521). SYSCLK stopped for 10 µs puts the device in FATAL. -/
  | sysclkLoss
  /-- LREF_LOSS (R521). A link reference lost for 10 µs takes every link of its I/O die DOWN. -/
  | lrefLoss (ref : Nat)
  /-- THROTTLE_STEP_DOWN (R528). Every 100 µs while a die's hottest sensor reads 100 °C or more, its Cove islands step down. -/
  | throttleStepDown (die : Nat) (temp : Nat)
  /-- THROTTLE_STEP_UP (R528). Every 1 ms while the sensor reads below 97 °C, the Cove islands step back up. -/
  | throttleStepUp (die : Nat) (temp : Nat)
  /-- THERMAL_TRIP (R507). A junction at 105 °C for 1 ms puts the device in FATAL. -/
  | thermalTrip (die : Nat) (temp : Nat)
  /-- XING_REOPEN (R476). Both sides of a closed crossing leave reset and a handshake reopens it. -/
  | xingReopen (kind : Nat) (idx : Nat)
  /-- SMB_ID (R524). SMBus block read of DV_ID. -/
  | smbId
  /-- SMB_SERIAL (R524). SMBus block read of DV_SERIAL. -/
  | smbSerial
  /-- SMB_STATUS (R524). SMBus read of device state, supply and port status. -/
  | smbStatus
  /-- SMB_TJ (R524). SMBus read of the hottest junction temperature. -/
  | smbTj
  /-- SMB_SUPPLY (R524). SMBus block read of supply voltage, current and auxiliary power. -/
  | smbSupply
  /-- SMB_ALERT_READ (R524). SMBus read of DV_ALERT. -/
  | smbAlertRead
  /-- SMB_ALERT_CLEAR (R524). SMBus write clearing latched DV_ALERT bits. -/
  | smbAlertClear (data : Nat)
  /-- SMB_ALERT_MASK (R524). SMBus write of the DV_ALERT mask bits. -/
  | smbAlertMask (data : Nat)
  /-- TAP_BYPASS (R525). Boundary-scan BYPASS instruction. -/
  | tapBypass
  /-- TAP_IDCODE (R525). Boundary-scan IDCODE instruction returning 0x10B3_354F. -/
  | tapIdcode
  /-- TAP_SAMPLE_PRELOAD (R525). Boundary-scan SAMPLE/PRELOAD instruction. -/
  | tapSamplePreload (pins : List Byte)
  /-- TAP_EXTEST (R525). Boundary-scan EXTEST, executed only while MRST_N is low. -/
  | tapExtest
  /-- TAP_EXTEST_PULSE (R525). IEEE 1149.6 EXTEST_PULSE on link lanes, only while MRST_N is low. -/
  | tapExtestPulse
  /-- TAP_EXTEST_TRAIN (R525). IEEE 1149.6 EXTEST_TRAIN on link lanes, only while MRST_N is low. -/
  | tapExtestTrain
  /-- COVE_SPARE_COPY_DONE (R508). The state copy to the new slot ends; the logical Cove is remapped, the old slot retired, the Bay resumes and the command completes with its stall. -/
  | coveSpareCopyDone (bay : Nat)
  /-- HBM_REPAIR_DONE (R361). Post-package repair of a row finishes; the bank is unblocked, held accesses resume and CMD_HBM_REPAIR completes. -/
  | hbmRepairDone (stack : Nat)
  /-- STACK_LANE_SPARE_DONE (R362). A stack lane switch finishes and accesses held on the channel resume. -/
  | stackLaneSpareDone (stack : Nat)
  /-- LINK_LANE_SWITCH_DONE (R397). A link lane switch or width change finishes and DATA flits resume on the link. -/
  | linkLaneSwitchDone (link : Nat)
  /-- INTAKE_RESUMED (R66). Nimtar resumes command intake after an activation, LIGHTHOUSE restart, core restart or core substitution, granting credits again and sending FW_ACTIVATED or completing the command. -/
  | intakeResumed
  /-- COVE_CLEARING_END (R225). The Tidepool and ACM clearing of a reset or lost Cove ends; the Cove may issue again and a COVE reset completes. -/
  | coveClearingEnd (cove : Nat)
  /-- CACHE_CHANGE_DONE (R214). A change of the cache portion finishes invalidating and zeroing, and the Cove may issue again. -/
  | cacheChangeDone (cove : Nat)
  /-- TWAIT_RELEASE (R194). The Tide clock, as the Cove sees it, reaches s_RA, and the held TWAIT releases issue 2 cycles later. -/
  | twaitRelease (cove : Nat)
  /-- LINKCTL_ACTIVE_REQUEST_RX (R403). The peer's LINKCTL request for ACTIVE arrives, and a FENCED link whose ends have both asked starts carrying traffic. -/
  | linkctlActiveRequestRx (link : Nat)
  /-- MAIN_INPUT_IN_RANGE (R454). The 48 V main input comes into range, setting MAIN_OK and letting the boot ROM accept CMD_FW_LOAD. -/
  | mainInputInRange (mv : Nat)
  /-- LREF_RETURN (R521). A lost link reference clock returns, LREF_OK sets and the links of its I/O die retrain. -/
  | lrefReturn (ref : Nat)
  /-- TREF_RETURN (R522). The 10 MHz reference returns on an EXTREF Harbourmaster, TREF_OK sets and the Tide rate locks to it again. -/
  | trefReturn
  /-- PPS_SEEN_EXPIRY (R530). 2 s pass with no pulse-per-second edge, and DV_BOARD.PPS_SEEN clears. -/
  | ppsSeenExpiry
  deriving DecidableEq, Repr

end Sys2Proof
end

