-- ==== Sys2Proof/Decode.lean ====
section
/-! DEFINITION. The rows of the opcode table give no bits (the commands are messages, events and packets, not words), so a word
spells no command. -/
namespace Sys2Proof

/-- The command that a word spells by the table's bits: no row gives any. -/
def decodeTableWord (_nbits _w : Nat) : Option Instr := none

end Sys2Proof
end

