-- ==== Sys2Proof/Config.lean ====
section
/-! DEFINITION. What one module fixes at manufacture (fuses, straps) and the free values: what the manual leaves
open. Every constant here is opaque: no proof can see a value, so a claim that uses one holds for every value. -/
namespace Sys2Proof.Config

/-- FREE VALUE (log entry 3). An unconstrained natural number; the first argument names the point of use, the second is
the state's own counter, so that each use draws a fresh value. -/
opaque freeNat : Nat → Nat → Nat
/-- FREE VALUE (log entry 3). An unconstrained byte string of a given length. -/
opaque freeBytes : Nat → Nat → Nat → List Byte
/-- FREE VALUE (log entry 6). What a byte of HBM reads as when its unit was written under another key than the one in
force (R364: "decrypts to unrelated bytes"): a function of the two keys, the address and the stored byte. -/
opaque garble : Nat → Nat → Nat → Byte → Byte
/-- The module serial fused in DV_SERIAL (R64). -/
opaque serial : Word
/-- The fused hash of the vendor firmware key, 32 bytes (R489). -/
opaque fusedKeyHash : List Byte
/-- The fused 96-byte identity seed (R491). -/
opaque fusedSeed : List Byte
/-- The factory repair map: physical slot of a logical Cove of a Bay (R453, R508). -/
opaque fusedSlot : Nat → Nat → Nat
/-- The factory repair map: physical slots of a Bay retired at delivery, as a 17-bit mask (R513). -/
opaque fusedRetired : Nat → Nat
/-- Post-package repairs left in a bank group of a stack at delivery (R513 MC_PPR): stack, pseudo-channel, bank group. -/
opaque fusedPpr : Nat → Nat → Nat → Nat
/-- Which bank group of a pseudo-channel a bank belongs to (R353 leaves the HBM3E bank grouping to the standard). -/
opaque bankGroup : Nat → Nat
/-- Spare lanes of an HBM channel at delivery: stack, channel (R506). -/
opaque fusedLaneSpares : Nat → Nat → Nat
/-- SMBus address straps (R530). -/
opaque smbStraps : Nat
/-- SLH-DSA-SHAKE-256s verification of FIPS 205 (R489): public key, message, signature. -/
opaque slhVerify : List Byte → List Byte → List Byte → Bool
/-- slh_keygen_internal of FIPS 205 from the fused seed (R491): the 64-byte public key. -/
opaque slhPublic : List Byte → List Byte
/-- The identity signature over the certificate (R492): seed, message. -/
opaque slhSignId : List Byte → List Byte → List Byte
/-- The attestation public key and signature of SLH-DSA-SHAKE-128f from a drawn key (R491, R494). -/
opaque attPublic : List Byte → List Byte
opaque attSign : List Byte → List Byte → List Byte
/-- ML-KEM-1024 of FIPS 203 (R482): encapsulation key of a drawn key, and decapsulation of a ciphertext. -/
opaque kemPublic : List Byte → List Byte
opaque kemDecap : List Byte → List Byte → List Byte
/-- AES key wrap of NIST SP 800-38F (R482): KEK and 72 wrapped bytes give the 64-byte key, or nothing. -/
opaque aesUnwrap : List Byte → List Byte → Option (List Byte)
/-- SHAKE256 of FIPS 202 (R482, R489, R493): message, output length in bytes. -/
opaque shake256 : List Byte → Nat → List Byte
/-- The bound W of the walk of R195 in Cove cycles, as a function of the walked programs and images (log entry 4: cycle
counts are timing, outside the model). -/
opaque walkBound : List (List IWord) → List Word → Nat → Nat
/-- VFN results (log entry 8): the choice among the binary32 values within the bound of R190. -/
opaque ulpChoice : Nat → Nat → Nat
/-- Decision of admission for a BOUNDED command whose promise the manual gives no computation for (log entry 9). -/
opaque admitBounded : Nat → Nat → Bool

end Sys2Proof.Config
end

