-- ==== Sys2Proof/Machine/Bits.lean ====
section
/-! DEFINITION. Bit fields, byte order, sign extension, checksums and sparse maps: the helpers every other file of the
machine is written with (R12, R37, R236, R390). -/
namespace Sys2Proof.Machine

/-- Bits [hi:lo] of a number, inclusive (R12). -/
def fld (x hi lo : Nat) : Nat := (x >>> lo) % 2 ^ (hi + 1 - lo)
/-- One bit of a number. -/
def tbit (x i : Nat) : Bool := (x >>> i) % 2 == 1
/-- A flag as a number. -/
def bnat (b : Bool) : Nat := if b then 1 else 0
/-- x with bits [hi:lo] replaced by v. -/
def setFld (x hi lo v : Nat) : Nat :=
  x - fld x hi lo * 2 ^ lo + (v % 2 ^ (hi + 1 - lo)) * 2 ^ lo
/-- Division rounded up. -/
def cdiv (a b : Nat) : Nat := (a + b - 1) / b
/-- Two's complement value of the low n bits. -/
def sx (n x : Nat) : Int := if tbit x (n - 1) then (x % 2 ^ n : Nat) - (2 ^ n : Nat) else ((x % 2 ^ n : Nat) : Int)
/-- The n-bit two's complement code of an integer. -/
def toTwos (n : Nat) (x : Int) : Nat := (x % (2 ^ n : Nat)).toNat
/-- The number a little-endian byte string spells. -/
def leNat : List Byte → Nat
  | [] => 0
  | b :: r => b.toNat + 256 * leNat r
/-- The little-endian spelling of a number in n bytes. -/
def leBytes : Nat → Nat → List Byte
  | 0, _ => []
  | n + 1, x => BitVec.ofNat 8 (x % 256) :: leBytes n (x / 256)
/-- n bytes of value zero. -/
def zeros (n : Nat) : List Byte := List.replicate n 0
/-- Bytes [off, off + n) of a string; bytes beyond its end read zero. -/
def bytesAt (b : List Byte) (off n : Nat) : List Byte :=
  let c := (b.drop off).take n
  c ++ zeros (n - c.length)
/-- The little-endian number of n bytes at an offset. -/
def leAt (b : List Byte) (off n : Nat) : Nat := leNat (bytesAt b off n)
/-- The bytes of b with v written at an offset. -/
def patch (b : List Byte) (off : Nat) (v : List Byte) : List Byte :=
  b.take off ++ v ++ b.drop (off + v.length)
/-- Exclusive or of naturals up to 64 bits and beyond, by their binary digits. -/
def nxor (a b : Nat) : Nat := Nat.xor a b

/-- One step of a reflected CRC over the low bit. -/
def crcBit (poly c : Nat) : Nat := if c % 2 == 1 then nxor (c / 2) poly else c / 2
/-- One byte into a reflected CRC-32. -/
def crcByte (poly c : Nat) (b : Byte) : Nat :=
  (List.range 8).foldl (fun c _ => crcBit poly c) (nxor c b.toNat)
/-- A reflected CRC-32 with initial value and final complement of all ones. -/
def crc32With (poly : Nat) (b : List Byte) : Nat :=
  nxor (b.foldl (crcByte poly) 0xFFFFFFFF) 0xFFFFFFFF
/-- The IEEE 802.3 CRC-32 of R37. -/
def crc32 (b : List Byte) : Nat := crc32With 0xEDB88320 b
/-- The CRC-32C (Castagnoli) of R236, R390 and R426. -/
def crc32c (b : List Byte) : Nat := crc32With 0x82F63B78 b

/-- The value of a sparse map at a key; an unlisted key reads as its default. -/
def sget {α : Type} (d : Nat → α) (m : List (Nat × α)) (k : Nat) : α :=
  match m with
  | [] => d k
  | (a, x) :: r => if a = k then x else sget d r k
/-- A sparse map with one key written: keys rise strictly and no entry equals its default. -/
def sset {α : Type} [DecidableEq α] (d : Nat → α) (m : List (Nat × α)) (k : Nat) (v : α) : List (Nat × α) :=
  match m with
  | [] => if v = d k then [] else [(k, v)]
  | (a, x) :: r =>
    if k < a then (if v = d k then (a, x) :: r else (k, v) :: (a, x) :: r)
    else if k = a then (if v = d k then r else (k, v) :: r)
    else (a, x) :: sset d r k v
/-- Several keys from one on, written in rising order. -/
def ssetRun {α : Type} [DecidableEq α] (d : Nat → α) (m : List (Nat × α)) (k : Nat) : List α → List (Nat × α)
  | [] => m
  | v :: r => ssetRun d (sset d m k v) (k + 1) r
/-- Keys [lo, hi) returned to their defaults. -/
def sclear {α : Type} (m : List (Nat × α)) (lo hi : Nat) : List (Nat × α) :=
  m.filter (fun p => p.1 < lo || hi ≤ p.1)
/-- A map with every value changed; entries that become their defaults are no longer listed. -/
def smap {α : Type} [DecidableEq α] (d : Nat → α) (f : Nat → α → α) (m : List (Nat × α)) : List (Nat × α) :=
  m.filterMap fun p => let v := f p.1 p.2; if v = d p.1 then none else some (p.1, v)
/-- Every key of the list lies above k. -/
def sabove {α : Type} (k : Nat) : List (Nat × α) → Bool
  | [] => true
  | (a, _) :: r => k < a && sabove k r
/-- The canonical form of a sparse map. -/
def swf {α : Type} [DecidableEq α] (d : Nat → α) : List (Nat × α) → Bool
  | [] => true
  | (a, x) :: r => (x != d a) && sabove a r && swf d r

/-- Position of the lowest set bit of a list of flags. -/
def firstIdx {α : Type} (p : α → Bool) : List α → Nat → Option Nat
  | [], _ => none
  | x :: r, i => if p x then some i else firstIdx p r (i + 1)
/-- The i-th element of a list, or a default. -/
def nth {α : Type} (l : List α) (i : Nat) (d : α) : α := (l[i]?).getD d
/-- A list with its i-th element replaced (unchanged when there is none). -/
def setNth {α : Type} (l : List α) (i : Nat) (v : α) : List α := l.set i v
/-- Do two byte ranges [a, a+n) and [b, b+m) share a byte? -/
def meets (a n b m : Nat) : Bool := a < b + m && b < a + n && 0 < n && 0 < m

end Sys2Proof.Machine
end

