-- ==== Sys2Proof/Machine/NumFmt.lean ====
section
/-! DEFINITION. Element formats, exact values, the three rounding modes, trit packing and the stochastic-rounding
generators (R68 to R92, R532 to R535). Every real value is an exact mantissa times a power of two. -/
namespace Sys2Proof.Machine

/-! ### Format codes (R68) -/

def fTRIT : Nat := 0x0
def fTQ3 : Nat := 0x1
def fTQ6 : Nat := 0x2
def fBIN1 : Nat := 0x3
def fINT2 : Nat := 0x4
def fINT4 : Nat := 0x5
def fINT8 : Nat := 0x6
def fE2M1 : Nat := 0x7
def fE2M3 : Nat := 0x8
def fE4M3 : Nat := 0x9
def fE5M2 : Nat := 0xA
def fBF16 : Nat := 0xB
def fFP32 : Nat := 0xC

/-- Bits of one element in memory, for formats that are not trit planes (R68, R69). -/
def elBits (f : Nat) : Nat :=
  if f = 3 then 1 else if f = 4 then 2 else if f = 5 || f = 7 then 4 else if f = 8 then 6
  else if f = 6 || f = 9 || f = 0xA then 8 else if f = 0xB then 16 else if f = 0xC then 32 else 0

/-- Is the code a two's complement integer format? -/
def isIntFmt (f : Nat) : Bool := f == 4 || f == 5 || f == 6
/-- Is the code a floating format? -/
def isFloatFmt (f : Nat) : Bool := 7 ≤ f && f ≤ 0xC
/-- Formats that travel with block scales in bursts (R78). -/
def isBurstFmt (f : Nat) : Bool := 3 ≤ f && f ≤ 0xA
/-- Bytes of n packed elements (R69). -/
def elBytes (f n : Nat) : Nat := cdiv (n * elBits f) 8

/-- The n b-bit elements packed in a number from the least significant bit up (R69). -/
def unpackNat (b : Nat) : Nat → Nat → List Nat
  | 0, _ => []
  | n + 1, x => (x % 2 ^ b) :: unpackNat b n (x / 2 ^ b)
/-- The n packed elements of a byte string (R69). -/
def unpackEls (f n : Nat) (b : List Byte) : List Nat := unpackNat (elBits f) n (leNat (bytesAt b 0 (elBytes f n)))
/-- b-bit codes packed into a number from the least significant bit up (R69). -/
def packNat (b : Nat) : List Nat → Nat
  | [] => 0
  | x :: r => x % 2 ^ b + 2 ^ b * packNat b r
/-- Codes packed into bytes (R69). -/
def packEls (f : Nat) (l : List Nat) : List Byte := leBytes (elBytes f l.length) (packNat (elBits f) l)

/-! ### Exact values -/

/-- A value of an element: a NaN, an infinity, or man times 2^ex exactly. -/
inductive Val where
  | nan
  | inf (neg : Bool)
  | fin (man : Int) (ex : Int)
  deriving DecidableEq, Repr

/-- The exact sum of two finite values. -/
def dyAdd (m1 e1 m2 e2 : Int) : Int × Int :=
  if e1 ≤ e2 then (m1 + m2 * 2 ^ (e2 - e1).toNat, e1) else (m1 * 2 ^ (e1 - e2).toNat + m2, e2)
/-- Comparison of two finite values: is m1 2^e1 less than m2 2^e2? -/
def dyLt (m1 e1 m2 e2 : Int) : Bool := (dyAdd m1 e1 (-m2) e2).1 < 0

/-- Floating layouts of R71: mantissa bits, exponent bits, bias, largest finite code, and whether the top exponent holds
infinities and NaNs as in binary32 (true), or only the all-ones code is a NaN (E4M3), or neither. -/
structure FloatFmt where
  mb : Nat
  eb : Nat
  bias : Nat
  maxCode : Nat
  ieee : Bool
  deriving DecidableEq, Repr

/-- The layout of a floating format (R71). -/
def floatFmt (f : Nat) : FloatFmt :=
  if f = 7 then ⟨1, 2, 1, 0x7, false⟩ else if f = 8 then ⟨3, 2, 1, 0x1F, false⟩
  else if f = 9 then ⟨3, 4, 7, 0x7E, false⟩ else if f = 0xA then ⟨2, 5, 15, 0x7B, true⟩
  else if f = 0xB then ⟨7, 8, 127, 0x7F7F, true⟩ else ⟨23, 8, 127, 0x7F7FFFFF, true⟩

/-- The value a floating code stands for (R71); negative zero is zero. -/
def floatVal (f code : Nat) : Val :=
  let p := floatFmt f
  let neg := tbit code (p.mb + p.eb)
  let e := (code / 2 ^ p.mb) % 2 ^ p.eb
  let m := code % 2 ^ p.mb
  if p.ieee && e == 2 ^ p.eb - 1 then (if m = 0 then .inf neg else .nan)
  else if f = 9 && code % 128 == 127 then .nan
  else
    let mag : Int := if e = 0 then (m : Int) else ((m + 2 ^ p.mb : Nat) : Int)
    .fin (if neg then -mag else mag) (((if e = 0 then 1 else e) : Int) - (p.bias : Int) - (p.mb : Int))

/-- The value of an element before any block scale (R70, R71). -/
def elVal (f code : Nat) : Val :=
  if f = 3 then .fin (if code % 2 = 0 then 1 else -1) 0
  else if isIntFmt f then .fin (sx (elBits f) code) 0
  else floatVal f code

/-- The integer the array takes for an element (R80): the value itself, 2x for E2M1, 8x for E2M3. -/
def intImage (f code : Nat) : Int :=
  match elVal f code with
  | .fin m e => if f = 7 then m * 2 ^ (e + 1).toNat else if f = 8 then m * 2 ^ (e + 3).toNat else m
  | _ => 0
/-- What R80 takes from the block exponent: 127, 128 for E2M1, 130 for E2M3. -/
def effBias (f : Nat) : Int := if f = 7 then 128 else if f = 8 then 130 else 127
/-- A value times a power of two. -/
def scaleVal (v : Val) (x : Int) : Val :=
  match v with
  | .fin m e => .fin m (e + x)
  | w => w

/-! ### Rounding (R86, R87) -/

/-- Rounding modes: 0 RNE, 1 RTZ, 2 SR (R86). -/
def rNE : Nat := 0
def rTZ : Nat := 1
def rSR : Nat := 2

/-- The magnitude num/den times 2^e as a whole number of grid steps 2^g, under a mode and one draw (R86, R87). -/
def roundMag (mode draw num den : Nat) (e g : Int) : Nat :=
  let n := if g ≤ e then num * 2 ^ (e - g).toNat else num
  let d := if g ≤ e then den else den * 2 ^ (g - e).toNat
  let q := n / d
  let r := n % d
  if mode = 0 then (if d < 2 * r || (2 * r == d && q % 2 == 1) then q + 1 else q)
  else if mode = 2 then (if 2 ^ 32 ≤ r * 2 ^ 32 / d + draw then q + 1 else q)
  else q

/-- floor(log2(num/den)) for positive num and den. -/
def ratLog (num den : Nat) : Int :=
  let k : Int := (Nat.log2 num : Int) - (Nat.log2 den : Int)
  if 0 ≤ k then (if num < den * 2 ^ k.toNat then k - 1 else k)
  else (if num * 2 ^ (-k).toNat < den then k - 1 else k)

/-- The sign-and-magnitude rounding of an exact value to the integer lattice after a shift (R86). -/
def roundInt (mode draw : Nat) (m e : Int) : Int :=
  let q : Int := roundMag mode draw m.natAbs 1 e 0
  if m < 0 then -q else q

/-- Rounding of sign, num/den times 2^e to a floating format: the code and whether it saturated (R84, R86, R533). -/
def roundFloatRat (f mode draw : Nat) (neg : Bool) (num den : Nat) (e : Int) : Nat × Bool :=
  if num = 0 then (0, false) else
  let p := floatFmt f
  let gmin : Int := 1 - (p.bias : Int) - (p.mb : Int)
  let g := max (ratLog num den + e - (p.mb : Int)) gmin
  let q := roundMag mode draw num den e g
  let code := q + (g - gmin).toNat * 2 ^ p.mb
  let sat := p.maxCode < code
  let c := if sat then p.maxCode else code
  (if c = 0 then 0 else c + (if neg then 2 ^ (p.mb + p.eb) else 0), sat)

/-- Rounding of an exact finite value to a floating format. -/
def roundFloat (f mode draw : Nat) (m e : Int) : Nat × Bool :=
  roundFloatRat f mode draw (m < 0) m.natAbs 1 e

/-- The sign bit of a floating format as a code. -/
def signCode (f : Nat) : Nat := let p := floatFmt f; 2 ^ (p.mb + p.eb)
/-- The infinity of a format that has one. -/
def infCode (f : Nat) (neg : Bool) : Nat :=
  let p := floatFmt f
  (2 ^ p.eb - 1) * 2 ^ p.mb + (if neg then signCode f else 0)
/-- The NaN a conversion writes (R532, R84): the positive quiet NaN of BF16 and FP32, all ones in E4M3 and E5M2. -/
def nanCode (f : Nat) : Nat :=
  if f = 0xC then 0x7FC00000 else if f = 0xB then 0x7FC0 else 0xFF

/-- A value written in a floating format: the code and whether it saturated (R84, R532, R533, R535). An infinity becomes
the NaN of E4M3, stays where the format holds it; formats with neither are the caller's NONFINITE fault. -/
def valToFloat (f mode draw : Nat) : Val → Nat × Bool
  | .nan => (nanCode f, false)
  | .inf neg => if f = 9 then (0xFF, false) else (infCode f neg, false)
  | .fin m e => roundFloat f mode draw m e

/-- Can a format hold a NaN or an infinity in some way, so that a nonfinite source is no NONFINITE fault (R81, R535)? -/
def holdsNonfinite (f : Nat) : Bool := f == 9 || f == 0xA || f == 0xB || f == 0xC

/-- FP32 code of a value, round to nearest. -/
def toFP32 (v : Val) : Nat := (valToFloat 0xC 0 0 v).1
/-- The value of an FP32 code. -/
def fp32 (c : Nat) : Val := floatVal 0xC c
/-- Is the FP32 code finite (R72)? -/
def fp32Finite (c : Nat) : Bool := (c / 2 ^ 23) % 256 != 255

/-- Largest and least of an integer format (R70). -/
def intMax (f : Nat) : Int := 2 ^ (elBits f - 1) - 1
def intMin (f : Nat) : Int := - (2 ^ (elBits f - 1) : Int)
/-- An integer saturated to an integer format: the code and whether it saturated (R84). -/
def satInt (f : Nat) (x : Int) : Nat × Bool :=
  if intMax f < x then (toTwos (elBits f) (intMax f), true)
  else if x < intMin f then (toTwos (elBits f) (intMin f), true)
  else (toTwos (elBits f) x, false)

/-! ### Trits and planes (R73 to R76) -/

/-- The digit t + 1 of a trit. -/
def tritDigit (t : Int) : Nat := (t + 1).toNat
/-- The five trits of a T5 byte (R73). -/
def t5Trits (b : Nat) : List Int := (List.range 5).map fun i => ((b / 3 ^ i % 3 : Nat) : Int) - 1
/-- Is the byte a T5 format fault (R73)? -/
def t5Bad (b : Byte) : Bool := 243 ≤ b.toNat
/-- The first n trits of a T5 run; bytes beyond the string read as trit 0 with digit 1 absent, so callers give enough. -/
def t5Unpack (n : Nat) (b : List Byte) : List Int := (b.flatMap fun x => t5Trits x.toNat).take n
/-- Five trits, or fewer followed by padding digits 1, as one byte (R73). -/
def t5Byte (l : List Int) : Nat :=
  (List.range 5).foldl (fun a i => a + (match l[i]? with | some t => tritDigit t | none => 1) * 3 ^ i) 0
/-- Bytes of a T5 run of n trits. -/
def t5Len (n : Nat) : Nat := cdiv n 5
/-- Trits packed in T5 (R73). -/
def t5Pack (l : List Int) : List Byte :=
  (List.range (t5Len l.length)).map fun i => BitVec.ofNat 8 (t5Byte ((l.drop (5 * i)).take 5))
/-- n trits of a T2 run: mask plane, then sign plane (R74). -/
def t2Unpack (n : Nat) (b : List Byte) : List Int :=
  let h := cdiv n 8
  let mask := leNat (bytesAt b 0 h)
  let sign := leNat (bytesAt b h h)
  (List.range n).map fun i => if tbit mask i then (if tbit sign i then -1 else 1) else 0
/-- Trits packed in T2 (R74). -/
def t2Pack (l : List Int) : List Byte :=
  let h := cdiv l.length 8
  leBytes h (packNat 1 (l.map fun t => if t = 0 then 0 else 1)) ++
  leBytes h (packNat 1 (l.map fun t => if t < 0 then 1 else 0))

/-- The balanced-ternary digits of an integer, k of them, lowest first (R76). -/
def btDigits : Nat → Int → List Int
  | 0, _ => []
  | k + 1, x =>
    let d : Int := (x + 1) % 3 - 1
    d :: btDigits k ((x - d) / 3)
/-- The integer that balanced-ternary digits spell (R76). -/
def btVal : List Int → Int
  | [] => 0
  | d :: r => d + 3 * btVal r

/-! ### Scaled bursts (R78) -/

/-- Bytes of the burst of one 32-element block (R78). -/
def burstBytes (f : Nat) : Nat :=
  if f = 3 then 8 else if f = 4 then 16 else if f = 5 || f = 7 || f = 8 then 32 else 64
/-- Offset of the block scale in a burst (R78): the bytes of 32 elements. -/
def burstScaleOff (f : Nat) : Nat := elBytes f 32

/-! ### Generators (R88 to R90) -/

/-- One step of the Galois register (R88). -/
def lfsrStep (x : Nat) : Nat := if x % 2 == 1 then nxor (x / 2) 0x80200003 else x / 2
/-- k steps. -/
def lfsrRun : Nat → Nat → Nat
  | 0, x => x
  | k + 1, x => lfsrRun k (lfsrStep x)
/-- The state after a draw (R88). -/
def drawNext (s : Nat) : Nat := lfsrRun 32 s
/-- The whitened value of a state (R88). -/
def whiten (s : Nat) : Nat :=
  let x := nxor s (s / 2 ^ 16)
  let x := x * 0x2C1B3C6D % 2 ^ 32
  nxor x (x / 2 ^ 15)
/-- The value a draw from state s returns (R88). -/
def drawVal (s : Nat) : Nat := whiten (drawNext s)
/-- lane_seed (R89). -/
def laneSeed (seed g : Nat) : Nat :=
  let m := 2 ^ 64
  let z := (seed + (g + 1) * 0x9E3779B97F4A7C15) % m
  let z := nxor z (z / 2 ^ 30) * 0xBF58476D1CE4E5B9 % m
  let z := nxor z (z / 2 ^ 27) * 0x94D049BB133111EB % m
  let z := nxor z (z / 2 ^ 31)
  let s := nxor z (z / 2 ^ 32) % 2 ^ 32
  if s = 0 then 1 else s

/-- Generator states, 64 of them, as element j of an instruction under SR uses them (R90): the draw of element j and the
states after it. With another rounding mode no draw is consumed. -/
def drawAt (mode : Nat) (gens : List Nat) (j : Nat) : Nat × List Nat :=
  if mode = 2 then
    let s := nth gens (j % 64) 1
    (drawVal s, setNth gens (j % 64) (drawNext s))
  else (0, gens)

/-! ### Block scales and the block-integer conversion (R72, R85) -/

/-- The exponent an element has for R85 and R136: floor(log2 |x|) for a normal of its format, the minimum normal exponent
for a subnormal; nothing for zero and nonfinite elements. -/
def elExponent (f : Nat) (v : Val) : Option Int :=
  match v with
  | .fin m e =>
    if m = 0 then none else
    let p := floatFmt f
    some (max ((Nat.log2 m.natAbs : Int) + e) (1 - (p.bias : Int)))
  | _ => none
/-- The largest of a list of exponents. -/
def maxExp : List (Option Int) → Option Int
  | [] => none
  | none :: r => maxExp r
  | some x :: r => match maxExp r with | none => some x | some y => some (max x y)

/-- One block of R85: elements as values of format f, the input scale, and the draw of each element. The result is the 32
codes of INT8, the output scale as an integer before its range check, and the count of saturations. -/
def blockInt (f mode : Nat) (els : List Val) (ein : Int) (draws : List Nat) : List Nat × Int × Nat :=
  match maxExp (els.map (elExponent f)) with
  | none => (els.map fun _ => 0, ein, 0)
  | some emax =>
    let x := emax - 6
    let q := (els.zip draws).map fun p =>
      match p.1 with
      | .fin m e => roundInt mode p.2 m (e - x)
      | _ => 0
    let c := q.map fun v => if 127 < v then ((127 : Nat), 1) else if v < -127 then (toTwos 8 (-127), 1) else (toTwos 8 v, 0)
    (c.map Prod.fst, ein + x, c.foldl (fun a p => a + p.2) 0)

end Sys2Proof.Machine
end

