-- ==== Sys2Proof/Machine/State.lean ====
section
/-! DEFINITION. The state of the block: everything the manual gives the HZ-3T, as plain data. Maps are sparse: a list of
(key, value) pairs with rising keys and no entry equal to what an unlisted key reads as. -/
namespace Sys2Proof.Machine

/-- The block has no stop of its own: every condition of the manual ends in a status, an event or a device state. The one
fault is raised by the meanings of commands whose operands name a unit that the device does not have (a Cove number of
4,096, a link number of 24), or whose message or packet is of another row's kind: such a command is ill-formed
(WellFormed.lean) and no event of this hardware (DESIGN CHOICE, log entry 68). Safe: the model stops where the hardware has
nothing to do. -/
inductive Fault where
  | noSuchUnit
  deriving DecidableEq, Repr

/-- No meaning given yet, raised by exec's arm for the row of that mnemonic. Safe: the model stops. -/
inductive Refusal where
  | notModelled (mnemonic : String)
  deriving DecidableEq, Repr

/-! ### Coves -/

/-- One weight slot of the array (R98): state 0 EMPTY, 1 LOADING, 2 READY; the planes by depth, 2,048 trits each at index
c × 64 + r; the stationary effective exponents of (column c, block b) at c × 2 + b (R97); fmt is the stationary format a
FMT_B must name (R186); bad is the detail of the format fault a fill has found (R100). -/
structure Slot where
  st : Nat := 0
  layout : Nat := 0
  n : Nat := 0
  zero : Nat := 0
  fmt : Nat := 0
  planes : List (List Int) := []
  exps : List Int := []
  bad : Option Nat := none
  deriving DecidableEq, Repr

/-- The tag of one physical ACM row (R121, R123): domain 0 INT64, 1 EXACT128. -/
structure RowTag where
  dom : Nat := 0
  anchor : Nat := 0x80
  inexact : Bool := false
  inf : Bool := false
  deriving DecidableEq, Repr

/-- The statistics of the last AREAD (R140, R146). -/
structure AcmStats where
  ssq : Nat := 0
  max : Nat := 0
  l : Int := 0
  c : Nat := 0
  elements : Nat := 0
  infSeen : Bool := false
  inexactSeen : Bool := false
  deriving DecidableEq, Repr

/-- How an instruction completes: status, detail and the Rows value of R170. -/
structure Done where
  st : Nat := 0
  det : Nat := 0
  rows : Nat := 0
  deriving DecidableEq, Repr

/-- An issued, uncompleted unit instruction (R177): its place in program order, its index, its queue (0 load, 1 stream,
2 ACM, 3 vector, 4 movement, 5 ring, 6 DMA and CMU, 7 sparse), the instruction word, the scalar registers as it read
them at issue (R176), the local Tidepool extents of R179, and its outcome once its work is done. For a DMAQ: the descriptors
accepted by the engine, how many of those have completed, and the first failing one in order as (index, status, detail). -/
structure Entry where
  serial : Nat
  index : Nat
  queue : Nat
  word : Nat
  regs : List (Nat × Nat)
  rd : List (Nat × Nat)
  wr : List (Nat × Nat)
  started : Bool := false
  done : Option Done := none
  fed : Nat := 0
  ended : Nat := 0
  bad : Option (Nat × Nat × Nat) := none
  deriving DecidableEq, Repr

/-- What holds issue in the sequencer (R194): nothing, a barrier arrival, or TWAIT until a Tide value. -/
inductive SeqHold where
  | none
  | bar (scope idx bid : Nat)
  | twait (t : Nat)
  deriving DecidableEq, Repr

/-- A fault of a running program: the serial of its instruction, and what the exit record takes (R181). -/
structure SeqFault where
  serial : Nat
  st : Nat
  det : Nat
  index : Nat
  rows : Nat
  deriving DecidableEq, Repr

/-- The exit record of R170 beside its Cove number, with the Tide value at which the program ended (R196). -/
structure ExitRec where
  state : Nat := 0
  flags : Nat := 0
  st : Nat := 0
  det : Nat := 0
  index : Nat := 0
  rows : Nat := 0
  issued : Nat := 0
  tide : Nat := 0
  deriving DecidableEq, Repr

/-- The sequencer of a Cove (R165, R166): state 0 IDLE, 1 RUN, 2 SUSPENDED, 3 HALTED, 4 FAULTED, 5 STOPPED. stopping: 0 no,
1 a HALT waits for issued instructions, 2 a stop command, 3 a suspension. loops holds the active loop bodies, innermost
first, as (counter, first index, END). exit is the exit record; exitLost: the registers that show it are lost with the programs. -/
structure Seq where
  st : Nat := 0
  pc : Nat := 0
  count : Nat := 0
  prog : List (Nat × Nat) := []
  sregs : List (Nat × Nat) := []
  lregs : List (Nat × Nat) := []
  preds : Nat := 0
  cont : Nat := 0
  loops : List (Nat × Nat × Nat) := []
  inflight : List Entry := []
  nextSerial : Nat := 0
  issuedHere : Nat := 0
  stopping : Nat := 0
  hold : SeqHold := .none
  fault : Option SeqFault := none
  haltIndex : Nat := 0
  exitFlags : Nat := 0
  suspendedOnce : Bool := false
  exit : ExitRec := {}
  exitLost : Bool := false
  deriving DecidableEq, Repr

/-- An inbox of a Tidepool (R216): its configuration word, its grant, the bytes arrived. -/
structure Inbox where
  word : Nat := 0
  grant : Nat := 0
  arrived : Nat := 0
  deriving DecidableEq, Repr

/-- A ring of a Tidepool (R220): its two configuration words, HEAD, the slots marked FULL, the data on its way into slots
in the order sent (R221), and the EMPTY marks on their way to the producer. -/
structure Ring where
  word : Nat := 0
  timeout : Nat := 0
  head : Nat := 0
  full : List Nat := []
  landing : List (Nat × List Byte) := []
  returning : Nat := 0
  deriving DecidableEq, Repr

/-- An entry of a credit table (R216, R217): the inbox, the grant as the source knows it, the units consumed. -/
structure Cred where
  valid : Bool := false
  target : Nat := 0
  inbox : Nat := 0
  grant : Nat := 0
  consumed : Nat := 0
  deriving DecidableEq, Repr

/-- A producer entry (R220). -/
structure Prod where
  valid : Bool := false
  owner : Nat := 0
  ring : Nat := 0
  tail : Nat := 0
  credits : Nat := 0
  deriving DecidableEq, Repr

/-- A line of the cache portion (R211): its tag and its order of use. -/
structure Line where
  valid : Bool := false
  tag : Nat := 0
  use : Nat := 0
  deriving DecidableEq, Repr

/-- A spill ring (R248): RHEAD, RFILL, the half being copied. -/
structure Spill where
  rhead : Nat := 0
  rfill : Nat := 0
  copying : Bool := false
  deriving DecidableEq, Repr

/-- The state of one Cove beside its Tidepool bytes (in mem) and its plain registers (in cfg). -/
structure Cove where
  seq : Seq := {}
  slotA : Slot := {}
  slotB : Slot := {}
  acm : List (Nat × List Nat) := []
  tags : List (Nat × RowTag) := []
  pend : List (Nat × (Nat × Nat)) := []
  stats : AcmStats := {}
  gens : List (Nat × Nat) := []
  inboxes : List (Nat × Inbox) := []
  rings : List (Nat × Ring) := []
  creds : List (Nat × Cred) := []
  prods : List (Nat × Prod) := []
  lines : List (Nat × Line) := []
  lineClock : Nat := 0
  bankPtr : List (Nat × Nat) := []
  spill : Spill := {}
  clearing : Bool := false
  cacheChanging : Bool := false
  checkpoint : List Nat := []
  deriving DecidableEq, Repr

/-! ### Bays and Headlands -/

/-- The tag of a BAB segment or a HIA space (R244). -/
structure ScTag where
  valid : Bool := false
  dom : Nat := 0
  anchor : Nat := 0
  inexact : Bool := false
  inf : Bool := false
  deriving DecidableEq, Repr

/-- An occupied position of the HIA (R247). -/
structure HiaEnt where
  key : Nat
  space : Nat
  value : Nat
  deriving DecidableEq, Repr

/-- Where a DMA descriptor came from (R365): descriptor i of a DMAQ of a Cove at a Tidepool address, or descriptor i of a
CMD_DMA_SUBMIT of a context. -/
inductive DescOrigin where
  | cove (cove serial i addr tag : Nat)
  | cmd (ctx seq i : Nat)
  deriving DecidableEq, Repr

/-- A descriptor queued or running at a Bay's DMA engine (R365, R371). cove is the issuing Cove; bound the compression
slots it holds a reference to (R382); reading while it waits for remote reads; todo the writes that still wait for an earlier
remote one, as (global address, logical offset, bytes); pend the outcome they end with; out its outcome (status, detail or
field offset, PROGRESS) once its work is done. -/
structure Desc where
  serial : Nat
  queue : Nat
  raw : List Byte
  cove : Nat
  part : Nat
  origin : DescOrigin
  running : Bool := false
  bound : List Nat := []
  reading : Bool := false
  todo : List (Nat × Nat × List Byte) := []
  pend : Nat × Nat × Nat := (0, 0, 0)
  out : Option (Nat × Nat × Nat) := none
  deriving DecidableEq, Repr

/-- A shared engine of a Bay (R192, R252): the Cove it runs an instruction for, and the one granted last. -/
structure Engine where
  busy : Option Nat := none
  last : Nat := 15
  deriving DecidableEq, Repr

/-- The state of one Bay: its scatter unit, its CMU grant, its DMA engine and its repair (R242 to R261, R365, R508). -/
structure Bay where
  bab : List (Nat × Byte) := []
  babTags : List (Nat × ScTag) := []
  hia : List (Nat × Option HiaEnt) := []
  hiaTags : List (Nat × ScTag) := []
  matchKeys : List (Nat × Nat × Nat) := []
  matchHolder : Option Nat := none
  results : List (Nat × (Nat × Nat)) := []
  engines : List (Nat × Engine) := []
  descs : List Desc := []
  nextDesc : Nat := 0
  lastQueue : Nat := 16
  creds : List (Nat × Cred) := []
  coveMap : List (Nat × Nat) := []
  retired : Nat := 0
  sparing : Option (Nat × Nat × Nat × Nat) := none
  deriving DecidableEq, Repr

/-- A slot of a Headland's compression table store (R381): 0 FREE, 1 BUILDING, 2 CURRENT, 3 OLD. -/
structure TabSlot where
  st : Nat := 0
  table : Nat := 0
  gen : Nat := 0
  hold : Bool := false
  refs : Nat := 0
  lens : List Nat := []
  deriving DecidableEq, Repr

/-- A Headland: its table store and its self-test result (0 none yet, 1 PASS, 2 PASS_WITH_FAULTS, 3 FAIL) (R381, R455). -/
structure Headland where
  slots : List (Nat × TabSlot) := []
  ready : Nat := 0
  deriving DecidableEq, Repr

/-- A barrier of a scope (R194): K and the Coves arrived in the current generation; due once K have arrived, until the
release. -/
structure Barrier where
  k : Nat := 0
  arrived : List Nat := []
  due : Bool := false
  gen : Nat := 0
  deriving DecidableEq, Repr

/-! ### Watch slots and replay spans -/

/-- A watch slot (R149 to R153, R537). late holds deliveries that arrived after the last of a complete sample and before it
closes, as (span of the Cove, statistics): they begin the next sample (R149). -/
structure Watch where
  ctl : Nat := 0x0000000108101040
  policy : Nat := 0
  tsaddr : Nat := 0
  bsaddr : Nat := 0
  ema : Int := 0
  init : Bool := false
  warmLeft : Nat := 0
  lastN : Int := 0
  lastMax : Int := 0
  lastInd : Nat := 0
  lastResult : Nat := 0
  closed : Nat := 0
  surges : Nat := 0
  count : Nat := 0
  sumsq : Nat := 0
  maxlog : Int := -32768
  ind : Nat := 0
  span : Nat := 0xFF
  late : List (Nat × AcmStats) := []
  deriving DecidableEq, Repr

/-- A command in a span's log (R157, R159): the message with its data, the Tide value at its receipt, and the outcome
of its last execution. -/
structure LogCmd where
  m : Msg
  tide : Nat := 0
  done : Option (Nat × Nat × List Byte) := none
  deriving DecidableEq, Repr

/-- A replay span (R155 to R163). closing is the sequence of the CMD_SPAN_CLOSE that waits; phase: 0 open, 1 a replay
drains, 2 committed and copying; surging the slots whose surges join the next replay, each with its
MAXLOG and the payload of its SURGE event. -/
structure Span where
  opened : Bool := false
  ctx : Nat := 0
  first : Nat := 0
  count : Nat := 0
  cap : Nat := 0
  inputs : List (Nat × Nat) := []
  outputs : List (Nat × Nat × Nat) := []
  log : List LogCmd := []
  replays : Nat := 0
  closing : Option Nat := none
  phase : Nat := 0
  surging : List (Nat × Int × List Byte) := []
  capped : Bool := false
  deriving DecidableEq, Repr

/-! ### The host side -/

/-- A frame that the device keeps until it is acknowledged, or holds until its port returns (R37, R38, R41): type 1 MSG or
2 BULK, the context it serves, whether it is an event, its body. -/
structure Out where
  kind : Nat
  ctx : Nat
  event : Bool
  body : List Byte
  deriving DecidableEq, Repr

/-- One Beacon port (R36 to R41): sequences of the two directions, the transmit replay buffer as (sequence, frame), and
the bytes of receive credit the host still holds. -/
structure Port where
  up : Bool := false
  trained : Bool := false
  lanes : Nat := 0
  txNext : Nat := 0
  rxNext : Nat := 0
  txBuf : List (Nat × Out) := []
  credit : Nat := 4194304
  deriving DecidableEq, Repr

/-- A client context (R42, R49, R51 to R55): st 0 not open, 1 open, 2 closing; partition 0xFF for context 0; held the
outbound frames that wait for its home port. -/
structure Ctx where
  st : Nat := 0
  part : Nat := 0xFF
  depth : Nat := 0
  home : Nat := 0
  homeSet : Bool := false
  failover : Bool := false
  privs : Nat := 0
  series : Bool := false
  expect : Nat := 0
  replies : List (Nat × List Byte) := []
  held : List Out := []
  lost : Nat := 0
  lostFirst : Nat := 0
  lostLast : Nat := 0
  deriving DecidableEq, Repr

/-- An accepted, uncompleted command (R40, R48, R53): its message, the Tide value at receipt, the bulk bytes arrived,
whether it has started, and what a started command remembers for its later steps. -/
structure Cmd where
  m : Msg
  tide : Nat := 0
  got : List Byte := []
  started : Bool := false
  queued : Bool := false
  vars : List Nat := []
  bytes : List Byte := []
  deriving DecidableEq, Repr

/-- The host side: ports, contexts, uncompleted commands in order of arrival, the event series (R49), and the messages and
BULK bodies received while intake is stopped, with their ports (R66). -/
structure HostSide where
  portA : Port := {}
  portB : Port := {}
  ctxs : List (Nat × Ctx) := []
  cmds : List Cmd := []
  evSeq : Nat := 0
  intakeStopped : Bool := false
  intake : List (Nat × Option Msg × List Byte) := []
  deriving DecidableEq, Repr

/-! ### Partitions -/

/-- A partition (R478 to R488): state 0 NONE, 1 UNKEYED, 2 KEYED, 3 SCRUB_PENDING; Headlands and granules as bitmaps; its
XTS key; the kill in progress as (context, sequence) of its command; leaving the granules that stay with it, dissolved, until
their background zeroing ends (R485, R488); isReset whether a RESET of the partition waits and not a kill; pm its measurement (R493). -/
structure Part where
  st : Nat := 0
  hlmask : Nat := 0
  grans : Nat := 0
  key : List Byte := []
  dissolving : Bool := false
  killer : Option (Nat × Nat) := none
  leaving : Nat := 0
  isReset : Bool := false
  pm : List Byte := []
  slack : Bool := false
  deriving DecidableEq, Repr

/-! ### Memory controllers -/

/-- One HBM stack and its controller (R353 to R362, R385): ready 0 not yet, 1 PASS, 2 PASS_WITH_FAULTS, 3 FAIL; repaired
rows as (bank location, row); the bank blocked by a repair; the channel held by a lane switch. -/
structure Stack where
  ready : Nat := 0
  training : Bool := false
  selfref : Bool := false
  retrain : Bool := false
  temp : Nat := 0
  spared : Nat := 0
  lastUe : Nat := 0
  repairs : List (Nat × Nat) := []
  pprDone : Nat := 0
  hotRefresh : Bool := false
  bankBlocked : Option Nat := none
  channelHeld : Option Nat := none
  spareUsed : List (Nat × Nat) := []
  busyCmd : Option (Nat × Nat) := none
  deriving DecidableEq, Repr

/-! ### Errors -/

/-- An error record (R497). -/
structure ErrRec where
  index : Nat := 0
  cls : Nat := 0
  kind : Nat := 0
  code : Nat := 0
  path : Nat := 0
  first : Nat := 0
  last : Nat := 0
  addr : Nat := 0xFFFFFFFFFFFFFFFF
  count : Nat := 1
  part : Nat := 0xFF
  proposal : Nat := 0
  status : Nat := 0
  ctx : Nat := 0
  seq : Nat := 0
  detail : Nat := 0
  deriving DecidableEq, Repr

/-- The error log (R502, R503): the held records, oldest first; the next index; the indexes of merged records whose COUNT
rose in this window, with the count at its start. -/
structure ErrLog where
  recs : List ErrRec := []
  next : Nat := 0
  rose : List (Nat × Nat) := []
  deriving DecidableEq, Repr

/-! ### The device as a whole -/

/-- A firmware image that has passed verification (R489). -/
structure Image where
  version : Nat := 0
  meas : List Byte := []
  deriving DecidableEq, Repr

/-- Lifecycle, boot, firmware, identity, power (R453 to R477, R489 to R494, R507, R519): powered is PWR_OK; svc is set
once Nimtar runs; closed the crossings that are closed, as (class, index) (R476); power 0 ACTIVE or SLACK, 2 NEAP, 3 DORMANT; slack: the Coves of no
partition are in SLACK; changing 0 no, 1 a low-power entry, 2 a wake, 3 a DEVICE reset. -/
structure Dev where
  powered : Bool := true
  svc : Bool := false
  reachedSvc : Bool := false
  fatal : Bool := false
  mrstLow : Bool := false
  power : Nat := 0
  changing : Nat := 0
  target : Nat := 0
  changer : Option (Nat × Nat) := none
  lost : Nat := 0
  lostKind : Nat := 0
  closed : List (Nat × Nat) := []
  slack : Bool := false
  deriving DecidableEq, Repr

/-- Firmware and identity (R489 to R494, R509). -/
structure Firmware where
  running : Option Image := none
  loading : List Byte := []
  loader : Option (Nat × Nat) := none
  staged : Option Image := none
  activating : Option (Nat × Nat) := none
  fwTide : Nat := 0
  bootNonce : List Byte := []
  attKey : List Byte := []
  kemKey : List Byte := []
  bootMeas : List Byte := []
  bootVersion : Nat := 0
  cert : List Byte := []
  certReady : Bool := false
  idErased : Bool := false
  cfgMeas : List Byte := []
  deriving DecidableEq, Repr

/-- Lighthouse cores (R504, R510): the physical core of each logical core, retired and held cores, the Tide value of each
physical core's last restart, who waits for intake to resume. -/
structure Cores where
  map : List Nat := [0, 1, 2, 3, 4, 5, 6, 7]
  retired : Nat := 0
  stopped : Nat := 0
  lastRestart : List (Nat × Nat) := []
  sparing : Option (Nat × Nat) := none
  lhReset : Option (Nat × Nat) := none
  stallFrom : Nat := 0
  deriving DecidableEq, Repr

/-- Board signals and sensors (R515 to R530). lref, sysclk, tref: the clocks present; steps the throttle step of each
compute die; over whether the main input is out of range as R518 judges it; smb and tap the last response of each test or
management interface. -/
structure Board where
  mainMv : Nat := 0
  mainI : Nat := 0
  auxMw : Nat := 0
  mainOk : Bool := false
  alerts : Nat := 0
  trefOk : Bool := false
  ppsSeen : Bool := false
  lref0 : Bool := false
  lref1 : Bool := false
  sysclk : Bool := true
  tj : Int := 0
  dieTemp : List Int := [0, 0, 0, 0]
  steps : List Nat := [0, 0, 0, 0]
  smb : List Byte := []
  tapIr : Nat := 0
  tapDr : List Byte := []
  deriving DecidableEq, Repr

/-! ### Links and the slice -/

/-- One end of a link (R387 to R403, R418): state coded as R399; the spare lane or 0xF; lanes the physical lane of each logical
lane, four whether only half of them carry traffic and halfHigh which half; failed and dark physical lanes as bitmaps; switching
a lane switch in progress as (0, lane) or a width change as (1, half); what the peer reported, once it has; the
sequences of the two directions; credits held for each virtual channel; packets not yet sent whole, and the flits already
sent of the first one of each virtual channel; the flits that ACK does not yet cover as (FSEQ, place in the packet, flits of
the packet, packet) (R394); the parts of packets received, by virtual channel; the LINKCTL messages sent since the last flit of the
peer; who waits for this link and for what (0 to 3 the targets of R403, 4 a lane switch, 5 a LINK reset). -/
structure Link where
  st : Nat := 1
  enabled : Bool := true
  cause : Nat := 0
  spare : Nat := 0xF
  width : Nat := 0
  halfHigh : Bool := false
  four : Bool := false
  lanes : List Nat := []
  swapPeer : Nat := 0
  peerSerial : Nat := 0
  peerDev : Nat := 0
  peerPort : Nat := 0
  peerSlice : Nat := 0
  reported : Bool := false
  failed : Nat := 0
  darkLanes : Nat := 0
  switching : Option (Nat × Nat) := none
  txNext : Nat := 0
  rxNext : Nat := 0
  nakSent : Bool := false
  resends : Nat := 0
  credits : List (Nat × Nat) := []
  txq : List Pkt := []
  txPart : List (Nat × Nat) := []
  sent : List (Nat × Nat × Nat × Pkt) := []
  asm : List (Nat × List Byte) := []
  askedSelf : Bool := false
  askedPeer : Bool := false
  fencedPeer : Bool := false
  trainFails : Nat := 0
  ctlOut : List (List Byte) := []
  cmd : Option (Nat × Nat) := none
  cmdKind : Nat := 0
  deriving DecidableEq, Repr

/-- A window (R415, R416). -/
structure Window where
  opened : Bool := false
  base : Nat := 0
  len : Nat := 0
  peer : Nat := 0
  writes : Bool := false
  reads : Bool := false
  part : Nat := 0xFF
  deriving DecidableEq, Repr

/-- Who waits for a remote request: a command of a context, or a descriptor of a Bay (R411). -/
inductive Requester where
  | cmd (ctx seq : Nat)
  | desc (bay serial : Nat)
  | none
  deriving DecidableEq, Repr

/-- An outstanding remote request (R406, R411): the packet sent, who asked, the offset of its bytes in the requester's
transfer, and its status once answered. -/
structure Remote where
  pkt : Pkt
  who : Requester
  off : Nat := 0
  st : Option Nat := none
  data : List Byte := []
  deriving DecidableEq, Repr

/-- A cabling plan entry (R401). -/
structure PlanEnt where
  serial : Nat := 0
  peerId : Nat := 0
  port : Nat := 0
  fence : Bool := false
  unused : Bool := false
  slice : Nat := 0
  deriving DecidableEq, Repr

/-- The receive window of a face (R395): the lowest PSEQ not yet received, and the later ones marked. -/
structure FaceRx where
  low : Nat := 0
  marked : List Nat := []
  deriving DecidableEq, Repr

/-- The device's place in a slice (R404 to R416): fmode 0 STARTUP, 1 SERVICE, 2 TEST, 3 RECOVERY; route entries by
destination; destinations whose fallback flag is set; devices marked missing; the Harbourmaster's reports of faces that
lead to a device, by reporter × 8 + face, coded as faceCode; notices of this device's own collective packets not yet acted on, as (cause, packet). -/
structure Slice where
  joined : Bool := false
  devid : Nat := 0
  harbour : Bool := false
  extref : Bool := false
  sliceid : Nat := 0
  dims : Nat := 0
  hmid : Nat := 0
  fmode : Nat := 0
  plan : Option (List PlanEnt) := none
  routes : List (Nat × Nat) := []
  shadow : List (Nat × Nat) := []
  fallback : List Nat := []
  missing : List Nat := []
  darkFaces : List (Nat × Nat) := []
  faceTx : List (Nat × Nat) := []
  faceRx : List (Nat × FaceRx) := []
  windows : List (Nat × Window) := []
  notices : List (Nat × Pkt) := []
  remotes : List Remote := []
  nextTag : Nat := 0
  deriving DecidableEq, Repr

/-! ### Serving -/

/-- A budget account (R339, R340): the partition it is bound to; CAP, RATE, PWEIGHT and WEIGHT in force, and those that the
next step boundary brings with FILL; the balance in units of 2^-32 token and the instant of its last refill. -/
structure Account where
  part : Option Nat := none
  cap : Nat := 0
  rate : Nat := 0
  pweight : Nat := 0
  weight : Nat := 0
  next : Option (Nat × Nat × Nat × Nat) := none
  fill : Bool := false
  bal : Int := 0
  last : Nat := 0
  deriving DecidableEq, Repr

/-- A live request (R325, R327): st 0 WAITING, 1 PREFILL, 2 DECODE; run its prompt tokens sealed, out its tokens delivered;
order its place in acceptance; first its promise F; sealAt and lastStep of its last token; late tokens and the first reason;
missed an ELASTIC deadline missed at the first token; cancelled within the step that runs; held delayed by an abandoned step or a
HALTED engine; begun has had a batch entry. -/
structure Req where
  id : Nat
  ctx : Nat
  seq : Nat
  acct : Nat
  prio : Nat
  seqd : Nat
  paddr : Nat
  plen : Nat
  maxnew : Nat
  tbuf : Nat
  tpot : Nat
  user : List Byte
  bounded : Bool
  st : Nat := 0
  run : Nat := 0
  out : Nat := 0
  tok : Nat := 0
  order : Nat
  first : Nat := 0
  deadline : Option Nat := none
  sealAt : Nat := 0
  lastStep : Nat := 0xFFFFFFFF
  late : Nat := 0
  reason : Nat := 0
  missed : Bool := false
  cancelled : Bool := false
  held : Bool := false
  begun : Bool := false
  deriving DecidableEq, Repr

/-- A filled batch entry (R331): its place in the batch table, its request, prefill or decode, POS, COUNT, LASTCHUNK, EPOCH. -/
structure StepEnt where
  place : Nat
  req : Nat
  prefill : Bool
  pos : Nat
  count : Nat
  lastChunk : Bool := false
  epoch : Nat := 0
  deriving DecidableEq, Repr

/-- The step that runs (R329): its number, class C, split, its bound TS, the start instant, whether its pools
have started, the batch, the requests deferred for balance. -/
structure Step where
  num : Nat
  cls : Nat
  split : Nat
  ts : Nat
  start : Nat := 0
  started : Bool := false
  ents : List StepEnt := []
  deferred : Nat := 0
  deriving DecidableEq, Repr

/-- A plan with its address, its fields as built, the pool limits DMIN, DMAX, PMIN, PMAX set with it, and its step bounds TS,
split k at class c at 8k + c (R322 to R324). -/
structure Plan where
  addr : Nat
  lims : Nat × Nat × Nat × Nat := (0, 0, 0, 0)
  raw : List Byte := []
  ts : List Nat := []
  deriving DecidableEq, Repr

/-- The serving engine of a partition (R321 to R346): engine 0 OFF, 1 RUNNING, 2 HALTED; the plan in force, the one being
built and the one waiting for the next boundary, each with its pool limits; the prefill Bays of the current
split; the earliest Tide value of the next boundary; the last terminal requests as (REQ, TOKENS). -/
structure Serve where
  engine : Nat := 0
  plan : Option Plan := none
  building : Option Plan := none
  next : Option Plan := none
  offNext : Bool := false
  ran : Bool := false
  lastStep : Nat := 0
  rrDec : Nat := 4095
  rrPre : Nat := 4095
  split : Option Nat := none
  nextBnd : Nat := 0
  step : Option Step := none
  halting : Bool := false
  reqs : List Req := []
  dead : List (Nat × Nat) := []
  order : Nat := 0
  stalled : Bool := false
  deriving DecidableEq, Repr

/-! ### Collectives, Tide clock, mode changes -/

/-- The running operation of a channel (R424 to R438): its OPSEQ and signature, the participants' records, when it started;
dev this device's contribution in the partial format, empty for none; got the (member, chunk) pairs received; held the partials
not yet added, as (member, chunk, bytes); formed the chunks whose partial is formed; done the chunks of the result written here; sent
the chunks not acknowledged, as (member, chunk, resends, packet); sums the partials that wait for credit, as (chunk, bytes); the sizes
and answers of an exchange by member; the members arrived; whether this member refused; the INF or non-finite results counted;
PROGRESS. -/
structure CollOp where
  seq : Nat
  sig : Nat
  recs : List (List Byte)
  start : Nat
  dev : List Byte := []
  got : List (Nat × Nat) := []
  held : List (Nat × Nat × List Byte) := []
  formed : List Nat := []
  done : List Nat := []
  sent : List (Nat × Nat × Nat × Pkt) := []
  sums : List (Nat × List Byte) := []
  sizes : List (Nat × Nat) := []
  gos : List (Nat × Option Nat) := []
  arrived : List Nat := []
  refused : Bool := false
  infs : Nat := 0
  progress : Nat := 0
  deriving DecidableEq, Repr

/-- A collective channel (R420 to R427): members by index; participants as (Cove, completion ring, post queue, post word);
posted the records taken, as (participant, n, record); the operations completed; the chunks that may be sent to a member;
packets of operations that have not started here; completion records that wait for a ring credit, as (Cove, ring, record). -/
structure Chan where
  opened : Bool := false
  kind : Nat := 0
  failed : Bool := false
  window : Nat := 0
  gen : Nat := 0
  members : List Nat := []
  parts : List (Nat × Nat × Nat × Nat) := []
  timeout : Nat := 0
  self : Nat := 0
  buf : Nat := 0
  part : Nat := 0xFF
  ctx : Nat := 0
  counts : List Nat := []
  posted : List (Nat × Nat × List Byte) := []
  done : Nat := 0
  credit : List (Nat × Nat) := []
  early : List Pkt := []
  owed : List (Nat × Nat × List Byte) := []
  op : Option CollOp := none
  deriving DecidableEq, Repr

/-- The Tide clock beside its count (R441 to R443): state 0 UNSYNC, 1 LOCKING, 2 LOCKED, 3 HOLDOVER; the parent face or 7;
OFFSET; syncs within 2 ns in a row; whether it has locked to a slice; this device's count when it last sent a sync over face f, at 2f,
and when it last received one, at 2f + 1; DV_TIDE_PPS; the correction still to be made by rate, in ns, and the ticks of the
oscillator. -/
structure TideSync where
  st : Nat := 0
  parent : Nat := 7
  offset : Nat := 0
  run : Nat := 0
  synced : Bool := false
  faces : List (Nat × Nat) := []
  pps : Nat := 0
  slew : Int := 0
  osc : Nat := 0
  deriving DecidableEq, Repr

/-- Mode changes (R445 to R450): DV_MODE and DV_MODE_EPOCH; the staged payload; at the device that coordinates, its command,
the devices that have acknowledged, those whose COMMIT_ACK is outstanding; the committed epoch not yet reached; the
flooded packets seen, as (KIND, flood number), and the number of the next flood. -/
structure ModeCh where
  change : Nat := 0
  phase : Nat := 0
  epoch : Nat := 0
  staged : Option (List Byte) := none
  coord : Bool := false
  cmd : Option (Nat × Nat) := none
  acks : List Nat := []
  uncommitted : List Nat := []
  commit : Option Nat := none
  seen : List (Nat × Nat) := []
  floods : Nat := 0
  held : List Pkt := []
  deriving DecidableEq, Repr

/-- Slice barriers (R444): the commands that wait here as (number, context, sequence), and at the Harbourmaster the devices
arrived by number. -/
structure SliceBars where
  waiting : List (Nat × Nat × Nat) := []
  arrived : List (Nat × List Nat) := []
  deriving DecidableEq, Repr

/-- The machine: everything but the queue of waiting commands. free is the model's own counter, the argument of the free
values; tide the Tide clock (R441); cfg the words of configuration space that have no behaviour of their own, by offset
from the start of that space; mem the bytes of HBM and of the Tidepools by local address; unitKeys the key under which
each written 64-byte HBM unit of a partition was encrypted (R363); zeroed the granules that background zeroing has written, and
zeroing those whose zeroing is pending (R488), as bitmaps; ueUnits the 64-byte HBM units known uncorrectable (R355); badCoves the
failing Coves of a self-test beyond the Bays' spares, which no spare has replaced (R455, R508). -/
structure Blk where
  free : Nat := 0
  tide : Nat := 0
  cfg : List (Nat × Nat) := []
  mem : List (Nat × Byte) := []
  unitKeys : List (Nat × List Byte) := []
  zeroed : Nat := 0
  ueUnits : List Nat := []
  coves : List (Nat × Cove) := []
  bays : List (Nat × Bay) := []
  hls : List (Nat × Headland) := []
  badCoves : List Nat := []
  barriers : List (Nat × Barrier) := []
  watches : List (Nat × Watch) := []
  spans : List (Nat × Span) := []
  parts : List (Nat × Part) := []
  zeroing : Nat := 0
  host : HostSide := {}
  dev : Dev := {}
  fw : Firmware := {}
  cores : Cores := {}
  board : Board := {}
  hbmStacks : List (Nat × Stack) := []
  err : ErrLog := {}
  links : List (Nat × Link) := []
  slice : Slice := {}
  serves : List (Nat × Serve) := []
  accounts : List (Nat × Account) := []
  chans : List (Nat × Chan) := []
  sync : TideSync := {}
  mode : ModeCh := {}
  bars : SliceBars := {}
  deriving DecidableEq, Repr

/-- The state: the commands that wait, first in first out, and the machine they act on. -/
structure State where
  pending : List Instr := []
  blk : Blk := {}
  deriving DecidableEq, Repr

/-- The machine at the instant PWR_OK is asserted (R453 step 1): in ROM, every register at its Reset value. -/
def Blk.reset : Blk := {}

/-- The block right after reset, no command waiting. -/
def State.reset : State := { pending := [], blk := Blk.reset }

end Sys2Proof.Machine
end

