-- ==== Sys2Proof/Machine/Ops.lean ====
section
/-! DEFINITION. The named operations every meaning is written with: status codes (R59), units by number (R17, R62),
configuration words, counters (R119), free values, memory by local address (R347 to R349, R363, R364). -/
namespace Sys2Proof.Machine

/-! ### Status codes (R59) -/

def stOK : Nat := 0x0000
def stQUEUED : Nat := 0x0001
def stBADOP : Nat := 0x0101
def stBADPARAM : Nat := 0x0102
def stVERSION : Nat := 0x0103
def stNOPERM : Nat := 0x0104
def stLENGTH : Nat := 0x0105
def stBUSY : Nat := 0x0201
def stNOBUDGET : Nat := 0x0202
def stTABLEBUSY : Nat := 0x0203
def stNOCREDIT : Nat := 0x0204
def stMATCHFULL : Nat := 0x0205
def stSPILL : Nat := 0x0206
def stSCRUB : Nat := 0x0207
def stUNCHECKED : Nat := 0x0301
def stMETA : Nat := 0x0302
def stDOMAIN : Nat := 0x0303
def stINF : Nat := 0x0304
def stINEXACT : Nat := 0x0305
def stSURGE : Nat := 0x0306
def stFORMAT : Nat := 0x0307
def stLATE : Nat := 0x0401
def stCANCELLED : Nat := 0x0402
def stALREADY : Nat := 0x0403
def stRINGTIMEOUT : Nat := 0x0404
def stFENCED : Nat := 0x0501
def stABSENT : Nat := 0x0502
def stROUTELOST : Nat := 0x0503
def stWINDOW : Nat := 0x0504
def stHWERROR : Nat := 0x0601
def stUNCONTAINED : Nat := 0x0602

/-! ### How many of each unit there are (R21 to R24, R30) -/

def nCoves : Nat := 4096
def nBays : Nat := 256
def nHeadlands : Nat := 16
def nStacks : Nat := 16
def nLinks : Nat := 24
def nParts : Nat := 16
def nCtxs : Nat := 4096
/-- The Bay of a Cove (R17). -/
def bayOf (c : Nat) : Nat := c / 16
/-- The Headland of a Cove (R17). -/
def hlOf (c : Nat) : Nat := c / 256

/-! ### Units by number -/

def Blk.cove (b : Blk) (c : Nat) : Cove := sget (fun _ => {}) b.coves c
def Blk.setCove (b : Blk) (c : Nat) (x : Cove) : Blk := { b with coves := sset (fun _ => {}) b.coves c x }
def Blk.seq (b : Blk) (c : Nat) : Seq := (b.cove c).seq
def Blk.setSeq (b : Blk) (c : Nat) (x : Seq) : Blk := b.setCove c { b.cove c with seq := x }
def Blk.bay (b : Blk) (y : Nat) : Bay := sget (fun _ => {}) b.bays y
def Blk.setBay (b : Blk) (y : Nat) (x : Bay) : Blk := { b with bays := sset (fun _ => {}) b.bays y x }
def Blk.hl (b : Blk) (h : Nat) : Headland := sget (fun _ => {}) b.hls h
def Blk.setHl (b : Blk) (h : Nat) (x : Headland) : Blk := { b with hls := sset (fun _ => {}) b.hls h x }
def Blk.stack (b : Blk) (k : Nat) : Stack := sget (fun _ => {}) b.hbmStacks k
def Blk.setStack (b : Blk) (k : Nat) (x : Stack) : Blk := { b with hbmStacks := sset (fun _ => {}) b.hbmStacks k x }
def Blk.link (b : Blk) (k : Nat) : Link := sget (fun _ => {}) b.links k
def Blk.setLink (b : Blk) (k : Nat) (x : Link) : Blk := { b with links := sset (fun _ => {}) b.links k x }
def Blk.part (b : Blk) (p : Nat) : Part := sget (fun _ => {}) b.parts p
def Blk.setPart (b : Blk) (p : Nat) (x : Part) : Blk := { b with parts := sset (fun _ => {}) b.parts p x }
/-- Watch slot s of partition p. -/
def Blk.watch (b : Blk) (p s : Nat) : Watch := sget (fun _ => {}) b.watches (p * 256 + s)
def Blk.setWatch (b : Blk) (p s : Nat) (x : Watch) : Blk :=
  { b with watches := sset (fun _ => {}) b.watches (p * 256 + s) x }
/-- Span n of partition p. -/
def Blk.span (b : Blk) (p n : Nat) : Span := sget (fun _ => {}) b.spans (p * 16 + n)
def Blk.setSpan (b : Blk) (p n : Nat) (x : Span) : Blk := { b with spans := sset (fun _ => {}) b.spans (p * 16 + n) x }
def Blk.ctx (b : Blk) (c : Nat) : Ctx := sget (fun _ => {}) b.host.ctxs c
def Blk.setCtx (b : Blk) (c : Nat) (x : Ctx) : Blk :=
  { b with host := { b.host with ctxs := sset (fun _ => {}) b.host.ctxs c x } }
def Blk.port (b : Blk) (p : Nat) : Port := if p = 0 then b.host.portA else b.host.portB
def Blk.setPort (b : Blk) (p : Nat) (x : Port) : Blk :=
  { b with host := if p = 0 then { b.host with portA := x } else { b.host with portB := x } }

def Blk.serve (b : Blk) (p : Nat) : Serve := sget (fun _ => {}) b.serves p
def Blk.setServe (b : Blk) (p : Nat) (x : Serve) : Blk := { b with serves := sset (fun _ => {}) b.serves p x }
def Blk.account (b : Blk) (a : Nat) : Account := sget (fun _ => {}) b.accounts a
def Blk.setAccount (b : Blk) (a : Nat) (x : Account) : Blk := { b with accounts := sset (fun _ => {}) b.accounts a x }
def Blk.chan (b : Blk) (c : Nat) : Chan := sget (fun _ => {}) b.chans c
def Blk.setChan (b : Blk) (c : Nat) (x : Chan) : Blk := { b with chans := sset (fun _ => {}) b.chans c x }

/-! ### Free values (log entry 3) -/

/-- A fresh free value for a point of use, and the state with the counter advanced. -/
def Blk.freeVal (b : Blk) (site : Nat) : Nat × Blk := (Config.freeNat site b.free, { b with free := b.free + 1 })

/-! ### Configuration words -/

def cfgCV (c : Nat) : Nat := 0x4000000 + c * 0x4000
def cfgBY (y : Nat) : Nat := 0x1000000 + y * 0x10000
def cfgHL (h : Nat) : Nat := 0x100000 + h * 0x10000
def cfgMC (k : Nat) : Nat := 0x200000 + k * 0x10000
def cfgLK (k : Nat) : Nat := 0x300000 + k * 0x10000
def cfgSW (p : Nat) : Nat := 0x500000 + p * 0x10000
def cfgLH : Nat := 0x10000
/-- Start of configuration space in the local address map (R62). -/
def cfgBase : Nat := 0x07F000000000

/-- Reset values of the words held in cfg (the Reset columns of R91, R118, R227, R418, R513, R530). -/
def cfgReset (off : Nat) : Nat :=
  if 0x4000000 ≤ off then
    let r := off % 0x4000
    if r = 0x1000 then 1 else if r = 0x3000 then (off - 0x4000000) / 0x4000
    else if r = 0x3808 then 0xF7204310 else 0
  else if 0x300000 ≤ off && off < 0x480000 then
    (if off % 0x10000 = 0 then 0x1400 else if off % 0x10000 = 0x20 then 0x804040 else 0)
  else if off = 0x0810 then 1000 else if off = 0x0E00 then 0x1003E8 else if off = 0x0F10 then 0xE00 else 0

/-- The word held in cfg at an offset. -/
def Blk.cfgGet (b : Blk) (off : Nat) : Nat := sget cfgReset b.cfg off
/-- cfg with one word written. -/
def Blk.cfgSet (b : Blk) (off v : Nat) : Blk := { b with cfg := sset cfgReset b.cfg off (v % 2 ^ 64) }
/-- A counter raised by n, modulo 2^64 (R119). -/
def Blk.count (b : Blk) (off n : Nat) : Blk := { b with cfg := if n = 0 then b.cfg else (b.cfgSet off (b.cfgGet off + n)).cfg }
/-- A counter of a Cove raised. -/
def Blk.cvCount (b : Blk) (c off n : Nat) : Blk := b.count (cfgCV c + off) n
/-- A counter of a Bay raised. -/
def Blk.byCount (b : Blk) (y off n : Nat) : Blk := b.count (cfgBY y + off) n
/-- Words [lo, hi) of cfg returned to their reset values. -/
def Blk.cfgClear (b : Blk) (lo hi : Nat) : Blk := { b with cfg := sclear b.cfg lo hi }

/-! ### Partitions (R478 to R481) -/

/-- The partition that holds a Headland, or none. -/
def Blk.partOfHl (b : Blk) (h : Nat) : Option Nat :=
  firstIdx (fun p => (b.part p).st != 0 && tbit (b.part p).hlmask h) (List.range nParts) 0
/-- The partition that holds a Cove, or none. -/
def Blk.partOfCove (b : Blk) (c : Nat) : Option Nat := b.partOfHl (hlOf c)
/-- The partition number an instruction of a Cove acts for; 0xFF when the Cove belongs to none. -/
def Blk.partNum (b : Blk) (c : Nat) : Nat := (b.partOfCove c).getD 0xFF
/-- The Coves of a partition. -/
def Blk.partCoves (b : Blk) (p : Nat) : List Nat :=
  (List.range nCoves).filter fun c => tbit (b.part p).hlmask (hlOf c)
/-- The partition holding a granule, or none; a granule stays with a dissolved partition until its zeroing ends. -/
def Blk.granOwner (b : Blk) (g : Nat) : Option Nat :=
  firstIdx (fun p => tbit ((b.part p).grans ||| (b.part p).leaving) g) (List.range nParts) 0
/-- Is a Cove part of a partition that is scrub-pending (R487)? -/
def Blk.coveScrub (b : Blk) (c : Nat) : Bool :=
  match b.partOfCove c with | some p => (b.part p).st == 3 | none => false

/-! ### Memory -/

/-- Tidepool size and the region's base (R347). -/
def tpSize : Nat := 4194304
def tpBase : Nat := 0x040000000000
def tpEnd : Nat := 0x040400000000
def hbmEnd : Nat := 0x012000000000

/-- What a byte of memory that is not listed reads as: zero. A Tidepool byte is zero after its clearing (R225); for HBM
this is DESIGN CHOICE, unsafe (log entry 5). -/
def memReset (_ : Nat) : Byte := 0#8
/-- The canonical form of the memory. -/
abbrev Memory.wf (m : List (Nat × Byte)) : Prop := swf memReset m = true

def Blk.peek (b : Blk) (a : Nat) : Byte := sget memReset b.mem a
/-- n stored bytes from a local address. -/
def Blk.peekN (b : Blk) (a : Nat) : Nat → List Byte
  | 0 => []
  | n + 1 => b.peek a :: b.peekN (a + 1) n
def Blk.pokeN (b : Blk) (a : Nat) (v : List Byte) : Blk := { b with mem := ssetRun memReset b.mem a v }
/-- Local address of a Tidepool byte. -/
def tpAddr (c a : Nat) : Nat := tpBase + c * tpSize + a
/-- n bytes of a Cove's Tidepool. -/
def Blk.tpRead (b : Blk) (c a n : Nat) : List Byte := b.peekN (tpAddr c a) n
/-- A little-endian number in a Cove's Tidepool. -/
def Blk.tpNat (b : Blk) (c a n : Nat) : Nat := leNat (b.tpRead c a n)

/-! A write into a Tidepool sets the grant of an inbox when it is local (R218), and counts the bytes that arrive in an
inbox (R227) and the out-of-turn touches of ring slots (R223). -/

def Inbox.en (i : Inbox) : Bool := tbit i.word 0
def Inbox.srck (i : Inbox) : Nat := fld i.word 1 1
def Inbox.src (i : Inbox) : Nat := fld i.word 13 2
def Inbox.base (i : Inbox) : Nat := fld i.word 23 14 * 4096
def Inbox.units (i : Inbox) : Nat := fld i.word 34 24
def Inbox.gaddr (i : Inbox) : Nat := fld i.word 53 35 * 8
def Ring.en (r : Ring) : Bool := tbit r.word 0
def Ring.slot (r : Ring) : Nat := 2 ^ (6 + fld r.word 4 1)
def Ring.count (r : Ring) : Nat := fld r.word 17 5
def Ring.producer (r : Ring) : Nat := fld r.word 29 18
def Ring.base (r : Ring) : Nat := fld r.word 51 30

def Cove.inbox (x : Cove) (i : Nat) : Inbox := sget (fun _ => {}) x.inboxes i
def Cove.setInbox (x : Cove) (i : Nat) (v : Inbox) : Cove := { x with inboxes := sset (fun _ => {}) x.inboxes i v }
def Cove.ring (x : Cove) (i : Nat) : Ring := sget (fun _ => {}) x.rings i
def Cove.setRing (x : Cove) (i : Nat) (v : Ring) : Cove := { x with rings := sset (fun _ => {}) x.rings i v }
def Cove.cred (x : Cove) (i : Nat) : Cred := sget (fun _ => {}) x.creds i
def Cove.setCred (x : Cove) (i : Nat) (v : Cred) : Cove := { x with creds := sset (fun _ => {}) x.creds i v }
def Cove.prodEnt (x : Cove) (i : Nat) : Prod := sget (fun _ => {}) x.prods i
def Cove.setProd (x : Cove) (i : Nat) (v : Prod) : Cove := { x with prods := sset (fun _ => {}) x.prods i v }

/-- The enabled inboxes of a Cove, by number. -/
def Cove.enInboxes (x : Cove) : List (Nat × Inbox) := x.inboxes.filter fun p => p.2.en
/-- The enabled rings of a Cove, by number. -/
def Cove.enRings (x : Cove) : List (Nat × Ring) := x.rings.filter fun p => p.2.en

/-- The slots that an access finds out of turn: FULL ones written, EMPTY ones read (R223), as (first byte, length). -/
def Ring.outOfTurn (r : Ring) (write : Bool) : List (Nat × Nat) :=
  ((List.range r.count).filter fun k => r.full.contains k == write).map fun k => (r.base + k * r.slot, r.slot)

/-- The 64-byte words of [a, a+n), each one access (R198), that touch a slot out of turn, counted in CV_TP_RING_OOT
(R223; log entry 14). -/
def Blk.ringTouch (b : Blk) (c : Nat) (write : Bool) (a n : Nat) : Blk :=
  let oot := ((b.cove c).enRings.flatMap fun p => p.2.outOfTurn write).filter fun q => meets a n q.1 q.2
  if n = 0 || oot.isEmpty then b else
  b.cvCount c 0x3810 ((List.range ((a + n - 1) / 64 + 1 - a / 64)).filter fun i =>
    let lo := max a ((a / 64 + i) * 64)
    let hi := min (a + n) ((a / 64 + i) * 64 + 64)
    oot.any fun q => meets lo (hi - lo) q.1 q.2).length
/-- The banks of [a, a+n) granted to a requester: each bank's pointer moves past it (R198, R202). -/
def Blk.bankTouch (b : Blk) (c req a n : Nat) : Blk :=
  if n = 0 then b else
  let first := a / 64
  let cnt := min 32 ((a + n - 1) / 64 + 1 - first)
  let x := b.cove c
  b.setCove c { x with bankPtr := (List.range cnt).foldl (fun m i => sset (fun _ => 0) m ((first + i) % 32) ((req + 1) % 11)) x.bankPtr }

/-- An inbox after bytes [a, a+n) of its Tidepool were written: ARRIVED rises by the bytes that fall in its range. -/
def Inbox.arrive (i : Inbox) (a n : Nat) : Inbox :=
  let lo := max a i.base
  let hi := min (a + n) (i.base + i.units * 4096)
  if lo < hi then { i with arrived := (i.arrived + (hi - lo)) % 2 ^ 32 } else i

/-- ARRIVED of every enabled inbox after a write. -/
def Blk.inboxArrive (b : Blk) (c a n : Nat) : Blk :=
  b.setCove c ((b.cove c).enInboxes.foldl (fun x p => x.setInbox p.1 (p.2.arrive a n)) (b.cove c))

/-- The grants that a local write of [a, a+n) sets: of every enabled inbox whose grant word's low half it touches (R218). -/
def Blk.grantLocal (b : Blk) (c a n : Nat) : Blk :=
  b.setCove c (((b.cove c).enInboxes).foldl
    (fun x p => if meets a n p.2.gaddr 4 then x.setInbox p.1 { p.2 with grant := b.tpNat c p.2.gaddr 4 } else x) (b.cove c))

/-- A write into a Cove's Tidepool by one of its own instructions or descriptors (R218 local), outside ring state. -/
def Blk.tpWriteQuiet (b : Blk) (c a : Nat) (v : List Byte) : Blk :=
  if v.isEmpty then b else ((b.pokeN (tpAddr c a) v).inboxArrive c a v.length).grantLocal c a v.length
/-- A local write that ring state may find out of turn (R223). -/
def Blk.tpWrite (b : Blk) (c a : Nat) (v : List Byte) : Blk := (b.ringTouch c true a v.length).tpWriteQuiet c a v
/-- A write into a Tidepool that is not local (R218): from another Cove, the host, another Bay, or a window. -/
def Blk.tpWriteFar (b : Blk) (c a : Nat) (v : List Byte) : Blk :=
  if v.isEmpty then b else (((b.ringTouch c true a v.length).pokeN (tpAddr c a) v).inboxArrive c a v.length)
/-- The out-of-turn reads and bank grants of a list of ranges read by a requester. -/
def Blk.tpTouchReads (b : Blk) (c req : Nat) (rs : List (Nat × Nat)) : Blk :=
  rs.foldl (fun b r => (b.ringTouch c false r.1 r.2).bankTouch c req r.1 r.2) b

/-! HBM under keys (R363, R364): unitKeys holds nothing for a unit never written, a single zero byte for a unit written
without encryption, or the key it was encrypted under. An unlisted unit of a granule that background zeroing has written holds
unencrypted zeros (R488). -/

/-- The mark of the key in force for accesses made for a partition number. -/
def Blk.keyMark (b : Blk) (p : Nat) : List Byte := if p < nParts then (b.part p).key else [0#8]
/-- The byte an access for a partition reads (R364). -/
def Blk.hbmByte (b : Blk) (p a : Nat) : Byte :=
  let u := sget (fun _ => ([] : List Byte)) b.unitKeys (a / 64)
  let k := if u = [] && tbit b.zeroed (a / 2 ^ 30) then [0#8] else u
  if k = [] || k = b.keyMark p then b.peek a
  else Config.garble (leNat k) (leNat (b.keyMark p)) a (b.peek a)
def Blk.hbmRead (b : Blk) (p a : Nat) : Nat → List Byte
  | 0 => []
  | n + 1 => b.hbmByte p a :: b.hbmRead p (a + 1) n
/-- The units of [a, a+n). -/
def unitsOf (a n : Nat) : List Nat :=
  if n = 0 then [] else (List.range ((a + n - 1) / 64 + 1 - a / 64)).map fun i => a / 64 + i
/-- Does a range hold a whole unit? -/
def coversUnit (a n u : Nat) : Bool := a ≤ 64 * u && 64 * u + 64 ≤ a + n
/-- The part of the bytes v at a that falls in a unit, with its address. -/
def inUnit (a : Nat) (v : List Byte) (u : Nat) : Nat × List Byte :=
  let lo := max a (64 * u)
  (lo, (v.drop (lo - a)).take (64 * u + 64 - lo))

/-- The stack of an HBM offset (R350). -/
def Blk.stackOf (b : Blk) (a : Nat) : Nat :=
  if b.cfgGet 0x400 % 2 = 0 then
    let w := a / 256
    Nat.xor (w % 16) (w / 512 % 16)
  else
    let q := a / 0x4800000000
    let w := (a % 0x4800000000) / 256
    4 * q + Nat.xor (w % 4) (w / 128 % 4)

/-- A unit brought under the key in force by the read-modify-write of a partial write, counted in MC_RMW (R352). -/
def Blk.rekeyUnit (b : Blk) (p u : Nat) : Blk :=
  let b1 := (b.pokeN (64 * u) (b.hbmRead p (64 * u) 64)).count (cfgMC (b.stackOf (64 * u)) + 0x28) 1
  { b1 with unitKeys := sset (fun _ => []) b1.unitKeys u (b.keyMark p) }
/-- The first uncorrectable unit that a write covers only in part: the write ends there in ST_HW_ERROR (R358). -/
def Blk.partialUe (b : Blk) (a n : Nat) : Option Nat :=
  (unitsOf a n).find? fun u => b.ueUnits.contains u && !coversUnit a n u
/-- One unit of a write to HBM for a partition: a whole unit is replaced, a partial write leaves an uncorrectable unit as it is, and
every unit written is under that partition's key afterwards (R352, R358, R363). -/
def Blk.hbmUnit (b : Blk) (p a : Nat) (v : List Byte) (u : Nat) : Blk :=
  let w := inUnit a v u
  if coversUnit a v.length u then
    ({ b with unitKeys := sset (fun _ => []) b.unitKeys u (b.keyMark p), ueUnits := b.ueUnits.filter (· != u) }).pokeN w.1 w.2
  else if b.ueUnits.contains u then b
  else (b.rekeyUnit p u).pokeN w.1 w.2
/-- A write to HBM for a partition. -/
def Blk.hbmWrite (b : Blk) (p a : Nat) (v : List Byte) : Blk := (unitsOf a v.length).foldl (fun b u => b.hbmUnit p a v u) b

/-- The region of a local address (R347): 0 HBM, 1 Tidepools, 2 configuration space, 3 unmapped. -/
def regionOf (a : Nat) : Nat :=
  if a < hbmEnd then 0 else if tpBase ≤ a && a < tpEnd then 1
  else if cfgBase ≤ a && a < cfgBase + 0x8000000 then 2 else 3
/-- Does a nonempty local range lie within one region of memory? -/
def inRegion (a n : Nat) : Bool := regionOf a < 2 && regionOf (a + n - 1) == regionOf a && 0 < n
/-- The granules a range touches. -/
def granulesOf (a n : Nat) : List Nat :=
  if n = 0 then [] else (List.range ((a + n - 1) / 2 ^ 30 + 1 - a / 2 ^ 30)).map fun i => a / 2 ^ 30 + i
/-- The Coves whose Tidepools a range of the window region touches. -/
def covesOf (a n : Nat) : List Nat :=
  if n = 0 then [] else
  let lo := (a - tpBase) / tpSize
  (List.range ((a + n - 1 - tpBase) / tpSize + 1 - lo)).map fun i => lo + i

/-- The cache portion of a Cove (R211): its bytes. -/
def cacheBytes (f : Nat) : Nat := if f = 1 then 524288 else if f = 2 then 1048576 else if f = 3 then 2097152 else 0
def Blk.cachePortion (b : Blk) (c : Nat) : Nat := cacheBytes (fld (b.cfgGet (cfgCV c + 0x3800)) 3 2)
/-- First byte beyond the program region (R200). -/
def Blk.progEnd (b : Blk) (c : Nat) : Nat := tpSize - b.cachePortion c
/-- Does a range of the window region touch a cache portion (R200)? -/
def Blk.touchesCache (b : Blk) (a n : Nat) : Bool :=
  (covesOf a n).any fun c =>
    let s := tpAddr c (b.progEnd c)
    meets a n s (b.cachePortion c)

/-- Pseudo-channel, bank and row of an HBM offset (R350). -/
def Blk.pcBankRow (b : Blk) (a : Nat) : Nat × Nat × Nat :=
  if b.cfgGet 0x400 % 2 = 0 then
    let w := a / 256
    let u := w / 512
    (Nat.xor (w / 16 % 32) (u / 16 % 32), u / 4 % 32, u / 128)
  else
    let w := (a % 0x4800000000) / 256
    let u := w / 128
    (Nat.xor (w / 4 % 32) (u / 4 % 32), u / 4 % 32, u / 128)
/-- The 256-byte sweeps a range touches, at most m of them from its start and m from its end. -/
def sweepsOf (m a n : Nat) : List Nat :=
  if n = 0 then [] else
  let lo := a / 256
  let k := (a + n - 1) / 256 + 1 - lo
  ((List.range (min m k)).map fun i => lo + i) ++ (if m < k then (List.range m).map fun i => lo + k - m + i else [])
/-- The stacks a range touches: 16 sweeps in a row cover those of its mapping. -/
def Blk.stacksOf (b : Blk) (a n : Nat) : List Nat := (sweepsOf 16 a n).map fun w => b.stackOf (256 * w)
/-- Can a stack be used (R354)? -/
def Stack.usable (k : Stack) : Bool := k.ready == 1 || k.ready == 2
/-- The stack that holds an access of a range: in retrain, with a bank it touches blocked by a repair, or with its channel held by a
lane switch (R355, R361, R362). 65,536 sweeps in a row touch every bank of their stacks. -/
def Blk.hbmHeld (b : Blk) (a n : Nat) : Option Nat :=
  if a / 2 ^ 41 != 0 || hbmEnd ≤ a || !b.hbmStacks.any fun q => q.2.retrain || q.2.bankBlocked.isSome || q.2.channelHeld.isSome then none
  else ((sweepsOf 65536 a n).find? fun w =>
    let k := b.stack (b.stackOf (256 * w))
    let l := b.pcBankRow (256 * w)
    k.retrain || k.bankBlocked == some (l.1 * 32 + l.2.1) || k.channelHeld == some (l.1 / 2)).map fun w => b.stackOf (256 * w)
/-- An access held is counted in MC_HOLD (R355, R361, R362). -/
def Blk.countHold (b : Blk) (k : Nat) : Blk := b.count (cfgMC k + 0x30) 1

/-- How an access of [a, a+n) made for a partition number is judged (R347 to R349, R354, R480, R487, R488): the status
that refuses it, with its detail, or 0. Device scope reaches no partition's Tidepools, as it reaches none of its granules (log entry 41). An access of zero bytes is never refused. -/
def Blk.accessStatus (b : Blk) (p a n : Nat) : Nat × Nat :=
  if n = 0 then (0, 0)
  else if !inRegion a n then (stBADPARAM, 0)
  else if regionOf a = 0 then
    if (granulesOf a n).any fun g => tbit b.zeroing g then (stSCRUB, 0)
    else if (granulesOf a n).any fun g => b.granOwner g != (if p < nParts then some p else none) then (stBADPARAM, 0)
    else if p < nParts && (b.part p).st == 1 then (stBUSY, 2)
    else if p < nParts && (b.part p).st == 3 then (stSCRUB, 0)
    else if (b.stacksOf a n).any fun k => !(b.stack k).usable then (stBUSY, 2)
    else (0, 0)
  else if (covesOf a n).any fun c => b.partOfCove c != (if p < nParts then some p else none) && !b.coveScrub c then (stBADPARAM, 0)
  else if b.touchesCache a n then (stBADPARAM, 0)
  else (0, 0)

/-- Is a Tidepool lost, being cleared, behind a closed crossing or scrub-pending (R225, R476)? -/
def Blk.tpLost (b : Blk) (c : Nat) : Bool := (b.cove c).clearing || b.dev.power == 3 || b.coveScrub c || b.dev.closed.contains (0, c)

/-- Is some unit of the range known uncorrectable (R358)? -/
def Blk.rangeUe (b : Blk) (a n : Nat) : Option Nat :=
  if regionOf a = 0 then (unitsOf a n).find? fun u => b.ueUnits.contains u else none

/-- The n bytes an access for a partition reads from a local address, within one region; a lost Tidepool reads zero. -/
def Blk.memRead (b : Blk) (p a n : Nat) : List Byte :=
  if regionOf a = 0 then b.hbmRead p a n
  else if (covesOf a n).any b.tpLost then
    (List.range n).map fun i => if b.tpLost ((a + i - tpBase) / tpSize) then 0#8 else b.peek (a + i)
  else b.peekN a n

/-- A write into the window region, split by Cove: local to one Cove or to none (R218); a lost Tidepool discards it and
counts it in CV_TP_DROP (R225). -/
def Blk.winWrite (b : Blk) (localCove : Option Nat) (a : Nat) (v : List Byte) : Blk :=
  (covesOf a v.length).foldl (fun b c =>
    let lo := tpAddr c 0
    let off := a - lo
    let part := if lo ≤ a then v.take (tpSize - off) else (v.drop (lo - a)).take tpSize
    if b.tpLost c then b.cvCount c 0x3820 1
    else if localCove = some c then b.tpWrite c off part else b.tpWriteFar c off part) b

/-- A write of bytes for a partition to a local address, within one region. -/
def Blk.memWrite (b : Blk) (p : Nat) (localCove : Option Nat) (a : Nat) (v : List Byte) : Blk :=
  if v.isEmpty then b
  else if regionOf a = 0 then b.hbmWrite p a v else b.winWrite localCove a v

/-! ### Generators (R88 to R91) -/

def Blk.gen (b : Blk) (c g : Nat) : Nat := sget (laneSeed c) (b.cove c).gens g
/-- The 64 generator states of a Cove. -/
def Blk.gens (b : Blk) (c : Nat) : List Nat := (List.range 64).map (b.gen c)
def Blk.setGens (b : Blk) (c : Nat) (l : List Nat) : Blk :=
  b.setCove c { b.cove c with gens := ssetRun (laneSeed c) (b.cove c).gens 0 l }

/-! ### Idling (log entry 1) -/

/-- One tick of the oscillator: the count rises by one; while a correction is due, by two or by none on every 10,000th tick, a rate
within 1 part in 10^4 (R442). -/
def TideSync.step (y : TideSync) : TideSync × Nat :=
  let due := y.slew != 0 && (y.osc + 1) % 10000 == 0
  ({ y with osc := y.osc + 1, slew := if !due then y.slew else if 0 < y.slew then y.slew - 1 else y.slew + 1 },
   if !due then 1 else if 0 < y.slew then 2 else 0)
/-- One nanosecond passes on the Tide clock of a powered device (R441). -/
def Blk.idle (b : Blk) : Blk :=
  if b.dev.powered then { b with tide := b.tide + b.sync.step.2, sync := b.sync.step.1 } else b

/-! ### Outcomes -/

/-- The next state in which the machine is f of the machine, the queue untouched. -/
def State.upd (s : State) (f : Blk → Blk) : Host.Outcome State Fault Refusal := .next { s with blk := f s.blk }
/-- The same when the operands name a unit the device has; else the fault noSuchUnit. -/
def State.updIf (s : State) (ok : Bool) (f : Blk → Blk) : Host.Outcome State Fault Refusal :=
  if ok then s.upd f else .fault .noSuchUnit

end Sys2Proof.Machine
end

