-- ==== Sys2Proof/Machine/Operands.lean ====
section
/-! DEFINITION. The 128-bit tile instruction: its header and operand fields, the load check, and the Tidepool ranges it
touches (R68, R168, R173 to R175, R179, R184 to R194). An instruction is its word as a number. -/
namespace Sys2Proof.Machine

/-! ### Header (R173) -/

def wOpcode (w : Nat) : Nat := fld w 127 120
def wUnit (w : Nat) : Nat := fld w 119 116
def wFmtA (w : Nat) : Nat := fld w 115 112
def wFmtB (w : Nat) : Nat := fld w 111 108
def wGen (w : Nat) : Bool := tbit w 107
def wGpred (w : Nat) : Nat := fld w 106 104
def wGneg (w : Nat) : Bool := tbit w 103
def wCont (w : Nat) : Bool := tbit w 102

/-- Opcodes of R184 to R194 with the operand bits each one names; every other operand bit is reserved. FMT_A and FMT_B:
does the instruction use them? -/
structure OpForm where
  code : Nat
  named : List (Nat × Nat)
  fmtA : Bool
  fmtB : Bool
  deriving DecidableEq, Repr

/-- The operand bits of MACC, RIPPLE and BINACC (R186): all but [1:0]. -/
def arrayBits : List (Nat × Nat) := [(95, 2)]
/-- The instruction table. -/
def opForms : List OpForm :=
  [⟨0x00, [], false, false⟩, ⟨0x01, [], false, false⟩, ⟨0x02, [(95, 86)], false, false⟩,
   ⟨0x03, [(95, 67)], false, false⟩, ⟨0x04, [(95, 91), (63, 0)], false, false⟩, ⟨0x05, [(95, 44)], false, false⟩,
   ⟨0x06, [(95, 42)], false, false⟩, ⟨0x07, [(95, 64)], false, false⟩, ⟨0x08, [(95, 64)], false, false⟩,
   ⟨0x09, [(95, 87)], false, false⟩] ++
  [⟨0x10, [(95, 34)], false, true⟩, ⟨0x11, arrayBits, true, true⟩, ⟨0x12, arrayBits, true, true⟩,
   ⟨0x13, arrayBits, true, true⟩, ⟨0x14, [(95, 31)], true, true⟩,
   ⟨0x20, [(95, 66)], false, false⟩, ⟨0x21, [(95, 45)], false, false⟩, ⟨0x22, [(95, 1)], false, true⟩] ++
  [⟨0x30, [(95, 2)], true, true⟩, ⟨0x31, [(95, 2)], true, true⟩, ⟨0x32, [(95, 2)], true, true⟩,
   ⟨0x33, [(95, 2)], true, true⟩, ⟨0x34, [(95, 2)], true, true⟩] ++
  [⟨0x40, [(95, 25)], false, false⟩, ⟨0x41, [(95, 0)], false, false⟩, ⟨0x42, [(95, 6)], false, false⟩,
   ⟨0x43, [(95, 15)], false, false⟩, ⟨0x44, [(95, 15)], false, false⟩, ⟨0x50, [(95, 31)], false, false⟩,
   ⟨0x51, [(95, 43)], false, false⟩] ++
  [⟨0x60, [(95, 54)], false, false⟩, ⟨0x61, [(95, 80)], false, false⟩, ⟨0x62, [(95, 19)], true, true⟩,
   ⟨0x70, [(95, 69)], false, false⟩, ⟨0x71, [(95, 68)], false, false⟩, ⟨0x72, [(95, 69)], false, false⟩,
   ⟨0x73, [(95, 69)], false, false⟩] ++
  [⟨0x80, [(95, 77)], false, false⟩, ⟨0x81, [(95, 89)], false, false⟩, ⟨0x82, [(95, 91)], false, false⟩]

/-- The form of an opcode. -/
def opForm (code : Nat) : Option OpForm := opForms.find? fun f => f.code == code
/-- The operand word with every named field cleared: what is left is reserved bits. -/
def reservedLeft (f : OpForm) (w : Nat) : Nat := f.named.foldl (fun x p => setFld x p.1 p.2 0) (w % 2 ^ 96)

/-- Field values that the load check judges from one immediate field, the opcode and FMT_B, or that are conditionally
reserved (R168, R183; log entry 12). -/
def fieldBad (w : Nat) : Bool :=
  let op := wOpcode w
  if op = 0x03 then tbit w 93 && fld w 92 82 != 0
  else if op = 0x05 then 12 < fld w 80 77
  else if op = 0x06 then 5 < fld w 82 80
  else if op = 0x09 then 5 < fld w 90 87
  else if op = 0x10 then
    let lay := fld w 89 87
    let src := fld w 86 85
    4 < lay || (if lay = 1 then 2 < src else if lay = 4 then 1 < src else src != 0) ||
    fld w 80 79 == 3 || (fld w 80 79 != 0 && wFmtB w != 1 && wFmtB w != 2)
  else if op = 0x11 || op = 0x12 || op = 0x13 then
    (if tbit w 2 then fld w 86 81 != 0 else 1024 < fld w 86 76) ||
    (!tbit w 8 && fld w 7 3 != 0) ||
    (fld w 89 87 != 0 && !(op == 0x11 && wFmtB w == 0)) ||
    (if op = 0x11 then 64 else if op = 0x12 then 256 else 512) < fld w 75 66
  else if op = 0x21 then fld w 46 45 == 3
  else if op = 0x22 then fld w 24 23 == 3 || fld w 22 21 == 3 || (tbit w 20 && wFmtB w != 0)
  else if 0x30 ≤ op && op ≤ 0x34 then
    fld w 13 12 == 3 ||
    (if op = 0x30 then 6 else if op = 0x31 then 13 else if op = 0x32 then 4 else if op = 0x33 then 2 else 0) < fld w 19 14 ||
    ((op == 0x32 || op == 0x34) && wFmtB w != 0xC) || (op == 0x34 && fld w 6 2 == 31)
  else if op = 0x41 then 64 < fld w 14 8
  else if op = 0x60 then 1024 < fld w 68 58
  else if op = 0x80 then fld w 95 94 == 3 || fld w 89 77 == 0 || 4096 < fld w 89 77
  else false

/-- The sub-code of the first load-check fault of one instruction by itself: OPCODE, UNIT or FIELD (R168). -/
def wordFault (w : Nat) : Option Nat :=
  match opForm (wOpcode w) with
  | none => some 0x8
  | some f =>
    if wUnit w != wOpcode w / 16 then some 0x9
    else if fld w 101 96 != 0 || reservedLeft f w != 0 || 0xC < wFmtA w || 0xC < wFmtB w ||
      (!f.fmtA && wFmtA w != 0) || (!f.fmtB && wFmtB w != 0) || fieldBad w then some 0xA
    else none

def brTarget (w : Nat) : Nat := fld w 95 86
def loopEnd (w : Nat) : Nat := fld w 76 67
def loopCtr (w : Nat) : Nat := fld w 95 94

/-- The loops of an image as (index, END, counter), those with an END above their own index. -/
def imageLoops : Nat → List Nat → List (Nat × Nat × Nat)
  | _, [] => []
  | i, w :: r =>
    if wOpcode w == 3 && i < loopEnd w then (i, loopEnd w, loopCtr w) :: imageLoops (i + 1) r else imageLoops (i + 1) r
/-- The innermost loop body holding an index: the index of its LOOP. -/
def innerLoop (ls : List (Nat × Nat × Nat)) (x : Nat) : Option Nat :=
  ls.foldl (fun best l => if l.1 < x && x ≤ l.2.1 then some l.1 else best) none
/-- The TARGET and LOOP checks of one instruction of an image of n instructions (R168). -/
def flowFault (ls : List (Nat × Nat × Nat)) (n i w : Nat) : Option Nat :=
  if wOpcode w = 2 then
    (if n ≤ brTarget w || innerLoop ls (brTarget w) != innerLoop ls i then some 0xB else none)
  else if wOpcode w = 3 then
    (if n ≤ loopEnd w || loopEnd w ≤ i then some 0xB
     else if ls.any fun l => l.1 < i && i ≤ l.2.1 && (l.2.1 < loopEnd w || l.2.2 == loopCtr w) then some 0xC
     else none)
  else none
/-- The first fault of an image: sub-code and index (R168). -/
def imageFaultFrom (ls : List (Nat × Nat × Nat)) (n : Nat) : Nat → List Nat → Option (Nat × Nat)
  | _, [] => none
  | i, w :: r =>
    match wordFault w with
    | some s => some (s, i)
    | none => match flowFault ls n i w with
      | some s => some (s, i)
      | none => imageFaultFrom ls n (i + 1) r
def imageFault (img : List Nat) : Option (Nat × Nat) := imageFaultFrom (imageLoops 0 img) img.length 0 img
/-- The instructions of an image of n 16-byte words. -/
def imageWords : Nat → List Byte → List Nat
  | 0, _ => []
  | n + 1, b => leNat (b.take 16) :: imageWords n (b.drop 16)

/-! ### Scalar operands (R176) -/

/-- A scalar register as the instruction read it; s0 is zero (R165). -/
def sreg (regs : List (Nat × Nat)) (i : Nat) : Nat := if i = 0 then 0 else sget (fun _ => 0) regs i
/-- The low 32 bits of a scalar register. -/
def sreg32 (regs : List (Nat × Nat)) (i : Nat) : Nat := sreg regs i % 2 ^ 32
/-- An address field indexed by XR (R175). -/
def xaddr (w : Nat) (regs : List (Nat × Nat)) (hi lo : Nat) : Nat := (fld w hi lo + sreg regs (fld w 95 91)) % tpSize

/-! ### Operand forms of the array instructions (R186) -/

/-- Blocks of a token (R95). -/
def arrBlocks (op : Nat) : Nat := if op = 0x11 then 2 else if op = 0x12 then 8 else 16
def arrM (w : Nat) (regs : List (Nat × Nat)) : Nat := if tbit w 2 then sreg regs (fld w 80 76) else fld w 86 76
def arrVE (w : Nat) : Nat := fld w 75 66
def arrSlot (w : Nat) : Nat := fld w 90 90
def arrDepth (w : Nat) : Nat := fld w 89 87
def arrRow (w : Nat) : Nat := fld w 65 56
def arrDom (w : Nat) : Nat := fld w 55 55
def arrAnchor (w : Nat) : Nat := fld w 54 47
def arrAddr (w : Nat) (regs : List (Nat × Nat)) : Nat := xaddr w regs 46 25
def arrStride (w : Nat) : Nat := fld w 24 9
def arrSplit (w : Nat) : Bool := tbit w 8
def arrScales (w : Nat) (regs : List (Nat × Nat)) : Nat := sreg regs (fld w 7 3)
/-- Blocks of a token that are read: those that begin below VE (R186). -/
def arrReadBlocks (w : Nat) : Nat := min (cdiv (arrVE w) 32) (arrBlocks (wOpcode w))
/-- Bytes of one block of the stream: a burst, or 32 packed elements in split form. -/
def arrBlockBytes (w : Nat) : Nat := if arrSplit w then elBytes (wFmtA w) 32 else burstBytes (wFmtA w)

/-! ### Vector operands (R189) -/

def vecN (w : Nat) (regs : List (Nat × Nat)) : Nat := sreg32 regs (fld w 24 20)
def vecDst (w : Nat) (regs : List (Nat × Nat)) : Nat := xaddr w regs 90 69
def vecA (w : Nat) : Nat := fld w 68 47
def vecB (w : Nat) : Nat := fld w 46 25
def vecOp (w : Nat) : Nat := fld w 19 14
def vecMode (w : Nat) : Nat := fld w 13 12
def vecS (w : Nat) (regs : List (Nat × Nat)) : Nat := sreg32 regs (fld w 11 7)
def vecAux (w : Nat) (regs : List (Nat × Nat)) : Nat := sreg regs (fld w 6 2)
/-- Bytes of a run of n elements in burst form, plain for BF16 and FP32, T5 for TRIT. -/
def runBytes (f n : Nat) : Nat :=
  if f = 0 then t5Len n else if isBurstFmt f then cdiv n 32 * burstBytes f else elBytes f n

/-! ### Tidepool ranges (R175, R179) -/

/-- Bytes of a WLOAD source by layout and source (R99). -/
def wloadRanges (w : Nat) (regs : List (Nat × Nat)) : List (Nat × Nat) :=
  let lay := fld w 89 87
  let src := fld w 86 85
  let a := xaddr w regs 77 56
  let a1 := fld w 55 34
  if fld w 84 81 = 0 then []
  else if lay = 0 then [(a, 410 * fld w 84 81)]
  else if lay = 1 then
    (if src = 0 then [(a, 1294)] else if src = 1 then [(a, 704), (a1, 704)]
     else [(a, 704), (a + a1, 704), (a + 2 * a1, 704), (a + 3 * a1, 704)])
  else if lay = 2 then [(a, 2524)] else if lay = 3 then [(a, 1640)]
  else [(a, if src = 0 then 4096 else 2048)]

/-- AREAD: bytes of its output for n logical rows (R135, R141). -/
def areadOutBytes (w : Nat) : Nat :=
  let n := fld w 80 70
  let f := wFmtB w
  if tbit w 20 then n * (if tbit w 69 then 512 else 256)
  else if fld w 24 23 = 0 then
    (if f = 0 then t5Len (32 * n) else if isBurstFmt f then n * (if tbit w 18 then elBytes f 32 else burstBytes f)
     else n * elBytes f 32)
  else if fld w 24 23 = 1 then (if f = 0 then 410 else if f = 1 then 1294 else 2524)
  else 704
/-- AREAD: block scales of its output. -/
def areadScales (w : Nat) : Nat :=
  let f := wFmtB w
  if tbit w 20 || f = 0 || f = 0xB || f = 0xC then 0
  else if fld w 24 23 = 0 then fld w 80 70 else if fld w 24 23 = 1 then 64 else 32

/-- The ranges of the local Tidepool that an instruction reads and writes, as (first byte, length) (R179). -/
def tileRanges (c : Nat) (w : Nat) (regs : List (Nat × Nat)) : List (Nat × Nat) × List (Nat × Nat) :=
  let op := wOpcode w
  if op = 0x07 then ([(xaddr w regs 85 64, 8)], [])
  else if op = 0x08 then ([], [(xaddr w regs 85 64, 8)])
  else if op = 0x10 then (wloadRanges w regs, [])
  else if op = 0x11 || op = 0x12 || op = 0x13 then
    let m := arrM w regs
    let nb := arrReadBlocks w
    if m = 0 || nb = 0 then ([], []) else
    ((arrAddr w regs, (m - 1) * arrStride w + nb * arrBlockBytes w) ::
     (if arrSplit w then [(arrScales w regs, (m - 1) * arrBlocks op + nb)] else []), [])
  else if op = 0x14 then
    ([(xaddr w regs 90 69, 31 * fld w 46 31 + 2 * burstBytes (wFmtA w))], [(fld w 68 47, if wFmtB w = 1 then 1294 else 2524)])
  else if op = 0x22 then
    let n := fld w 80 70
    if n = 0 then ([], []) else
    ((if tbit w 11 then [(sreg regs (fld w 5 1), n * (if tbit w 69 then 512 else 256))] else []) ++
     (if tbit w 17 then [(sreg regs (fld w 16 12), areadScales w)] else []),
     (xaddr w regs 60 39, areadOutBytes w) ::
     (if tbit w 18 && !tbit w 17 then [(sreg regs (fld w 16 12), areadScales w)] else []))
  else if op = 0x34 then
    let n := vecN w regs
    let m := sreg regs (fld w 6 2)
    let v := sreg regs (fld w 6 2 + 1)
    if n = 0 then ([], []) else
    ([(vecA w, runBytes (wFmtA w) n), (vecB w, 32), (vecDst w regs, 4 * n), (m, 4 * n), (v, 4 * n)],
     [(vecDst w regs, 4 * n), (m, 4 * n), (v, 4 * n)])
  else if 0x30 ≤ op && op ≤ 0x33 then
    let n := vecN w regs
    if n = 0 then ([], []) else
    ((vecA w, runBytes (wFmtA w) n) ::
      (if op = 0x30 && vecOp w != 6 then [(vecB w, runBytes (wFmtA w) n)] else []),
     [(vecDst w regs, if op = 0x32 then 4 * cdiv n (max 1 (vecAux w regs)) else runBytes (wFmtB w) n)])
  else if op = 0x40 then ([(fld w 68 47, fld w 46 25)], [(xaddr w regs 90 69, fld w 46 25)])
  else if op = 0x41 then
    let e := fld w 14 8
    let rows := fld w 7 2
    let es := 2 ^ fld w 1 0
    if e = 0 || rows = 0 then ([], []) else
    ([(fld w 68 47, (rows - 1) * fld w 30 15 + (e - 1) * fld w 46 31 + es)], [(xaddr w regs 90 69, rows * e * es)])
  else if op = 0x42 then
    let k := fld w 14 7
    if k = 0 then ([], []) else
    ([(fld w 68 47, (k - 1) * 64 + 63 * fld w 46 31 + 64)],
     [(xaddr w regs 90 69, if tbit w 6 then (64 * (k - 1) + 31) * fld w 30 15 + 128 else (64 * (k - 1) + 63) * fld w 30 15 + 64)])
  else if op = 0x43 then
    ([(xaddr w regs 56 35, fld w 34 15)], if fld w 90 79 = c then [(fld w 78 57, fld w 34 15)] else [])
  else if op = 0x44 then
    (if fld w 90 79 = c then [(fld w 78 57, fld w 34 15)] else [], [(xaddr w regs 56 35, fld w 34 15)])
  else if op = 0x50 then ([(xaddr w regs 72 51, fld w 50 31)], [])
  else if op = 0x51 then ([], [(xaddr w regs 84 63, fld w 62 43)])
  else if op = 0x60 then ([(xaddr w regs 90 69, 64 * fld w 68 58)], [(xaddr w regs 90 69, 64 * fld w 68 58)])
  else if op = 0x62 then
    let d := sreg regs (fld w 24 20)
    let m := fld d 15 0
    let n := fld d 31 16
    let k := fld d 47 32
    let ea := if wFmtA w = 0xB then 2 else 1
    let ec := if wFmtB w = 0xC then 4 else 2
    if m = 0 || n = 0 || k = 0 then ([], []) else
    ([(xaddr w regs 90 69, m * k * ea), (fld w 68 47, k * n * ea)] ++ (if tbit w 19 then [(fld w 46 25, m * n * ec)] else []),
     [(fld w 46 25, m * n * ec)])
  else if 0x70 ≤ op && op ≤ 0x73 then ([(xaddr w regs 90 69, 64)], [(xaddr w regs 90 69, 64)])
  else ([], [])

/-- The range of another Cove's Tidepool that TPUT and TGET name; it too must lie within that Tidepool (R175). -/
def farRange (c w : Nat) : List (Nat × Nat) :=
  if (wOpcode w = 0x43 || wOpcode w = 0x44) && fld w 90 79 ≠ c then [(fld w 78 57, fld w 34 15)] else []

/-- The hull of a list of ranges, empty ranges left out (R179). -/
def hull (l : List (Nat × Nat)) : List (Nat × Nat) :=
  let r := l.filter fun p => 0 < p.2
  match r with
  | [] => []
  | p :: rest =>
    let lo := rest.foldl (fun a q => min a q.1) p.1
    let hi := rest.foldl (fun a q => max a (q.1 + q.2)) (p.1 + p.2)
    [(lo, hi - lo)]

/-- Alignments that an instruction states (R184, R192, R229). -/
def alignOk (w : Nat) (regs : List (Nat × Nat)) : Bool :=
  let op := wOpcode w
  if op = 0x07 || op = 0x08 then xaddr w regs 85 64 % 8 == 0
  else if op = 0x60 || (0x70 ≤ op && op ≤ 0x73) then xaddr w regs 90 69 % 64 == 0
  else true

/-- Do two lists of ranges meet? -/
def rangesMeet (a b : List (Nat × Nat)) : Bool := a.any fun p => b.any fun q => meets p.1 p.2 q.1 q.2

/-- The queue of a unit instruction (R177): 0 load, 1 stream, 2 ACM, 3 vector, 4 movement, 5 ring, 6 DMA and CMU, 7 sparse;
none for the instructions that execute in the sequencer. -/
def queueOf (op : Nat) : Option Nat :=
  if op = 0x10 || op = 0x14 then some 0 else if op = 0x11 || op = 0x12 || op = 0x13 then some 1
  else if op / 16 = 2 then some 2 else if op / 16 = 3 then some 3 else if op / 16 = 4 then some 4
  else if op / 16 = 5 then some 5 else if op = 0x61 then none else if op / 16 = 6 then some 6
  else if op / 16 = 7 then some 7 else none

/-- The Tidepool requester of a queue (R199). -/
def requesterOf (q : Nat) : Nat :=
  if q = 0 then 1 else if q = 1 then 0 else if q = 2 then 2 else if q = 3 then 3 else if q = 4 then 4
  else if q = 5 then 5 else if q = 6 then 9 else 8

end Sys2Proof.Machine
end

