-- ==== Sys2Proof/Machine/Flags.lean ====
section
/-! DEFINITION. Accumulator rows: their values, their sticky flags INEXACT and INF, the landing of a contribution, and the
status words a completion is computed from (R120 to R125, R139, R142, R81, R170). -/
namespace Sys2Proof.Machine

/-! ### Status details -/

/-- The detail of ST_FORMAT_FAULT: sub-code and byte offset within the operand (R81). -/
def fmtDetail (sub off : Nat) : Nat := sub * 4096 + off / 32 % 4096
/-- The detail of a status to which no rule gives one: open, replaced by a free value when the status is recorded (log entry 3). -/
def openDet : Nat := 65536
def fault (st : Nat) (det : Nat := openDet) (rows : Nat := 0) : Done := { st := st, det := det, rows := rows }
def okDone : Done := {}
def badParam : Done := fault stBADPARAM
/-- A format fault of a sub-code at a byte offset. -/
def fmtFault (sub off : Nat) : Done := fault stFORMAT (fmtDetail sub off)
/-- A count saturated at 0xFFFF, as a detail (R139, R190). -/
def satDetail (n : Nat) : Nat := min n 0xFFFF
/-- Does a status leave a program running (R181)? -/
def benign (st : Nat) : Bool := st == stOK || st == stINEXACT || st == stINF

/-! ### Values and windows (R122) -/

/-- Bits of a value of a domain: 64 for INT64, 128 for EXACT128. -/
def domBits (dom : Nat) : Nat := if dom = 0 then 64 else 128
/-- The exponent L of the unit of a domain at an ANCHOR. -/
def unitL (dom anchor : Nat) : Int := (anchor : Int) - 128 - (if dom = 0 then 0 else 64)
/-- The INF code, read as a two's complement number. -/
def infVal (dom : Nat) : Int := -(2 ^ (domBits dom - 1) : Int)
def isInfVal (dom : Nat) (v : Int) : Bool := v == infVal dom
/-- Is a number outside the range of a value of the domain? -/
def outside (dom : Nat) (v : Int) : Bool := v.natAbs ≥ 2 ^ (domBits dom - 1)

/-- What lands in entries: the value, and how many contributions were inexact and how many entries became INF. -/
structure Landed where
  v : Int
  inexact : Nat := 0
  inf : Nat := 0
  deriving DecidableEq, Repr

/-- One contribution P × 2^X added to an entry of a domain with unit 2^L, in the order of the tests of R124. -/
def land (dom : Nat) (l : Int) (p x : Int) (s : Landed) : Landed :=
  if isInfVal dom s.v then s
  else
    let sh := x - l
    let c : Int := if 0 ≤ sh then p * 2 ^ sh.toNat else Int.tdiv p (2 ^ (-sh).toNat)
    let beyond := if 0 ≤ sh then outside dom c else p.natAbs ≥ 2 ^ (domBits dom - 1 + (-sh).toNat)
    if beyond then { s with v := infVal dom, inf := s.inf + 1 }
    else
      let s1 := if 0 ≤ sh || c * 2 ^ (-sh).toNat = p then s else { s with inexact := s.inexact + 1 }
      if outside dom (s.v + c) then { s1 with v := infVal dom, inf := s.inf + 1 }
      else { s1 with v := s.v + c }
/-- Several contributions in order. -/
def landAll (dom : Nat) (l : Int) (cs : List (Int × Int)) (s : Landed) : Landed :=
  cs.foldl (fun s c => land dom l c.1 c.2 s) s

/-- A value of units 2^l1 added to a value of units 2^l, as a unit that accumulates values does (R142): an INF makes INF. -/
def landVal (dom : Nat) (v w : Int) (winf : Bool) : Int × Bool :=
  if isInfVal dom v then (v, false)
  else if winf || outside dom (v + w) then (infVal dom, true) else (v + w, false)

/-! ### Rows (R120, R121, R123) -/

/-- The 32 stored words of a physical row. -/
def Cove.accRow (x : Cove) (r : Nat) : List Nat := Machine.sget (fun _ => List.replicate 32 0) x.acm r
def Cove.setAccRow (x : Cove) (r : Nat) (v : List Nat) : Cove :=
  { x with acm := sset (fun _ => List.replicate 32 0) x.acm r v }
def Cove.tag (x : Cove) (r : Nat) : RowTag := Machine.sget (fun _ => {}) x.tags r
def Cove.setTag (x : Cove) (r : Nat) (t : RowTag) : Cove := { x with tags := sset (fun _ => {}) x.tags r t }
/-- The pending tag of a row (R127). -/
def Cove.pendTag (x : Cove) (r : Nat) : Nat × Nat := Machine.sget (fun _ => (0, 0x80)) x.pend r
def Cove.setPendTag (x : Cove) (r : Nat) (t : Nat × Nat) : Cove := { x with pend := sset (fun _ => (0, 0x80)) x.pend r t }

/-- Physical rows of n logical rows from f (R121). -/
def physRows (dom f n : Nat) : List Nat := (List.range (if dom = 0 then n else 2 * n)).map fun i => f + i
/-- Is the range within the ACM, and even for EXACT128 (R121)? -/
def rangeOk (dom f n : Nat) : Bool := f + (if dom = 0 then n else 2 * n) ≤ 1024 && (dom == 0 || f % 2 == 0)
/-- The first physical row of logical row q of a range. -/
def physOf (dom f q : Nat) : Nat := f + (if dom = 0 then q else 2 * q)

/-- The 32 values of the logical row at a physical row. -/
def Cove.logical (x : Cove) (dom r : Nat) : List Int :=
  if dom = 0 then (x.accRow r).map (sx 64)
  else ((x.accRow r).zip (x.accRow (r + 1))).map fun p => sx 128 (p.1 + p.2 * 2 ^ 64)
/-- The logical row at a physical row set to 32 values. -/
def Cove.setLogical (x : Cove) (dom r : Nat) (v : List Int) : Cove :=
  if dom = 0 then x.setAccRow r (v.map (toTwos 64))
  else (x.setAccRow r (v.map fun a => toTwos 128 a % 2 ^ 64)).setAccRow (r + 1) (v.map fun a => toTwos 128 a / 2 ^ 64)
/-- The INEXACT flag of a logical row. -/
def Cove.rowInexact (x : Cove) (dom r : Nat) : Bool :=
  (x.tag r).inexact || (dom == 1 && (x.tag (r + 1)).inexact)
/-- A function of the tags of a logical row's physical rows. -/
def Cove.mapTags (x : Cove) (dom r : Nat) (f : RowTag → RowTag) : Cove :=
  (physRows dom r 1).foldl (fun x q => x.setTag q (f (x.tag q))) x
/-- Flags raised on a logical row. -/
def Cove.raise (x : Cove) (dom r : Nat) (inexact inf : Bool) : Cove :=
  x.mapTags dom r fun t => { t with inexact := t.inexact || inexact, inf := t.inf || inf }

/-- The contributions of one token to a logical row, column by column, with the counters they raise (R124). -/
def Blk.landRow (b : Blk) (c dom anchor r : Nat) (cols : List (List (Int × Int))) : Blk :=
  let x := b.cove c
  let l := unitL dom anchor
  let out := ((x.logical dom r).zip cols).map fun p => landAll dom l p.2 { v := p.1 }
  let ine := out.foldl (fun a o => a + o.inexact) 0
  let inf := out.foldl (fun a o => a + o.inf) 0
  let x1 := (x.setLogical dom r (out.map (·.v))).raise dom r (0 < ine) (0 < inf)
  ((b.setCove c x1).cvCount c 0x1800 ine).cvCount c 0x1808 inf

/-- The first physical row of a range whose pending tag differs from a stamp (R128). -/
def Cove.mismatch (x : Cove) (dom anchor f n : Nat) : Option Nat :=
  (physRows dom f n).find? fun r => x.pendTag r != (dom, anchor)

/-- The check of R128: the status found, with its counter. -/
def Blk.stampCheck (b : Blk) (c dom anchor f n : Nat) : Option Done × Blk :=
  match (b.cove c).mismatch dom anchor f n with
  | some r => (some (fault stDOMAIN r), b.cvCount c 0x1818 1)
  | none => (none, b)

end Sys2Proof.Machine
end

