-- ==== Sys2Proof/Machine/Array.lean ====
section
/-! DEFINITION. The trit array: filling a weight slot, the passes of MACC, RIPPLE and BINACC, and PLANEX (R94 to R119,
R186, R187, R82, R83). Each instruction's work is one operation on the machine; timing is outside the model. -/
namespace Sys2Proof.Machine

/-! ### Slots -/

def Cove.slot (x : Cove) (k : Nat) : Slot := if k = 0 then x.slotA else x.slotB
def Cove.setSlot (x : Cove) (k : Nat) (v : Slot) : Cove := if k = 0 then { x with slotA := v } else { x with slotB := v }

/-- The stationary format of a layout and source (R186, R187). -/
def layoutFmt (lay src : Nat) : Nat :=
  if lay = 1 then fTQ3 else if lay = 2 then fTQ6 else if lay = 4 && src == 1 then fBIN1 else fTRIT
/-- The depth count of a layout other than PAR_TRIT (R99). -/
def layoutDepths (lay : Nat) : Nat := if lay = 1 then 3 else if lay = 2 then 6 else if lay = 3 then 4 else 8
/-- The origin offset g of WLOAD (R97). -/
def originOf (o : Nat) : Int := if o = 1 then -1 else if o = 2 then -3 else 0

def wlLayout (w : Nat) : Nat := fld w 89 87
def wlSrc (w : Nat) : Nat := fld w 86 85
def wlN (w : Nat) : Nat := fld w 84 81
def wlSlot (w : Nat) : Nat := fld w 90 90

/-- WLOAD's checks at issue: N as R99 gives it for the layout, and FMT_B the stationary format (R187). -/
def wloadCheck (w : Nat) : Option Done :=
  if wFmtB w != layoutFmt (wlLayout w) (wlSrc w) then some badParam
  else if (if wlLayout w = 0 then 8 < wlN w else wlN w != layoutDepths (wlLayout w)) then some badParam
  else none

/-! ### Filling (R97 to R101) -/

/-- A T5 run of n trits at an offset of an operand: the trits, or the offset of the first bad byte (R73, R81). -/
def t5Read (b : List Byte) (off n : Nat) : Except Nat (List Int) :=
  let r := bytesAt b off (t5Len n)
  match firstIdx t5Bad r 0 with
  | some i => .error (off + i)
  | none => .ok (t5Unpack n r)
/-- n scales at an offset of an operand, or the offset of the first 0xFF (R81). -/
def scalesRead (b : List Byte) (off n : Nat) : Except Nat (List Nat) :=
  let r := (bytesAt b off n).map BitVec.toNat
  match firstIdx (· == 0xFF) r 0 with
  | some i => .error (off + i)
  | none => .ok r

/-- The outcome of a fill: planes and exponents, or the detail of its format fault. -/
abbrev Filled := Except Nat (List (List Int) × List Int)

/-- T5 plane images back to back: n of them from an offset (PAR_TRIT, RIPPLE). -/
def t5Planes (b : List Byte) (off n len trits : Nat) : Except Nat (List (List Int)) :=
  (List.range n).mapM fun i =>
    match t5Read b (off + len * i) trits with
    | .ok t => .ok t
    | .error e => .error (fmtDetail 1 e)

/-- A tile record of n digit planes with the ORIGIN offset (R76, R97). -/
def fillTile (b : List Byte) (n : Nat) (g : Int) : Filled :=
  match scalesRead b 0 64 with
  | .error e => .error (fmtDetail 2 e)
  | .ok sc => match t5Planes b 64 n 410 2048 with
    | .error e => .error e
    | .ok p => .ok (p, sc.map fun (e : Nat) => (e : Int) - 127 + g)

/-- The three half plane images of a chunk record that begins at an offset (R77). -/
def chunkPlanes (b : List Byte) (off : Nat) : Except Nat (List (List Int)) := t5Planes b (off + 32) 3 205 1024

/-- A page pair: two chunk records, columns 0 to 15 and 16 to 31 (R99). -/
def fillPair (b : List Byte) (g : Int) : Filled :=
  match scalesRead b 0 32 with
  | .error e => .error (fmtDetail 2 e)
  | .ok s0 => match chunkPlanes b 0 with
    | .error e => .error e
    | .ok p0 => match scalesRead b 704 32 with
      | .error e => .error (fmtDetail 2 e)
      | .ok s1 => match chunkPlanes b 704 with
        | .error e => .error e
        | .ok p1 => .ok ((p0.zip p1).map fun q => q.1 ++ q.2, (s0 ++ s1).map fun (e : Nat) => (e : Int) - 127 + g)

/-- Four chunk records transposed: row 16p + t is token t of page p, column c dimension 32H + c (R99). -/
def fillTransposed (b : List Byte) (h : Nat) : Filled :=
  match (List.range 4).mapM fun p => chunkPlanes b (704 * p) with
  | .error e => .error e
  | .ok ps =>
    .ok ((List.range 3).map fun i =>
      (List.range 32).flatMap fun c => ps.flatMap fun page =>
        (List.range 16).map fun t => nth (nth page i []) (t * 64 + 32 * h + c) 0, [])

/-- What a WLOAD loads (R99). -/
def Blk.fillOf (b : Blk) (c w : Nat) (regs : List (Nat × Nat)) : Filled :=
  let bytes := (wloadRanges w regs).flatMap fun r => b.tpRead c r.1 r.2
  let g := originOf (fld w 80 79)
  let lay := wlLayout w
  if lay = 1 && wlSrc w == 1 then fillPair bytes g
  else if lay = 1 && wlSrc w == 2 then fillTransposed bytes (fld w 78 78)
  else if lay = 1 || lay = 2 then fillTile bytes (layoutDepths lay) g
  else if lay = 4 then
    (if wlSrc w = 0 then .ok ((List.range 8).map fun j => t2Unpack 2048 (bytesAt bytes (512 * j) 512), [])
     else .ok ((List.range 8).map fun j => (unpackEls fBIN1 2048 (bytesAt bytes (256 * j) 256)).map
       fun x => if x = 0 then 1 else -1, []))
  else match t5Planes bytes 0 (wlN w) 410 2048 with
    | .error e => .error e
    | .ok p => .ok (p, [])

/-- The zero-depth mask of planes (R98). -/
def zeroMask (ps : List (List Int)) : Nat :=
  (List.range ps.length).foldl (fun m j => if (nth ps j []).all (· == 0) then m + 2 ^ j else m) 0

/-- A WLOAD starts: its slot is LOADING; n = 0 leaves the slot and is complete (R100). The fill's result is kept in the
slot until WLOAD_FILL_DONE; a faulting load changes only the state and layout (R118). -/
def Blk.startWload (b : Blk) (c w : Nat) (regs : List (Nat × Nat)) : Blk × Option Done :=
  if wlN w = 0 then (b, some okDone) else
  let x := b.cove c
  let old := x.slot (wlSlot w)
  let s := match b.fillOf c w regs with
    | .ok (p, e) => { st := 1, layout := wlLayout w, n := wlN w, zero := zeroMask p, fmt := wFmtB w, planes := p, exps := e, bad := none }
    | .error d => { old with st := 1, layout := wlLayout w, bad := some d }
  (b.setCove c (x.setSlot (wlSlot w) s), none)

/-- A fill ends: READY, or EMPTY with the fault it found (R100). -/
def Slot.filled (s : Slot) : Slot × Done :=
  match s.bad with
  | none => ({ s with st := 2 }, okDone)
  | some d => ({ s with st := 0, bad := none }, fault stFORMAT d)

/-! ### Streaming (R103, R104, R186) -/

/-- Does the array accept a streaming format in the mode of an opcode (R83)? -/
def streamFmtOk (op f : Nat) : Bool :=
  if op = 0x11 then 4 ≤ f && f ≤ 8 else if op = 0x12 then f == 5 || f == 6 else f == 3
/-- Does a layout belong to the mode of an opcode (R102)? -/
def layoutFits (op lay : Nat) : Bool := if op = 0x11 then lay ≤ 2 else if op = 0x12 then lay == 3 else lay == 4

/-- One block of a token: its 32 integer images with elements at or beyond VE zero, and its effective exponent; or the
offset of its NaN scale within the operand (R81, R82, R104, R186). -/
def Blk.streamBlock (b : Blk) (c w : Nat) (regs : List (Nat × Nat)) (m k : Nat) : Except Nat (List Int × Int) :=
  let f := wFmtA w
  let a := arrAddr w regs + m * arrStride w + k * arrBlockBytes w
  let at_ := arrScales w regs + m * arrBlocks (wOpcode w) + k
  let sc := if arrSplit w then b.tpNat c at_ 1 else b.tpNat c (a + burstScaleOff f) 1
  if sc = 0xFF then
    .error (if arrSplit w then m * arrBlocks (wOpcode w) + k else m * arrStride w + k * arrBlockBytes w + burstScaleOff f)
  else
    let els := (unpackEls f 32 (b.tpRead c a (elBytes f 32))).map (intImage f)
    .ok (els.take (arrVE w - 32 * k) ++ List.replicate (32 - (arrVE w - 32 * k)) 0, (sc : Int) - effBias f)

/-- One token: its read blocks in order. -/
def Blk.streamToken (b : Blk) (c w : Nat) (regs : List (Nat × Nat)) (m : Nat) : Except Nat (List (List Int × Int)) :=
  (List.range (arrReadBlocks w)).mapM (b.streamBlock c w regs m)

/-- Tokens from m on, n of them, up to the first that faults: the tokens and the offset of the fault. -/
def Blk.streamTokens (b : Blk) (c w : Nat) (regs : List (Nat × Nat)) : Nat → Nat → List (List (List Int × Int)) × Option Nat
  | 0, _ => ([], none)
  | n + 1, m =>
    match b.streamToken c w regs m with
    | .error e => ([], some e)
    | .ok t => let r := b.streamTokens c w regs n (m + 1); (t :: r.1, r.2)

/-- The sum of products of two lists. -/
def dot : List Int → List Int → Int
  | a :: r, x :: s => a * x + dot r s
  | _, _ => 0
/-- Every q-th element of a list from its head. -/
def everyNth (q : Nat) : Nat → List Int → List Int
  | 0, _ => []
  | n + 1, l => match l with | [] => [] | x :: _ => x :: everyNth q n (l.drop q)

/-- The block partial of column c, block k: element q·r + j of the token meets row r at depth j; q is 1, 4 or 8 rows' share
of R95, and planes are those of the pass. -/
def blockPartial (planes : List (List Int)) (q c k : Nat) (x : List Int) : Int :=
  let rows := 32 / q
  (List.range q).foldl (fun a j =>
    a + dot (((nth planes j []).drop (c * 64 + k * rows)).take rows) (everyNth q rows (x.drop j))) 0

/-- Contributions of one token in a pass of weight 3^i: for every column its block partials with their exponent sums
(R96, R97, R103). -/
def tokenCols (s : Slot) (planes : List (List Int)) (q i : Nat) (tok : List (List Int × Int)) : List (List (Int × Int)) :=
  (List.range 32).map fun c =>
    (List.range tok.length).map fun k =>
      let t := nth tok k ([], 0)
      (3 ^ i * blockPartial planes q c k t.1, t.2 + (if s.layout = 1 || s.layout = 2 then nth s.exps (c * 2 + k) 0 else 0))

/-- One pass over its tokens, token m landing in logical row m of the range. -/
def Blk.runPass (b : Blk) (c w : Nat) (s : Slot) (planes : List (List Int)) (q i : Nat)
    (toks : List (List (List Int × Int))) : Blk :=
  (List.range toks.length).foldl (fun b m =>
    b.landRow c (arrDom w) (arrAnchor w) (physOf (arrDom w) (arrRow w) m) (tokenCols s planes q i (nth toks m []))) b

/-- The weight of an integer in non-adjacent form: its nonzero digits (R111). -/
def nafWeight : Nat → Nat → Nat
  | 0, _ => 0
  | n + 1, x => if x % 2 = 0 then nafWeight n (x / 2) else if x % 4 = 1 then 1 + nafWeight n (x / 2) else 1 + nafWeight n ((x + 1) / 2)
/-- Idle sub-lane cycles and all-zero quads of one token: four elements for each of 64 Strands (R112, R115). -/
def quadCounts (tok : List (List Int × Int)) : Nat × Nat :=
  let x := tok.flatMap Prod.fst
  (List.range 64).foldl (fun a r =>
    let ws := (List.range 4).map fun j => nafWeight 9 (nth x (4 * r + j) 0).natAbs
    let mx := ws.foldl max 0
    if mx = 0 then (a.1, a.2 + 1) else (a.1 + ws.foldl (fun t v => t + (mx - v)) 0, a.2)) (0, 0)

/-- The passes of a MACC as (depth, weight index) (R105). -/
def maccPasses (w : Nat) : List (Nat × Nat) :=
  if wFmtB w = 0 then [(arrDepth w, 0)]
  else (List.range (if wFmtB w = 1 then 3 else 6)).map fun i => (i, i)

/-- How a streaming instruction ends: complete, or with the first fault and the tile rows done before it (R82, R170). -/
def streamDone (bad : Option Nat) (rows : Nat) : Done :=
  match bad with
  | none => okDone
  | some off => fault stFORMAT (fmtDetail 2 off) rows

/-- MACC: each named pass in rising depth, zero planes skipped with SKIP_EN (R103 to R106). -/
def Blk.runMacc (b : Blk) (c w : Nat) (regs : List (Nat × Nat)) : Blk × Done :=
  let s := (b.cove c).slot (arrSlot w)
  let m := arrM w regs
  if s.st != 2 then (b, badParam)
  else if m = 0 then (b, okDone)
  else
    let skip := fun (p : Nat × Nat) => b.cfgGet (cfgCV c + 0x1000) % 2 == 1 && tbit s.zero p.1
    let passes := (maccPasses w).filter fun p => !skip p
    let skipped := (maccPasses w).length - passes.length
    let toks := b.streamTokens c w regs m 0
    match passes, toks.2 with
    | [], _ => (b.cvCount c 0x1018 skipped, okDone)
    | p :: _, some off =>
      let before := ((maccPasses w).takeWhile fun q => q.1 != p.1).length
      let b1 := b.runPass c w s [nth s.planes p.1 []] 1 p.2 toks.1
      (((b1.cvCount c 0x1010 1).cvCount c 0x1018 before).cvCount c 0x1020 toks.1.length, streamDone (some off) toks.1.length)
    | _, none =>
      let b1 := passes.foldl (fun b p => b.runPass c w s [nth s.planes p.1 []] 1 p.2 toks.1) b
      (((b1.cvCount c 0x1010 passes.length).cvCount c 0x1018 skipped).cvCount c 0x1020 (passes.length * m), okDone)

/-- RIPPLE and BINACC: one pass over all depths (R111, R116); RIPPLE counts its idle sub-lanes and zero quads (R115). -/
def Blk.runOnePass (b : Blk) (c w : Nat) (regs : List (Nat × Nat)) : Blk × Done :=
  let s := (b.cove c).slot (arrSlot w)
  let m := arrM w regs
  if s.st != 2 then (b, badParam)
  else if m = 0 then (b, okDone)
  else
    let toks := b.streamTokens c w regs m 0
    let q := if wOpcode w = 0x12 then 4 else 8
    let b1 := (b.runPass c w s s.planes q 0 toks.1).cvCount c 0x1020 toks.1.length
    let b2 := if wOpcode w = 0x12 then
        let cs := toks.1.map quadCounts
        (b1.cvCount c 0x1040 (cs.foldl (fun a p => a + p.1) 0)).cvCount c 0x1050 (cs.foldl (fun a p => a + p.2) 0)
      else b1
    (b2, streamDone toks.2 toks.1.length)

/-- What a slot will be for an array instruction issued now: the last earlier WLOAD into it that has not ended its fill, or
the slot as it stands (R102). -/
structure SlotView where
  layout : Nat
  n : Nat
  fmt : Nat
  deriving DecidableEq, Repr

/-- The slot as the issue check of an array instruction sees it; none when EMPTY. -/
def Blk.slotView (b : Blk) (c k : Nat) : Option SlotView :=
  let x := b.cove c
  let loads := x.seq.inflight.filter fun e =>
    e.queue == 0 && e.done.isNone && wOpcode e.word == 0x10 && wlSlot e.word == k && wlN e.word != 0
  match loads.getLast? with
  | some e => some ⟨wlLayout e.word, wlN e.word, wFmtB e.word⟩
  | none =>
    let s := x.slot k
    if s.st = 2 then some ⟨s.layout, s.n, s.fmt⟩ else none

/-- The checks of MACC, RIPPLE and BINACC at issue, before the stamp (R102, R121, R186). -/
def Blk.streamCheck (b : Blk) (c w : Nat) (regs : List (Nat × Nat)) : Option Done :=
  let op := wOpcode w
  let m := arrM w regs
  if (if arrDom w = 1 then 512 else 1024) < m || !streamFmtOk op (wFmtA w) then some badParam
  else match b.slotView c (arrSlot w) with
    | none => some badParam
    | some v =>
      if !layoutFits op v.layout || wFmtB w != v.fmt || (v.layout == 0 && v.n ≤ arrDepth w) ||
        !rangeOk (arrDom w) (arrRow w) m then some badParam else none

/-! ### PLANEX (R110, R187) -/

/-- The formats PLANEX takes. -/
def planexCheck (w : Nat) : Option Done :=
  let a := wFmtA w
  if (wFmtB w = 1 && (a == 4 || a == 5 || a == 7)) || (wFmtB w = 2 && (a == 6 || a == 8)) then none else some badParam

/-- PLANEX: the operand as a TQ3 or TQ6 tile record, or the fault of its first NaN scale (R82, R84, R110). -/
def Blk.runPlanex (b : Blk) (c w : Nat) (regs : List (Nat × Nat)) : Blk × Done :=
  let f := wFmtA w
  let src := xaddr w regs 90 69
  let offs := (List.range 64).map fun i => (i / 2) * fld w 46 31 + (i % 2) * burstBytes f
  let scs := offs.map fun o => b.tpNat c (src + o + burstScaleOff f) 1
  match firstIdx (· == 0xFF) scs 0 with
  | some i => (b, fmtFault 2 (nth offs i 0 + burstScaleOff f))
  | none =>
    let nd := if wFmtB w = 1 then 3 else 6
    let digs := offs.flatMap fun o => (unpackEls f 32 (b.tpRead c (src + o) (elBytes f 32))).map fun e => btDigits nd (intImage f e)
    let rec_ := scs.map (BitVec.ofNat 8) ++ (List.range nd).flatMap fun i => t5Pack (digs.map fun d => nth d i 0)
    (b.tpWrite c (fld w 68 47) rec_, okDone)

end Sys2Proof.Machine
end

