-- ==== Sys2Proof/Machine/Acm.lean ====
section
/-! DEFINITION. The service port of the accumulator memory: ACLR, ACVT and AREAD, the encoding of exact values into every
element format with measured or supplied block scales, the statistics and their delivery to a watch slot (R130 to R141,
R148, R149, R536). -/
namespace Sys2Proof.Machine

/-! ### Draws (R87, R90) -/

/-- The draws of n output elements from element j on, and the generator states after them; without SR no draw is made. -/
def drawFrom (mode : Nat) : Nat → Nat → List Nat → List Nat × List Nat
  | 0, _, g => ([], g)
  | n + 1, j, g =>
    let d := drawAt mode g j
    let r := drawFrom mode n (j + 1) d.2
    (d.1 :: r.1, r.2)
/-- n draws of a Cove for one instruction. -/
def Blk.draws (b : Blk) (c mode n : Nat) : List Nat × Blk :=
  if mode = 2 then
    let r := drawFrom mode n 0 (b.gens c)
    (r.1, b.setGens c r.2)
  else (List.replicate n 0, b)

/-! ### Encoding (R84, R134 to R138, R533 to R535) -/

/-- The F of R136 as (integer, exponent). -/
def scaleF (f : Nat) : Nat × Int :=
  if f = fINT4 then (7, 0) else if f = fINT8 then (127, 0) else if f = fTQ3 then (13, 0) else if f = fTQ6 then (364, 0)
  else if f = fE2M1 then (6, 0) else if f = fE2M3 then (15, -1) else if f = fE4M3 then (448, 0)
  else if f = fE5M2 then (57344, 0) else (1, 0)
/-- The smallest s with m × 2^e at most F × 2^s, for positive m (R136). -/
def scaleExp (f m : Nat) (e : Int) : Int :=
  let t : Int := (Nat.log2 m : Int) - (Nat.log2 (scaleF f).1 : Int)
  let fits := if 0 ≤ t then m ≤ (scaleF f).1 * 2 ^ t.toNat else m * 2 ^ (-t).toNat ≤ (scaleF f).1
  (if fits then t else t + 1) + e - (scaleF f).2

/-- The largest magnitude among the finite values of a block. -/
def maxMag : List Val → Nat × Int
  | [] => (0, 0)
  | .fin m e :: r =>
    let q := maxMag r
    if dyLt (q.1 : Int) q.2 (m.natAbs : Int) e then (m.natAbs, e) else q
  | _ :: r => maxMag r
/-- The measured block scale and whether it was clamped (R136). -/
def measured (f : Nat) (blk : List Val) : Nat × Bool :=
  let m := maxMag blk
  if m.1 = 0 then (0x7F, false) else
  let e := 127 + scaleExp f m.1 m.2
  if e < 0 then (0, true) else if 0xFE < e then (0xFE, true) else (e.toNat, false)

/-- Has the target neither NaN nor infinity (R138, R190)? -/
def noSpecials (f : Nat) : Bool := f ≤ 8
/-- What R138 writes for an INF entry: a code, or the value for TRIT, TQ3 and TQ6. -/
def infEntry (f : Nat) : Int :=
  if f = fFP32 then 0xFFC00000 else if f = fBF16 then 0xFFC0 else if f = fE4M3 || f = fE5M2 then 0xFF
  else if f = fINT2 then 2 else if f = fINT4 then 8 else if f = fINT8 then 0x80 else if f = fBIN1 then 1
  else if f = fTQ3 then -13 else if f = fTQ6 then -364 else if f = fTRIT then -1 else 0

/-- An encoded element: its code, or its value in a trit format; whether it saturated; whether it had no code of its own. -/
structure Enc where
  code : Int
  sat : Bool := false
  bad : Bool := false
  deriving DecidableEq, Repr

/-- One element encoded, x its value over the block scale. acc marks a readout, where a NaN stands for an INF entry. θ as
(mantissa, exponent), or none for +infinity. -/
def encodeEl (f mode draw : Nat) (acc : Bool) (th : Option (Int × Int)) (x : Val) : Enc :=
  match x with
  | .fin m e =>
    if f = fTRIT then
      { code := match th with
          | none => 0
          | some t => if dyLt t.1 t.2 m e then 1 else if dyLt m e (-t.1) t.2 then -1 else 0 }
    else if f = fTQ3 || f = fTQ6 then
      let q := roundInt mode draw m e
      let lim : Int := if f = fTQ3 then 13 else 364
      if lim < q then { code := lim, sat := true } else if q < -lim then { code := -lim, sat := true } else { code := q }
    else if f = fBIN1 then { code := if m < 0 then 1 else 0 }
    else if isIntFmt f then
      let r := satInt f (roundInt mode draw m e)
      { code := r.1, sat := r.2 }
    else
      let r := roundFloat f mode draw m e
      { code := r.1, sat := r.2 }
  | v =>
    if acc || noSpecials f then { code := infEntry f, bad := true }
    else { code := (valToFloat f mode draw v).1 }

/-- An encoded block: codes, its scale byte, counts of saturations, clamped scales and elements without a code. -/
structure EncBlk where
  codes : List Int := []
  scale : Nat := 0x7F
  sats : Nat := 0
  clamps : Nat := 0
  bads : Nat := 0
  deriving DecidableEq, Repr

/-- One block encoded, with a supplied scale or a measured one; noMark: no scale is written, so an element that would mark
its E2M1 or E2M3 block takes the most negative code instead (R138). -/
def encodeBlock (f mode : Nat) (acc noMark : Bool) (th : Option (Int × Int)) (sup : Option Nat) (blk : List Val)
    (draws : List Nat) : EncBlk :=
  let scaled := f != fTRIT && f != fBF16 && f != fFP32
  let ms := match sup with | some e => (e, false) | none => if scaled then measured f blk else (0x7F, false)
  let els := (blk.zip draws).map fun p => encodeEl f mode p.2 acc th (if scaled then scaleVal p.1 (127 - (ms.1 : Int)) else p.1)
  let mark := (f = fE2M1 || f = fE2M3) && els.any (·.bad)
  { codes := els.map fun e => if e.bad && mark && noMark then (if f = fE2M1 then 0xF else 0x3F) else e.code
    scale := if mark then 0xFF else ms.1
    sats := (els.filter (·.sat)).length
    clamps := bnat ms.2
    bads := (els.filter (·.bad)).length }

/-- A list cut into runs of n. -/
def runsOf {α : Type} (n : Nat) : Nat → List α → List (List α)
  | 0, _ => []
  | k + 1, l => if l.isEmpty then [] else l.take n :: runsOf n k (l.drop n)
/-- The blocks of a list of elements. -/
def blocksOf {α : Type} (l : List α) : List (List α) := runsOf 32 (cdiv l.length 32) l

/-- The burst of one block, its last positions code 0 (R78, R190). -/
def burstOf (f : Nat) (k : EncBlk) : List Byte :=
  let els := packEls f ((k.codes ++ List.replicate (32 - k.codes.length) 0).map Int.toNat)
  els ++ BitVec.ofNat 8 k.scale :: zeros (burstBytes f - els.length - 1)

/-! ### ACLR and ACVT (R130 to R132) -/

def aclrF (w : Nat) : Nat := fld w 95 86
def aclrN (w : Nat) : Nat := fld w 85 75
def aclrDom (w : Nat) : Nat := fld w 74 74
def aclrAnchor (w : Nat) : Nat := fld w 73 66

/-- ACLR at issue: its range, and the pending tags it sets (R121, R127). -/
def Blk.checkAclr (b : Blk) (c w : Nat) : Option Done × Blk :=
  if !rangeOk (aclrDom w) (aclrF w) (aclrN w) then (some badParam, b) else
  (none, b.setCove c ((physRows (aclrDom w) (aclrF w) (aclrN w)).foldl
    (fun x r => x.setPendTag r (aclrDom w, aclrAnchor w)) (b.cove c)))
/-- ACLR: zero entries, the stamp, both flags clear (R130). -/
def Blk.runAclr (b : Blk) (c w : Nat) : Blk × Done :=
  (b.setCove c ((physRows (aclrDom w) (aclrF w) (aclrN w)).foldl
    (fun x r => (x.setAccRow r (List.replicate 32 0)).setTag r { dom := aclrDom w, anchor := aclrAnchor w }) (b.cove c)), okDone)

def acvtSrc (w : Nat) : Nat := fld w 95 86
def acvtDst (w : Nat) : Nat := fld w 85 76
def acvtN (w : Nat) : Nat := fld w 75 65
def acvtDom1 (w : Nat) : Nat := fld w 64 64
def acvtAnchor1 (w : Nat) : Nat := fld w 63 56
def acvtDom2 (w : Nat) : Nat := fld w 55 55
def acvtAnchor2 (w : Nat) : Nat := fld w 54 47
def acvtMode (w : Nat) : Nat := fld w 46 45

/-- ACVT at issue: ranges, overlap, the source's stamp, and the pending tags it sets (R127, R128, R132). -/
def Blk.checkAcvt (b : Blk) (c w : Nat) : Option Done × Blk :=
  let n := acvtN w
  let ps := physRows (acvtDom1 w) (acvtSrc w) n
  let pd := physRows (acvtDom2 w) (acvtDst w) n
  if !rangeOk (acvtDom1 w) (acvtSrc w) n || !rangeOk (acvtDom2 w) (acvtDst w) n then (some badParam, b)
  else if !(acvtSrc w == acvtDst w && acvtDom1 w == acvtDom2 w) && ps.any pd.contains then (some badParam, b)
  else match b.stampCheck c (acvtDom1 w) (acvtAnchor1 w) (acvtSrc w) n with
    | (some d, b1) => (some d, b1)
    | (none, b1) => (none, b1.setCove c (pd.foldl (fun x r => x.setPendTag r (acvtDom2 w, acvtAnchor2 w)) (b1.cove c)))

/-- One value re-expressed in another unit (R131): the value, whether a nonzero part was dropped, whether it became INF. -/
def reexpress (d1 d2 : Nat) (l1 l2 : Int) (mode draw : Nat) (v : Int) : Int × Bool × Bool :=
  if isInfVal d1 v then (infVal d2, false, false)
  else
    let r := if l2 ≤ l1 then v * 2 ^ (l1 - l2).toNat else roundInt mode draw v (l1 - l2)
    let drop := l1 < l2 && v % 2 ^ (l2 - l1).toNat != 0
    if outside d2 r then (infVal d2, drop, true) else (r, drop, false)

/-- ACVT: every row read before its destination is written (R131). -/
def Blk.runAcvt (b : Blk) (c w : Nat) : Blk × Done :=
  let d1 := acvtDom1 w
  let d2 := acvtDom2 w
  let n := acvtN w
  let l1 := unitL d1 (acvtAnchor1 w)
  let l2 := unitL d2 (acvtAnchor2 w)
  let dr := b.draws c (acvtMode w) (32 * n)
  let x := b.cove c
  let rows := (List.range n).map fun i =>
    let r := physOf d1 (acvtSrc w) i
    let vs := ((x.logical d1 r).zip ((dr.1.drop (32 * i)).take 32)).map fun p => reexpress d1 d2 l1 l2 (acvtMode w) p.2 p.1
    (vs, x.rowInexact d1 r)
  let x2 := (List.range n).foldl (fun y i =>
    let row := nth rows i ([], false)
    let r := physOf d2 (acvtDst w) i
    let vals := row.1.map fun v => v.1
    (y.setLogical d2 r vals).mapTags d2 r fun _ =>
      { dom := d2, anchor := acvtAnchor2 w, inexact := row.2 || row.1.any (fun v => v.2.1), inf := vals.any (isInfVal d2) })
    (dr.2.cove c)
  let all := rows.flatMap Prod.fst
  (((dr.2.setCove c x2).cvCount c 0x1800 (all.filter fun v => v.2.1).length).cvCount c 0x1808 (all.filter fun v => v.2.2).length, okDone)

/-! ### AREAD (R133 to R141) -/

def ardF (w : Nat) : Nat := fld w 90 81
def ardN (w : Nat) : Nat := fld w 80 70
def ardDom (w : Nat) : Nat := fld w 69 69
def ardAnchor (w : Nat) : Nat := fld w 68 61
def ardLayout (w : Nat) : Nat := fld w 24 23
def ardMode (w : Nat) : Nat := fld w 22 21
def ardRaw (w : Nat) : Bool := tbit w 20
def ardClr (w : Nat) : Bool := tbit w 19
def ardSplit (w : Nat) : Bool := tbit w 18
def ardSup (w : Nat) : Bool := tbit w 17
def ardRsrc (w : Nat) : Bool := tbit w 11
def ardWen (w : Nat) : Bool := tbit w 25
def ardC (w : Nat) (regs : List (Nat × Nat)) : Nat := sreg32 regs (fld w 38 34)
def ardTheta (w : Nat) (regs : List (Nat × Nat)) : Nat := sreg32 regs (fld w 10 6)

/-- Is a layout and count in the table of R135, R141 and R536? -/
def layoutOk (w : Nat) : Bool :=
  let f := wFmtB w
  let n := ardN w
  if ardRaw w then ardLayout w == 0
  else if ardLayout w = 0 then f != fTQ3 && f != fTQ6
  else if ardLayout w = 1 then (f == fTRIT || f == fTQ3 || f == fTQ6) && (n == 64 || n == 0)
  else f == fTQ3 && (n == 32 || n == 0)

/-- A θ of R534: neither NaN nor below zero; −0 is +0. -/
def thetaBad (code : Nat) : Bool :=
  match fp32 code with
  | .nan => true
  | .inf neg => neg
  | .fin m _ => m < 0
def thetaOf (code : Nat) : Option (Int × Int) :=
  match fp32 code with
  | .fin m e => some (m, e)
  | _ => none

/-- AREAD at issue (R128, R134, R135, R141, R534, R536). -/
def Blk.checkAread (b : Blk) (c w : Nat) (regs : List (Nat × Nat)) : Option Done × Blk :=
  let n := ardN w
  if (if ardDom w = 1 then 512 else 1024) < n || !layoutOk w ||
     (ardSplit w && (ardRaw w || ardLayout w != 0 || !isBurstFmt (wFmtB w))) ||
     !fp32Finite (ardC w regs) || (!ardRaw w && wFmtB w == fTRIT && thetaBad (ardTheta w regs)) then (some badParam, b)
  else if ardRsrc w then (none, b)
  else if !rangeOk (ardDom w) (ardF w) n then (some badParam, b)
  else b.stampCheck c (ardDom w) (ardAnchor w) (ardF w) n

/-- The rows an AREAD reads: values and INEXACT flags; raw records carry no flag (R141). -/
def Blk.areadRows (b : Blk) (c w : Nat) (regs : List (Nat × Nat)) : List (List Int × Bool) :=
  let dom := ardDom w
  (List.range (ardN w)).map fun i =>
    if ardRsrc w then
      let by_ := if dom = 0 then 8 else 16
      let a := sreg regs (fld w 5 1)
      ((List.range 32).map fun k => sx (domBits dom) (b.tpNat c (a + (i * 32 + k) * by_) by_), false)
    else
      let r := physOf dom (ardF w) i
      ((b.cove c).logical dom r, (b.cove c).rowInexact dom r)

/-- Output elements in output order as (row, column): row by row, plane image order, or chunk order (R75, R77, R135). -/
def areadOrder (w : Nat) : List (Nat × Nat) :=
  if ardLayout w = 1 then (List.range 2048).map fun i => (i % 64, i / 64)
  else if ardLayout w = 2 then (List.range 1024).map fun i => (i / 64 + 16 * (i % 64 / 32), i % 32)
  else (List.range (32 * ardN w)).map fun i => (i / 32, i % 32)

/-- The statistics of R140. -/
def areadStats (w cfac : Nat) (rows : List (List Int × Bool)) : AcmStats :=
  let dom := ardDom w
  let vs := rows.flatMap Prod.fst
  let fin := vs.filter fun v => !isInfVal dom v
  { ssq := fin.foldl (fun a v => a + v.natAbs * v.natAbs) 0, max := fin.foldl (fun a v => max a v.natAbs) 0,
    l := unitL dom (ardAnchor w), c := cfac, elements := fin.length, infSeen := fin.length < vs.length,
    inexactSeen := rows.any Prod.snd }

/-- The span of a partition that holds a Cove, or 0xFF (R152). -/
def Blk.spanOf (b : Blk) (p c : Nat) : Nat :=
  match firstIdx (fun n => let s := b.span p n; s.opened && s.first ≤ c && c < s.first + s.count) (List.range 16) 0 with
  | some n => n
  | none => 0xFF
/-- The statistics unit SL of a slot, two's complement (R153). -/
def Watch.sl (k : Watch) : Int := sx 16 (fld k.ctl 63 48)
def Watch.samples (k : Watch) : Nat := fld k.ctl 47 32
/-- One delivery joined to the open sample (R149). Indications: 0 INF, 1 INEXACT, 2 ZERO, 3 SAT, 4 MIXED. -/
def Watch.join (k : Watch) (span : Nat) (s : AcmStats) : Watch :=
  let cm := match fp32 s.c with | .fin m e => (m.natAbs, e) | _ => (0, 0)
  let x : Int := 2 * s.l + 2 * cm.2 - 2 * k.sl
  let num := s.ssq * cm.1 * cm.1
  let add := if 0 ≤ x then num * 2 ^ x.toNat else num / 2 ^ (-x).toNat
  let ine := s.inexactSeen || (x < 0 && num % 2 ^ (-x).toNat != 0)
  let sum := k.sumsq + add
  let offer : Int := if s.max = 0 || cm.1 = 0 then -32768 else (Nat.log2 ((s.max * cm.1) ^ 16) : Int) + 16 * (s.l + cm.2)
  let mixed := k.count != 0 && span != k.span
  { k with
    sumsq := min sum (2 ^ 512 - 1), maxlog := max k.maxlog offer, count := k.count + 1,
    span := if k.count = 0 then span else k.span,
    ind := k.ind ||| bnat s.infSeen ||| (2 * bnat ine) ||| (if 2 ^ 512 ≤ sum then 8 else 0) ||| (if mixed then 16 else 0) }
/-- A delivery of a Cove to a slot of its partition: to the open sample, or, once that has all its deliveries, kept for the
next (R148, R149). -/
def Blk.deliver (b : Blk) (c slot : Nat) (s : AcmStats) : Blk :=
  match b.partOfCove c with
  | none => b
  | some p =>
    let k := b.watch p slot
    if fld k.ctl 1 0 = 0 then b
    else if k.count < k.samples then b.setWatch p slot (k.join (b.spanOf p c) s)
    else b.setWatch p slot { k with late := k.late ++ [(b.spanOf p c, s)] }

/-- The raw output of one value (R141). -/
def rawBytes (dom : Nat) (v : Int) : List Byte := leBytes (if dom = 0 then 8 else 16) (toTwos (domBits dom) v)

/-- The bytes of a converted AREAD: its record, and its split scale array. -/
def areadOut (w : Nat) (blks : List EncBlk) : List Byte × List Byte :=
  let f := wFmtB w
  let scales := blks.map fun k => BitVec.ofNat 8 k.scale
  let codes := blks.flatMap (·.codes)
  if f = fTRIT then (t5Pack codes, [])
  else if f = fTQ3 || f = fTQ6 then
    let nd := if f = fTQ3 then 3 else 6
    let digs := codes.map (btDigits nd)
    let rec_ := scales ++ (List.range nd).flatMap fun i => t5Pack (digs.map fun d => nth d i 0)
    (rec_ ++ (if ardLayout w = 2 then zeros (704 - rec_.length) else []), [])
  else if !isBurstFmt f then (packEls f (codes.map Int.toNat), [])
  else if ardSplit w then (packEls f (codes.map Int.toNat), scales)
  else (blks.flatMap (burstOf f), [])

/-- AREAD's work: read, statistics, conversion, delivery (R133 to R141). -/
def Blk.runAread (b : Blk) (c w : Nat) (regs : List (Nat × Nat)) : Blk × Done :=
  let n := ardN w
  let dom := ardDom w
  if n = 0 then (b, okDone) else
  let sup := if ardSup w && 0 < areadScales w then (b.tpRead c (sreg regs (fld w 16 12)) (areadScales w)).map BitVec.toNat else []
  match firstIdx (· == 0xFF) sup 0 with
  | some i => (b, fmtFault 2 i)
  | none =>
    let rows := b.areadRows c w regs
    let st := areadStats w (ardC w regs) rows
    let infs := 32 * n - st.elements
    let b1 := if ardClr w && !ardRsrc w then
        b.setCove c ((physRows dom (ardF w) n).foldl
          (fun x r => (x.setAccRow r (List.replicate 32 0)).setTag r { x.tag r with inexact := false, inf := false }) (b.cove c))
      else b
    let b2 :=
      if ardRaw w then
        b1.tpWrite c (xaddr w regs 60 39) (rows.flatMap fun r => r.1.flatMap (rawBytes dom))
      else
        let cm := match fp32 (ardC w regs) with | .fin m e => (m, e) | _ => (0, 0)
        let l := unitL dom (ardAnchor w)
        let ys := (areadOrder w).map fun p =>
          let v := nth (nth rows p.1 ([], false)).1 p.2 0
          if isInfVal dom v then Val.nan else .fin (v * cm.1) (l + cm.2)
        let dr := b1.draws c (ardMode w) ys.length
        let blks := ((blocksOf ys).zip (blocksOf dr.1)).zipIdx.map fun p =>
          encodeBlock (wFmtB w) (ardMode w) true (ardSplit w && ardSup w)
            (if wFmtB w = fTRIT then thetaOf (ardTheta w regs) else none) sup[p.2]? p.1.1 p.1.2
        let out := areadOut w blks
        let b3 := dr.2.tpWrite c (xaddr w regs 60 39) out.1
        let b4 := if ardSplit w && !ardSup w then b3.tpWrite c (sreg regs (fld w 16 12)) out.2 else b3
        (b4.cvCount c 0x38 (blks.foldl (fun a k => a + k.sats) 0)).cvCount c 0x1820 (blks.foldl (fun a k => a + k.clamps) 0)
    let b5 := (b2.cvCount c 0x1810 infs)
    let b6 := b5.setCove c { b5.cove c with stats := st }
    let b7 := if ardWen w then b6.deliver c (fld w 33 26) st else b6
    (b7, if 0 < infs then fault stINF (satDetail infs)
         else if st.inexactSeen then fault stINEXACT (rows.filter Prod.snd).length else okDone)

end Sys2Proof.Machine
end

