-- ==== Sys2Proof/Machine/VecFn.lean ====
section
/-! DEFINITION. The arithmetic of the vector unit: binary32 steps and the functions of VFN within the bounds of R190. Where
R190 gives a bound and no value, the result is a free choice among the binary32 values within the bound (log entry 8). -/
namespace Sys2Proof.Machine

/-! ### Exact operations on values (R190, R532, R533) -/

def vNeg : Val → Val
  | .fin m e => .fin (-m) e
  | .inf n => .inf (!n)
  | .nan => .nan
def vAdd : Val → Val → Val
  | .fin m e, .fin n f => let r := dyAdd m e n f; .fin r.1 r.2
  | .nan, _ => .nan
  | _, .nan => .nan
  | .inf a, .inf b => if a = b then .inf a else .nan
  | .inf a, _ => .inf a
  | _, .inf b => .inf b
def vSub (a b : Val) : Val := vAdd a (vNeg b)
def vIsNeg : Val → Bool
  | .fin m _ => m < 0
  | .inf n => n
  | .nan => false
def vIsZero : Val → Bool
  | .fin m _ => m == 0
  | _ => false
def vMul : Val → Val → Val
  | .fin m e, .fin n f => .fin (m * n) (e + f)
  | .nan, _ => .nan
  | _, .nan => .nan
  | a, b => if vIsZero a || vIsZero b then .nan else .inf (vIsNeg a != vIsNeg b)
/-- Is a below b? A NaN is below nothing. -/
def vLt : Val → Val → Bool
  | .fin m e, .fin n f => dyLt m e n f
  | .nan, _ => false
  | _, .nan => false
  | .inf a, .inf b => a && !b
  | .inf a, _ => a
  | _, .inf b => !b
/-- The maximum and minimum of IEEE 754-2019: a NaN gives a NaN (R190). -/
def vMax : Val → Val → Val
  | .nan, _ => .nan
  | _, .nan => .nan
  | a, b => if vLt a b then b else a
def vMin : Val → Val → Val
  | .nan, _ => .nan
  | _, .nan => .nan
  | a, b => if vLt b a then b else a
def vAbs (a : Val) : Val := if vIsNeg a then vNeg a else a

/-- A binary32 step: the rounded value and 1 when it saturated (R190, R533). -/
def r32 (v : Val) : Val × Nat := let r := valToFloat 0xC 0 0 v; (fp32 r.1, bnat r.2)
/-- A correctly rounded binary32 quotient (R190). -/
def vDiv : Val → Val → Val × Nat
  | .nan, _ => (.nan, 0)
  | _, .nan => (.nan, 0)
  | .inf _, .inf _ => (.nan, 0)
  | .inf a, b => (.inf (a != vIsNeg b), 0)
  | _, .inf _ => (.fin 0 0, 0)
  | .fin m e, .fin n f =>
    if n = 0 then (if m = 0 then .nan else .inf (m < 0), 0)
    else let r := roundFloatRat 0xC 0 0 ((m < 0) != (n < 0)) m.natAbs n.natAbs (e - f); (fp32 r.1, bnat r.2)

/-! ### Square root -/

/-- Integer square root by digits, from bit k down. -/
def isqrtBits : Nat → Nat → Nat → Nat
  | 0, _, r => r
  | k + 1, n, r => let c := r + 2 ^ k; isqrtBits k n (if c * c ≤ n then c else r)
def isqrt (n : Nat) : Nat := isqrtBits (Nat.log2 n / 2 + 1) n 0
/-- The root of a positive finite value, to 80 bits and more, a sticky half below: as (numerator over 2, exponent). -/
def rootOf (m : Nat) (e : Int) : Nat × Int :=
  let m1 := if e % 2 = 0 then m else 2 * m
  let e1 := if e % 2 = 0 then e else e - 1
  let n := m1 * 2 ^ 160
  let q := isqrt n
  (if q * q = n then 2 * q else 2 * q + 1, e1 / 2 - 80 - 1)
/-- SQRT, correctly rounded (R190). -/
def vSqrt : Val → Val × Nat
  | .fin m e => if m = 0 then (.fin 0 0, 0) else if m < 0 then (.nan, 0)
      else let r := rootOf m.natAbs e; r32 (.fin r.1 r.2)
  | .inf false => (.inf false, 0)
  | _ => (.nan, 0)

/-! ### Elementary functions, to well beyond binary32, as num/den × 2^ex -/

/-- A positive rational scaled by a power of two. -/
structure Approx where
  num : Nat
  den : Nat
  ex : Int
  deriving DecidableEq, Repr

def fxBits : Nat := 128
/-- ln 2, log2 e, sqrt(2/pi) and 0.044715 in 128-bit fixed point. -/
def fxLn2 : Nat := 235865763225513294137944142764154484399
def fxLog2e : Nat := 490923683258796565746369346286093237521
def fxRoot2Pi : Nat := 271506046879672464325182014351570923903
def fxGelu : Nat := 15215726036869763393764795571311515575

/-- exp of a fixed-point fraction in [0, 1): k terms of its series from term i. -/
def expSeries : Nat → Nat → Nat → Nat → Nat
  | 0, _, _, s => s
  | k + 1, x, t, s => let i := 40 - k; let t1 := t * x / 2 ^ fxBits / i; expSeries k x t1 (s + t1)
/-- A finite value in 128-bit fixed point, toward minus infinity. -/
def toFix (m e : Int) : Int :=
  let s := e + fxBits
  if 0 ≤ s then m * 2 ^ s.toNat else m / 2 ^ (-s).toNat
/-- 2 to a fixed-point power. -/
def exp2Fix (x : Int) : Approx :=
  let k := x / 2 ^ fxBits
  let f := (x % 2 ^ fxBits).toNat
  ⟨expSeries 40 (f * fxLn2 / 2 ^ fxBits) (2 ^ fxBits) (2 ^ fxBits), 1, k - fxBits⟩
/-- e to a fixed-point power. -/
def expFix (x : Int) : Approx := exp2Fix (x * fxLog2e / 2 ^ fxBits)
/-- Is the magnitude of a finite value at least 2^k? -/
def magAtLeast (m e k : Int) : Bool := m != 0 && k ≤ (Nat.log2 m.natAbs : Int) + e
/-- A finite value in fixed point with its magnitude held below 2^12, where every function here has long saturated. -/
def clampFix (m e : Int) : Int := if magAtLeast m e 12 then (if m < 0 then -(2 ^ (fxBits + 12)) else 2 ^ (fxBits + 12)) else toFix m e
/-- 1 / (1 + e^-x) of a fixed-point x. -/
def sigmoidFix (x : Int) : Approx :=
  let a := expFix (-(x.natAbs : Int))
  -- a.num × 2^a.ex with a.ex at most -128 and the value at most 1
  let one := 2 ^ (-a.ex).toNat
  if 0 ≤ x then ⟨one, one + a.num, 0⟩ else ⟨a.num, one + a.num, 0⟩
/-- Fractional bits of log2 of a mantissa with 192 fractional bits. -/
def logBits : Nat → Nat → Nat → Nat
  | 0, _, acc => acc
  | k + 1, y, acc =>
    let z := y * y / 2 ^ 192
    if 2 ^ 193 ≤ z then logBits k (z / 2) (2 * acc + 1) else logBits k z (2 * acc)

/-! ### Choice within the bound -/

/-- The binary32 values within k units in the last place of a positive approximation; about zero some are negative. -/
def within (k : Nat) (a : Approx) : List Nat :=
  let base := (roundFloatRat 0xC 1 0 false a.num a.den a.ex).1
  let u : Int := max (ratLog a.num a.den + a.ex - 23) (-149)
  (((List.range (2 * k + 2)).map fun i => base + i - k) ++ ((List.range k).map fun i => 0x80000001 + i)).filter fun c =>
    c % 2 ^ 31 ≤ 0x7F7FFFFF &&
    match fp32 c with
    | .fin m e =>
      -- |m 2^e - num/den 2^ex| ≤ k 2^u
      let d := dyAdd (m * a.den) e (-(a.num : Int)) a.ex
      !dyLt ((k * a.den : Nat) : Int) u (d.1.natAbs : Int) d.2
    | _ => false
/-- A result within k units in the last place: a free choice of the operand and the function (log entry 8); beyond the
largest finite magnitude it saturates (R533). -/
def choose (k site operand : Nat) (neg : Bool) (a : Approx) : Val × Nat :=
  let big := roundFloatRat 0xC 0 0 neg a.num a.den a.ex
  if big.2 then (fp32 big.1, 1) else
  let cs := (within k a).eraseDups
  let v := fp32 (nth cs (Config.ulpChoice site operand % cs.length) big.1)
  (if neg then vNeg v else v, 0)

/-- VFN (R189, R190): op of x. Specials follow IEEE 754; the limit cases of SILU and GELU at minus infinity are free. -/
def vecFn (op : Nat) (x : Val) : Val × Nat :=
  let key := (valToFloat 0xC 0 0 x).1
  match op, x with
  | _, .nan => (.nan, 0)
  | 3, x => match x with
    | .inf _ => (.fin 0 0, 0)
    | .fin m e => if m = 0 then (.inf false, 0) else choose 1 3 key (m < 0) ⟨1, m.natAbs, -e⟩
    | .nan => (.nan, 0)
  | 4, x => match x with
    | .inf n => (if n then .nan else .fin 0 0, 0)
    | .fin m e => if m = 0 then (.inf false, 0) else if m < 0 then (.nan, 0)
        else let r := rootOf m.natAbs e; choose 1 4 key false ⟨1, r.1, -r.2⟩
    | .nan => (.nan, 0)
  | 5, x => vSqrt x
  | 10, x => (if vIsNeg x then .fin 0 0 else x, 0)
  | 11, x => r32 (vMul x x)
  | 12, x => (vAbs x, 0)
  | 13, x => (vNeg x, 0)
  | 0, .inf n => (if n then .fin 0 0 else .inf false, 0)
  | 0, .fin m e => choose 2 0 key false (expFix (clampFix m e))
  | 1, .inf n => (if n then .fin 0 0 else .inf false, 0)
  | 1, .fin m e => choose 2 1 key false (exp2Fix (clampFix m e))
  | 2, .inf n => (if n then .nan else .inf false, 0)
  | 2, .fin m e =>
    if m = 0 then (.inf true, 0) else if m < 0 then (.nan, 0) else
    let n := Nat.log2 m.natAbs
    let y := m.natAbs * 2 ^ (192 - n)
    let v : Int := ((n : Int) + e) * 2 ^ 80 + logBits 80 y 0
    if v = 0 then (.fin 0 0, 0) else choose 2 2 key (v < 0) ⟨v.natAbs, 1, -80⟩
  | 6, .inf n => (.fin (if n then -1 else 1) 0, 0)
  | 6, .fin m e =>
    if m = 0 then (.fin 0 0, 0)
    else if magAtLeast m e (-20) then
      let s := sigmoidFix (clampFix (2 * (m.natAbs : Int)) e)
      choose 2 6 key (m < 0) ⟨2 * s.num - s.den, s.den, 0⟩
    else
      -- x (1 - x²/3)
      let d := 3 * 2 ^ (-2 * e).toNat
      choose 2 6 key (m < 0) ⟨m.natAbs * (d - m.natAbs * m.natAbs), d, e⟩
  | 7, .inf n => (.fin (if n then 0 else 1) 0, 0)
  | 7, .fin m e => let s := sigmoidFix (clampFix m e); choose 2 7 key false s
  | 8, .inf n => (if n then (if Config.ulpChoice 8 key % 2 = 0 then .fin 0 0 else .nan) else .inf false, 0)
  | 8, .fin m e =>
    if m = 0 then (.fin 0 0, 0) else
    let s := sigmoidFix (clampFix m e)
    choose 2 8 key (m < 0) ⟨m.natAbs * s.num, s.den, e⟩
  | _, .inf n => (if n then (if Config.ulpChoice 9 key % 2 = 0 then .fin 0 0 else .nan) else .inf false, 0)
  | _, .fin m e =>
    if m = 0 then (.fin 0 0, 0) else
    let x := clampFix m e
    let x3 := x * x / 2 ^ fxBits * x / 2 ^ fxBits
    let u := (x + x3 * fxGelu / 2 ^ fxBits) * fxRoot2Pi / 2 ^ fxBits
    let s := sigmoidFix (if 2 ^ (fxBits + 12) < (2 * u).natAbs then (if u < 0 then -(2 ^ (fxBits + 12)) else 2 ^ (fxBits + 12)) else 2 * u)
    choose 2 9 key (m < 0) ⟨m.natAbs * s.num, s.den, e⟩

end Sys2Proof.Machine
end

