-- ==== Sys2Proof/Machine/Vector.lean ====
section
/-! DEFINITION. The vector unit: VEW, VFN, VRED, VCVT and VOPT (R83 to R87, R189, R190, R532 to R535). -/
namespace Sys2Proof.Machine

/-- A vector instruction completes with its detail count of results without a code (R190). -/
def vecDone (bads : Nat) : Done := if 0 < bads then fault stINF (satDetail bads) else okDone

/-- The conversion of VCVT whose target is TRIT: ternarisation, or BIN1 to TRIT (R84). -/
def isTern (w : Nat) : Bool :=
  wOpcode w == 0x33 && (vecOp w == 1 || (vecOp w == 0 && wFmtA w == fBIN1 && wFmtB w == fTRIT))
def vecFmt (f : Nat) : Bool := 3 ≤ f && f ≤ 0xC
/-- The checks at issue of a vector instruction (R83, R189, R190, R534). -/
def vecCheck (w : Nat) (regs : List (Nat × Nat)) : Option Done :=
  let op := wOpcode w
  let fa := wFmtA w
  let fb := wFmtB w
  if 4194304 < vecN w regs || !vecFmt fa || (fb == fTRIT) != isTern w || (fb != fTRIT && !vecFmt fb) then some badParam
  else if op = 0x32 && (vecAux w regs = 0 || 65536 < vecAux w regs) then some badParam
  else if op = 0x33 && vecOp w = 1 && thetaBad (vecS w regs) then some badParam
  else if op = 0x33 && vecOp w = 2 && (fa != fINT8 || !isIntFmt fb || 7 < vecAux w regs) then some badParam
  else none

/-! ### Sources (R78, R190) -/

/-- The byte offset of an element within a run (R81). -/
def elOff (f i : Nat) : Nat := if isBurstFmt f then i / 32 * burstBytes f + i % 32 * elBits f / 8 else i * elBits f / 8
/-- The codes of n elements of a run and its block scales, or the offset of the first NaN scale. -/
def Blk.runRead (b : Blk) (c f a n : Nat) : Except Nat (List Nat × List Nat) :=
  if isBurstFmt f then
    let k := cdiv n 32
    let sc := (List.range k).map fun i => b.tpNat c (a + i * burstBytes f + burstScaleOff f) 1
    match firstIdx (· == 0xFF) sc 0 with
    | some i => .error (i * burstBytes f + burstScaleOff f)
    | none => .ok (((List.range k).flatMap fun i => unpackEls f 32 (b.tpRead c (a + i * burstBytes f) (elBytes f 32))).take n, sc)
  else .ok (unpackEls f n (b.tpRead c a (elBytes f n)), [])
/-- The binary32 values of a run's elements with their block scales, and how many saturated (R190). -/
def runVals (f : Nat) (r : List Nat × List Nat) : List Val × Nat :=
  let vs := r.1.zipIdx.map fun p =>
    r32 (if r.2.isEmpty then elVal f p.1 else scaleVal (elVal f p.1) (((nth r.2 (p.2 / 32) 0x7F : Nat) : Int) - 127))
  (vs.map Prod.fst, vs.foldl (fun a v => a + v.2) 0)

/-! ### Destinations (R136, R190) -/

/-- Results written to a run: BF16 and FP32 plain, other formats in bursts with measured scales. The bytes, and the counts
of saturations, clamped scales and results without a code. -/
def emitRun (f mode : Nat) (ys : List Val) (draws : List Nat) : List Byte × EncBlk :=
  let blks := ((blocksOf ys).zip (blocksOf draws)).map fun p => encodeBlock f mode false false none none p.1 p.2
  let tot : EncBlk := { sats := blks.foldl (fun a k => a + k.sats) 0, clamps := blks.foldl (fun a k => a + k.clamps) 0,
                        bads := blks.foldl (fun a k => a + k.bads) 0 }
  (if isBurstFmt f then blks.flatMap (burstOf f) else packEls f (blks.flatMap (fun k => k.codes.map Int.toNat)), tot)

/-- A vector result written: draws, bytes, counters, status. -/
def Blk.vecWrite (b : Blk) (c w : Nat) (regs : List (Nat × Nat)) (ys : List Val) (sats : Nat) : Blk × Done :=
  let dr := b.draws c (vecMode w) ys.length
  let o := emitRun (wFmtB w) (vecMode w) ys dr.1
  (((dr.2.tpWrite c (vecDst w regs) o.1).cvCount c 0x38 (sats + o.2.sats)).cvCount c 0x1820 o.2.clamps, vecDone o.2.bads)

/-! ### VEW and VFN -/

/-- One element of VEW (R189): op of a, b and s, rounded to binary32. -/
def vewOp (op : Nat) (a b s : Val) : Val × Nat :=
  r32 (match op with
    | 0 => vAdd a b | 1 => vSub a b | 2 => vMul a b | 3 => vMax a b | 4 => vMin a b
    | 5 => vAdd (vMul a s) b | _ => vMul a s)
def Blk.runVew (b : Blk) (c w : Nat) (regs : List (Nat × Nat)) : Blk × Done :=
  let n := vecN w regs
  let f := wFmtA w
  if n = 0 then (b, okDone) else
  match b.runRead c f (vecA w) n, (if vecOp w = 6 then .ok (List.replicate n 0, []) else b.runRead c f (vecB w) n) with
  | .error e, _ => (b, fmtFault 2 e)
  | _, .error e => (b, fmtFault 2 e)
  | .ok ra, .ok rb =>
    let va := runVals f ra
    let vb := if vecOp w = 6 then (List.replicate n (Val.fin 0 0), 0) else runVals f rb
    let ys := (va.1.zip vb.1).map fun p => vewOp (vecOp w) p.1 p.2 (fp32 (vecS w regs))
    b.vecWrite c w regs (ys.map Prod.fst) (va.2 + vb.2 + ys.foldl (fun a y => a + y.2) 0)

def Blk.runVfn (b : Blk) (c w : Nat) (regs : List (Nat × Nat)) : Blk × Done :=
  let n := vecN w regs
  if n = 0 then (b, okDone) else
  match b.runRead c (wFmtA w) (vecA w) n with
  | .error e => (b, fmtFault 2 e)
  | .ok r =>
    let va := runVals (wFmtA w) r
    let ys := va.1.map (vecFn (vecOp w))
    b.vecWrite c w regs (ys.map Prod.fst) (va.2 + ys.foldl (fun a y => a + y.2) 0)

/-! ### VRED (R190) -/

/-- One level of the pairwise tree: neighbours joined, a last odd one carried up (log entry 13). -/
def pairUp (f : Val → Val → Val × Nat) : List Val → List Val × Nat
  | a :: b :: r => let x := f a b; let q := pairUp f r; (x.1 :: q.1, x.2 + q.2)
  | l => (l, 0)
/-- The pairwise tree over element positions, with the saturations of its steps. -/
def treeRed (f : Val → Val → Val × Nat) : Nat → List Val → Val × Nat
  | 0, l => (nth l 0 (.fin 0 0), 0)
  | k + 1, l =>
    match l with
    | [v] => (v, 0)
    | l => let p := pairUp f l; let q := treeRed f k p.1; (q.1, p.2 + q.2)
/-- Does element q rank above p in ARGMAX? A NaN is above every number, −0 below +0 (R190). -/
def argAbove (p q : Val × Bool) : Bool :=
  match p.1, q.1 with
  | .nan, _ => false
  | _, .nan => true
  | a, b => vLt a b || (vIsZero a && vIsZero b && p.2 && !q.2)
/-- The index of the largest element of a group, the lower on ties (R8, R190). -/
def argMax (l : List (Val × Bool)) : Nat :=
  (l.zipIdx.foldl (fun (best : Option (Nat × (Val × Bool))) p =>
    match best with
    | none => some (p.2, p.1)
    | some q => if argAbove q.2 p.1 then some (p.2, p.1) else best) none).elim 0 Prod.fst
/-- Is a code the negative zero of a floating format? -/
def negZero (f code : Nat) : Bool := isFloatFmt f && code == signCode f
/-- One group of VRED: its FP32 code and the saturations. -/
def redGroup (op f : Nat) (g : List (Val × Nat)) : Nat × Nat :=
  let vs := g.map Prod.fst
  if op = 3 then (argMax (g.map fun p => (p.1, negZero f p.2)), 0)
  else
    let sq := vs.map fun v => if op = 2 then r32 (vMul v v) else if op = 4 then (vAbs v, 0) else (v, 0)
    let r := treeRed (fun a b => if op = 1 || op = 4 then (vMax a b, 0) else r32 (vAdd a b)) 32 (sq.map Prod.fst)
    (toFP32 r.1, r.2 + sq.foldl (fun a v => a + v.2) 0)
def Blk.runVred (b : Blk) (c w : Nat) (regs : List (Nat × Nat)) : Blk × Done :=
  let n := vecN w regs
  if n = 0 then (b, okDone) else
  match b.runRead c (wFmtA w) (vecA w) n with
  | .error e => (b, fmtFault 2 e)
  | .ok r =>
    let va := runVals (wFmtA w) r
    let k := vecAux w regs
    let outs := (runsOf k (cdiv n k) (va.1.zip r.1)).map (redGroup (vecOp w) (wFmtA w))
    let dr := b.draws c (vecMode w) outs.length
    ((dr.2.tpWrite c (vecDst w regs) (outs.flatMap fun o => leBytes 4 o.1)).cvCount c 0x38
      (va.2 + outs.foldl (fun a o => a + o.2) 0), okDone)

/-! ### VCVT (R84, R85, R535) -/

def isNonfinite : Val → Bool
  | .fin _ _ => false
  | _ => true
/-- The block-integer conversion of a run to INT8 bursts from block i on: the bytes and saturations, or the detail of its
first fault (R81, R85). -/
def blockInts (f mode : Nat) : Nat → List (List Val) → List Nat → List (List Nat) → Except Nat (List Byte × Nat)
  | _, [], _, _ => .ok ([], 0)
  | i, v :: vs, sc, ds =>
    match firstIdx isNonfinite v 0 with
    | some j => .error (fmtDetail 3 (elOff f (32 * i + j)))
    | none =>
      let fp8 := f == fE4M3 || f == fE5M2
      let e : Int := if fp8 then (nth sc i 0x7F : Nat) else 0x7F
      let r := blockInt (if fp8 then f else fFP32) mode v e (nth ds i [])
      if r.2.1 < 0 || 0xFE < r.2.1 then .error (fmtDetail 4 (elOff f (32 * i))) else
      match blockInts f mode (i + 1) vs sc ds with
      | .error d => .error d
      | .ok q => .ok (burstOf fINT8 { codes := r.1.map fun (x : Nat) => (x : Int), scale := r.2.1.toNat } ++ q.1, r.2.2 + q.2)
/-- The INT8 shift of a run to bursts from block i on (R84, R535). -/
def shiftRun (fb k mode : Nat) : Nat → List (List Nat) → List Nat → List (List Nat) → Except Nat (List Byte × Nat)
  | _, [], _, _ => .ok ([], 0)
  | i, v :: vs, sc, ds =>
    let e := nth sc i 0x7F + k
    if 0xFE < e then .error (fmtDetail 4 (elOff fINT8 (32 * i))) else
    let q := (v.zip (nth ds i [])).map fun p => satInt fb (roundInt mode p.2 (sx 8 p.1) (-(k : Int)))
    match shiftRun fb k mode (i + 1) vs sc ds with
    | .error d => .error d
    | .ok r => .ok (burstOf fb { codes := q.map fun x => (x.1 : Int), scale := e } ++ r.1, (q.filter (·.2)).length + r.2)

def Blk.runVcvt (b : Blk) (c w : Nat) (regs : List (Nat × Nat)) : Blk × Done :=
  let n := vecN w regs
  let f := wFmtA w
  if n = 0 then (b, okDone) else
  match b.runRead c f (vecA w) n with
  | .error e => (b, fmtFault 2 e)
  | .ok r =>
    let dr := b.draws c (vecMode w) n
    let write := fun (o : List Byte × Nat) => ((dr.2.tpWrite c (vecDst w regs) o.1).cvCount c 0x38 o.2, okDone)
    if vecOp w = 2 then
      match shiftRun (wFmtB w) (vecAux w regs) (vecMode w) 0 (blocksOf r.1) r.2 (blocksOf dr.1) with
      | .error d => (b, fault stFORMAT d)
      | .ok o => write o
    else
      let va := runVals f r
      if wFmtB w = fINT8 then
        let vs := if f = fE4M3 || f = fE5M2 then r.1.map (elVal f) else va.1
        match blockInts f (vecMode w) 0 (blocksOf vs) r.2 (blocksOf dr.1) with
        | .error d => (b, fault stFORMAT d)
        | .ok o => write (o.1, o.2 + va.2)
      else match (if noSpecials (wFmtB w) then firstIdx isNonfinite va.1 0 else none) with
        | some i => (b, fmtFault 3 (elOff f i))
        | none =>
          if wFmtB w = fTRIT then
            let ts := va.1.map fun v =>
              if vecOp w = 1 then (encodeEl fTRIT 0 0 false (thetaOf (vecS w regs)) v).code else if vIsNeg v then -1 else 1
            write (t5Pack ts, va.2)
          else b.vecWrite c w regs va.1 va.2

/-! ### VOPT (R190) -/

/-- One element of VOPT: w, m, v after the steps of R190 in their order, and the saturations. par holds b1, b2, lr, eps, wd,
c1, c2. -/
def voptEl (par : List Val) (g w m v : Val) : (Val × Val × Val) × Nat :=
  let p := fun i => nth par i (.fin 0 0)
  let one : Val := .fin 1 0
  let t1 := r32 (vMul (p 0) m)
  let t2 := r32 (vSub one (p 0))
  let t3 := r32 (vMul t2.1 g)
  let m' := r32 (vAdd t1.1 t3.1)
  let u1 := r32 (vMul (p 1) v)
  let u2 := r32 (vSub one (p 1))
  let u3 := r32 (vMul g g)
  let u4 := r32 (vMul u2.1 u3.1)
  let v' := r32 (vAdd u1.1 u4.1)
  let a := r32 (vMul m'.1 (p 5))
  let b := r32 (vMul v'.1 (p 6))
  let r := vSqrt b.1
  let d := r32 (vAdd r.1 (p 3))
  let q := vDiv a.1 d.1
  let e := r32 (vMul (p 4) w)
  let f := r32 (vAdd q.1 e.1)
  let h := r32 (vMul (p 2) f.1)
  let w' := r32 (vSub w h.1)
  ((w'.1, m'.1, v'.1),
   t1.2 + t2.2 + t3.2 + m'.2 + u1.2 + u2.2 + u3.2 + u4.2 + v'.2 + a.2 + b.2 + r.2 + d.2 + q.2 + e.2 + f.2 + h.2 + w'.2)
/-- n FP32 values at a Tidepool address. -/
def Blk.fp32Run (b : Blk) (c a n : Nat) : List Val := (unpackEls fFP32 n (b.tpRead c a (4 * n))).map fp32
def Blk.runVopt (b : Blk) (c w : Nat) (regs : List (Nat × Nat)) : Blk × Done :=
  let n := vecN w regs
  if n = 0 then (b, okDone) else
  match b.runRead c (wFmtA w) (vecA w) n with
  | .error e => (b, fmtFault 2 e)
  | .ok r =>
    let g := runVals (wFmtA w) r
    let ma := sreg regs (fld w 6 2)
    let va := sreg regs (fld w 6 2 + 1)
    let par := b.fp32Run c (vecB w) 7
    let ws := b.fp32Run c (vecDst w regs) n
    let ms := b.fp32Run c ma n
    let vs := b.fp32Run c va n
    let out := (List.range n).map fun i => voptEl par (nth g.1 i .nan) (nth ws i .nan) (nth ms i .nan) (nth vs i .nan)
    let enc := fun (sel : Val × Val × Val → Val) => out.flatMap fun o => leBytes 4 (toFP32 (sel o.1))
    ((((b.tpWrite c ma (enc (·.2.1))).tpWrite c va (enc (·.2.2))).tpWrite c (vecDst w regs) (enc (·.1))).cvCount c 0x38
      (g.2 + out.foldl (fun a o => a + o.2) 0), okDone)

end Sys2Proof.Machine
end

