-- ==== Sys2Proof/Machine/Movement.lean ====
section
/-! DEFINITION. Movement within and between Tidepools, inbox credit, and rings: TMOV, TSTR, TTRN, TPUT, TGET, RPUT and
RGET (R191, R209, R210, R215 to R223). -/
namespace Sys2Proof.Machine

/-! ### Inbox credit (R216, R217) -/

/-- The units a credit entry still has. -/
def Cred.avail (k : Cred) : Nat := (k.grant + 2 ^ 32 - k.consumed % 2 ^ 32) % 2 ^ 32
/-- Does an inbox of a source hold [a, a+n) whole? Kind 0 is a Cove, 1 a Bay DMA engine. -/
def Inbox.holds (i : Inbox) (kind src a n : Nat) : Bool :=
  i.en && i.srck == kind && (if kind = 0 then i.src else i.src % 256) == src && i.base ≤ a && a + n ≤ i.base + i.units * 4096
/-- The inbox of a Cove's Tidepool that holds [a, a+n) for a source. -/
def Blk.inboxFor (b : Blk) (owner kind src a n : Nat) : Option Nat :=
  firstIdx (fun i => ((b.cove owner).inbox i).holds kind src a n) (List.range 16) 0
/-- The credit entries of a source. -/
def Blk.credTable (b : Blk) (kind src : Nat) : List (Nat × Cred) :=
  if kind = 0 then (b.cove src).creds else (b.bay src).creds
/-- The index of a source's valid entry for an inbox. -/
def Blk.credIdx (b : Blk) (kind src owner inbox : Nat) : Option Nat :=
  ((b.credTable kind src).find? fun p => p.2.valid && p.2.target == owner && p.2.inbox == inbox).map Prod.fst
def Blk.credAt (b : Blk) (kind src j : Nat) : Cred := sget (fun _ => {}) (b.credTable kind src) j
def Blk.setCred (b : Blk) (kind src j : Nat) (v : Cred) : Blk :=
  if kind = 0 then b.setCove src ((b.cove src).setCred j v)
  else b.setBay src { b.bay src with creds := sset (fun _ => {}) (b.bay src).creds j v }
/-- Units charged to an inbox of an owner for a source: the charge made, or nothing when credit lacks (R217). -/
def Blk.chargeInbox (b : Blk) (kind src owner inbox units : Nat) : Option Blk :=
  match b.credIdx kind src owner inbox with
  | none => none
  | some j =>
    let k := b.credAt kind src j
    if k.avail < units then none else some (b.setCred kind src j { k with consumed := (k.consumed + units) % 2 ^ 32 })

/-! ### Checks at issue (R191, R210) -/

/-- Are two Coves of one partition (or both of none)? -/
def Blk.samePart (b : Blk) (c d : Nat) : Bool := b.partOfCove c == b.partOfCove d
def mvCove (w : Nat) : Nat := fld w 90 79
def mvRaddr (w : Nat) : Nat := fld w 78 57
def mvLen (w : Nat) : Nat := fld w 34 15

/-- TTRN at issue: DRS and the overlap of its extents (R210). -/
def ttrnCheck (c w : Nat) (regs : List (Nat × Nat)) : Option Done :=
  let r := tileRanges c w regs
  if fld w 30 15 < (if tbit w 6 then 128 else 64) then some badParam
  else if rangesMeet r.1 r.2 then some badParam else none
/-- TPUT at issue: permission, and the inbox credit it consumes (R191, R217). A range beyond the target's program region is
judged with the other ranges (R175, R200). -/
def Blk.checkTput (b : Blk) (c w : Nat) : Option Done × Blk :=
  let d := mvCove w
  if d = c then (none, b)
  else if !b.samePart c d then (some (fault stNOPERM 2), b)
  else if mvLen w = 0 then (none, b)
  else match b.inboxFor d 0 c (mvRaddr w) (mvLen w) with
    | none => (some (fault stNOCREDIT), b.cvCount c 0x3818 1)
    | some i => match b.chargeInbox 0 c d i (cdiv (mvLen w) 4096) with
      | none => (some (fault stNOCREDIT), b.cvCount c 0x3818 1)
      | some b1 => (none, b1)
/-- TGET at issue: permission (R191). -/
def Blk.checkTget (b : Blk) (c w : Nat) : Option Done :=
  if mvCove w = c || b.samePart c (mvCove w) then none else some (fault stNOPERM 2)

/-! ### Effects -/

def Blk.runTmov (b : Blk) (c w : Nat) (regs : List (Nat × Nat)) : Blk × Done :=
  (b.tpWrite c (xaddr w regs 90 69) (b.tpRead c (fld w 68 47) (fld w 46 25)), okDone)
def Blk.runTstr (b : Blk) (c w : Nat) (regs : List (Nat × Nat)) : Blk × Done :=
  let es := 2 ^ fld w 1 0
  let out := (List.range (fld w 7 2)).flatMap fun i => (List.range (fld w 14 8)).flatMap fun j =>
    b.tpRead c (fld w 68 47 + i * fld w 30 15 + j * fld w 46 31) es
  (b.tpWrite c (xaddr w regs 90 69) out, okDone)
/-- One block of TTRN transposed: output row j of grain bytes g holds unit j of every source row (R210). -/
def ttrnRow (rows : List (List Byte)) (g j : Nat) : List Byte := rows.flatMap fun r => (r.drop (g * j)).take g
def Blk.runTtrn (b : Blk) (c w : Nat) (regs : List (Nat × Nat)) : Blk × Done :=
  let g := if tbit w 6 then 2 else 1
  let blocks := (List.range (fld w 14 7)).map fun k =>
    (List.range 64).map fun r => b.tpRead c (fld w 68 47 + k * 64 + r * fld w 46 31) 64
  ((List.range (fld w 14 7)).foldl (fun b k => (List.range (64 / g)).foldl (fun b j =>
    b.tpWrite c (xaddr w regs 90 69 + (64 * k + j) * fld w 30 15) (ttrnRow (nth blocks k []) g j)) b) b, okDone)
def Blk.runTput (b : Blk) (c w : Nat) (regs : List (Nat × Nat)) : Blk × Done :=
  let v := b.tpRead c (xaddr w regs 56 35) (mvLen w)
  let d := mvCove w
  if d = c then (b.tpWrite c (mvRaddr w) v, okDone)
  else if b.tpLost d then (if v.isEmpty then b else b.cvCount d 0x3820 1, okDone)
  else ((b.tpWriteFar d (mvRaddr w) v).bankTouch d 6 (mvRaddr w) v.length, okDone)
def Blk.runTget (b : Blk) (c w : Nat) (regs : List (Nat × Nat)) : Blk × Done :=
  let d := mvCove w
  if d ≠ c && b.tpLost d && mvLen w != 0 then (b.tpWrite c (xaddr w regs 56 35) (zeros (mvLen w)), fault stSCRUB)
  else
    let b1 := if d = c then b else b.tpTouchReads d 6 [(mvRaddr w, mvLen w)]
    (b1.tpWrite c (xaddr w regs 56 35) (b1.tpRead d (mvRaddr w) (mvLen w)), okDone)

/-! ### Rings (R220 to R223) -/

def rgRing (w : Nat) : Nat := fld w 90 85
def rputOwner (w : Nat) : Nat := fld w 84 73
/-- The producer entry of a Cove for a ring. -/
def Blk.prodIdx (b : Blk) (c owner ring : Nat) : Option Nat :=
  ((b.cove c).prods.find? fun p => p.2.valid && p.2.owner == owner && p.2.ring == ring).map Prod.fst
def Blk.setRing (b : Blk) (c r : Nat) (v : Ring) : Blk := b.setCove c ((b.cove c).setRing r v)
def Blk.setProd (b : Blk) (c j : Nat) (v : Prod) : Blk := b.setCove c ((b.cove c).setProd j v)

/-- RPUT at issue: permission, and an enabled ring whose producer the Cove is (R191, R220, R222). -/
def Blk.checkRput (b : Blk) (c w : Nat) : Option Done :=
  let d := rputOwner w
  if d ≠ c && !b.samePart c d then some (fault stNOPERM 2)
  else if !((b.cove d).ring (rgRing w)).en || (b.prodIdx c d (rgRing w)).isNone then some badParam else none
/-- RGET at issue: an enabled ring of its own Tidepool (R191, R222). -/
def Blk.checkRget (b : Blk) (c w : Nat) : Option Done :=
  if ((b.cove c).ring (rgRing w)).en then none else some badParam

/-- How a ring instruction stands at its start: it waits, it completes, or it has begun and completes later. -/
inductive RingStart where
  | waits
  | ends (d : Done)
  | begun (b : Blk)

/-- RPUT starts: a ring disabled since its issue ends it with ST_RING_TIMEOUT, a LEN above the slot size is refused by the
owner, no credit makes it wait; else it takes the credit and sends its bytes to slot TAIL (R221, R222). -/
def Blk.startRput (b : Blk) (c w : Nat) (regs : List (Nat × Nat)) : RingStart :=
  let d := rputOwner w
  let r := (b.cove d).ring (rgRing w)
  match b.prodIdx c d (rgRing w) with
  | none => .ends (fault stRINGTIMEOUT)
  | some j =>
    let k := (b.cove c).prodEnt j
    if !r.en then .ends (fault stRINGTIMEOUT)
    else if r.slot < fld w 50 31 then .ends badParam
    else if k.credits = 0 then .waits
    else
      let b1 := b.setProd c j { k with credits := k.credits - 1, tail := (k.tail + 1) % r.count }
      .begun (b1.setRing d (rgRing w) { r with landing := r.landing ++ [(k.tail, b.tpRead c (xaddr w regs 72 51) (fld w 50 31))] })
/-- RGET starts when slot HEAD is FULL and copies its bytes; the slot is marked EMPTY when it completes (R221). -/
def Blk.startRget (b : Blk) (c w : Nat) (regs : List (Nat × Nat)) : RingStart :=
  let r := (b.cove c).ring (rgRing w)
  if !r.en then .ends (fault stRINGTIMEOUT)
  else if r.slot < fld w 62 43 then .ends badParam
  else if !r.full.contains r.head then .waits
  else .begun (b.tpWriteQuiet c (xaddr w regs 84 63) (b.tpRead c (r.base + r.head * r.slot) (fld w 62 43)))
/-- RGET completes: its slot EMPTY, HEAD advanced, an EMPTY mark on its way to the producer (R221). -/
def Blk.endRget (b : Blk) (c w : Nat) : Blk :=
  let r := (b.cove c).ring (rgRing w)
  if !r.en || !r.full.contains r.head then b
  else b.setRing c (rgRing w) { r with full := r.full.filter (· != r.head), head := (r.head + 1) % r.count, returning := r.returning + 1 }
/-- The first data on its way into a ring lands and its slot is marked FULL (R221); a lost Tidepool discards it. -/
def Blk.landRing (b : Blk) (owner ring : Nat) : Blk :=
  let r := (b.cove owner).ring ring
  match r.landing with
  | [] => b
  | (k, v) :: rest =>
    if b.tpLost owner then (b.setRing owner ring { r with landing := rest }).cvCount owner 0x3820 1
    else
      let b1 := b.pokeN (tpAddr owner (r.base + k * r.slot)) v
      b1.setRing owner ring { r with landing := rest, full := r.full ++ [k] }
/-- One EMPTY mark reaches the producer (R221). -/
def Blk.creditRing (b : Blk) (owner ring : Nat) : Blk :=
  let r := (b.cove owner).ring ring
  if r.returning = 0 then b else
  let b1 := b.setRing owner ring { r with returning := r.returning - 1 }
  match b1.prodIdx r.producer owner ring with
  | none => b1
  | some j => let k := (b1.cove r.producer).prodEnt j; b1.setProd r.producer j { k with credits := k.credits + 1 }

end Sys2Proof.Machine
end

