-- ==== Sys2Proof/Machine/Sparse.lean ====
section
/-! DEFINITION. The scatter unit of a Bay and its validator, the index match unit, the neuron predictor, and the CMU
(R192, R193, R229 to R263). Each instruction's work is one operation on the machine. -/
namespace Sys2Proof.Machine

/-! ### The sparse descriptor (R229) -/

/-- The fields of a sparse descriptor. -/
structure SpDesc where
  addr : Nat
  kind : Nat
  flags : Nat
  vfmt : Nat
  dom : Nat
  anchor : Nat
  space : Nat
  k : Nat
  thresh : Nat
  base : Nat
  stride : Nat
  layout : Nat
  nm : Nat
  idxw : Nat
  rsv : Nat
  rows : Nat
  extent : Nat
  meta_ : Nat
  ptr : Nat
  nnz : Nat
  val : Nat
  dst : Nat
  aux : Nat
  stamp : Nat
  deriving DecidableEq, Repr

/-- The descriptor at a Tidepool address. -/
def Blk.spDesc (b : Blk) (c a : Nat) : SpDesc :=
  let d := b.tpRead c a 64
  { addr := a, kind := leAt d 0 1, flags := leAt d 1 1, vfmt := leAt d 2 1, dom := leAt d 3 1, anchor := leAt d 4 1,
    space := leAt d 5 1 % 16, k := leAt d 5 1 / 16, thresh := leAt d 6 2, base := leAt d 8 4, stride := leAt d 0xC 4,
    layout := leAt d 0x10 1, nm := leAt d 0x11 1, idxw := leAt d 0x12 1, rsv := leAt d 0x13 1, rows := leAt d 0x14 4,
    extent := leAt d 0x18 8, meta_ := leAt d 0x20 4, ptr := leAt d 0x24 4, nnz := leAt d 0x28 4, val := leAt d 0x2C 4,
    dst := leAt d 0x30 4, aux := leAt d 0x34 4, stamp := leAt d 0x38 4 }

/-- N and M of a pattern (R229, R233). -/
def nmN (nm : Nat) : Nat := if nm = 0 then 1 else if nm = 3 then 4 else 2
def nmM (nm : Nat) : Nat := if nm ≤ 1 then 4 else 8
/-- Bytes of an N:M record (R233). -/
def nmBytes (nm : Nat) : Nat := if nm = 3 then 2 else 1
/-- Bytes of an index (R232). -/
def idxBytes (w : Nat) : Nat := if w = 0 then 2 else if w = 1 then 4 else 8
/-- Groups of metadata that validation counts (R232). -/
def SpDesc.groups (d : SpDesc) : Nat :=
  if d.layout = 0 then d.rows * d.extent / nmM d.nm else if d.layout = 1 then d.rows + 1 + d.nnz else d.nnz
/-- Ranges of the metadata arrays (R232). -/
def SpDesc.metaRanges (d : SpDesc) : List (Nat × Nat) :=
  let i := idxBytes d.idxw
  if d.layout = 0 then [(d.meta_, d.groups * nmBytes d.nm)]
  else if d.layout = 1 then [(d.ptr, (d.rows + 1) * 4), (d.meta_, d.nnz * i)]
  else if d.layout = 2 then [(d.meta_, 2 * d.nnz * i)] else [(d.meta_, d.nnz * i)]
/-- Reserved fields and encodings of the metadata block (R229, R231). -/
def SpDesc.metaFields (d : SpDesc) : Bool :=
  d.rsv == 0 && d.layout ≤ 4 && d.nm ≤ 3 && d.idxw ≤ 2 && (d.layout == 0 || d.nm == 0) &&
  1 ≤ d.extent && d.extent ≤ 2 ^ 48 && d.meta_ < tpSize && d.ptr < tpSize
/-- The metadata block of an instruction that reads metadata: with the rules of its layout and its ranges (R231, R232). -/
def SpDesc.metaOk (d : SpDesc) (lim : Nat) : Bool :=
  d.metaFields && (d.layout != 0 || (d.extent % nmM d.nm == 0 && d.nnz == 0)) &&
  d.metaRanges.all fun r => r.2 == 0 || r.1 + r.2 ≤ lim
/-- Reserved fields and encodings of the rest of the descriptor (R229, R231). -/
def SpDesc.restOk (d : SpDesc) : Bool :=
  d.flags / 8 == 0 && d.flags / 2 % 4 != 3 && d.dom ≤ 2 && d.val < tpSize && d.dst < tpSize
/-- The stamp a descriptor would carry (R236): bit 31 and the low 31 bits of the CRC-32C of bytes 0x10 to 0x2F. -/
def Blk.spStamp (b : Blk) (c a : Nat) : Nat := crc32c (b.tpRead c (a + 0x10) 0x20) % 2 ^ 31 + 2 ^ 31
def Blk.spStamped (b : Blk) (c : Nat) (d : SpDesc) : Bool := d.stamp == b.spStamp c d.addr
/-- STAMP and PROGRESS written in the descriptor. -/
def Blk.spWriteStamp (b : Blk) (c a v : Nat) : Blk := b.tpWrite c (a + 0x38) (leBytes 4 v)
def Blk.spWriteProg (b : Blk) (c a v : Nat) : Blk := b.tpWrite c (a + 0x3C) (leBytes 4 (v % 2 ^ 32))

/-! ### Metadata (R232 to R235) -/

/-- n numbers of w bytes at a Tidepool address. -/
def Blk.tpNats (b : Blk) (c a w n : Nat) : List Nat := (List.range n).map fun i => b.tpNat c (a + i * w) w
/-- The count and slot j of an N:M record. -/
def nmCount (nm r : Nat) : Nat := if nm = 3 then r % 8 else r % 4
def nmSlot (nm r j : Nat) : Nat := if nm = 3 then fld r (3 * j + 5) (3 * j + 3) else fld r (3 * j + 4) (3 * j + 2)
/-- The reserved bits of an N:M record. -/
def nmReserved (nm r : Nat) : Nat := if nm = 0 then r / 32 else if nm = 3 then r / 2 ^ 15 else 0
/-- Is a list strictly ascending? -/
def ascending : List Nat → Bool
  | a :: b :: r => a < b && ascending (b :: r)
  | _ => true
/-- The sub-code that one N:M record fails with (R235). -/
def nmFault (nm r : Nat) : Option Nat :=
  let n := nmCount nm r
  if nmN nm < n then some 1 else
  let s := (List.range n).map (nmSlot nm r)
  if !ascending s then some 2 else if (s.any fun i => nmM nm ≤ i) || nmReserved nm r != 0 then some 3 else none
/-- The first failing position of a list of tests, with its sub-code. -/
def firstFault : List (Option Nat) → Nat → Option (Nat × Nat)
  | [], _ => none
  | some s :: _, i => some (s, i)
  | none :: r, i => firstFault r (i + 1)
/-- Each element beside the one before it. -/
def withPrev {α : Type} : Option α → List α → List (Option α × α)
  | _, [] => []
  | p, x :: r => (p, x) :: withPrev (some x) r
/-- Pairs of a list. -/
def pairsOf : List Nat → List (Nat × Nat)
  | a :: b :: r => (a, b) :: pairsOf r
  | _ => []

/-- Validation of a descriptor's metadata: the first failing (sub-code, position) (R235). -/
def validate (d : SpDesc) (meta_ ptrs : List Nat) : Option (Nat × Nat) :=
  if d.layout = 0 then firstFault (meta_.map (nmFault d.nm)) 0
  else if d.layout = 1 then
    match firstFault ((withPrev none ptrs).zipIdx.map fun q =>
        match q.1.1 with
        | none => if q.1.2 != 0 then some 3 else if q.2 = d.rows && q.1.2 != d.nnz then some 3 else none
        | some p => if q.1.2 < p then some 2 else if q.2 = d.rows && q.1.2 != d.nnz then some 3 else none) 0 with
    | some f => some f
    | none => firstFault ((withPrev none meta_).zipIdx.map fun q =>
        match q.1.1 with
        | some p => if !ptrs.contains q.2 && q.1.2 ≤ p then some 2 else if d.extent ≤ q.1.2 then some 3 else none
        | none => if d.extent ≤ q.1.2 then some 3 else none) (d.rows + 1)
  else if d.layout = 2 then
    firstFault ((withPrev none (pairsOf meta_)).map fun q =>
      let bad := d.rows ≤ q.2.1 || d.extent ≤ q.2.2
      match q.1 with
      | some p => if q.2.1 < p.1 || (q.2.1 == p.1 && q.2.2 ≤ p.2) then some 2 else if bad then some 3 else none
      | none => if bad then some 3 else none) 0
  else
    firstFault ((withPrev none meta_).map fun q =>
      match q.1 with
      | some p => if d.layout = 3 && q.2 ≤ p then some 2 else if d.extent ≤ q.2 then some 3 else none
      | none => if d.extent ≤ q.2 then some 3 else none) 0

/-- The metadata numbers of a descriptor: records, columns, pairs in a row, or indices; and CSR pointers. -/
def Blk.spMeta (b : Blk) (c : Nat) (d : SpDesc) : List Nat :=
  if d.layout = 0 then b.tpNats c d.meta_ (nmBytes d.nm) d.groups
  else b.tpNats c d.meta_ (idxBytes d.idxw) (if d.layout = 2 then 2 * d.nnz else d.nnz)
def Blk.spPtrs (b : Blk) (c : Nat) (d : SpDesc) : List Nat := if d.layout = 1 then b.tpNats c d.ptr 4 (d.rows + 1) else []

/-- META_CHECK (R237). -/
def Blk.runMetaCheck (b : Blk) (c : Nat) (d : SpDesc) : Blk × Done :=
  if !d.metaOk (b.progEnd c) then (b, badParam)
  else match (if d.groups = 0 then none else validate d (b.spMeta c d) (b.spPtrs c d)) with
    | none => ((b.spWriteStamp c d.addr (b.spStamp c d.addr)).spWriteProg c d.addr d.groups, okDone)
    | some (s, p) =>
      (((b.spWriteStamp c d.addr 0).spWriteProg c d.addr p).byCount (bayOf c) 0x30 1,
        fault stMETA (s * 4096 + p % 4096))

/-! ### EXPAND (R241) -/

def expandFmt (f : Nat) : Bool := 4 ≤ f && f ≤ 0xB
/-- Bytes of the value array of an EXPAND (R234). -/
def SpDesc.valCount (d : SpDesc) : Nat := if d.layout = 0 then d.groups * nmN d.nm else d.nnz
/-- The elements an EXPAND places, as (row, column, value index), in value order, and how many indices were stale (R239). -/
def expandPlaces (d : SpDesc) (meta_ ptrs : List Nat) : List (Nat × Nat × Nat) × Nat :=
  if d.layout = 0 then
    let per := d.extent / nmM d.nm
    let all := meta_.zipIdx.flatMap fun q =>
      (List.range (min (nmCount d.nm q.1) (nmN d.nm))).map fun j =>
        (q.2 / per, nmSlot d.nm q.1 j, q.2 % per * nmM d.nm + nmSlot d.nm q.1 j, q.2 * nmN d.nm + j)
    let good := all.filter fun p => p.2.1 < nmM d.nm
    (good.map fun p => (p.1, p.2.2.1, p.2.2.2), all.length - good.length)
  else
    let all := if d.layout = 1 then
        (List.range d.rows).flatMap fun r =>
          let lo := nth ptrs r 0
          (List.range (min (nth ptrs (r + 1) 0) d.nnz - lo)).map fun i => (r, nth meta_ (lo + i) 0, lo + i)
      else (pairsOf meta_).zipIdx.map fun q => (q.1.1, q.1.2, q.2)
    let good := all.filter fun p => p.1 < d.rows && p.2.1 < d.extent
    (good, all.length - good.length)
def Blk.runExpand (b : Blk) (c : Nat) (d : SpDesc) : Blk × Done :=
  let rowLen := elBytes d.vfmt d.extent
  let lim := b.progEnd c
  if !d.metaOk lim || !d.restOk || 2 < d.layout || !expandFmt d.vfmt || d.stride < rowLen ||
     (d.rows != 0 && (lim < d.dst + (d.rows - 1) * d.stride + rowLen || lim < d.val + elBytes d.vfmt d.valCount)) then (b, badParam)
  else if d.rows = 0 then (b.spWriteProg c d.addr 0, okDone)
  else if !b.spStamped c d then (b, fault stUNCHECKED)
  else
    let pl := expandPlaces d (b.spMeta c d) (b.spPtrs c d)
    let vals := unpackEls d.vfmt d.valCount (b.tpRead c d.val (elBytes d.vfmt d.valCount))
    let b1 := (List.range d.rows).foldl (fun b r =>
      let row := (pl.1.filter fun p => p.1 == r).foldl (fun l p => setNth l p.2.1 (nth vals p.2.2 0)) (List.replicate d.extent 0)
      b.tpWrite c (d.dst + r * d.stride) (packEls d.vfmt row)) b
    ((b1.byCount (bayOf c) 0x28 pl.2).spWriteProg c d.addr (d.rows * d.extent), okDone)

/-! ### Binary32 as IEEE 754 gives it (R243, R192) -/

/-- The code of a NaN whose payload no rule gives: free, a function of the operands (log entry 3). -/
def freeNan (site x : Nat) : Nat :=
  let r := Config.freeNat site x
  0x7F800001 + r % 0x7FFFFF + (if r / 2 ^ 23 % 2 = 1 then 2 ^ 31 else 0)
/-- A value rounded to binary32 by IEEE 754: overflow is an infinity. -/
def ieee32 (site key : Nat) (v : Val) : Nat :=
  match v with
  | .nan => freeNan site key
  | .inf n => infCode 0xC n
  | .fin m e => let r := roundFloat 0xC 0 0 m e; if r.2 then infCode 0xC (m < 0) else r.1

/-! ### Scatter values (R122, R243, R247) -/

/-- Bytes of a BAB entry of a domain: FP32, INT64, EXACT128. -/
def spWidth (dom : Nat) : Nat := if dom = 0 then 4 else if dom = 1 then 8 else 16
/-- The ACM domain of a sparse domain. -/
def spAcmDom (dom : Nat) : Nat := if dom = 2 then 1 else 0
/-- Bytes of a value of a VFMT (R243). -/
def vfmtBytes (f : Nat) : Nat := if f = 1 then 2 else if f = 3 then 8 else if f = 4 then 16 else 4
/-- May a VFMT be used with a domain (R243)? -/
def vfmtOk (f dom : Nat) : Bool := f ≤ 1 || (dom != 0 && (f == 2 || f == 3)) || (f == 4 && dom == 2)
/-- One update as its format spells it: an FP32 code, or P × 2^X with INF apart (R243). -/
inductive Upd where
  | float (v : Val) (code : Nat)
  | exact_ (p x : Int) (inf : Bool)
  deriving DecidableEq, Repr
/-- The update a raw value makes under a domain and anchor (R243). -/
def updOf (dom vfmt anchor raw : Nat) : Upd :=
  let a : Int := (anchor : Int) - 128
  if vfmt ≤ 1 then
    let code := if vfmt = 0 then raw else raw * 2 ^ 16
    let v := fp32 code
    if dom = 0 then .float v code
    else match v with
      | .fin m e => .exact_ m e false
      | _ => .exact_ 0 0 true
  else if vfmt = 2 then .exact_ (sx 32 raw) a false
  else if vfmt = 3 then .exact_ (sx 64 raw) a (raw == 2 ^ 63)
  else .exact_ (sx 128 raw) (a - 64) (raw == 2 ^ 127)
/-- An entry's raw value after an update: the value, and whether it was inexact or became INF. -/
def applyUpd (dom anchor old : Nat) (u : Upd) : Nat × Bool × Bool :=
  match u with
  | .float v code => (ieee32 1 (old * 2 ^ 32 + code) (vAdd (fp32 old) v), false, false)
  | .exact_ p x inf =>
    let ad := spAcmDom dom
    let v := sx (domBits ad) old
    if inf then (toTwos (domBits ad) (infVal ad), false, !isInfVal ad v)
    else
      let r := land ad (unitL ad anchor) p x { v := v }
      (toTwos (domBits ad) r.v, 0 < r.inexact, 0 < r.inf)

/-! ### The BAB (R242 to R246) -/

/-- Does the operation use the BAB (R242)? -/
def SpDesc.onBab (d : SpDesc) : Bool := d.extent * spWidth d.dom ≤ 262144
/-- BASE as R242 requires it, before the reserved-field rules of R231. -/
def SpDesc.baseOk (d : SpDesc) : Bool :=
  if d.onBab then d.base % spWidth d.dom == 0 && d.base + d.extent * spWidth d.dom ≤ 262144 else d.base == 0
/-- Segments of the BAB that the range touches. -/
def SpDesc.segments (d : SpDesc) : List Nat :=
  (List.range ((d.base + d.extent * spWidth d.dom - 1) / 8192 + 1 - d.base / 8192)).map fun i => d.base / 8192 + i
def Bay.babTag (y : Bay) (s : Nat) : ScTag := Machine.sget (fun _ => {}) y.babTags s
def Bay.setBabTag (y : Bay) (s : Nat) (t : ScTag) : Bay := { y with babTags := sset (fun _ => {}) y.babTags s t }
def Bay.hiaTag (y : Bay) (p : Nat) : ScTag := Machine.sget (fun _ => {}) y.hiaTags p
def Bay.setHiaTag (y : Bay) (p : Nat) (t : ScTag) : Bay := { y with hiaTags := sset (fun _ => {}) y.hiaTags p t }
def Bay.babRead (y : Bay) (a : Nat) : Nat → List Byte
  | 0 => []
  | n + 1 => Machine.sget (fun _ => (0#8 : Byte)) y.bab a :: y.babRead (a + 1) n
def Bay.babWrite (y : Bay) (a : Nat) (v : List Byte) : Bay := { y with bab := ssetRun (fun _ => (0#8 : Byte)) y.bab a v }
/-- Is a tag VALID with a stamp? -/
def ScTag.is (t : ScTag) (dom anchor : Nat) : Bool := t.valid && t.dom == dom && t.anchor == anchor
def ScTag.raise (t : ScTag) (inexact inf : Bool) : ScTag := { t with inexact := t.inexact || inexact, inf := t.inf || inf }
/-- One update to the BAB entry at a byte offset. -/
def Bay.babUpdate (y : Bay) (dom anchor off : Nat) (u : Upd) : Bay :=
  let r := applyUpd dom anchor (leNat (y.babRead off (spWidth dom))) u
  let y1 := y.babWrite off (leBytes (spWidth dom) r.1)
  if r.2.1 || r.2.2 then y1.setBabTag (off / 8192) ((y1.babTag (off / 8192)).raise r.2.1 r.2.2) else y1

/-! ### The HIA and the spill ring (R247 to R250, R262) -/

def hiaHash (key space : Nat) : Nat := (key + space * 2 ^ 48) * 0x9E3779B97F4A7C15 % 2 ^ 64
def Bay.hiaAt (y : Bay) (p : Nat) : Option HiaEnt := Machine.sget (fun _ => none) y.hia p
def Bay.setHia (y : Bay) (p : Nat) (e : Option HiaEnt) : Bay := { y with hia := sset (fun _ => none) y.hia p e }
/-- The first position of probe i (R247). -/
def hiaProbe (dom key space i : Nat) : Nat :=
  if dom = 2 then 2 * ((hiaHash key space / 2 ^ 51 + i) % 8192) else (hiaHash key space / 2 ^ 50 + i) % 16384
/-- Does a probe hold a key of a space? -/
def Bay.probeHit (y : Bay) (key space pos : Nat) : Bool :=
  match y.hiaAt pos with | some e => e.key == key && e.space == space | none => false
/-- Is a probe empty (both positions for EXACT128)? -/
def Bay.probeEmpty (y : Bay) (dom pos : Nat) : Bool := (y.hiaAt pos).isNone && (dom != 2 || (y.hiaAt (pos + 1)).isNone)
/-- The probe an update ends at: the one with the key, else the first empty one; none when all eight are occupied. With it
the number of probes beyond the first. -/
def Bay.findProbe (y : Bay) (dom key space : Nat) : Option Nat × Nat :=
  match firstIdx (fun i => let p := hiaProbe dom key space i; y.probeHit key space p || y.probeEmpty dom p) (List.range 8) 0 with
  | some i => (some (hiaProbe dom key space i), i)
  | none => (none, 7)
/-- The raw value held at a probe; zero when empty. -/
def Bay.hiaValue (y : Bay) (dom pos : Nat) : Nat :=
  let lo := match y.hiaAt pos with | some e => e.value | none => 0
  if dom = 2 then lo + 2 ^ 64 * (match y.hiaAt (pos + 1) with | some e => e.value | none => 0) else lo
def Bay.hiaStore (y : Bay) (dom key space pos v : Nat) : Bay :=
  if dom = 2 then (y.setHia pos (some ⟨key, space, v % 2 ^ 64⟩)).setHia (pos + 1) (some ⟨key, space, v / 2 ^ 64⟩)
  else y.setHia pos (some ⟨key, space, v⟩)

/-- A spill or flush record (R248). -/
def spRecord (dom key space v : Nat) : List Byte :=
  leBytes 8 (key + space * 2 ^ 48) ++ (if dom = 2 then leBytes 16 v ++ zeros 8 else leBytes 8 v)
def recBytes (dom : Nat) : Nat := if dom = 2 then 32 else 16

/-- A Cove's spill configuration words (R262). -/
def spWord (c i : Nat) : Nat := cfgBY (bayOf c) + 0x100 + 32 * (c % 16) + 8 * i
def Blk.spRbase (b : Blk) (c : Nat) : Nat := fld (b.cfgGet (spWord c 0)) 21 12 * 4096
def Blk.spRsize (b : Blk) (c : Nat) : Nat := 2 ^ (12 + fld (b.cfgGet (spWord c 0)) 25 22)
def Blk.spHbase (b : Blk) (c : Nat) : Nat := b.cfgGet (spWord c 1)
def Blk.spHcap (b : Blk) (c : Nat) : Nat := b.cfgGet (spWord c 2) % 2 ^ 40
def Blk.spHused (b : Blk) (c : Nat) : Nat := b.cfgGet (spWord c 3) % 2 ^ 40
def Blk.setSpill (b : Blk) (c : Nat) (s : Spill) : Blk := b.setCove c { b.cove c with spill := s }
/-- The copy of the oldest half of a spill ring to the HBM spill buffer ends: HUSED rises and the half is free (R248). -/
def Blk.spillCopy (b : Blk) (c : Nat) : Blk :=
  let s := (b.cove c).spill
  let half := b.spRsize c / 2
  let v := b.tpRead c (b.spRbase c + s.rhead) half
  let b1 := (b.hbmWrite (b.partNum c) (b.spHbase c + b.spHused c) v).cfgSet (spWord c 3) (b.spHused c + half)
  b1.setSpill c { rhead := (s.rhead + half) % b.spRsize c, rfill := s.rfill - half, copying := false }
/-- Is the oldest half full, with room in the buffer for it? -/
def Blk.spillCanCopy (b : Blk) (c : Nat) : Bool :=
  b.spRsize c / 2 ≤ (b.cove c).spill.rfill && b.spRsize c / 2 ≤ b.spHcap c - b.spHused c
/-- A record put into a Cove's spill ring; a full ring first waits for the copy of its oldest half, and without room in the
buffer the record finds no place (R248, R249). -/
def Blk.spillPut (b : Blk) (c : Nat) (r : List Byte) : Option Blk :=
  let b1 := if b.spRsize c < (b.cove c).spill.rfill + r.length && b.spillCanCopy c then b.spillCopy c else b
  let s := (b1.cove c).spill
  if b1.spRsize c < s.rfill + r.length then none
  else
    let b2 := b1.tpWrite c (b1.spRbase c + (s.rhead + s.rfill) % b1.spRsize c) r
    some ((b2.setSpill c { s with rfill := s.rfill + r.length }).byCount (bayOf c) 0x18 1)

/-- An update of the HIA by a Cove (R247, R248): the machine and whether it spilled; nothing when it finds no place. -/
def Blk.hiaUpdate (b : Blk) (c dom anchor space key : Nat) (u : Upd) : Option (Blk × Bool) :=
  let y := b.bay (bayOf c)
  let f := y.findProbe dom key space
  let b0 := b.byCount (bayOf c) 0x10 f.2
  match f.1 with
  | some pos =>
    let r := applyUpd dom anchor (y.hiaValue dom pos) u
    let y1 := y.hiaStore dom key space pos r.1
    some (b0.setBay (bayOf c) (y1.setHiaTag space ((y1.hiaTag space).raise r.2.1 r.2.2)), false)
  | none =>
    let r := applyUpd dom anchor 0 u
    match b0.spillPut c (spRecord dom key space r.1) with
    | none => none
    | some b1 =>
      let y1 := b1.bay (bayOf c)
      some (b1.setBay (bayOf c) (y1.setHiaTag space ((y1.hiaTag space).raise r.2.1 r.2.2)), true)

/-- Updates applied in order until one finds no place: the machine, how many were processed, how many of them spilled. -/
def Blk.hiaAll (b : Blk) (c dom anchor : Nat) : List (Nat × Nat × Upd) → Nat → Nat → Blk × Nat × Nat × Bool
  | [], n, s => (b, n, s, true)
  | (space, key, u) :: r, n, s =>
    match b.hiaUpdate c dom anchor space key u with
    | none => (b, n, s, false)
    | some (b1, sp) => b1.hiaAll c dom anchor r (n + 1) (s + bnat sp)

/-- BY_SP_RESULT of a Cove (R249). -/
def Blk.spResult (b : Blk) (c n s : Nat) : Blk :=
  let y := b.bay (bayOf c)
  b.setBay (bayOf c) { y with results := sset (fun _ => (0, 0)) y.results (c % 16) (n, s) }

/-- ACCUM (R242, R243, R246, R249). -/
def Blk.runAccum (b : Blk) (c : Nat) (d : SpDesc) : Blk × Done :=
  let y := b.bay (bayOf c)
  let vb := vfmtBytes d.vfmt
  if !d.metaOk (b.progEnd c) || !d.restOk || d.layout != 4 || 4 < d.vfmt || !vfmtOk d.vfmt d.dom || !d.baseOk ||
     (d.nnz != 0 && b.progEnd c < d.val + d.nnz * vb) then (b, badParam)
  else if d.nnz = 0 then ((b.spResult c 0 0).spWriteProg c d.addr 0, okDone)
  else if !(if d.onBab then d.segments.all fun s => (y.babTag s).is d.dom d.anchor else (y.hiaTag d.space).is d.dom d.anchor) then
    (b, badParam)
  else if !b.spStamped c d then (b, fault stUNCHECKED)
  else
    let ups := ((b.spMeta c d).zip (b.tpNats c d.val vb d.nnz)).map fun p => (p.1, updOf d.dom d.vfmt d.anchor p.2)
    let stale := (ups.filter fun p => d.extent ≤ p.1).length
    if d.onBab then
      let y1 := (ups.filter fun p => p.1 < d.extent).foldl (fun y p => y.babUpdate d.dom d.anchor (d.base + p.1 * spWidth d.dom) p.2) y
      ((((b.setBay (bayOf c) y1).byCount (bayOf c) 0x28 stale).spResult c d.nnz 0).spWriteProg c d.addr d.nnz, okDone)
    else
      -- stale indices count as processed and change nothing
      let live := ups.zipIdx.filter fun p => p.1.1 < d.extent
      let r := b.hiaAll c d.dom d.anchor (live.map fun p => (d.space, p.1.1, p.1.2)) 0 0
      let j := if r.2.2.2 then d.nnz else (nth live r.2.1 ((0, .exact_ 0 0 false), d.nnz)).2
      let st := (ups.take j).filter fun p => d.extent ≤ p.1
      (((r.1.byCount (bayOf c) 0x28 st.length).spResult c j r.2.2.1).spWriteProg c d.addr j,
        if r.2.2.2 then okDone else fault stSPILL 1)

/-- MERGE (R250). -/
def Blk.runMerge (b : Blk) (c : Nat) (d : SpDesc) : Blk × Done :=
  let y := b.bay (bayOf c)
  let rb := recBytes d.dom
  if !d.metaFields || !d.restOk || 4 < d.vfmt || !vfmtOk d.vfmt d.dom || (d.nnz != 0 && b.progEnd c < d.val + d.nnz * rb) then
    (b, badParam)
  else if d.nnz = 0 then ((b.spResult c 0 0).spWriteProg c d.addr 0, okDone)
  else
    let recs := (List.range d.nnz).map fun i =>
      let a := d.val + i * rb
      (b.tpNat c a 8, b.tpNat c (a + 8) (if d.dom = 2 then 16 else 8))
    if recs.any fun r => r.1 / 2 ^ 52 != 0 || !(y.hiaTag (r.1 / 2 ^ 48 % 16)).is d.dom d.anchor then (b, badParam)
    else
      let ups := recs.map fun r => (r.1 / 2 ^ 48 % 16, r.1 % 2 ^ 48,
        if d.dom = 0 then Upd.float (fp32 (r.2 % 2 ^ 32)) (r.2 % 2 ^ 32) else updOf d.dom (if d.dom = 1 then 3 else 4) d.anchor r.2)
      let r := b.hiaAll c d.dom d.anchor ups 0 0
      ((r.1.spResult c r.2.1 r.2.2.1).spWriteProg c d.addr r.2.1, if r.2.2.2 then okDone else fault stSPILL 1)

/-- Is a raw value of a domain the INF code? -/
def rawInf (dom v : Nat) : Bool := dom != 0 && v == 2 ^ (domBits (spAcmDom dom) - 1)
/-- Positions of the HIA's entries of a space, in position order; the low position of an EXACT128 pair. -/
def Bay.spaceEntries (y : Bay) (dom space : Nat) : List (Nat × HiaEnt) :=
  y.hia.filterMap fun p =>
    match p.2 with
    | some e => if e.space == space && (dom != 2 || p.1 % 2 == 0) then some (p.1, e) else none
    | none => none
def Bay.dropSpace (y : Bay) (space : Nat) : Bay :=
  { y with hia := y.hia.filter fun p => match p.2 with | some e => e.space != space | none => true }

/-- The status of a FLUSH (R251). -/
def flushDone (infs : Nat) (inexact : Bool) : Done :=
  if 0 < infs then fault stINF (satDetail infs) else if inexact then fault stINEXACT else okDone
/-- FLUSH (R251). -/
def Blk.runFlush (b : Blk) (c : Nat) (d : SpDesc) : Blk × Done :=
  let y := b.bay (bayOf c)
  let w := spWidth d.dom
  let lim := b.progEnd c
  let clr := d.flags % 2 == 1
  if !d.metaFields || !d.restOk || !d.baseOk then (b, badParam)
  else if d.onBab then
    if lim < d.dst + d.extent * w || !(d.segments.all fun s => (y.babTag s).is d.dom d.anchor) then (b, badParam)
    else
      let v := y.babRead d.base (d.extent * w)
      let infs := ((List.range d.extent).filter fun i => rawInf d.dom (leNat ((v.drop (i * w)).take w))).length
      let ine := d.segments.any fun s => (y.babTag s).inexact
      let y1 := if clr then
          d.segments.foldl (fun y s =>
            if d.base ≤ s * 8192 && s * 8192 + 8192 ≤ d.base + d.extent * w then
              y.setBabTag s { y.babTag s with inexact := false, inf := false } else y) (y.babWrite d.base (zeros (d.extent * w)))
        else y
      (((b.setBay (bayOf c) y1).tpWrite c d.dst v).spWriteProg c d.addr d.extent, flushDone infs ine)
  else
    let es := y.spaceEntries d.dom d.space
    if !(y.hiaTag d.space).is d.dom d.anchor || d.aux < es.length || lim < d.dst + d.aux * recBytes d.dom then (b, badParam)
    else
      let vs := es.map fun p => (p.2.key, y.hiaValue d.dom p.1)
      let t := y.hiaTag d.space
      let y1 := if clr then (y.dropSpace d.space).setHiaTag d.space { t with inexact := false, inf := false } else y
      (((b.setBay (bayOf c) y1).tpWrite c d.dst (vs.flatMap fun v => spRecord d.dom v.1 d.space v.2)).spWriteProg c d.addr es.length,
        flushDone (vs.filter fun v => rawInf d.dom v.2).length t.inexact)
/-- CLEAR (R244). -/
def Blk.runClear (b : Blk) (c : Nat) (d : SpDesc) : Blk × Done :=
  let y := b.bay (bayOf c)
  let n := d.extent * spWidth d.dom
  let t : ScTag := { valid := true, dom := d.dom, anchor := d.anchor }
  if !d.metaFields || !d.restOk || !d.baseOk || (d.onBab && (d.base % 8192 != 0 || n % 8192 != 0)) then (b, badParam)
  else
    let y1 := if d.onBab then
        d.segments.foldl (fun y s => y.setBabTag s t) { y with bab := sclear y.bab d.base (d.base + n) }
      else (y.dropSpace d.space).setHiaTag d.space t
    ((b.setBay (bayOf c) y1).spWriteProg c d.addr 0, okDone)

/-! ### Index match (R255 to R257) -/

def matchBucket (key : Nat) : Nat := key * 0x9E3779B97F4A7C15 % 2 ^ 64 / 2 ^ 55
/-- Keys placed in order until one finds its bucket of 8 full: the table, how many were placed, the full bucket. -/
def matchPlace : List (Nat × Nat) → List (Nat × Nat × Nat) → Nat → List (Nat × Nat × Nat) × Nat × Option Nat
  | [], t, n => (t, n, none)
  | (pos, key) :: r, t, n =>
    let k := matchBucket key
    if 8 ≤ (t.filter fun e => e.1 == k).length then (t, n, some k) else matchPlace r (t ++ [(k, key, pos)]) (n + 1)
/-- SPMATCH loading keys (R255). -/
def Blk.runMatchLoad (b : Blk) (c : Nat) (d : SpDesc) : Blk × Done :=
  let y := b.bay (bayOf c)
  if !d.metaOk (b.progEnd c) || !d.restOk || d.layout != 3 then (b, badParam)
  else if d.nnz = 0 then (b.spWriteProg c d.addr 0, okDone)
  else if !b.spStamped c d then (b, fault stUNCHECKED)
  else if 4096 < d.nnz then (b, fault stMATCHFULL)
  else
    let keys := (b.spMeta c d).zipIdx.map fun p => (p.2, p.1)
    let live := keys.filter fun p => p.2 < d.extent
    let r := matchPlace live [] 0
    let b1 := b.byCount (bayOf c) 0x28 (keys.length - live.length)
    match r.2.2 with
    | some k => ((b1.setBay (bayOf c) { y with matchKeys := [], matchHolder := some c }).spWriteProg c d.addr r.2.1, fault stMATCHFULL k)
    | none => ((b1.setBay (bayOf c) { y with matchKeys := r.1, matchHolder := some c }).spWriteProg c d.addr r.2.1, okDone)
/-- SPMATCH probing (R256, R257). -/
def Blk.runMatchProbe (b : Blk) (c : Nat) (d : SpDesc) : Blk × Done :=
  let y := b.bay (bayOf c)
  if !d.metaOk (b.progEnd c) || !d.restOk || (d.layout != 3 && d.layout != 4) || b.progEnd c < d.dst + 8 * d.nnz ||
     y.matchHolder != some c then (b, badParam)
  else
    let rel := fun (b : Blk) =>
      if d.flags % 2 = 1 then b.setBay (bayOf c) { b.bay (bayOf c) with matchHolder := none, matchKeys := [] } else b
    if d.nnz = 0 then (rel (b.spWriteProg c d.addr 0), okDone)
    else if !b.spStamped c d then (b, fault stUNCHECKED)
    else
      let keys := (b.spMeta c d).zipIdx
      let live := keys.filter fun p => p.1 < d.extent
      let hits := live.filterMap fun p => (y.matchKeys.find? fun e => e.2.1 == p.1).map fun e => (p.2, e.2.2)
      let b1 := (b.byCount (bayOf c) 0x28 (keys.length - live.length)).byCount (bayOf c) 0x20 hits.length
      (rel ((b1.tpWrite c d.dst (hits.flatMap fun h => leBytes 4 h.1 ++ leBytes 4 h.2)).spWriteProg c d.addr hits.length), okDone)

/-! ### The predictor (R258 to R260) -/

/-- Is an inactive neuron audited (R259)? -/
def audited (k seed j : Nat) : Bool := (j * 0x9E3779B1 + seed) % 2 ^ 32 / 2 ^ (32 - k) == 0
/-- PREDICT (R258). -/
def Blk.runPredict (b : Blk) (c : Nat) (d : SpDesc) : Blk × Done :=
  let lim := b.progEnd c
  let mode := d.flags / 2 % 4
  let nb := cdiv d.extent 32
  if !d.metaFields || !d.restOk || 65536 < d.extent || (mode == 1 && d.k == 0) ||
     (d.rows != 0 && (lim < d.val + (d.rows - 1) * d.stride + nb * 64 || lim < d.dst + 4 * d.extent)) then (b, badParam)
  else if d.rows = 0 then (b.spWriteProg c d.addr 0, okDone)
  else
    let toks := (List.range d.rows).map fun t => (List.range nb).map fun k =>
      (b.tpNat c (d.val + t * d.stride + k * 64 + 32) 1, unpackEls fINT8 32 (b.tpRead c (d.val + t * d.stride + k * 64) 32))
    match firstIdx (fun p => p == 0xFF) (toks.flatMap fun t => t.map Prod.fst) 0 with
    | some i => (b, fmtFault 2 ((i / nb) * d.stride + (i % nb) * 64 + 32))
    | none =>
      let th := elVal fBF16 d.thresh
      let flags := toks.map fun t => (t.flatMap fun k => k.2.map fun e => vLt th (scaleVal (elVal fINT8 e) ((k.1 : Int) - 127)))
      let active := fun j => flags.any fun f => nth f j false
      let on := (List.range d.extent).filter active
      let off := (List.range d.extent).filter fun j => !active j
      let flagged := off.filter fun j => mode == 0 || (mode == 1 && audited d.k d.aux j)
      let b1 := b.tpWrite c d.dst (on.flatMap (leBytes 4) ++ flagged.flatMap fun j => leBytes 4 (j + 2 ^ 31))
      let b2 := ((b1.byCount (bayOf c) 0x40 on.length).byCount (bayOf c) 0x48 flagged.length).byCount (bayOf c) 0x50
        (off.length - flagged.length)
      (b2.spWriteProg c d.addr (on.length + flagged.length), okDone)
/-- TALLY (R260). -/
def Blk.runTally (b : Blk) (c : Nat) (d : SpDesc) : Blk × Done :=
  let lim := b.progEnd c
  if !d.restOk || !d.metaFields || (d.vfmt != fINT8 && d.vfmt != fBF16) ||
     (d.nnz != 0 && (lim < d.meta_ + 4 * d.nnz || (d.rows != 0 && lim < d.val + (d.rows - 1) * d.stride + elBytes d.vfmt d.nnz))) then
    (b, badParam)
  else
    let list := b.tpNats c d.meta_ 4 d.nnz
    let rows := (List.range d.rows).map fun t => unpackEls d.vfmt d.nnz (b.tpRead c (d.val + t * d.stride) (elBytes d.vfmt d.nnz))
    let miss := (list.zipIdx.filter fun p => tbit p.1 31 && rows.any fun r =>
      let e := nth r p.2 0
      if d.vfmt = fBF16 then e % 2 ^ 15 != 0 else e != 0).length
    ((b.byCount (bayOf c) 0x58 miss).spWriteProg c d.addr miss, okDone)

/-! ### CMM (R192) -/

/-- CMM at issue: formats, and ACC with a BF16 result (R83, R192). -/
def cmmCheck (w : Nat) : Option Done :=
  let fa := wFmtA w
  let fb := wFmtB w
  if (fa == fBF16 || fa == fE4M3 || fa == fE5M2) && (fb == fFP32 || (fb == fBF16 && !tbit w 19)) then none else some badParam
/-- One entry of C: the products in rising k, each sum rounded to binary32 (R192). -/
def cmmEntry (f acc : Nat) (row col : List Nat) : Nat :=
  (row.zip col).foldl (fun s p => ieee32 2 (s * 2 ^ 32 + p.1 * 2 ^ 16 + p.2) (vAdd (fp32 s) (vMul (elVal f p.1) (elVal f p.2)))) acc
def Blk.runCmm (b : Blk) (c w : Nat) (regs : List (Nat × Nat)) : Blk × Done :=
  let dims := sreg regs (fld w 24 20)
  let m := fld dims 15 0
  let n := fld dims 31 16
  let k := fld dims 47 32
  let f := wFmtA w
  if m = 0 || n = 0 || k = 0 then (b, okDone) else
  let as := unpackEls f (m * k) (b.tpRead c (xaddr w regs 90 69) (elBytes f (m * k)))
  let bs := unpackEls f (k * n) (b.tpRead c (fld w 68 47) (elBytes f (k * n)))
  let cs := if tbit w 19 then unpackEls fFP32 (m * n) (b.tpRead c (fld w 46 25) (4 * m * n)) else []
  let out := (List.range (m * n)).map fun i =>
    cmmEntry f (nth cs i 0) ((as.drop (i / n * k)).take k) ((bs.drop (i % n * k)).take k)
  let codes := if wFmtB w = fBF16 then out.map fun x => (valToFloat fBF16 0 0 (fp32 x)).1 else out
  let sats := if wFmtB w = fBF16 then (out.filter fun x => (valToFloat fBF16 0 0 (fp32 x)).2).length else 0
  ((b.tpWrite c (fld w 46 25) (packEls (wFmtB w) codes)).cvCount c 0x38 sats, okDone)

/-! ### Engines (R230, R252) -/

/-- The engine of a sparse instruction: 0 validator, 1 BAB, 2 HIA, 3 index match. -/
def spEngine (op : Nat) (d : SpDesc) : Nat :=
  if op = 0x70 then 0 else if op = 0x71 then 3 else if op = 0x73 then 2
  else if d.kind = 1 || d.kind = 2 || d.kind = 3 then (if d.onBab then 1 else 2) else 1
/-- A sparse instruction's work (R230); a KIND its opcode does not accept is rejected. -/
def Blk.runSparse (b : Blk) (c w : Nat) (regs : List (Nat × Nat)) : Blk × Done :=
  let op := wOpcode w
  let d := b.spDesc c (xaddr w regs 90 69)
  if op = 0x70 then b.runMetaCheck c d
  else if op = 0x71 then
    (if d.kind != 7 then (b, badParam) else if tbit w 68 then b.runMatchProbe c d else b.runMatchLoad c d)
  else if op = 0x73 then (if d.kind != 8 then (b, badParam) else b.runMerge c d)
  else match d.kind with
    | 1 => b.runAccum c d
    | 2 => b.runFlush c d
    | 3 => b.runClear c d
    | 4 => b.runExpand c d
    | 5 => b.runPredict c d
    | 6 => b.runTally c d
    | _ => (b, badParam)
/-- Must a SPMATCH load wait for another Cove to release the table (R257)? -/
def Blk.matchWaits (b : Blk) (c w : Nat) : Bool :=
  wOpcode w == 0x71 && !tbit w 68 && (match (b.bay (bayOf c)).matchHolder with | some h => h != c | none => false)

end Sys2Proof.Machine
end

