-- ==== Sys2Proof/Machine/Table.lean ====
section
/-! DEFINITION. Compression: canonical prefix codes, frames, and the table store of a Headland (R376 to R384). -/
namespace Sys2Proof.Machine

/-! ### Lengths (R376) -/

/-- A package of the package-merge method: its weight and the symbols in it. -/
abbrev Package := Nat × List Nat
/-- Two lists of packages in rising weight merged. -/
def mergePk : Nat → List Package → List Package → List Package
  | 0, a, b => a ++ b
  | _ + 1, [], b => b
  | _ + 1, a, [] => a
  | n + 1, x :: a, y :: b => if x.1 ≤ y.1 then x :: mergePk n a (y :: b) else y :: mergePk n (x :: a) b
/-- Neighbouring packages of a list joined in pairs; a last odd one is dropped. -/
def pairPk : List Package → List Package
  | x :: y :: r => (x.1 + y.1, x.2 ++ y.2) :: pairPk r
  | _ => []
/-- Insertion into a list of packages in rising weight. -/
def insPk (x : Package) : List Package → List Package
  | [] => [x]
  | y :: r => if x.1 ≤ y.1 then x :: y :: r else y :: insPk x r
/-- The weight of a symbol: its count, and below every count a digit of base 16 at its own place, so that the least total
weight picks, among the vectors of least Σ count × len, the one that is shorter at the first symbol where they differ. -/
def symWeight (counts : List Nat) (s : Nat) : Nat := nth counts s 0 * 16 ^ 257 + 16 ^ (255 - s)
/-- The lengths of a table built from counts (R376): package-merge with 15 levels. -/
def codeLengths (counts : List Nat) : List Nat :=
  let leaves := (List.range 256).foldl (fun l s => insPk (symWeight counts s, [s]) l) []
  let top := (List.range 14).foldl (fun l _ => mergePk 1024 leaves (pairPk l)) leaves
  let chosen := (top.take 510).flatMap Prod.snd
  (List.range 256).map fun s => (chosen.filter (· == s)).length
/-- The counts a table takes from bytes: measured plus 1 (R376). -/
def histogram (b : List Byte) : List Nat :=
  (b.foldl (fun m x => sset (fun _ => 1) m x.toNat (sget (fun _ => 1) m x.toNat + 1)) ([] : List (Nat × Nat))) |> fun m =>
    (List.range 256).map (sget (fun _ => 1) m)
/-- Do lengths obey R376: each from 1 to 15, and Σ 2^(−len) = 1? -/
def lengthsOk (l : List Nat) : Bool :=
  l.length == 256 && l.all (fun x => 1 ≤ x && x ≤ 15) && l.foldl (fun a x => a + 2 ^ (15 - x)) 0 == 2 ^ 15
/-- The lengths that LENGTHS mode reads from 128 bytes (R383). -/
def lengthsFrom (b : List Byte) : List Nat := (List.range 256).map fun s => leAt b (s / 2) 1 / 16 ^ (s % 2) % 16

/-! ### Codes and bits (R376, R377) -/

/-- The first code of each length 0 to 15 (R376). -/
def firstCodes (l : List Nat) : List Nat :=
  ((List.range 16).foldl (fun (s : List Nat × Nat) n =>
    (s.1 ++ [s.2], 2 * (s.2 + (l.filter (· == n)).length))) ([], 0)).1
/-- The code of a symbol. -/
def codeOf (l : List Nat) (s : Nat) : Nat :=
  nth (firstCodes l) (nth l s 0) 0 + ((l.take s).filter (· == nth l s 0)).length
/-- The n bits of a number from the highest down. -/
def bitsDown : Nat → Nat → List Bool
  | 0, _ => []
  | n + 1, x => tbit x n :: bitsDown n x
/-- Bits packed into bytes, the first at bit 7, the last byte padded with zeros (R377). -/
def packBits : Nat → List Bool → List Byte
  | 0, _ => []
  | n + 1, l =>
    if l.isEmpty then [] else
    BitVec.ofNat 8 ((List.range 8).foldl (fun a i => a + bnat (nth l i false) * 2 ^ (7 - i)) 0) :: packBits n (l.drop 8)
def codeBytes (l : List Nat) (b : List Byte) : List Byte :=
  let cs := (List.range 256).map fun s => bitsDown (nth l s 0) (codeOf l s)
  let bits := b.flatMap fun x => nth cs x.toNat []
  packBits (cdiv bits.length 8) bits
/-- The bits of bytes, from bit 7 of the first. -/
def bitsOf (b : List Byte) : List Bool := b.flatMap fun x => bitsDown 8 x.toNat
/-- One symbol read: length so far, code so far; bits beyond the end are zero. The symbol, the bits left, and whether the end
was passed. -/
def readSym (l first : List Nat) (groups : List (List Nat)) : Nat → Nat → Nat → List Bool → Bool → Nat × List Bool × Bool
  | 0, _, _, bits, e => (0, bits, e)
  | f + 1, n, c, bits, e =>
    let bit := bits.headD false
    let c1 := 2 * c + bnat bit
    let e1 := e || bits.isEmpty
    let g := nth groups (n + 1) []
    let base := nth first (n + 1) 0
    if base ≤ c1 && c1 - base < g.length then (nth g (c1 - base) 0, bits.drop 1, e1)
    else readSym l first groups f (n + 1) c1 (bits.drop 1) e1
/-- n symbols decoded: the bytes, the bits left, and whether the payload ran out. -/
def decodeSyms (l first : List Nat) (groups : List (List Nat)) : Nat → List Bool → Bool → List Byte × List Bool × Bool
  | 0, bits, e => ([], bits, e)
  | n + 1, bits, e =>
    let r := readSym l first groups 15 0 0 bits e
    let q := decodeSyms l first groups n r.2.1 r.2.2
    (BitVec.ofNat 8 r.1 :: q.1, q.2.1, q.2.2)
/-- A payload expanded to n bytes, and whether R380's mismatch rule applies. -/
def decodeBytes (l : List Nat) (n : Nat) (b : List Byte) : List Byte × Bool :=
  let groups := (List.range 16).map fun k => (List.range 256).filter fun s => nth l s 0 == k
  let r := decodeSyms l (firstCodes l) groups n (bitsOf b) false
  (r.1, r.2.2 || 8 ≤ r.2.1.length)

/-! ### Frames (R378 to R380) -/

/-- A frame: coded with a table's generation, or stored when that is not shorter (R379). -/
def frame (table gen : Nat) (l : List Nat) (raw : List Byte) : List Byte :=
  let c := codeBytes l raw
  let st := raw.length ≤ c.length
  let p := if st then raw else c
  leBytes 1 (if st then 64 else table) ++ leBytes 1 (if st then 0 else gen) ++ zeros 2 ++ leBytes 4 raw.length ++
    leBytes 4 p.length ++ zeros 4 ++ p ++ zeros ((16 - p.length % 16) % 16)
/-- A stream of frames of 1,048,576 bytes, the last one shorter (R379). -/
def compress (table gen : Nat) (l : List Nat) : Nat → List Byte → List Byte
  | 0, _ => []
  | n + 1, b => if b.isEmpty then [] else frame table gen l (b.take 1048576) ++ compress table gen l n (b.drop 1048576)
/-- A frame header read: table, mode, generation, RAW, CODED; none when a rule of R378 is broken. -/
def frameHead (h : List Byte) : Option (Nat × Nat × Nat × Nat × Nat) :=
  let t := leAt h 0 1
  let g := leAt h 1 1
  let raw := leAt h 4 4
  let cod := leAt h 8 4
  let mode := t / 64
  if 1 < mode || g / 16 != 0 || leAt h 2 2 != 0 || leAt h 0xC 4 != 0 || raw = 0 || 1048576 < raw ||
     (if mode = 1 then t % 64 != 0 || g != 0 || cod != raw else g = 0) then none
  else some (t % 64, mode, g, raw, cod)

/-! ### The table store (R381, R382) -/

def Headland.slot (h : Headland) (i : Nat) : TabSlot := Machine.sget (fun _ => {}) h.slots i
def Headland.setSlot (h : Headland) (i : Nat) (t : TabSlot) : Headland := { h with slots := sset (fun _ => {}) h.slots i t }
def Blk.tab (b : Blk) (h i : Nat) : TabSlot := (b.hl h).slot i
def Blk.setTab (b : Blk) (h i : Nat) (t : TabSlot) : Blk := b.setHl h ((b.hl h).setSlot i t)
/-- The slot that is CURRENT for a table number. -/
def Blk.curTab (b : Blk) (h table : Nat) : Option Nat :=
  firstIdx (fun i => (b.tab h i).st == 2 && (b.tab h i).table == table) (List.range 64) 0
/-- A slot that holds a generation of a table number with its lengths (CURRENT or OLD). -/
def Blk.genTab (b : Blk) (h table gen : Nat) : Option Nat :=
  firstIdx (fun i => 2 ≤ (b.tab h i).st && (b.tab h i).table == table && (b.tab h i).gen == gen) (List.range 64) 0
/-- An OLD slot without references becomes FREE. -/
def TabSlot.settle (t : TabSlot) : TabSlot := if t.st = 3 && t.refs = 0 && !t.hold then {} else t
def Blk.addRef (b : Blk) (h i : Nat) : Blk := let t := b.tab h i; b.setTab h i { t with refs := t.refs + 1 }
def Blk.dropRef (b : Blk) (h i : Nat) : Blk := let t := b.tab h i; b.setTab h i ({ t with refs := t.refs - 1 }).settle
/-- The generation a new build of a table number takes (R383). -/
def Blk.nextGen (b : Blk) (h table : Nat) : Nat :=
  match b.curTab h table with
  | some i => (b.tab h i).gen % 15 + 1
  | none => 1
/-- A slot reserved as BUILDING: the lowest FREE one, none when there is none or the next generation is held (R383). -/
def Blk.reserveTab (b : Blk) (h table : Nat) : Option (Nat × Blk) :=
  let g := b.nextGen h table
  if (List.range 64).any fun i => (b.tab h i).st != 0 && (b.tab h i).table == table && (b.tab h i).gen == g then none
  else match firstIdx (fun i => (b.tab h i).st == 0) (List.range 64) 0 with
    | none => none
    | some i => some (i, b.setTab h i { st := 1, table := table, gen := g })
/-- A built slot becomes CURRENT and the one before it OLD (R383 step 3). -/
def Blk.installTab (b : Blk) (h i : Nat) (lens : List Nat) (hold : Bool) : Blk :=
  let t := b.tab h i
  let b1 := match b.curTab h t.table with
    | some j => b.setTab h j ({ b.tab h j with st := 3 }).settle
    | none => b
  b1.setTab h i { t with st := 2, lens := lens, hold := hold }
/-- A descriptor's binding when its queue accepts it (R382): COMPRESS without BUILD binds the CURRENT slot of its table. -/
def Blk.bindDesc (b : Blk) (y : Nat) (raw : List Byte) : List Nat × Blk :=
  let f := leAt raw 1 1
  if !tbit f 2 || tbit f 4 || 2 < leAt raw 0 1 then ([], b)
  else match b.curTab (y / 16) (leAt raw 3 1 % 64) with
    | some i => ([i], b.addRef (y / 16) i)
    | none => ([], b)

end Sys2Proof.Machine
end

