-- ==== Sys2Proof/Machine/Seq.lean ====
section
/-! DEFINITION. The sequencer of a Cove: issue, hazards, the start and completion of unit instructions, control and
synchronisation instructions, and how a program ends (R165 to R194). A row of the opcode table that is a tile instruction
is the event "this Cove issues its next instruction, and that is this mnemonic"; in a state where it cannot be, nothing
happens. The work of a unit instruction is done when it starts; its completion is UNIT_INSTR_COMPLETE. -/
namespace Sys2Proof.Machine

/-! ### Reading the sequencer (R165, R184) -/

def Seq.word (q : Seq) : Nat := Machine.sget (fun _ => 0) q.prog q.pc
def Seq.setSreg (q : Seq) (i v : Nat) : Seq :=
  if i = 0 then q else { q with sregs := sset (fun _ => 0) q.sregs i (v % 2 ^ 64) }
def Seq.lreg (q : Seq) (i : Nat) : Nat := Machine.sget (fun _ => 0) q.lregs i

/-- The next index after END of a pass at an index, through the loop bodies that end there (R185): the program counter,
the active loops and the loop counters. -/
def loopNext (e : Nat) (l : List (Nat × Nat)) : List (Nat × Nat × Nat) → Nat × List (Nat × Nat × Nat) × List (Nat × Nat)
  | [] => (e + 1, [], l)
  | (k, s, en) :: r =>
    if en ≠ e then (e + 1, (k, s, en) :: r, l)
    else
      let v := sget (fun _ => 0) l k - 1
      let l1 := sset (fun _ => 0) l k v
      if 0 < v then (s, (k, s, en) :: r, l1) else loopNext e l1 r
/-- The sequencer moved past the instruction at its program counter. -/
def Seq.next (q : Seq) : Seq :=
  let r := loopNext q.pc q.lregs q.loops
  { q with pc := r.1, loops := r.2.1, lregs := r.2.2 }
/-- The next unit instruction's place in program order, and the counts of issued instructions (R170, R197). -/
def Blk.issued (b : Blk) (c : Nat) : Blk :=
  let q := b.seq c
  (b.setSeq c { q with nextSerial := q.nextSerial + 1, issuedHere := (q.issuedHere + 1) % 2 ^ 32 }).cvCount c 0x20 1
/-- Issue goes on at the next instruction. -/
def Blk.advance (b : Blk) (c : Nat) : Blk := b.setSeq c (b.seq c).next

/-! ### How a program ends (R166, R170, R171, R181, R194, R257) -/

/-- A detail that no rule gives, replaced by a free value (log entry 3). -/
def Blk.closeDet (b : Blk) (d : Nat) : Nat × Blk :=
  if d = openDet then let r := b.freeVal 0x181; (r.1 % 2 ^ 16, r.2) else (d % 2 ^ 16, b)

/-- The key of a barrier of a scope. -/
def barKey (scope idx bid : Nat) : Nat := (scope * 4096 + idx) * 16 + bid
def Blk.barrier (b : Blk) (k : Nat) : Barrier := sget (fun _ => {}) b.barriers k
def Blk.setBarrier (b : Blk) (k : Nat) (x : Barrier) : Blk := { b with barriers := sset (fun _ => {}) b.barriers k x }
/-- What holds issue is given up with no effect: an arrival at a barrier is withdrawn. -/
def Blk.dropHold (b : Blk) (c : Nat) : Blk :=
  let q := b.seq c
  let b1 := b.setSeq c { q with hold := .none }
  match q.hold with
  | .bar s i d =>
    let x := b1.barrier (barKey s i d)
    let l := x.arrived.filter (· != c)
    b1.setBarrier (barKey s i d) { x with arrived := l, k := if l.isEmpty then 0 else x.k, due := x.due && !l.isEmpty }
  | _ => b1

/-- The match table a Cove held is released (R257). -/
def Blk.releaseMatch (b : Blk) (c : Nat) : Blk :=
  let y := b.bay (bayOf c)
  if y.matchHolder = some c then b.setBay (bayOf c) { y with matchHolder := none, matchKeys := [] } else b

/-- A Cove leaves RUN and SUSPENDED with an exit record (R170). -/
def Blk.leave (b : Blk) (c st status det index rows : Nat) : Blk :=
  let q := b.seq c
  let e : ExitRec := { state := st, flags := q.exitFlags, st := status, det := det, index := index, rows := rows, issued := q.issuedHere, tide := b.tide }
  (b.setSeq c { q with st := st, exit := e, exitLost := false, stopping := 0, hold := .none, fault := none, loops := [] }).releaseMatch c

/-- A fault of a program is recorded: the earliest to issue is the one its exit record names (R181). -/
def Blk.addFault (b : Blk) (c : Nat) (f : SeqFault) : Blk :=
  let b := b.dropHold c
  let q := b.seq c
  match q.fault with
  | none => b.setSeq c { q with fault := some f }
  | some g => (b.setSeq c { q with fault := some (if f.serial < g.serial then f else g) }).cvCount c 0x30 1

/-- The end of a program whose issued instructions have completed, or of the drain of a suspension (R166, R171, R172, R181). -/
def Blk.settle (b : Blk) (c : Nat) : Blk :=
  let q := b.seq c
  if q.st ≠ 1 then b
  else if q.stopping = 3 && q.fault.isNone then
    (if q.inflight.all fun e => !e.started || wOpcode e.word == 0x60 then b.setSeq c { q with st := 2, stopping := 0 } else b)
  else if !q.inflight.isEmpty then b
  else match q.fault with
    | some f => b.leave c 4 f.st f.det f.index f.rows
    | none =>
      if q.stopping = 1 then b.leave c 3 0 0 q.haltIndex 0
      else if q.stopping = 2 then b.leave c 5 0 0 q.pc 0 else b

/-! ### Completion (R181, R182) -/

/-- The CONT status word (R184). -/
def contWord (st det index rows : Nat) : Nat := st % 2 ^ 16 + det % 2 ^ 16 * 2 ^ 16 + index % 2 ^ 10 * 2 ^ 32 + rows % 2 ^ 16 * 2 ^ 48

/-- The status of an instruction acts: flags, CONT and p7, or a fault. -/
def Blk.statusOf (b : Blk) (c serial index w : Nat) (d : Done) : Blk :=
  let r := b.closeDet d.det
  let b := r.2
  let q := b.seq c
  let q1 := { q with exitFlags := q.exitFlags ||| (if d.st = stINF then 1 else 0) ||| (if d.st = stINEXACT then 2 else 0) }
  let hard := d.st = stHWERROR || d.st = stUNCONTAINED
  let q2 := if wCont w then
      { q1 with cont := contWord d.st r.1 index d.rows, preds := setFld q1.preds 7 7 (bnat (benign d.st)) }
    else q1
  let b1 := b.setSeq c q2
  if hard || (!wCont w && !benign d.st) then
    b1.addFault c { serial := serial, st := d.st, det := r.1, index := index, rows := d.rows }
  else b1

/-! ### Start (R101, R102, R129, R177, R192, R252) -/

/-- The physical ACM rows that a unit instruction works on. -/
def acmRowsOf (w : Nat) (regs : List (Nat × Nat)) : List Nat :=
  let op := wOpcode w
  if op = 0x11 || op = 0x12 || op = 0x13 then physRows (arrDom w) (arrRow w) (arrM w regs)
  else if op = 0x20 then physRows (aclrDom w) (aclrF w) (aclrN w)
  else if op = 0x21 then physRows (acvtDom1 w) (acvtSrc w) (acvtN w) ++ physRows (acvtDom2 w) (acvtDst w) (acvtN w)
  else if op = 0x22 then (if ardRsrc w then [] else physRows (ardDom w) (ardF w) (ardN w))
  else []
def Entry.rowsMeet (e f : Entry) : Bool := (acmRowsOf e.word e.regs).any (acmRowsOf f.word f.regs).contains

/-- Room for descriptors in a Cove's queue of its Bay's DMA engine (R192, R365). -/
def Blk.dmaRoom (b : Blk) (c : Nat) : Nat :=
  64 - ((b.bay (bayOf c)).descs.filter fun d => d.queue == c % 16).length
/-- A Bay engine by number: 0 to 3 the scatter unit's, 4 the CMU. -/
def Bay.engine (y : Bay) (k : Nat) : Engine := Machine.sget (fun _ => {}) y.engines k
def Bay.setEngine (y : Bay) (k : Nat) (e : Engine) : Bay := { y with engines := sset (fun _ => {}) y.engines k e }
/-- The shared engine an instruction needs. -/
def Blk.engineOf (b : Blk) (c : Nat) (e : Entry) : Option Nat :=
  if e.queue = 7 then some (spEngine (wOpcode e.word) (b.spDesc c (xaddr e.word e.regs 90 69)))
  else if wOpcode e.word = 0x62 then some 4 else none

/-- May an unstarted entry start, as far as earlier instructions of its Cove and the Bay's engines go? -/
def Blk.mayStart (b : Blk) (c : Nat) (e : Entry) : Bool :=
  let earlier := (b.seq c).inflight.filter fun f => f.serial < e.serial
  let own := earlier.filter fun f => f.queue == e.queue
  own.all (·.started) &&
  (if e.queue = 0 then own.all (·.done.isSome) && (wOpcode e.word != 0x10 || earlier.all fun f =>
      f.queue != 1 || f.started || arrSlot f.word != wlSlot e.word)
   else if e.queue = 1 then ((b.cove c).slot (arrSlot e.word)).st != 1 && earlier.all fun f =>
      (f.queue != 2 || f.started || !e.rowsMeet f) &&
      (f.queue != 0 || f.started || wOpcode f.word != 0x10 || wlN f.word == 0 || wlSlot f.word != arrSlot e.word)
   else if e.queue = 2 then earlier.all fun f => f.queue != 1 || f.started || !e.rowsMeet f
   else if e.queue = 5 then own.isEmpty
   else true) &&
  (match b.engineOf c e with
   | some k => (((b.bay (bayOf c)).engine k).busy).isNone && !b.matchWaits c e.word
   | none => true)

/-- The queue entry of a Cove replaced. -/
def Blk.setEntry (b : Blk) (c : Nat) (e : Entry) : Blk :=
  let q := b.seq c
  b.setSeq c { q with inflight := q.inflight.map fun f => if f.serial = e.serial then e else f }
/-- An entry has started, complete or not. -/
def Blk.begun (b : Blk) (c : Nat) (e : Entry) (d : Option Done) : Blk := b.setEntry c { e with started := true, done := d }

/-- The descriptors of a DMAQ from the i-th on, n of them, as the engine accepts them (R192, R365). -/
def Blk.dmaAccept (b : Blk) (c : Nat) (e : Entry) : Nat → Nat → Blk
  | 0, _ => b
  | n + 1, i =>
    let a := xaddr e.word e.regs 90 69 + 64 * i
    let raw := b.tpRead c a 64
    let r := b.bindDesc (bayOf c) raw
    let y := r.2.bay (bayOf c)
    let d : Desc := { serial := y.nextDesc, queue := c % 16, raw := raw, cove := c, part := b.partNum c,
                      origin := .cove c e.serial i a (fld e.word 57 54), bound := r.1 }
    (r.2.setBay (bayOf c) { y with descs := y.descs ++ [d], nextDesc := y.nextDesc + 1 }).dmaAccept c e n (i + 1)
/-- A DMAQ gives the engine what fits; it has started once all its descriptors are accepted (R192). -/
def Blk.startDmaq (b : Blk) (c : Nat) (e : Entry) : Blk :=
  let count := fld e.word 68 58
  let n := min (b.dmaRoom c) (count - e.fed)
  (b.dmaAccept c e n e.fed).setEntry c
    { e with fed := e.fed + n, started := e.fed + n == count, done := if count = 0 then some okDone else e.done }

/-- The work of a unit instruction that completes what it began (R183). -/
def Blk.runUnit (b : Blk) (c w : Nat) (regs : List (Nat × Nat)) : Blk × Done :=
  let op := wOpcode w
  if op = 0x11 then b.runMacc c w regs
  else if op = 0x12 || op = 0x13 then b.runOnePass c w regs
  else if op = 0x14 then b.runPlanex c w regs
  else if op = 0x20 then b.runAclr c w
  else if op = 0x21 then b.runAcvt c w
  else if op = 0x22 then b.runAread c w regs
  else if op = 0x30 then b.runVew c w regs
  else if op = 0x31 then b.runVfn c w regs
  else if op = 0x32 then b.runVred c w regs
  else if op = 0x33 then b.runVcvt c w regs
  else if op = 0x34 then b.runVopt c w regs
  else if op = 0x40 then b.runTmov c w regs
  else if op = 0x41 then b.runTstr c w regs
  else if op = 0x42 then b.runTtrn c w regs
  else if op = 0x43 then b.runTput c w regs
  else if op = 0x44 then b.runTget c w regs
  else if op = 0x62 then b.runCmm c w regs
  else b.runSparse c w regs

/-- The Tidepool banks and ring slots that an instruction's ranges touch (R198, R223). -/
def Blk.touch (b : Blk) (c : Nat) (e : Entry) : Blk :=
  let r := tileRanges c e.word e.regs
  let rq := requesterOf e.queue
  r.2.foldl (fun b q => b.bankTouch c rq q.1 q.2) (b.tpTouchReads c rq r.1)

/-- An entry that may start does so, unless a ring makes it wait; a ring wait of a stopped Cove is abandoned (R171). -/
def Blk.tryStart (b : Blk) (c : Nat) (e : Entry) : Blk :=
  if e.started || !b.mayStart c e then b
  else
    let op := wOpcode e.word
    if op = 0x10 then
      let r := (b.touch c e).startWload c e.word e.regs
      r.1.begun c e r.2
    else if op = 0x50 || op = 0x51 then
      match (if op = 0x50 then b.startRput c e.word e.regs else b.startRget c e.word e.regs) with
      | .ends d => b.begun c e (some d)
      | .begun b1 => b1.begun c e (if op = 0x50 then none else some okDone)
      | .waits =>
        let q := b.seq c
        if q.stopping = 2 then b.setSeq c { q with inflight := q.inflight.filter fun f => f.serial != e.serial } else b
    else if op = 0x60 then b.startDmaq c e
    else
      let b0 := match b.engineOf c e with
        | some k => b.setBay (bayOf c) ((b.bay (bayOf c)).setEngine k { busy := some c, last := c % 16 })
        | none => b
      let r := (b0.touch c e).runUnit c e.word e.regs
      r.1.begun c e (some r.2)

/-- The instructions of a Cove that wait in its queues start as far as they may, in program order. Nothing starts while the
Cove is suspended or drains for a suspension. -/
def Blk.startAll (b : Blk) (c : Nat) : Blk :=
  let q := b.seq c
  if q.st ≠ 1 || 2 ≤ b.dev.power || (q.stopping = 3 && q.fault.isNone) then b
  else (q.inflight.map (·.serial)).foldl (fun b n =>
    match (b.seq c).inflight.find? (fun e => e.serial == n) with
    | some e => b.tryStart c e
    | none => b) b
/-- Starts, and the end of a program whose issued instructions have all completed; a match table released by that end lets
another Cove's load start (R257). -/
def Blk.kick (b : Blk) (c : Nat) : Blk :=
  let b1 := (b.startAll c).settle c
  if (b.bay (bayOf c)).matchHolder = some c && (b1.bay (bayOf c)).matchHolder.isNone then
    (List.range 15).foldl (fun b i => b.startAll (16 * bayOf c + (c + 1 + i) % 16)) b1
  else b1
/-- The Coves of a Bay that wait for one of its engines, in grant order from the Cove after the one granted last (R252). -/
def Blk.kickBay (b : Blk) (y last : Nat) : Blk :=
  (List.range 16).foldl (fun b i => b.kick (16 * y + (last + 1 + i) % 16)) b

/-! ### Issue (R174 to R179, R181, R182) -/

/-- Can the sequencer issue at all: RUN, nothing held, no end of the program under way? -/
def Blk.canIssue (b : Blk) (c : Nat) : Bool :=
  let x := b.cove c
  let q := x.seq
  q.st == 1 && q.stopping == 0 && q.hold == .none && q.fault.isNone && !x.clearing && !x.cacheChanging && b.dev.power < 2
/-- Does the guard or the SCMP operand of a word name p7 while an earlier CONT instruction is uncompleted (R182)? -/
def Seq.p7Held (q : Seq) (w : Nat) : Bool :=
  ((wGen w && wGpred w == 7) || (wOpcode w == 0x06 && tbit w 46 && fld w 45 43 == 7)) && q.inflight.any fun e => wCont e.word
/-- Does the guard let the instruction issue (R174)? -/
def Seq.guardOk (q : Seq) (w : Nat) : Bool := !wGen w || (tbit q.preds (wGpred w) != wGneg w)
/-- Do the extents of R179 hold an instruction of a queue (8 or above for SLD and SST)? -/
def Seq.extentHeld (q : Seq) (queue : Nat) (rd wr : List (Nat × Nat)) : Bool :=
  q.inflight.any fun e => e.queue != queue && (rangesMeet e.wr rd || rangesMeet e.wr wr || rangesMeet e.rd wr)

/-- The ranges and alignments of R175 and R200, with the range of another Cove's Tidepool. -/
def Blk.rangesOk (b : Blk) (c w : Nat) (regs : List (Nat × Nat)) : Bool :=
  let r := tileRanges c w regs
  alignOk w regs && ((r.1 ++ r.2).all fun p => p.2 == 0 || p.1 + p.2 ≤ b.progEnd c) &&
  (farRange c w).all fun p => p.2 == 0 || p.1 + p.2 ≤ b.progEnd (mvCove w)

/-- The check at issue of a unit instruction (R128, R175, R183): the status that rejects it, and the pending tags, credits
and counters that the check itself moves. -/
def Blk.issueCheck (b : Blk) (c w : Nat) (regs : List (Nat × Nat)) : Option Done × Blk :=
  let op := wOpcode w
  if !b.rangesOk c w regs then (some badParam, b)
  else if op = 0x10 then (wloadCheck w, b)
  else if op = 0x11 || op = 0x12 || op = 0x13 then
    match b.streamCheck c w regs with
    | some d => (some d, b)
    | none => b.stampCheck c (arrDom w) (arrAnchor w) (arrRow w) (arrM w regs)
  else if op = 0x14 then (planexCheck w, b)
  else if op = 0x20 then b.checkAclr c w
  else if op = 0x21 then b.checkAcvt c w
  else if op = 0x22 then b.checkAread c w regs
  else if op / 16 = 3 then (vecCheck w regs, b)
  else if op = 0x42 then (ttrnCheck c w regs, b)
  else if op = 0x43 then b.checkTput c w
  else if op = 0x44 then (b.checkTget c w, b)
  else if op = 0x50 then (b.checkRput c w, b)
  else if op = 0x51 then (b.checkRget c w, b)
  else if op = 0x62 then (cmmCheck w, b)
  else (none, b)

/-- An instruction rejected at issue, with no effect of its own (R181, R182). -/
def Blk.rejectAtIssue (b : Blk) (c w : Nat) (d : Done) : Blk :=
  let q := b.seq c
  let b1 := (b.issued c).statusOf c q.nextSerial q.pc w d
  if (b1.seq c).fault.isSome then b1.kick c else b1.advance c

/-- A unit instruction comes to issue: held by a full queue or by extents, rejected, or entered in its queue (R177, R179). -/
def Blk.issueUnit (b : Blk) (c w : Nat) : Blk :=
  let q := b.seq c
  match queueOf (wOpcode w) with
  | none => b
  | some k =>
    let r := tileRanges c w q.sregs
    let rd := hull r.1
    let wr := hull r.2
    if 8 ≤ (q.inflight.filter fun e => e.queue == k && !e.started).length || q.extentHeld k rd wr then b
    else match b.issueCheck c w q.sregs with
      | (some d, b1) => b1.rejectAtIssue c w d
      | (none, b1) =>
        let b2 := b1.issued c
        let q2 := b2.seq c
        ((b2.setSeq c { q2 with inflight := q2.inflight ++
          [{ serial := q.nextSerial, index := q.pc, queue := k, word := w, regs := q.sregs, rd := rd, wr := wr }] }).advance c).kick c

/-- The frame of every tile instruction: the Cove can issue, its next instruction is of this kind and not held under R182;
a false guard skips it (R174), else it acts. -/
def Blk.issueIf (b : Blk) (c : Nat) (is : Nat → Bool) (act : Blk → Nat → Blk) : Blk :=
  let q := b.seq c
  if !b.canIssue c || q.count ≤ q.pc then b
  else if !is q.word || q.p7Held q.word then b
  else if q.guardOk q.word then act b q.word else b.advance c
/-- A tile instruction of one opcode for a unit. -/
def Blk.unitOp (b : Blk) (c op : Nat) : Blk := b.issueIf c (fun w => wOpcode w == op) fun b w => b.issueUnit c w

/-! ### Control instructions (R184, R185) -/

/-- An instruction that the sequencer executes has issued, with its effect on the sequencer. -/
def Blk.seqOp (b : Blk) (c : Nat) (f : Seq → Seq) : Blk :=
  let b1 := b.issued c
  (b1.setSeq c (f (b1.seq c))).advance c

/-- Two's complement value of a 64-bit word. -/
def s64 (x : Nat) : Int := sx 64 x
/-- FN of SOP (R184). -/
def sopFn (fn a b : Nat) : Nat :=
  let r : Nat :=
    match fn with
    | 0 => a + b
    | 1 => a + (2 ^ 64 - b % 2 ^ 64)
    | 2 => Nat.land a b
    | 3 => Nat.lor a b
    | 4 => Nat.xor a b
    | 5 => a * 2 ^ (b % 64)
    | 6 => a / 2 ^ (b % 64)
    | 7 => toTwos 64 (s64 a / (2 ^ (b % 64) : Nat))
    | 8 => a * b
    | 9 => if s64 a ≤ s64 b then a else b
    | 10 => if s64 a ≤ s64 b then b else a
    | 11 => min a b
    | _ => max a b
  r % 2 ^ 64
/-- A 32-bit immediate sign-extended to 64 bits. -/
def immExt (x : Nat) : Nat := toTwos 64 (sx 32 x)
/-- The second operand of SOP and SCMP: a register, or the immediate when IMMF is set. -/
def operandB (q : Seq) (immf : Bool) (rb imm : Nat) : Nat := if immf then immExt imm else sreg q.sregs rb
/-- SOP's result on a sequencer (R184). -/
def Seq.sop (q : Seq) (w : Nat) : Seq :=
  q.setSreg (fld w 95 91) (sopFn (fld w 80 77) (sreg q.sregs (fld w 90 86)) (operandB q (tbit w 76) (fld w 85 81) (fld w 75 44)))
/-- CC of SCMP (R184). -/
def ccFn (cc a b : Nat) : Bool :=
  match cc with
  | 0 => a == b
  | 1 => a != b
  | 2 => decide (s64 a < s64 b)
  | 3 => decide (s64 a ≤ s64 b)
  | 4 => decide (a < b)
  | _ => decide (a ≤ b)
/-- SCMP's result on a sequencer (R184). -/
def Seq.scmp (q : Seq) (w : Nat) : Seq :=
  let r := ccFn (fld w 82 80) (sreg q.sregs (fld w 92 88)) (operandB q (tbit w 79) (fld w 87 83) (fld w 78 47))
  let g := if tbit w 46 then tbit q.preds (fld w 45 43) != tbit w 42 else true
  { q with preds := setFld q.preds (fld w 95 93) (fld w 95 93) (bnat (r && g)) }
/-- The value SGET reads (R184): SEL 5, Cove cycles, is a free value (log entry 3). -/
def Blk.sgetVal (b : Blk) (c sel : Nat) : Nat × Blk :=
  if sel = 0 then (c, b) else if sel = 1 then (b.slice.devid, b) else if sel = 2 then (b.tide, b)
  else if sel = 3 then ((b.seq c).cont, b) else if sel = 4 then (b.partNum c, b) else b.freeVal 0x184

def Blk.doNop (b : Blk) (c : Nat) : Blk := b.seqOp c id
def Blk.doHalt (b : Blk) (c : Nat) : Blk :=
  let b1 := b.issued c
  let q := b1.seq c
  (b1.setSeq c { q with stopping := 1, haltIndex := q.pc }).kick c
def Blk.doBr (b : Blk) (c w : Nat) : Blk :=
  let b1 := b.issued c
  b1.setSeq c { b1.seq c with pc := brTarget w }
/-- LOOP: a count register above 65,535 is rejected; a count of zero skips the body (R184, R185). -/
def Blk.doLoop (b : Blk) (c w : Nat) : Blk :=
  let q := b.seq c
  let n := if tbit w 93 then sreg q.sregs (fld w 81 77) else fld w 92 77
  if 65535 < n then b.rejectAtIssue c w badParam
  else
    let b1 := b.issued c
    let q1 := b1.seq c
    let l := sset (fun _ => 0) q1.lregs (loopCtr w) n
    if n = 0 then
      let r := loopNext (loopEnd w) l q1.loops
      b1.setSeq c { q1 with pc := r.1, loops := r.2.1, lregs := r.2.2 }
    else b1.setSeq c { q1 with pc := q1.pc + 1, lregs := l, loops := (loopCtr w, q1.pc + 1, loopEnd w) :: q1.loops }
def Blk.doSli (b : Blk) (c w : Nat) : Blk := b.seqOp c fun q => q.setSreg (fld w 95 91) (fld w 63 0)
def Blk.doSop (b : Blk) (c w : Nat) : Blk := b.seqOp c fun q => q.sop w
def Blk.doScmp (b : Blk) (c w : Nat) : Blk := b.seqOp c fun q => q.scmp w
/-- SLD: held by extents, rejected, or the word read (R179, R184). -/
def Blk.doSld (b : Blk) (c w : Nat) : Blk :=
  let q := b.seq c
  let a := xaddr w q.sregs 85 64
  if q.extentHeld 8 [(a, 8)] [] then b
  else if !b.rangesOk c w q.sregs then b.rejectAtIssue c w badParam
  else (b.tpTouchReads c 10 [(a, 8)]).seqOp c fun q => q.setSreg (fld w 90 86) (b.tpNat c a 8)
/-- SST: held by extents, rejected, or the word written (R179, R184). -/
def Blk.doSst (b : Blk) (c w : Nat) : Blk :=
  let q := b.seq c
  let a := xaddr w q.sregs 85 64
  if q.extentHeld 8 [] [(a, 8)] then b
  else if !b.rangesOk c w q.sregs then b.rejectAtIssue c w badParam
  else ((b.bankTouch c 10 a 8).tpWrite c a (leBytes 8 (sreg q.sregs (fld w 90 86)))).seqOp c id
def Blk.doSget (b : Blk) (c w : Nat) : Blk :=
  let r := b.sgetVal c (fld w 90 87)
  r.2.seqOp c fun q => q.setSreg (fld w 95 91) r.1
/-- The sequencer comes to issue at or beyond the loaded count (R178). -/
def Blk.runoff (b : Blk) (c : Nat) : Blk :=
  let q := b.seq c
  if b.canIssue c && q.count ≤ q.pc then
    (b.addFault c { serial := q.nextSerial, st := stFORMAT, det := 0xD * 4096 + q.count, index := q.pc, rows := 0 }).kick c
  else b

/-! ### Synchronisation (R192, R194) -/

/-- Coves of a scope in the issuing Cove's partition, and the scope's index (R194). -/
def Blk.scopeOf (b : Blk) (c scope : Nat) : Nat × Nat :=
  if scope = 0 then (bayOf c, 16) else if scope = 1 then (hlOf c, 256)
  else (b.partNum c, ((List.range nHeadlands).filter fun h => b.partOfHl h == b.partOfCove c).length * 256)
/-- BAR: rejected, or arrived and held until BAR_RELEASE; an arrival after the K-th waits for the next generation. -/
def Blk.doBar (b : Blk) (c w : Nat) : Blk :=
  let scope := fld w 95 94
  let bid := fld w 93 90
  let k := fld w 89 77
  let s := b.scopeOf c scope
  let key := barKey scope s.1 bid
  let x := b.barrier key
  if s.2 < k then b.rejectAtIssue c w badParam
  else if x.due then b
  else if x.k != 0 && x.k != k then b.rejectAtIssue c w badParam
  else
    let l := x.arrived ++ [c]
    (b.setBarrier key { x with k := k, arrived := l, due := l.length == k }).setSeq c { b.seq c with hold := .bar scope s.1 bid }
/-- A hold of one Cove ends and its instruction has issued. -/
def Blk.endHold (b : Blk) (c : Nat) : Blk := (b.setSeq c { b.seq c with hold := .none }).seqOp c id
/-- A barrier's release (R194). -/
def Blk.barRelease (b : Blk) (scope idx bid : Nat) : Blk :=
  let key := barKey scope idx bid
  let x := b.barrier key
  if !x.due then b
  else (x.arrived.foldl (fun b c => if (b.seq c).hold = .bar scope idx bid then b.endHold c else b) b).setBarrier key
    { gen := x.gen + 1 }
/-- WAIT: the units of a mask that have an uncompleted earlier instruction hold it (R194). -/
def Blk.doWait (b : Blk) (c w : Nat) : Blk :=
  if (b.seq c).inflight.any fun e => tbit (fld w 95 89) (wUnit e.word - 1) then b else b.seqOp c id
/-- DMAW: an uncompleted earlier DMAQ of a named tag holds it (R192). -/
def Blk.doDmaw (b : Blk) (c w : Nat) : Blk :=
  if (b.seq c).inflight.any fun e => wOpcode e.word == 0x60 && tbit (fld w 95 80) (fld e.word 57 54) then b else b.seqOp c id
/-- TWAIT: a value already passed lets it issue; else it holds until TWAIT_RELEASE (R194). -/
def Blk.doTwait (b : Blk) (c w : Nat) : Blk :=
  let q := b.seq c
  let t := sreg q.sregs (fld w 95 91)
  if t ≤ b.tide then b.seqOp c id else b.setSeq c { q with hold := .twait t }
def Blk.twaitRelease (b : Blk) (c : Nat) : Blk :=
  match (b.seq c).hold with
  | .twait t => if (b.seq c).st = 1 then ({ b with tide := max b.tide t }).endHold c else b
  | _ => b

/-! ### Completion events (R181, R221, R222) -/

/-- The first instruction of a queue whose work is done completes; its engine is free for the next Cove in turn. -/
def Blk.unitComplete (b : Blk) (c queue : Nat) : Blk :=
  let q := b.seq c
  match q.inflight.find? fun e => e.queue == queue && e.done.isSome with
  | none => b
  | some e =>
    let d := e.done.getD okDone
    let b1 := b.setSeq c { q with inflight := q.inflight.filter fun f => f.serial != e.serial }
    let b2 := if wOpcode e.word = 0x51 && d.st = stOK then b1.endRget c e.word else b1
    let b3 := (b2.statusOf c e.serial e.index e.word d).kick c
    let es := (List.range 5).filter fun k => ((b3.bay (bayOf c)).engine k).busy == some c &&
      (if queue = 7 then k < 4 else queue == 6 && k == 4 && wOpcode e.word == 0x62)
    match es with
    | [] => b3
    | k :: _ =>
      let y := b3.bay (bayOf c)
      (b3.setBay (bayOf c) (y.setEngine k { y.engine k with busy := none })).kickBay (bayOf c) (c % 16)
/-- The fill of a slot ends (R100): the started WLOAD into it is done. -/
def Blk.fillDone (b : Blk) (c slot : Nat) : Blk :=
  let x := b.cove c
  match x.seq.inflight.find? fun e => wOpcode e.word == 0x10 && e.started && e.done.isNone && wlSlot e.word == slot with
  | none => b
  | some e =>
    let r := (x.slot slot).filled
    ((b.setCove c (x.setSlot slot r.1)).begun c e (some r.2)).kick c
/-- The last byte of a slot's data is written: the slot is FULL, its producer's RPUT is done, a waiting RGET may go on. -/
def Blk.slotFull (b : Blk) (owner ring : Nat) : Blk :=
  let r := (b.cove owner).ring ring
  if r.landing.isEmpty then b else
  let b1 := b.landRing owner ring
  let p := r.producer
  let b2 := match (b1.seq p).inflight.find? fun e =>
      wOpcode e.word == 0x50 && e.started && e.done.isNone && rputOwner e.word == owner && rgRing e.word == ring with
    | some e => b1.begun p e (some okDone)
    | none => b1
  (b2.kick p).kick owner
def Blk.creditReturn (b : Blk) (owner ring : Nat) : Blk :=
  let r := (b.cove owner).ring ring
  if r.returning = 0 then b else (b.creditRing owner ring).kick r.producer
/-- A waiting RPUT or RGET reaches its timeout (R222). -/
def Blk.ringTimeout (b : Blk) (c : Nat) : Blk :=
  match (b.seq c).inflight.find? fun e => e.queue == 5 && !e.started with
  | none => b
  | some e =>
    if !b.mayStart c e then b
    else match (if wOpcode e.word = 0x50 then b.startRput c e.word e.regs else b.startRget c e.word e.regs) with
      | .waits => (b.begun c e (some (fault stRINGTIMEOUT))).kick c
      | _ => b

/-! ### Stopping and suspending from outside (R109, R171, R172) -/

/-- A stop at the next instruction boundary: issued instructions complete, waits are abandoned. A HALT already issued
still ends HALTED. -/
def Blk.stopCove (b : Blk) (c : Nat) : Blk :=
  let q := b.seq c
  if q.st ≠ 1 && q.st ≠ 2 then b
  else
    let b1 := b.dropHold c
    let q1 := b1.seq c
    (b1.setSeq c { q1 with st := 1, stopping := if q1.stopping = 1 then 1 else 2 }).kick c
/-- A suspension after the drain of R109. -/
def Blk.suspendCove (b : Blk) (c : Nat) : Blk :=
  let q := b.seq c
  if q.st = 1 && q.stopping = 0 then (b.setSeq c { q with stopping := 3, suspendedOnce := true }).kick c else b
def Blk.resumeCove (b : Blk) (c : Nat) : Blk :=
  let q := b.seq c
  if q.st = 2 then (b.setSeq c { q with st := 1, stopping := 0 }).kick c
  else if q.stopping = 3 then (b.setSeq c { q with stopping := 0 }).kick c else b

end Sys2Proof.Machine
end

