-- ==== Sys2Proof/Machine/Host.lean ====
section
/-! DEFINITION. The host side: replies, events and error records, the frames that carry them, and the checks a command
passes before it runs (R36 to R61, R497 to R503). -/
namespace Sys2Proof.Machine

/-! ### Event and opcode numbers (R57, R61) -/

def evREADY : Nat := 0x0F01
def evERROR : Nat := 0x0F02
def evWAKE : Nat := 0x0F03
def evRESETDONE : Nat := 0x0F04
def evSCRUBDONE : Nat := 0x0F05
def evLINKSTATE : Nat := 0x0F06
def evDEVICEMISSING : Nat := 0x0F07
def evSURGE : Nat := 0x0F08
def evMODECOMMITTED : Nat := 0x0F09
def evMODEABORTED : Nat := 0x0F0A
def evTHERMAL : Nat := 0x0F0B
def evPORTFAILOVER : Nat := 0x0F0C
def evEVENTSLOST : Nat := 0x0F0D
def evFWACTIVATED : Nat := 0x0F0E
def evRETIREPROPOSED : Nat := 0x0F0F
def evSTEPOUTPUT : Nat := 0x0F20

/-- What the opcode table gives for one opcode (R57): D or I, the states, the privilege (bit of R52, 5 for none), and
whether only context 0 may send it (1) or context 0 and the context it names (2). -/
structure OpInfo where
  code : Nat
  dkind : Bool := false
  rom : Bool := false
  svc : Bool := true
  low : Bool := false
  priv : Nat := 5
  ctx0 : Nat := 0
  deriving DecidableEq, Repr

def opTable : List OpInfo :=
  [{ code := 0x0000, rom := true, low := true }, { code := 0x0001, rom := true, low := true },
   { code := 0x0002, dkind := true, rom := true, svc := false, ctx0 := 1 }, { code := 0x0003, ctx0 := 1 },
   { code := 0x0004, dkind := true, low := true, ctx0 := 2 }, { code := 0x0100, rom := true, low := true },
   { code := 0x0101, low := true }, { code := 0x0200, dkind := true }, { code := 0x0201, dkind := true },
   { code := 0x0202, dkind := true }, { code := 0x0203, dkind := true }, { code := 0x0204, dkind := true },
   { code := 0x0205 }, { code := 0x0300, dkind := true }, { code := 0x0301, dkind := true },
   { code := 0x0302, dkind := true }, { code := 0x0303, dkind := true }, { code := 0x0304, dkind := true }] ++
  [{ code := 0x0400, dkind := true }, { code := 0x0401 }, { code := 0x0402 }, { code := 0x0403 }, { code := 0x0404 },
   { code := 0x0500 }, { code := 0x0501, dkind := true }, { code := 0x0502, dkind := true },
   { code := 0x0600, dkind := true, priv := 0 }, { code := 0x0601, priv := 0 }, { code := 0x0602, dkind := true, priv := 0 },
   { code := 0x0603, dkind := true, priv := 0 }, { code := 0x0604, dkind := true, priv := 0 }, { code := 0x0605, priv := 0 },
   { code := 0x0606, dkind := true, priv := 0 }] ++
  [{ code := 0x0700, dkind := true, priv := 4 }, { code := 0x0701, priv := 4 }, { code := 0x0702, dkind := true, priv := 4 },
   { code := 0x0703, dkind := true }, { code := 0x0800, dkind := true, low := true, priv := 2 },
   { code := 0x0801, dkind := true, rom := true, low := true, priv := 2 }, { code := 0x0900, low := true },
   { code := 0x0901, dkind := true, priv := 3 }, { code := 0x0902, dkind := true, priv := 3 },
   { code := 0x0903, dkind := true, priv := 3 }, { code := 0x0904, dkind := true, low := true, priv := 3 },
   { code := 0x0905, dkind := true, low := true, priv := 3 }, { code := 0x0906, dkind := true, low := true, priv := 3 },
   { code := 0x0907, low := true, ctx0 := 1 }]
def opInfo (code : Nat) : Option OpInfo := opTable.find? fun o => o.code == code

/-! ### Frames (R37 to R41) -/

/-- Bytes a frame of a body takes on a port (R37). -/
def frameBytes (o : Out) : Nat := 20 + o.body.length
/-- Is there room in a port's transmit replay buffer of 8 MiB (R38)? -/
def Port.room (p : Port) (o : Out) : Bool :=
  (p.txBuf.foldl (fun a q => a + frameBytes q.2) 0) + frameBytes o ≤ 8388608
/-- A frame leaves on a port and stays in its replay buffer. -/
def Port.push (p : Port) (o : Out) : Port := { p with txBuf := p.txBuf ++ [(p.txNext, o)], txNext := (p.txNext + 1) % 2 ^ 32 }
/-- The home port of a context; context 0 before its first command uses the lowest port that is up (R51; log entry 20). -/
def Blk.homeOf (b : Blk) (c : Nat) : Nat :=
  let x := b.ctx c
  if c = 0 && !x.homeSet then (if b.host.portA.up then 0 else if b.host.portB.up then 1 else 0) else x.home
/-- A context's event queue holds 256 entries; further events are counted and not queued (R49). -/
def Ctx.hold (x : Ctx) (o : Out) (seq : Nat) : Ctx :=
  if o.event && 256 ≤ (x.held.filter (·.event)).length then
    { x with lost := x.lost + 1, lostFirst := if x.lost = 0 then seq else x.lostFirst, lostLast := seq }
  else { x with held := x.held ++ [o] }
/-- A frame for a context: sent on its home port, or held in order (R41). -/
def Blk.sendOut (b : Blk) (o : Out) (evSeq : Nat) : Blk :=
  let x := b.ctx o.ctx
  let p := b.homeOf o.ctx
  if (b.port p).up && x.held.isEmpty && (b.port p).room o then b.setPort p ((b.port p).push o)
  else b.setCtx o.ctx (x.hold o evSeq)
/-- A frame for no context, on a port that carries frames. -/
def Blk.sendOn (b : Blk) (p : Nat) (o : Out) : Blk :=
  if (b.port p).up && (b.port p).room o then b.setPort p ((b.port p).push o) else b

/-! ### Replies and events (R47 to R49) -/

/-- A reply or event message (R47). -/
def msgBytes (op ctx : Nat) (final event : Bool) (seq st det tide : Nat) (payload : List Byte) : List Byte :=
  [3, 0] ++ leBytes 2 op ++ leBytes 4 (ctx % 4096 + (if final then 4096 else 0) + (if event then 8192 else 0)) ++
  leBytes 4 seq ++ leBytes 4 payload.length ++ leBytes 2 st ++ leBytes 2 det ++ zeros 4 ++ leBytes 8 tide ++ payload

/-- An event, one sequence of the device's series, sent to each open context of a list (R49, R61). -/
def Blk.eventTo (b : Blk) (ctxs : List Nat) (op : Nat) (payload : List Byte) : Blk :=
  let seq := b.host.evSeq
  let b1 := { b with host := { b.host with evSeq := (seq + 1) % 2 ^ 32 } }
  (ctxs.filter fun c => (b.ctx c).st = 1).foldl (fun b c =>
    b.sendOut { kind := 1, ctx := c, event := true, body := msgBytes op c true true seq 0 0 b.tide payload } seq) b1
/-- The open contexts of a partition. -/
def Blk.ctxsOf (b : Blk) (p : Nat) : List Nat :=
  (b.host.ctxs.filter fun q => q.1 != 0 && q.2.st == 1 && q.2.part == p).map Prod.fst
/-- An event to context 0. -/
def Blk.event0 (b : Blk) (op : Nat) (payload : List Byte) : Blk := b.eventTo [0] op payload
/-- An event that concerns a partition: to context 0 and every open context of it (R61). -/
def Blk.eventP (b : Blk) (p op : Nat) (payload : List Byte) : Blk := b.eventTo (0 :: b.ctxsOf p) op payload

/-- Frames held for contexts whose home is a port leave as far as they may; space in an event queue lets EVENTS_LOST be
queued (R41, R49). -/
def Blk.flushCtx (b : Blk) (p c : Nat) : Blk :=
  let x := b.ctx c
  if b.homeOf c ≠ p || !(b.port p).up then b
  else
    let r := x.held.foldl (fun (s : Port × List Out) o =>
      if s.2.isEmpty && s.1.room o then (s.1.push o, s.2) else (s.1, s.2 ++ [o])) (b.port p, [])
    let b1 := (b.setPort p r.1).setCtx c { x with held := r.2 }
    let x1 := b1.ctx c
    if x1.lost = 0 || 256 ≤ (x1.held.filter (·.event)).length then b1
    else
      let pay := leBytes 4 x1.lost ++ leBytes 4 x1.lostFirst ++ leBytes 4 x1.lostLast ++ zeros 4
      (b1.setCtx c { x1 with lost := 0 }).eventTo [c] evEVENTSLOST pay
def Blk.flushPort (b : Blk) (p : Nat) : Blk := (b.host.ctxs.map Prod.fst).foldl (fun b c => b.flushCtx p c) b

/-! ### Error records (R497 to R503) -/

/-- The 64 bytes of a record (R497). -/
def ErrRec.bytes (r : ErrRec) : List Byte :=
  leBytes 4 r.index ++ leBytes 1 r.cls ++ leBytes 1 r.kind ++ leBytes 2 r.code ++ leBytes 8 r.path ++ leBytes 8 r.first ++
  leBytes 8 r.last ++ leBytes 8 r.addr ++ leBytes 4 r.count ++ leBytes 1 r.part ++ leBytes 1 r.proposal ++
  leBytes 2 r.status ++ leBytes 2 r.ctx ++ zeros 2 ++ leBytes 4 r.seq ++ leBytes 8 r.detail
/-- DV_ERR_CTL.WINDOW in ms (R502, R513). -/
def Blk.errWindow (b : Blk) : Nat := fld (b.cfgGet 0x0E00) 15 0
/-- An ERROR event with a record, to context 0 and its partition (R498). -/
def Blk.errorEvent (b : Blk) (r : ErrRec) : Blk :=
  if r.part < nParts then b.eventP r.part evERROR r.bytes else b.event0 evERROR r.bytes
/-- RETIRE_PROPOSED with a record's unit (R505). -/
def Blk.propose (b : Blk) (r : ErrRec) : Blk :=
  b.event0 evRETIREPROPOSED (leBytes 1 r.kind ++ leBytes 1 r.proposal ++ zeros 2 ++ leBytes 4 r.index ++ leBytes 8 r.path)
/-- A record created: it takes the next index, the log keeps the latest 4,096, an ERROR event is sent, and a proposal to retire
its unit follows (R497, R498, R503, R505, R513). -/
def Blk.newError (b : Blk) (r : ErrRec) : Blk :=
  let l := b.err
  let n := { r with index := l.next % 2 ^ 32, first := b.tide, last := b.tide }
  let recs := l.recs ++ [n]
  let b1 := ({ b with err := { l with recs := recs.drop (recs.length - 4096), next := (l.next + 1) % 2 ^ 32 } }).count (0xE10 + 8 * (r.cls % 4)) 1
  let b2 := b1.errorEvent n
  if 1 ≤ r.proposal && r.proposal ≤ 4 then b2.propose n else b2
/-- A correctable fault merged into a record: COUNT and LAST rise; an HBM record that reaches CE_RETIRE proposes its row (R502,
R505). -/
def Blk.mergeError (b : Blk) (q : ErrRec) : Blk :=
  let l := b.err
  let n := min (q.count + 1) (2 ^ 32 - 1)
  let hit := q.kind = 4 && q.code = 0x10 && n = fld (b.cfgGet 0xE00) 31 16
  let q1 := { q with count := n, last := b.tide, proposal := if hit then 3 else q.proposal }
  let b1 := { b with err := { l with
      recs := l.recs.map fun x => if x.index = q.index then q1 else x
      rose := if l.rose.any fun x => x.1 == q.index then l.rose else l.rose ++ [(q.index, q.count)] } }
  if hit then b1.propose q1 else b1
/-- A fault is recorded: a correctable one merges into a matching record of the last WINDOW ms and sends nothing, any other one
makes a record (R502, R503). -/
def Blk.addError (b : Blk) (r : ErrRec) : Blk :=
  match b.err.recs.find? fun q => r.cls == 0 && q.cls == 0 && q.kind == r.kind && q.path == r.path && q.code == r.code &&
    b.tide ≤ q.first + b.errWindow * 1000000 with
  | some q => b.mergeError q
  | none => b.newError r
/-- The index the next record will take, whose low half is the detail of ST_HW_ERROR and ST_UNCONTAINED (R498). -/
def Blk.errDetail (b : Blk) : Nat := b.err.next % 2 ^ 16

/-! ### Commands (R42 to R60) -/

def Cmd.ctx (c : Cmd) : Nat := c.m.ctx
def Cmd.seq (c : Cmd) : Nat := c.m.seq
def Cmd.flag (c : Cmd) (bit : Nat) : Bool := tbit c.m.flags (bit - 12)
def Blk.cmdOf (b : Blk) (ctx seq : Nat) : Option Cmd := b.host.cmds.find? fun c => c.ctx == ctx && c.seq == seq
def Blk.setCmd (b : Blk) (c : Cmd) : Blk :=
  { b with host := { b.host with cmds := b.host.cmds.map fun d => if d.ctx = c.ctx && d.seq = c.seq then c else d } }
def Blk.dropCmd (b : Blk) (c : Cmd) : Blk :=
  { b with host := { b.host with cmds := b.host.cmds.filter fun d => !(d.ctx == c.ctx && d.seq == c.seq) } }
/-- The full deadline of a command: the first Tide value at or after its receipt whose low half is the field (R45). -/
def Cmd.deadline (c : Cmd) : Nat := c.tide + (c.m.deadline + 2 ^ 32 - c.tide % 2 ^ 32) % 2 ^ 32

/-- A reply message to a command's context, or on its arrival port when the context is not open. -/
def Blk.replyTo (b : Blk) (port ctx : Nat) (body : List Byte) : Blk :=
  let o : Out := { kind := 1, ctx := ctx, event := false, body := body }
  if (b.ctx ctx).st = 0 then b.sendOn port o else b.sendOut o 0
/-- The final reply of a command that is not, or no longer, in the list of uncompleted commands. Stored: it is one of the
last 64 of its context (R42). -/
def Blk.finalReply (b : Blk) (m : Msg) (stored : Bool) (st det : Nat) (payload : List Byte) : Blk :=
  let body := msgBytes m.opcode m.ctx true false m.seq st det b.tide payload
  let x := b.ctx m.ctx
  let b1 := if stored && x.st != 0 then
      let l := x.replies ++ [(m.seq, body)]
      b.setCtx m.ctx { x with replies := l.drop (l.length - 64) }
    else b
  b1.replyTo m.port m.ctx body
/-- Does an open span's log hold a command (R157)? -/
def Blk.logged (b : Blk) (ctx seq : Nat) : Bool :=
  b.spans.any fun p => p.2.opened && p.2.log.any fun l => l.m.ctx == ctx && l.m.seq == seq
/-- The opcodes that a span log takes: PROG_LOAD, PROG_START, PROG_STOP, DMA_SUBMIT, MEM_WRITE (R157). -/
def logOps : List Nat := [0x200, 0x201, 0x202, 0x302, 0x300]
/-- The outcome of a command noted in the logs that hold it (R157). -/
def Span.note (x : Span) (ctx seq st det : Nat) (payload : List Byte) : Span :=
  { x with log := x.log.map fun l => if l.m.ctx = ctx && l.m.seq = seq then { l with done := some (st, det, payload) } else l }
/-- A command's step of a measurement (R493). -/
def measureStep (m : List Byte) (c : Msg) (payload : List Byte) (len : Nat) : List Byte :=
  Config.shake256 (m ++ leBytes 2 c.ctx ++ leBytes 2 c.opcode ++ leBytes 8 c.param ++ leBytes 4 len ++ payload) 64
/-- CFG extended by a command; CMD_PART_KEY counts as one without payload (R493). There is none before a boot accept. -/
def Blk.extendCfg (b : Blk) (m : Msg) : Blk :=
  if b.fw.running.isNone then b
  else
    let pay := if m.opcode = 0x701 then [] else m.payload
    { b with fw := { b.fw with cfgMeas := measureStep b.fw.cfgMeas m pay (if m.opcode = 0x701 then 0 else m.plen) } }
/-- PM_p extended by a command, with bytes appended to its payload (R493). -/
def Blk.extendPm (b : Blk) (p : Nat) (m : Msg) (more : List Byte) : Blk :=
  if p < nParts && (b.part p).st != 0 then b.setPart p { b.part p with pm := measureStep (b.part p).pm m (m.payload ++ more) m.plen } else b
/-- The measurements that an accepted command extends by its opcode alone (R493). CMD_PROG_LOAD and CMD_CFG_WRITE have their own. -/
def Blk.measureCmd (b : Blk) (m : Msg) : Blk :=
  let op := m.opcode
  if op = 0x003 || op = 0x004 || op / 256 = 6 || op = 0x700 || op = 0x701 || op = 0x702 || op / 256 = 8 || op / 256 = 9 then b.extendCfg m
  else if op = 0x205 || op = 0x403 || op = 0x404 || op = 0x500 then b.extendPm m.partition m [] else b
/-- Is an opcode of kind D (R48)? -/
def dKind (op : Nat) : Bool := match opInfo op with | some o => o.dkind | none => false
/-- A command completes (R48): a NONE or ELASTIC one past its deadline answers ST_LATE in place of ST_OK (R45), a BOUNDED one too,
with a reason that no rule gives (R10, R60); CMD_PROG_START, CMD_REQ_SUBMIT and CMD_SLICE_BARRIER have rules of their own (R196, R328,
R444). The reply of a logged command of a span is held, its outcome noted (R157, R159). An I command that succeeds is measured (R493). A
detail that no rule gives is a free value. -/
def Blk.finish (b : Blk) (c : Cmd) (st det : Nat) (payload : List Byte) : Blk :=
  let past := st = stOK && c.flag 13 && c.m.opcode != 0x400 && c.deadline < b.tide
  let late := past && c.m.cls != 1
  let broke := past && c.m.cls = 1 && c.m.opcode != 0x201 && c.m.opcode != 0x502
  let r := b.closeDet (if late then 7 else if broke then openDet else det)
  let b0 := if st = stOK && !dKind c.m.opcode then r.2.measureCmd c.m else r.2
  let b1 := b0.dropCmd c
  let st1 := if late || broke then stLATE else st
  if b1.logged c.ctx c.seq then
    { b1 with spans := b1.spans.map fun p => (p.1, if p.2.opened then p.2.note c.ctx c.seq st1 r.1 payload else p.2) }
  else b1.finalReply c.m (c.m.opcode != 1) st1 r.1 payload
/-- A command ends with a status and no payload. -/
def Blk.reject (b : Blk) (c : Cmd) (st : Nat) (det : Nat := openDet) : Blk := b.finish c st det []
/-- A D command is accepted: measured (R493), and answered with ST_QUEUED, once, unless NO_QUEUED_REPLY (R48). -/
def Blk.accept (b : Blk) (c : Cmd) (payload : List Byte := []) : Blk :=
  let b0 := if c.queued then b else b.measureCmd c.m
  let b1 := b0.setCmd { c with started := true, queued := true }
  if c.flag 15 || c.queued then b1 else b1.replyTo c.m.port c.ctx (msgBytes c.m.opcode c.ctx false false c.seq stQUEUED 0 b.tide payload)

/-- The state of the device as R56, R507 and R519 divide it: 0 off, 1 held in reset, 2 FATAL, 3 ROM, 4 SVC, 5 LOW. -/
def Blk.devMode (b : Blk) : Nat :=
  if !b.dev.powered then 0 else if b.dev.mrstLow || b.dev.changing = 3 then 1 else if b.dev.fatal then 2
  else if !b.dev.svc then 3 else if 2 ≤ b.dev.power then 5 else 4
/-- Is a command permitted in the device's state (R56, R507, R519)? -/
def Blk.stateOk (b : Blk) (m : Msg) (o : OpInfo) : Bool :=
  let dv := m.opcode = 0x0100 && cfgBase ≤ m.param && m.param + 8 * leAt m.payload 0 2 ≤ cfgBase + 0x10000
  match b.devMode with
  | 3 => o.rom
  | 4 => o.svc
  | 5 => o.low
  | 2 => m.opcode == 1 || dv || m.opcode == 0x0900 || (m.opcode == 0x0801 && fld m.param 3 0 == 1)
  | 1 => m.opcode == 1 || dv
  | _ => false

/-- The payload length that an opcode requires (R46, R57, R58): none where any multiple of 8 may stand. -/
def reqLen (m : Msg) : Option Nat :=
  let op := m.opcode
  if op = 0x0101 || (op = 0x0300 && !tbit m.flags 2) then none
  else if op = 0x0300 || op = 0x0301 || op = 0x0100 || op = 0x0402 || op = 0x0603 || op = 0x0900 then some 8
  else if op = 0x0200 || op = 0x0303 || op = 0x0403 || op = 0x0600 || op = 0x0604 then some 16
  else if op = 0x0201 then some 264
  else if op = 0x0203 then some (0x10 + 16 * leAt m.payload 0x09 1 + 24 * leAt m.payload 0x0A 1)
  else if op = 0x0205 then some 32
  else if op = 0x0302 then some (m.plen / 64 * 64)
  else if op = 0x0400 then some 64
  else if op = 0x0404 then some 16
  else if op = 0x0500 then some (0x20 + 8 * cdiv (2 * (leAt m.payload 4 2 % 2 ^ 15)) 8 + 16 * (leAt m.payload 8 2 % 2 ^ 11))
  else if op = 0x0601 then some 384
  else if op = 0x0605 then some 24
  else if op = 0x0700 then some 152
  else if op = 0x0701 then some 1640
  else if op = 0x0703 then some 32
  else if op = 0x0907 then some (if tbit m.param 1 then 0 else 512)
  else some 0

/-- The checks of R50 that come before anything else: the status and detail that refuse a command. -/
def versionCheck (m : Msg) : Option (Nat × Nat) :=
  if m.major != 3 then some (stVERSION, 0)
  else if m.minor = 0 then
    (if fld m.flags 11 4 != 0 then some (stBADPARAM, 6) else if fld m.flags 19 12 != 0 then some (stBADPARAM, 7)
     else if m.reserved != 0 then some (stBADPARAM, 0x12) else none)
  else if fld m.flags 19 12 != 0 then some (stVERSION, 7)
  else if m.reserved != 0 then some (stVERSION, 0x12) else none
/-- A message as minor 0 reads it: flags [23:16] and payload bytes beyond the minor-0 length left out (R50). -/
def asMinor0 (m : Msg) : Msg :=
  if m.minor = 0 then m
  else
    let m1 := { m with flags := setFld m.flags 11 4 0 }
    match reqLen m1 with
    | some n => { m1 with payload := m1.payload.take n, plen := min m1.plen n }
    | none => m1

/-- The header checks after the sequence (R46, R51 to R56), in the order of log entry 21. -/
def Blk.headerCheck (b : Blk) (m : Msg) (o : OpInfo) : Option (Nat × Nat) :=
  let x := b.ctx m.ctx
  if m.ctx != 0 && m.partition != x.part then some (stNOPERM, 2)
  else if m.ctx != 0 && ((o.ctx0 = 1) || (o.ctx0 = 2 && fld m.param 11 0 != m.ctx) || (o.priv < 5 && !tbit x.privs o.priv)) then
    some (stNOPERM, 1)
  else if !b.stateOk m o then some (stBUSY, 2)
  else if m.opcode != 1 && (if m.ctx = 0 then 256 else x.depth) ≤ (b.host.cmds.filter fun c => c.ctx == m.ctx).length then
    some (stBUSY, 1)
  else if 65536 < m.plen || m.plen % 8 != 0 || m.payload.length != m.plen ||
    (match reqLen m with | some n => m.plen != n | none => false) then some (stLENGTH, 0xC)
  else none

/-- A message is taken in (R42 to R56): refused with its final reply, answered from the stored replies, or put at the end of
the uncompleted commands, from where it starts in its turn. -/
def Blk.takeMsg (b : Blk) (m0 : Msg) : Blk :=
  let m := asMinor0 m0
  let x := b.ctx m.ctx
  let b0 := if m.ctx = 0 && x.st = 1 && !x.homeSet then b.setCtx 0 { x with home := m.port, homeSet := true } else b
  let no := fun (st det : Nat) => let r := b0.closeDet det; r.2.finalReply m false st r.1 []
  match versionCheck m0 with
  | some e => no e.1 e.2
  | none =>
    if 2 < m.cls then no stBADPARAM 0x10
    else if 15 < m.partition && m.partition != 0xFF then no stBADPARAM 0x11
    else match opInfo m.opcode with
      | none => no stBADOP openDet
      | some o =>
        let y := b0.ctx m.ctx
        if y.st != 1 then no stNOPERM 4
        else if m.opcode != 1 && y.series && m.seq != y.expect then
          match y.replies.find? fun r => r.1 == m.seq with
          | some r => b0.replyTo m.port m.ctx r.2
          | none => if (b0.cmdOf m.ctx m.seq).isSome then b0 else no stBADPARAM 8
        else
          let b1 := if m.opcode = 1 then b0 else b0.setCtx m.ctx { y with series := true, expect := (m.seq + 1) % 2 ^ 32 }
          match b1.headerCheck m o with
          | some e => b1.finalReply m (m.opcode != 1) e.1 e.2 []
          | none => { b1 with host := { b1.host with cmds := b1.host.cmds ++ [{ m := m, tide := b1.tide, got := m.bulk }] } }
/-- A message arrives: with intake stopped it waits (R66). -/
def Blk.arrive (b : Blk) (m : Msg) : Blk :=
  if b.devMode = 0 then b
  else if b.host.intakeStopped then { b with host := { b.host with intake := b.host.intake ++ [(m.port, some m, [])] } }
  else b.takeMsg m

/-- Bytes of bulk data a command declares (R40, R58): none for a command that takes none. -/
def Msg.declared (m : Msg) : Option Nat :=
  if m.opcode = 0x300 then (if tbit m.flags 2 then some (leAt m.payload 0 4) else none)
  else if m.opcode = 0x603 then some (4 * (fld (leAt m.payload 0 8) 29 16 + 1))
  else if m.opcode = 0x002 || m.opcode = 0x905 then some m.param else none
/-- Bytes of bulk data that a message brings after it. -/
def Msg.bulkLen (m : Msg) : Nat := if tbit m.flags 2 then (Msg.declared m).getD 0 else 0
/-- Has all the data arrived that a command declares (R40)? -/
def Cmd.dataIn (c : Cmd) : Bool := !c.flag 14 || (match Msg.declared c.m with | some n => n ≤ c.got.length | none => true)
/-- Has a command taken its turn: it has started, or it was accepted and waits for its data (log entry 79)? -/
def Cmd.begun (c : Cmd) : Bool := c.started || (c.queued && !c.dataIn)
/-- May an uncompleted command start (R44, R53)? Its context has no earlier command that has not taken its turn, and with ORDERED, or for
CMD_SPAN_OPEN (R156), none at all. A span that drains for a replay lets no logged command of its context start (R160). -/
def Blk.mayRun (b : Blk) (c : Cmd) : Bool :=
  let earlier := (b.host.cmds.takeWhile fun d => !(d.ctx == c.ctx && d.seq == c.seq)).filter fun d => d.ctx == c.ctx
  !c.started && earlier.all (·.begun) && ((!c.flag 12 && c.m.opcode != 0x203) || earlier.isEmpty) &&
  !(logOps.contains c.m.opcode && b.spans.any fun p => p.2.opened && p.2.phase == 1 && p.2.ctx == c.ctx)
/-- The Cove set of a parameter: first and count (R56); none when it runs past 4,096 or a bit beside it is set. -/
def coveSet (param : Nat) : Option (Nat × Nat) :=
  let f := fld param 11 0
  let n := fld param 28 16
  if param != f + n * 2 ^ 16 || 4096 < n || 4096 < f + n then none else some (f, n)
def setCoves (s : Nat × Nat) : List Nat := (List.range s.2).map fun i => s.1 + i
/-- Are the Coves of a set within what a command may name (R52, R481): those of its partition, or any for partition 0xFF? -/
def Blk.covesOk (b : Blk) (p : Nat) (cs : List Nat) : Bool := p == 0xFF || cs.all fun c => b.partOfCove c == some p

end Sys2Proof.Machine
end

