-- ==== Sys2Proof/Machine/Fabric.lean ====
section
/-! DEFINITION. The fabric: packets and their flits, routing, the transmit side of the links, link states, remote requests
and what a lost face does to packets (R387 to R411, R436). -/
namespace Sys2Proof.Machine

/-! ### Packets (R391, R406, R436) -/

/-- The class of a packet's KIND (R391): 0 CONTROL, 1 REQUEST, 2 REPLY, 3 COLLECTIVE. -/
def kindClass (k : Nat) : Nat := if 0x20 ≤ k then 0 else if 0x10 ≤ k then 3 else if k ≤ 2 then 1 else 2
def pktVc (p : Pkt) : Nat := 4 * kindClass p.kind + 2 * (p.phase % 2) + bnat p.dateline
/-- Data bytes of a packet; for collective and control packets the word at 0x18 also holds GEN (R436). -/
def pktLen (p : Pkt) : Nat := p.len % 8192
def pktGen (p : Pkt) : Nat := p.len / 65536
def pktOpseq (p : Pkt) : Nat := p.addr % 2 ^ 32
def pktChunk (p : Pkt) : Nat := p.addr / 2 ^ 32
def pktSig (p : Pkt) : Nat := p.status + p.cause * 65536
/-- Flits of a packet: 208 data bytes in the first, 240 in each later one (R406). -/
def pktFlits (p : Pkt) : Nat := if p.data.length ≤ 208 then 1 else 1 + cdiv (p.data.length - 208) 240
/-- The 32-byte header (R406). -/
def pktHeader (p : Pkt) : List Byte :=
  leBytes 2 p.dst ++ leBytes 2 p.src ++ leBytes 2 p.via ++ leBytes 1 p.kind ++
  leBytes 1 (p.phase % 2 + 2 * bnat p.dateline + 4 * bnat p.alt + 8 * bnat p.resent) ++ leBytes 4 p.pseq ++ leBytes 2 p.tag ++
  leBytes 1 p.hops ++ leBytes 1 p.part ++ leBytes 8 p.addr ++ leBytes 4 p.len ++ leBytes 2 p.status ++ leBytes 2 p.cause
/-- The packet that a header and data spell. -/
def pktParse (b : List Byte) : Pkt :=
  let f := leAt b 7 1
  { dst := leAt b 0 2, src := leAt b 2 2, via := leAt b 4 2, kind := leAt b 6 1, phase := f % 2, dateline := tbit f 1, alt := tbit f 2,
    resent := tbit f 3, pseq := leAt b 8 4, tag := leAt b 0xC 2, hops := leAt b 0xE 1, part := leAt b 0xF 1, addr := leAt b 0x10 8,
    len := leAt b 0x18 4, status := leAt b 0x1C 2, cause := leAt b 0x1E 2, data := b.drop 32 }

/-! ### The torus (R18, R404, R407) -/

/-- Coordinates of a device identifier: X [13:9], Y [8:4], Z [3:0]. -/
def coordOf (d dim : Nat) : Nat := if dim = 0 then fld d 13 9 else if dim = 1 then fld d 8 4 else fld d 3 0
def Slice.size (s : Slice) (dim : Nat) : Nat :=
  (if dim = 0 then fld s.dims 4 0 else if dim = 1 then fld s.dims 9 5 else fld s.dims 13 10) + 1
def Slice.ring (s : Slice) (dim : Nat) : Bool := tbit s.dims (14 + dim)
/-- The direction from a to t in a dimension: + when true. In a ring the way of fewer hops, a tie going +. -/
def Slice.plus (s : Slice) (dim a t : Nat) : Bool :=
  let n := s.size dim
  if s.ring dim then (t + n - a) % n ≤ (a + n - t) % n else a < t
/-- The face of the next hop from a device toward a target (R407), in the order +X, −X, +Y, −Y, +Z, −Z. -/
def Slice.hopFace (s : Slice) (a t : Nat) : Option Nat :=
  match (List.range 3).find? fun d => coordOf a d != coordOf t d with
  | none => none
  | some d => some (2 * d + (if s.plus d (coordOf a d) (coordOf t d) then 0 else 1))
/-- The coordinate after one hop over a face. -/
def Slice.hopCoord (s : Slice) (a face : Nat) : Nat :=
  let d := face / 2
  let n := s.size d
  if face % 2 = 0 then (coordOf a d + 1) % n else (coordOf a d + n - 1) % n
/-- The device a face leads to (R404): the neighbour along its dimension. -/
def Slice.neighbour (s : Slice) (a face : Nat) : Nat :=
  let c := s.hopCoord a face
  let x := if face / 2 = 0 then c else coordOf a 0
  let y := if face / 2 = 1 then c else coordOf a 1
  let z := if face / 2 = 2 then c else coordOf a 2
  x * 512 + y * 16 + z
/-- The device that a face of a member leads to: none beyond the edge of a dimension that is no ring (R404). -/
def Slice.leads (s : Slice) (a face : Nat) : Option Nat :=
  let d := face / 2
  let x := coordOf a d
  if s.size d = 1 || (!s.ring d && (if face % 2 = 0 then x + 1 = s.size d else x = 0)) then none else some (s.neighbour a face)
/-- DATELINE of a packet after a hop over a face: has it crossed the dateline of that dimension since the start of its phase
(R407)? -/
def Slice.crossed (s : Slice) (start a face : Nat) : Bool :=
  let d := face / 2
  let c := s.hopCoord a face
  s.ring d && (if face % 2 = 0 then c < coordOf start d else coordOf start d < c)

/-! ### Links and faces (R387, R399, R408) -/

def Link.carries (l : Link) : Bool := l.st == 6 || l.st == 7
def Blk.faceLinks (face : Nat) : List Nat := (List.range 4).map fun j => 4 * face + j
def Blk.liveLinks (b : Blk) (face : Nat) : List Nat := (Blk.faceLinks face).filter fun k => (b.link k).carries
def Blk.faceLive (b : Blk) (face : Nat) : Bool := !(b.liveLinks face).isEmpty
/-- Has the face a link beyond DOWN and DISABLED (R413)? -/
def Blk.faceUp (b : Blk) (face : Nat) : Bool := (Blk.faceLinks face).any fun k => 2 ≤ (b.link k).st
/-- Flits a link has still to send. -/
def Link.queueFlits (l : Link) : Nat :=
  l.txq.foldl (fun a p => a + pktFlits p) 0 - l.txPart.foldl (fun a q => a + q.2) 0
/-- The live link whose queue over its lanes is shortest, the lower on ties (R408). -/
def Blk.pickLink (b : Blk) (face : Nat) : Option Nat :=
  (b.liveLinks face).foldl (fun best k =>
    let l := b.link k
    let w := fun (x : Link) => if x.st = 7 then 4 else 8
    match best with
    | none => some k
    | some j => let m := b.link j; if l.queueFlits * w m < m.queueFlits * w l then some k else best) none

/-- Credits a sender holds for a virtual channel: the 8 reserved flits, and what the receiver has returned beyond them (R392). -/
def Link.credit (l : Link) (vc : Nat) : Nat := Machine.sget (fun _ => 8) l.credits vc
/-- One packet's flits sent as credit and the replay buffer of 1,024 flits allow, from the i-th on (R392, R394). -/
def Link.sendFlits (l : Link) (p : Pkt) : Nat → Nat → Link × Nat
  | 0, i => (l, i)
  | n + 1, i =>
    if l.credit (pktVc p) = 0 || 1024 ≤ l.sent.length then (l, i)
    else Link.sendFlits { l with credits := sset (fun _ => 8) l.credits (pktVc p) (l.credit (pktVc p) - 1)
                                 sent := l.sent ++ [(l.txNext, i, pktFlits p, p)], txNext := (l.txNext + 1) % 65536 } p n (i + 1)
/-- The packets of a virtual channel, in order, sent as far as they may. -/
def Link.sendVc (l : Link) (vc : Nat) : List Pkt → Link
  | [] => l
  | p :: r =>
    let i := Machine.sget (fun _ => 0) l.txPart vc
    let o := l.sendFlits p (pktFlits p - i) i
    if o.2 = pktFlits p then
      Link.sendVc { o.1 with txPart := sset (fun _ => 0) o.1.txPart vc 0, txq := o.1.txq.erase p } vc r
    else { o.1 with txPart := sset (fun _ => 0) o.1.txPart vc o.2 }
/-- Everything a link can send now goes out, virtual channel by virtual channel (R393). -/
def Link.transmit (l : Link) : Link :=
  if !l.carries || l.switching.isSome then l
  else (List.range 16).foldl (fun l vc => l.sendVc vc (l.txq.filter fun p => pktVc p == vc)) l
def Blk.transmit (b : Blk) (k : Nat) : Blk :=
  let l := b.link k
  let l1 := l.transmit
  (b.setLink k l1).count (cfgLK k + 0x68) (l1.sent.length - l.sent.length)

/-- A packet enters a face's live link with the face's next PSEQ (R395, R408). -/
def Blk.enterFace (b : Blk) (face : Nat) (p : Pkt) : Blk :=
  match b.pickLink face with
  | none => b
  | some k =>
    let n := sget (fun _ => 0) b.slice.faceTx face
    let b1 := { b with slice := { b.slice with faceTx := sset (fun _ => 0) b.slice.faceTx face ((n + 1) % 2 ^ 32) } }
    (b1.setLink k { b1.link k with txq := (b1.link k).txq ++ [{ p with pseq := n }] }).transmit k

/-- A packet leaves this device toward its next target over a face that is live: one hop more, DATELINE as R407 gives it. -/
def Blk.sendHop (b : Blk) (p : Pkt) (face : Nat) : Blk :=
  let start := if p.phase = 1 && p.alt then p.via else p.src
  b.enterFace face { p with hops := p.hops + 1, dateline := b.slice.crossed start b.slice.devid face }

/-! ### Route tables and origins (R409, R410) -/

def Blk.isMissing (b : Blk) (d : Nat) : Bool := b.slice.missing.contains d
def Blk.route (b : Blk) (d : Nat) : Nat := sget (fun _ => 0) b.slice.routes d
def rtVia (e : Nat) : Nat := fld e 13 0
def rtMode (e : Nat) : Nat := fld e 15 14
def rtMember (e : Nat) : Bool := tbit e 16

/-- How the origin routes a packet (R410): the status that ends the access, or the packet as it leaves and its face. -/
def Blk.originRoute (b : Blk) (p : Pkt) : Except Nat (Pkt × Nat) :=
  let e := b.route p.dst
  let me := b.slice.devid
  let prim := b.slice.hopFace me p.dst
  let alt : Except Nat (Pkt × Nat) :=
    if b.isMissing (rtVia e) then .error stROUTELOST
    else match b.slice.hopFace me (rtVia e) with
      | none => .error stROUTELOST
      | some f => .ok ({ p with via := rtVia e, alt := true, phase := 0 }, f)
  if b.isMissing p.dst then .error stABSENT
  else if !rtMember e then .error stROUTELOST
  else match prim with
    | none => .error stROUTELOST
    | some f =>
      let direct : Pkt × Nat := ({ p with via := 0, alt := false, phase := 1 }, f)
      if rtMode e = 2 then alt
      else if rtMode e = 1 then (if b.faceLive f && !b.slice.fallback.contains p.dst then .ok direct else alt)
      else if b.faceLive f then .ok direct else .error stROUTELOST

/-- A packet discarded because its face is not live, or for its hops (R411). -/
def Blk.dropPkt (b : Blk) : Blk := b.count 0x818 1
/-- A FACE_DOWN notice for a destination sets its fallback flag under AUTO (R410). -/
def Blk.setFallback (b : Blk) (d : Nat) : Blk :=
  if rtMode (b.route d) = 1 && !b.slice.fallback.contains d then
    { b with slice := { b.slice with fallback := b.slice.fallback ++ [d] } } else b

/-- A packet of this device leaves by R410: the machine, and the status that ends the access, if any. A packet that finds the
face of its alternate route not live is handled as its own notice: once more with RESENT, then lost (R411). In doubt about a mode
change, REQUEST and COLLECTIVE packets wait (R449). -/
def Blk.originate (b : Blk) (p0 : Pkt) : Blk × Option Nat :=
  let p := { p0 with src := b.slice.devid, hops := 0, dateline := false }
  if b.mode.phase = 2 && (kindClass p.kind = 1 || kindClass p.kind = 3) then
    ({ b with mode := { b.mode with held := b.mode.held ++ [p] } }, none)
  else match b.originRoute p with
  | .error st => (b, some st)
  | .ok (q, f) =>
    if b.faceLive f then (b.sendHop q f, none)
    else
      let b1 := (b.dropPkt).setFallback p.dst
      if p.resent || rtMode (b1.route p.dst) = 0 then (b1, some stROUTELOST)
      else match b1.originRoute { p with resent := true } with
        | .error st => (b1, some st)
        | .ok (q2, f2) =>
          if b1.faceLive f2 then ((b1.count 0x828 1).sendHop q2 f2, none) else (b1.dropPkt, some stROUTELOST)
/-- A reply, notice or control packet of this device; one that no route carries is discarded and counted (R411). -/
def Blk.sendReply (b : Blk) (p : Pkt) : Blk :=
  let r := b.originate p
  match r.2 with
  | none => r.1
  | some _ => r.1.dropPkt

/-! ### Remote requests (R406, R411) -/

/-- The first tag from n on that no outstanding request carries. -/
def freeTag (used : List Nat) : Nat → Nat → Nat
  | 0, n => n % 65536
  | f + 1, n => if used.contains (n % 65536) then freeTag used f (n + 1) else n % 65536
/-- A request sent for someone; one that no route carries is answered at once. -/
def Blk.request (b : Blk) (who : Requester) (off : Nat) (p0 : Pkt) : Blk :=
  let tag := freeTag (b.slice.remotes.map fun r => r.pkt.tag) 65536 b.slice.nextTag
  let p := { p0 with tag := tag, src := b.slice.devid }
  let r := b.originate p
  { r.1 with slice := { r.1.slice with
      nextTag := (tag + 1) % 65536
      remotes := r.1.slice.remotes ++ [{ pkt := p, who := who, off := off, st := r.2 }] } }
/-- The outstanding request of a tag. -/
def Blk.remoteOf (b : Blk) (tag : Nat) : Option Remote := b.slice.remotes.find? fun r => r.pkt.tag == tag && r.st.isNone
def Blk.setRemote (b : Blk) (r : Remote) : Blk :=
  { b with slice := { b.slice with remotes := b.slice.remotes.map fun x => if x.pkt.tag = r.pkt.tag then r else x } }
/-- The requests of one requester, and the same removed. -/
def Blk.remotesOf (b : Blk) (w : Requester) : List Remote := b.slice.remotes.filter fun r => r.who == w
def Blk.dropRemotes (b : Blk) (w : Requester) : Blk :=
  { b with slice := { b.slice with remotes := b.slice.remotes.filter fun r => !(r.who == w) } }
/-- Pieces of at most 4,096 bytes of a transfer of n bytes at an address, as (offset, length); none for zero bytes. -/
def pieces (n : Nat) : List (Nat × Nat) := (List.range (cdiv n 4096)).map fun i => (4096 * i, min 4096 (n - 4096 * i))
/-- The device of a global address and the local part (R18); [63:57] must be zero (R348). -/
def gDev (a : Nat) : Nat := fld a 56 43
def gLocal (a : Nat) : Nat := a % 2 ^ 43
/-- Is a global address this device's own? -/
def Blk.isLocal (b : Blk) (a : Nat) : Bool := gDev a == b.slice.devid
/-- The judgement of a global range (R34, R348, R410, R416), as accessStatus for a local one. Zero bytes leave
only the encoding to check (R6). -/
def Blk.globalStatus (b : Blk) (p a n : Nat) : Nat × Nat :=
  if a / 2 ^ 57 != 0 then (stBADPARAM, 0)
  else if n = 0 then (0, 0)
  else if b.isLocal a then b.accessStatus p (gLocal a) n
  else if !inRegion (gLocal a) n || (regionOf (gLocal a) = 1 && b.slice.fmode = 1) then (stBADPARAM, 0)
  else if b.isMissing (gDev a) then (stABSENT, 0)
  else if !rtMember (b.route (gDev a)) then (stROUTELOST, 0)
  else (0, 0)
/-- READ requests for n bytes of a remote range; WRITE requests for bytes to one. -/
def Blk.requestReads (b : Blk) (who : Requester) (part a off n : Nat) : Blk :=
  (pieces n).foldl (fun b q => b.request who (off + q.1) { dst := gDev a, kind := 2, part := part, addr := gLocal a + q.1, len := q.2 }) b
def Blk.requestWrites (b : Blk) (who : Requester) (part a off : Nat) (v : List Byte) : Blk :=
  (pieces v.length).foldl (fun b q => b.request who (off + q.1)
    { dst := gDev a, kind := 1, part := part, addr := gLocal a + q.1, len := q.2, data := (v.drop q.1).take q.2 }) b

/-! ### Packets at a face that is not live (R411) -/

/-- The NOTICE for a packet, to its source, with the discarded packet's first flit as its data (log entry 22); a packet of this device is handled as its own notice. DEST_ABSENT when the
destination is marked missing or the dead face leads to it. -/
def Blk.noticeFor (b : Blk) (p : Pkt) (cause : Nat) : Blk :=
  if p.kind = 5 || 0x20 ≤ p.kind then b
  else if p.src = b.slice.devid && 0x10 ≤ p.kind then { b with slice := { b.slice with notices := b.slice.notices ++ [(cause, p)] } }
  else if p.src = b.slice.devid then
    match b.remoteOf p.tag with
    | none => b
    | some r =>
      if p.kind ≠ 1 && p.kind ≠ 2 then b
      else if cause = 2 then b.setRemote { r with st := some stABSENT }
      else
        let b0 := b.setFallback p.dst
        if p.resent || rtMode (b0.route p.dst) = 0 then b0.setRemote { r with st := some stROUTELOST }
        else
          let o := (b0.count 0x828 1).originate { r.pkt with resent := true }
          o.1.setRemote { r with pkt := { r.pkt with resent := true }, st := o.2 }
  else b.sendReply { dst := p.src, kind := 5, part := p.part, tag := p.tag, addr := p.pseq, cause := cause, len := 32 + min p.data.length 176
                     status := if cause = 2 then stABSENT else stROUTELOST, data := pktHeader p ++ p.data.take 176 }
def Blk.faceCause (b : Blk) (p : Pkt) (face : Nat) : Nat :=
  if b.isMissing p.dst || b.slice.leads b.slice.devid face = some p.dst then 2 else 1
/-- A packet discarded at a dead face. -/
def Blk.discardAt (b : Blk) (face : Nat) (p : Pkt) : Blk := (b.dropPkt).noticeFor p (b.faceCause p face)

/-- A packet to forward (R407, R411): VIA reached starts phase 1; 96 hops discard it with a notice. -/
def Blk.forward (b : Blk) (p0 : Pkt) : Blk :=
  let me := b.slice.devid
  let p := if p0.phase = 0 && p0.via = me then { p0 with phase := 1, dateline := false } else p0
  if 96 ≤ p.hops then (b.dropPkt).noticeFor p 3
  else match b.slice.hopFace me (if p.phase = 0 then p.via else p.dst) with
    | none => b
    | some f => if b.faceLive f then b.sendHop p f else b.discardAt f p

/-! ### Link states (R396, R399, R413) -/

/-- The Harbourmaster's note of a face that leads to d: 1 dark, 2 a link beyond DOWN, 3 live, beside d. -/
def faceCode (d : Nat) (up live : Bool) : Nat := 4 * d + (if live then 3 else if up then 2 else 1)
/-- This device's report of a face to the Harbourmaster (R413; log entry 23): SIG [2:0] the face, [3] whether it has a link
beyond DOWN and DISABLED, [4] whether it is live, [29:16] the device it leads to. -/
def Blk.reportFace (b : Blk) (face : Nat) : Blk :=
  match b.slice.leads b.slice.devid face with
  | none => b
  | some d =>
    let sig := face + 8 * bnat (b.faceUp face) + 16 * bnat (b.faceLive face) + d * 65536
    if !b.slice.joined then b
    else if b.slice.harbour then
      let k := b.slice.devid * 8 + face
      { b with slice := { b.slice with darkFaces := sset (fun _ => 0) b.slice.darkFaces k (faceCode d (b.faceUp face) (b.faceLive face)) } }
    else b.sendReply { dst := b.slice.hmid, kind := 0x21, part := 0xFF, status := sig % 65536, cause := sig / 65536 }
/-- A link enters a state: LINK_STATE, DOWN counted, its width, and the report of its face when that changes (R399, R413). -/
def Blk.linkState (b : Blk) (k st : Nat) : Blk :=
  let l := b.link k
  if l.st = st then b
  else
    let up := (b.faceUp (k / 4), b.faceLive (k / 4))
    let b1 := b.setLink k { l with st := st, width := if st = 6 then 8 else if st = 7 then 4 else 0 }
    let b2 := if st = 1 then b1.count (cfgLK k + 0x78) 1 else b1
    let b3 := b2.event0 evLINKSTATE (leBytes 1 k ++ leBytes 1 l.st ++ leBytes 1 st ++ zeros 5)
    if (b3.faceUp (k / 4), b3.faceLive (k / 4)) = up then b3 else b3.reportFace (k / 4)
/-- The packets a link has not had acknowledged, whole and in order, and those that wait on it. -/
def Link.unacked (l : Link) : List Pkt := l.sent.foldl (fun a q => if a.contains q.2.2.2 then a else a ++ [q.2.2.2]) []
def Link.backlog (l : Link) : List Pkt := l.unacked ++ l.txq.filter fun p => !l.unacked.contains p
/-- A packet put ahead of new traffic on a link, behind what is partly sent and behind earlier moved ones (R396). -/
def Link.putAhead (l : Link) (n : Nat) (p : Pkt) : Link :=
  { l with txq := l.txq.take (n + l.txPart.length) ++ [p] ++ l.txq.drop (n + l.txPart.length) }
/-- A link stops carrying traffic (R396): partial packets are discarded, the others move to its siblings or, with none, fall
under R411. -/
def Blk.moveTraffic (b : Blk) (k : Nat) : Blk :=
  let l := b.link k
  let ps := l.backlog
  let b1 := b.setLink k { l with txq := [], txPart := [], sent := [], asm := [], credits := [], txNext := 0, rxNext := 0, nakSent := false, resends := 0 }
  if b1.faceLive (k / 4) then
    let b2 := ps.zipIdx.foldl (fun b q => match b.pickLink (k / 4) with
      | some j => b.setLink j ((b.link j).putAhead q.2 q.1)
      | none => b) b1
    let b3 := (b1.liveLinks (k / 4)).foldl (fun b j => b.transmit j) b2
    b3.count (cfgLK k + 0x88) (ps.foldl (fun a p => a + pktFlits p) 0)
  else ps.foldl (fun b p => b.discardAt (k / 4) p) b1
/-- A link leaves the states that carry traffic for another. -/
def Blk.linkLeave (b : Blk) (k st : Nat) : Blk :=
  let was := (b.link k).carries
  let b1 := b.linkState k st
  if was then b1.moveTraffic k else b1
/-- A link becomes DOWN for want of progress or signal (R394), with its error record. -/
def Blk.linkDown (b : Blk) (k : Nat) : Blk :=
  (b.linkLeave k 1).addError { kind := 5, code := 0x21, path := k + 0xF * 256 }

end Sys2Proof.Machine
end

