-- ==== Sys2Proof/Machine/Dma.lean ====
section
/-! DEFINITION. The Bay DMA engines: descriptors, their checks, COPY and GATHER with compression, expansion, validation and
the cache, local and remote transfers, and completion (R211, R212, R217, R238, R365 to R384). -/
namespace Sys2Proof.Machine

/-! ### Fields (R371) -/

def Desc.op (d : Desc) : Nat := leAt d.raw 0 1
def Desc.flags (d : Desc) : Nat := leAt d.raw 1 1
def Desc.cached (d : Desc) : Bool := tbit d.flags 0
def Desc.validates (d : Desc) : Bool := tbit d.flags 1
def Desc.compresses (d : Desc) : Bool := tbit d.flags 2
def Desc.expands (d : Desc) : Bool := tbit d.flags 3
def Desc.builds (d : Desc) : Bool := tbit d.flags 4
def Desc.fenced (d : Desc) : Bool := tbit d.flags 5
def Desc.table (d : Desc) : Nat := leAt d.raw 3 1
def Desc.len (d : Desc) : Nat := leAt d.raw 4 4
def Desc.src (d : Desc) : Nat := leAt d.raw 8 8
def Desc.dst (d : Desc) : Nat := leAt d.raw 0x10 8
def Desc.n1 (d : Desc) : Nat := leAt d.raw 0x18 2
def Desc.n2 (d : Desc) : Nat := leAt d.raw 0x1A 2
def Desc.stride (d : Desc) (off : Nat) : Int := sx 32 (leAt d.raw off 4)
def Desc.vdesc (d : Desc) : Nat := leAt d.raw 0x2C 4
def Desc.outcap (d : Desc) : Nat := leAt d.raw 0x30 4
def Desc.fromCmd (d : Desc) : Bool := match d.origin with | .cmd _ _ _ => true | _ => false

/-- How a descriptor ends: status, and for ST_BAD_PARAM, ST_LENGTH and ST_NO_CREDIT the offset of its failing field, else
the detail; and PROGRESS. -/
abbrev DescOut := Nat × Nat × Nat
/-- A PROGRESS that no rule gives: open, replaced by a free value at completion (log entry 3). -/
def openProg : Nat := 2 ^ 40
def descBad (off : Nat) (prog : Nat := 0) : DescOut := (stBADPARAM, off, prog)
/-- A status met while judging a range, at the field that names the range. -/
def descSt (s : Nat × Nat) (off : Nat) : DescOut := if s.1 = stBADPARAM then descBad off else (s.1, s.2, 0)

/-- An address displaced by strides, modulo 2^64. -/
def shiftAddr (a : Nat) (x : Int) : Nat := ((a : Int) + x).toNat % 2 ^ 64 + (if (a : Int) + x < 0 then 2 ^ 63 else 0)
/-- The runs of a COPY as (source, destination, length), in logical order (R373). -/
def Desc.copyRuns (d : Desc) : List (Nat × Nat × Nat) :=
  (List.range d.n2).flatMap fun j => (List.range d.n1).map fun i =>
    (shiftAddr d.src (((i : Nat) : Int) * d.stride 0x1C + ((j : Nat) : Int) * d.stride 0x24),
     shiftAddr d.dst (((i : Nat) : Int) * d.stride 0x20 + ((j : Nat) : Int) * d.stride 0x28), d.len)
/-- Fields common to every descriptor (R371, R372): the offset of the first that is wrong. -/
def Desc.fieldFault (d : Desc) : Option Nat :=
  let f := d.flags
  if !List.contains [0x01, 0x02, 0x10, 0x11, 0x12, 0x13, 0x14, 0x18, 0x19, 0x1A, 0x1B, 0x1C] d.op then some 0
  else if f / 64 != 0 || (d.compresses && d.expands) || (d.builds && !d.compresses) || (0x10 ≤ d.op && f % 32 != 0) then some 1
  else if leAt d.raw 2 1 / 16 != 0 then some 2
  else if d.table / 64 != 0 || (!d.compresses && d.table != 0) then some 3
  else if leAt d.raw 0x2C 4 / 2 ^ 22 != 0 then some 0x2C
  else if leAt d.raw 0x34 4 != 0 then some 0x34
  else none

/-! ### The queue discipline (R365) -/

def Bay.running (y : Bay) : Nat := (y.descs.filter fun d => d.running).length
/-- The descriptor of a queue that starts next: its first unstarted one, once FENCE lets it. -/
def Bay.nextOf (y : Bay) (q : Nat) : Option Desc :=
  let l := y.descs.filter fun d => d.queue == q
  match l.find? fun d => !d.running with
  | none => none
  | some d => if d.fenced && (l.any fun e => e.serial < d.serial) then none else some d
/-- The queue that the engine grants its next free place to (R365). -/
def Bay.grantQueue (y : Bay) : Option Nat :=
  ((List.range 17).map fun i => (y.lastQueue + 1 + i) % 17).find? fun q => (y.nextOf q).isSome
/-- Does a spill copy of one of the Bay's Coves go first? -/
def Blk.spillFirst (b : Blk) (y : Nat) : Bool :=
  (List.range 16).any fun i => let c := 16 * y + i
    !(b.cove c).spill.copying && b.spillCanCopy c
/-- The descriptor that starts when queue q of a Bay is granted a place. -/
def Blk.startable (b : Blk) (y q : Nat) : Option Desc :=
  let x := b.bay y
  if 8 ≤ x.running || b.spillFirst y || x.grantQueue != some q || x.sparing.isSome then none else x.nextOf q
def Blk.setDesc (b : Blk) (y : Nat) (d : Desc) : Blk :=
  let x := b.bay y
  b.setBay y { x with descs := x.descs.map fun e => if e.serial = d.serial then d else e }
def Blk.descOf (b : Blk) (y serial : Nat) : Option Desc := (b.bay y).descs.find? fun d => d.serial == serial
/-- A descriptor has ended its work. -/
def Blk.descEnd (b : Blk) (y : Nat) (d : Desc) (o : DescOut) : Blk := b.setDesc y { d with running := true, out := some o }

/-- Does a global range overlap an input range of an open span (R158)? -/
def Blk.spanInput (b : Blk) (a n : Nat) : Bool :=
  b.isLocal a && b.spans.any fun p => p.2.opened && p.2.inputs.any fun q => meets (gLocal a) n q.1 q.2

/-! ### HBM faults met by an access (R358) -/

/-- An uncorrectable unit was read: MC_ECC_UE, MC_LAST_UE and a CONTAINED error record with the status given. -/
def Blk.hbmUe (b : Blk) (u part ctx seq : Nat) : Blk :=
  let a := 64 * u
  let k := b.stackOf a
  let l := b.pcBankRow a
  let b1 := (b.setStack k { b.stack k with lastUe := a }).count (cfgMC k + 0x10) 1
  b1.addError { cls := 1, kind := 4, code := 0x11, proposal := 3, path := k + l.1 * 16 + l.2.1 * 512 + l.2.2 * 2 ^ 14 + 0xFF * 2 ^ 32, addr := a, part := part,
                status := stHWERROR, ctx := ctx, seq := seq }

/-! ### Reading the source (R212, R373) -/

/-- Sets of the cache portion of a Cove. -/
def Blk.cacheSets (b : Blk) (c : Nat) : Nat := b.cachePortion c / 2048
def Cove.line (x : Cove) (i : Nat) : Line := Machine.sget (fun _ => {}) x.lines i
/-- A lookup of the line of a global address (R211): the index of its way, hit or not; a miss takes the lowest invalid way,
else the least recently used one. -/
def Blk.cacheWay (b : Blk) (c g : Nat) : Nat × Bool :=
  let x := b.cove c
  let sets := b.cacheSets c
  let s := g / 256 % sets
  let tag := g / 256 / sets
  match firstIdx (fun w => (x.line (8 * s + w)).valid && (x.line (8 * s + w)).tag == tag) (List.range 8) 0 with
  | some w => (8 * s + w, true)
  | none => match firstIdx (fun w => !(x.line (8 * s + w)).valid) (List.range 8) 0 with
    | some w => (8 * s + w, false)
    | none => ((List.range 8).foldl (fun best w => if (x.line (8 * s + w)).use < (x.line best).use then 8 * s + w else best) (8 * s), false)
/-- The bytes of one line for a Cove, on a miss filled with the 256 bytes given (R212). -/
def Blk.cacheLine (b : Blk) (c g : Nat) (fill : List Byte) : List Byte × Blk :=
  let r := b.cacheWay c g
  let x := b.cove c
  let at_ := b.progEnd c + r.1 * 256
  let l : Line := { valid := true, tag := g / 256 / b.cacheSets c, use := x.lineClock + 1 }
  let b1 := b.setCove c { x with lines := sset (fun _ => {}) x.lines r.1 l, lineClock := x.lineClock + 1 }
  if r.2 then (b1.tpRead c at_ 256, b1.cvCount c 0x3828 1)
  else (fill, (b1.pokeN (tpAddr c at_) fill).cvCount c 0x3830 1)

/-- The source pieces of a transfer as (global address, length): its runs, each cut at 256-byte lines when the cache serves it. -/
def linesOf (a n : Nat) : List (Nat × Nat) :=
  if n = 0 then [] else (List.range ((a + n - 1) / 256 + 1 - a / 256)).map fun i =>
    let lo := max a ((a / 256 + i) * 256)
    let hi := min (a + n) ((a / 256 + i) * 256 + 256)
    (lo, hi - lo)
/-- Does the cache serve a descriptor's read of a source range (R212)? Its destination is checked apart. -/
def Blk.cacheServes (b : Blk) (d : Desc) (dst a : Nat) : Bool :=
  d.cached && 0 < b.cachePortion d.cove && b.isLocal dst && regionOf (gLocal dst) = 1 && (gLocal dst - tpBase) / tpSize = d.cove &&
  (!b.isLocal a || regionOf (gLocal a) = 0)

/-- What a descriptor reads: source runs with, for each, whether the cache serves it; offsets in the logical order. -/
def Blk.srcPieces (b : Blk) (d : Desc) (runs : List (Nat × Nat × Nat)) : List (Nat × Nat × Bool) :=
  runs.flatMap fun r =>
    if b.cacheServes d r.2.1 r.1 then (linesOf r.1 r.2.2).map fun p => (p.1, p.2, true)
    else if b.isLocal r.1 then [(r.1, r.2.2, false)] else (pieces r.2.2).map fun p => (r.1 + p.1, p.2, false)

/-- The bytes of the answered remote reads of a descriptor with a request offset. -/
def Blk.remoteData (b : Blk) (who : Requester) (off : Nat) : Except Nat (List Byte) :=
  match b.slice.remotes.find? fun r => r.who == who && r.off == off with
  | none => .error stROUTELOST
  | some r => match r.st with
    | some 0 => .ok r.data
    | some st => .error st
    | none => .error stROUTELOST

/-- The source of a transfer read piece by piece, up to the first failure: the bytes, the failing status if any, and whether
a lost Tidepool was read as zeros (R225, R358, R369). Piece k's remote read has request offset k. -/
def Blk.gather (b : Blk) (d : Desc) (who : Requester) : List (Nat × Nat × Bool) → Nat → List Byte × Option Nat × Bool × Blk
  | [], _ => ([], none, false, b)
  | (a, n, cached) :: rest, k =>
    let la := if cached then a / 256 * 256 else a
    let ln := if cached then 256 else n
    let got : Except (Nat × Blk) (List Byte × Bool) :=
      if b.isLocal a then
        match b.rangeUe (gLocal a) n with
        | some u => .error (stHWERROR, b.hbmUe u d.part 0 0)
        | none => .ok (b.memRead d.part (gLocal la) ln, regionOf (gLocal a) = 1 && (covesOf (gLocal a) n).any b.tpLost)
      else match b.remoteData who k with
        | .error st => .error (st, b)
        | .ok v => .ok (bytesAt v 0 ln, false)
    match got with
    | .error e =>
      let pre := match b.rangeUe (gLocal a) n with
        | some u => if b.isLocal a && !cached then b.memRead d.part (gLocal a) (64 * u - gLocal a) else []
        | none => []
      (pre, some e.1, false, e.2)
    | .ok (v, z) =>
      let l := if cached then b.cacheLine d.cove (gDev a * 2 ^ 43 + gLocal la) v else (v, b)
      let out := if cached then (l.1.drop (a - la)).take n else v
      let b1 := if b.isLocal a && regionOf (gLocal a) = 1 then l.2.tpTouchReads ((gLocal a - tpBase) / tpSize) 7 [((gLocal a - tpBase) % tpSize, n)] else l.2
      let r := b1.gather d who rest (k + 1)
      (out ++ r.1, r.2.1, z || r.2.2.1, r.2.2.2)

/-! ### Inbox credit (R217) -/

/-- Bytes a list of local writes puts into Tidepools other than the issuing Cove's, by inbox, as (Cove × 16 + inbox, bytes);
none when a run lies outside every inbox of the charged source. -/
def Blk.inboxBytes (b : Blk) (kind src cove : Nat) (ws : List (Nat × Nat)) : Option (List (Nat × Nat)) :=
  ws.foldl (fun acc w =>
    match acc with
    | none => none
    | some m =>
      if w.2 = 0 || !b.isLocal w.1 || regionOf (gLocal w.1) != 1 then some m
      else
        let o := (gLocal w.1 - tpBase) / tpSize
        let a := (gLocal w.1 - tpBase) % tpSize
        if o = cove then some m
        else match b.inboxFor o kind src a w.2 with
          | none => none
          | some i => some (sset (fun _ => 0) m (o * 16 + i) (sget (fun _ => 0) m (o * 16 + i) + w.2))) (some [])
/-- The charges of a descriptor's writes, all or none. -/
def Blk.chargeAll (b : Blk) (d : Desc) (y : Nat) (ws : List (Nat × Nat)) : Option Blk :=
  let kind := if d.fromCmd then 1 else 0
  let src := if d.fromCmd then y else d.cove
  match b.inboxBytes kind src d.cove ws with
  | none => none
  | some m => m.foldl (fun acc p => match acc with
    | none => none
    | some b => b.chargeInbox kind src (p.1 / 16) (p.1 % 16) (cdiv p.2 4096)) (some b)

/-! ### Writing the destination (R369) -/

/-- A write of bytes at a global address, as (address, logical offset, bytes): cut at 4 KiB when it is remote. -/
def Blk.cutWrite (b : Blk) (a off : Nat) (v : List Byte) : List (Nat × Nat × List Byte) :=
  if v.isEmpty then [] else if b.isLocal a then [(a, off, v)]
  else (pieces v.length).map fun p => (a + p.1, off + p.1, (v.drop p.1).take p.2)
/-- Local writes in logical order up to the first remote one, which is sent and waited for; the outcome when none is left. A
remote write that no route carries ends the descriptor there (R369). -/
def Blk.descWrites (b : Blk) (y : Nat) (d : Desc) : List (Nat × Nat × List Byte) → Blk
  | [] => b.descEnd y { d with todo := [] } d.pend
  | (a, off, v) :: rest =>
    if b.isLocal a then
      match (if regionOf (gLocal a) = 0 then b.partialUe (gLocal a) v.length else none) with
      | some u =>
        let n := 64 * u - gLocal a
        let b1 := (b.memWrite d.part (some d.cove) (gLocal a) (v.take n)).byCount y 0xA20 n
        (b1.hbmUe u d.part 0 0).descEnd y { d with todo := [] } (stHWERROR, b.errDetail, off + n)
      | none => ((b.memWrite d.part (some d.cove) (gLocal a) v).byCount y 0xA20 v.length).descWrites y d rest
    else
      let who := Requester.desc y d.serial
      let b1 := (b.setDesc y { d with running := true, reading := false, todo := (a, off, v) :: rest }).requestWrites who d.part a off v
      match (b1.remotesOf who).find? fun r => r.st.isSome with
      | some r => (b1.dropRemotes who).descEnd y { d with todo := [] } (r.st.getD 0, openDet, off)
      | none => b1.byCount y 0xA20 v.length
/-- Does a write list meet a Tidepool that discards it (R225)? -/
def Blk.writesLost (b : Blk) (ws : List (Nat × Nat)) : Bool :=
  ws.any fun w => b.isLocal w.1 && regionOf (gLocal w.1) = 1 && w.2 != 0 && (covesOf (gLocal w.1) w.2).any b.tpLost

/-! ### Expansion (R380) -/

/-- The frames of a stream of n bytes to be: headers read through a reader of bytes at an offset; the list of (table,
generation, mode, RAW, offset of payload, CODED), or nothing when a rule is broken. -/
def frames (rd : Nat → Nat → List Byte) (held : Nat → Nat → Bool) : Nat → Nat → Nat → Option (List (Nat × Nat × Nat × Nat × Nat × Nat))
  | 0, _, n => if n = 0 then some [] else none
  | f + 1, off, n =>
    if n = 0 then some []
    else match frameHead (rd off 16) with
      | none => none
      | some (t, mode, g, raw, cod) =>
        if n < raw || (mode = 0 && !held t g) then none
        else match frames rd held f (off + 16 + cod + (16 - cod % 16) % 16) (n - raw) with
          | none => none
          | some r => some ((t, g, mode, raw, off + 16, cod) :: r)
/-- The stream offset of the first header not read yet, when the headers read before it stand. -/
def nextHead (rd : Nat → Option (List Byte)) : Nat → Nat → Nat → Option Nat
  | 0, _, _ => none
  | f + 1, off, n =>
    if n = 0 then none
    else match rd off with
      | none => some off
      | some h => match frameHead h with
        | none => none
        | some (_, _, _, raw, cod) => if n < raw then none else nextHead rd f (off + 16 + cod + (16 - cod % 16) % 16) (n - raw)
/-- Bytes of a stream of those frames. -/
def framesEnd (l : List (Nat × Nat × Nat × Nat × Nat × Nat)) : Nat :=
  match l.getLast? with | none => 0 | some q => q.2.2.2.2.1 + q.2.2.2.2.2
/-- The decoded bytes of a stream, and how many frames met the mismatch rule. -/
def expandStream (b : Blk) (h : Nat) (s : List Byte) (l : List (Nat × Nat × Nat × Nat × Nat × Nat)) : List Byte × Nat :=
  l.foldl (fun acc q =>
    let p := bytesAt s q.2.2.2.2.1 q.2.2.2.2.2
    if q.2.2.1 = 1 then (acc.1 ++ p, acc.2)
    else
      let lens := match b.genTab h q.1 q.2.1 with | some i => (b.tab h i).lens | none => []
      let r := decodeBytes lens q.2.2.2.1 p
      (acc.1 ++ r.1, acc.2 + bnat r.2)) ([], 0)

/-! ### COPY and GATHER -/

/-- The entries of a GATHER list (R373): addresses and lengths, or the index of the first wrong one; none when unreadable. -/
def Blk.gatherList (b : Blk) (d : Desc) : List (Nat × Nat × Nat) :=
  (List.range d.n1).map fun i =>
    let e := b.memRead d.part (gLocal d.src + 16 * i) 16
    (leAt e 0 8, leAt e 8 4, leAt e 12 4)
/-- Destinations of pieces written back to back from an address. -/
def backToBack (dst : Nat) : List (Nat × Nat) → List (Nat × Nat × Nat)
  | [] => []
  | (a, n) :: r => (a, dst, n) :: backToBack (dst + n) r

/-- Fields of COPY and GATHER beyond those common to all (R371, R373, R379). -/
def Desc.moveFault (d : Desc) : Option Nat :=
  if d.op = 2 then
    (if d.len != 0 then some 4 else if d.n2 != 0 then some 0x1A
     else [0x1C, 0x20, 0x24, 0x28].find? fun o => leAt d.raw o 4 != 0)
  else if d.compresses then [0x20, 0x28].find? fun o => leAt d.raw o 4 != 0
  else if d.expands then [0x1C, 0x24].find? fun o => leAt d.raw o 4 != 0
  else none
/-- Bits [63:57] of an address, checked whatever the length (R6, R348). -/
def Desc.addrFault (d : Desc) : Option Nat := if d.src / 2 ^ 57 != 0 then some 8 else if d.dst / 2 ^ 57 != 0 then some 0x10 else none
/-- The sparse descriptor of a VALIDATE, in the destination Tidepool (R238): the Cove and the descriptor. -/
def Blk.vTarget (b : Blk) (d : Desc) : Nat × SpDesc :=
  let c := (gLocal d.dst - tpBase) / tpSize
  (c, b.spDesc c (d.vdesc % 2 ^ 22))
/-- VALIDATE's own checks: the offset of the failing field. -/
def Blk.validateFault (b : Blk) (d : Desc) : Option Nat :=
  if !d.validates then none
  else if !b.isLocal d.dst || regionOf (gLocal d.dst) != 1 then some 1
  else
    let t := b.vTarget d
    if b.progEnd t.1 < d.vdesc + 64 || t.2.layout = 1 || !t.2.metaOk (b.progEnd t.1) then some 0x2C else none
/-- The stamp of a VALIDATE after its transfer (R238): ST_OK, or ST_META_FAULT with the detail of R237. -/
def Blk.applyValidate (b : Blk) (d : Desc) : Blk × Nat × Nat :=
  let t := b.vTarget d
  let s := t.2
  match (if s.groups = 0 then none else validate s (b.spMeta t.1 s) (b.spPtrs t.1 s)) with
  | none => (b.spWriteStamp t.1 s.addr (b.spStamp t.1 s.addr), stOK, 0)
  | some (k, p) => ((b.spWriteStamp t.1 s.addr 0).byCount (bayOf t.1) 0x30 1, stMETA, k * 4096 + p % 4096)

/-- Do a list of source ranges and of destination ranges overlap (R373)? -/
def overlapRuns (rs : List (Nat × Nat × Nat)) : Bool := rs.any fun p => rs.any fun q => meets p.1 p.2.2 q.2.1 q.2.2
/-- Bytes no rule gives: free values (log entry 3). -/
def Blk.freeRun (b : Blk) (site n : Nat) : List Byte × Blk :=
  ((List.range n).map fun i => BitVec.ofNat 8 (Config.freeNat (site + i) b.free), { b with free := b.free + 1 })

/-- A transfer's logical runs: source, destination and length of each, with the coded side as one run (R373). A destination of
COMPRESS is judged over OUTCAP bytes. -/
def Blk.moveRuns (b : Blk) (d : Desc) : List (Nat × Nat × Nat) :=
  if d.op = 2 then backToBack d.dst ((b.gatherList d).map fun e => (e.1, e.2.1)) else d.copyRuns

/-- Total bytes of runs. -/
def runsLen (l : List (Nat × Nat × Nat)) : Nat := l.foldl (fun a r => a + r.2.2) 0
/-- Bytes dealt out to runs, in logical order. -/
def Blk.dealOut (b : Blk) (v : List Byte) : Nat → List (Nat × Nat × Nat) → List (Nat × Nat × List Byte)
  | _, [] => []
  | off, r :: rs => b.cutWrite r.2.1 off (bytesAt v off r.2.2) ++ b.dealOut v (off + r.2.2) rs
/-- Where the answers to the payload reads of an EXPAND stand among its requests. -/
def payloadOff : Nat := 2 ^ 40
/-- The bytes of the stream an EXPAND reads, n of them: local memory, or the answered payload reads. -/
def Blk.streamBytes (b : Blk) (d : Desc) (who : Requester) (n : Nat) : List Byte :=
  if b.isLocal d.src then b.memRead d.part (gLocal d.src) n
  else (pieces n).flatMap fun p => match b.remoteData who (payloadOff + p.1) with | .ok v => bytesAt v 0 p.2 | .error _ => zeros p.2
/-- The header of a stream read at an offset: local memory, or the answered header read. -/
def Blk.headBytes (b : Blk) (d : Desc) (who : Requester) (off : Nat) : Option (List Byte) :=
  if b.isLocal d.src then some (b.memRead d.part (gLocal d.src + off) 16)
  else match b.remoteData who off with | .ok v => some (bytesAt v 0 16) | .error _ => none
/-- The frames of an EXPAND's stream, when all its headers stand (R380). -/
def Blk.framesOf (b : Blk) (y : Nat) (d : Desc) (who : Requester) (total : Nat) :=
  frames (fun off _ => (b.headBytes d who off).getD []) (fun t g => (b.genTab (y / 16) t g).isSome) (total + 1) 0 total
/-- A slot reserved for a build that fails is FREE again. -/
def Blk.freeTab (b : Blk) (h i : Nat) : Blk := if (b.tab h i).st = 1 then b.setTab h i {} else b

/-- An EXPAND writes its decoded bytes (R380). -/
def Blk.expandFinish (b : Blk) (y : Nat) (d : Desc) (l : List (Nat × Nat × Nat × Nat × Nat × Nat)) : Blk :=
  let who := Requester.desc y d.serial
  let s := b.streamBytes d who (framesEnd l)
  let o := expandStream b (y / 16) s l
  let runs := d.copyRuns
  let lost := b.writesLost (runs.map fun r => (r.2.1, r.2.2))
  let b1 := (((b.dropRemotes who).byCount y 0xA40 o.2).byCount y 0xA38 o.1.length).byCount y 0xA18 s.length
  b1.descWrites y { d with pend := (if lost then stSCRUB else 0, 0, runsLen runs) } (b1.dealOut o.1 0 runs)
/-- A COMPRESS whose source is gathered: with BUILD the table of its own source first (R384); then the credit of what it will
write (R217), and the stream (R379). A refusal leaves no effect. -/
def Blk.compressFinish (b b0 : Blk) (y : Nat) (d : Desc) (v : List Byte) (lostSrc : Bool) : Blk :=
  let h := y / 16
  let slot := d.bound.headD 0
  let t := b.tab h slot
  let lens := if d.builds then codeLengths (histogram v) else t.lens
  let s := compress d.table t.gen lens (v.length / 1048576 + 1) v
  let unbound := fun (b : Blk) => if d.builds then b.freeTab h slot else b
  match b0.chargeAll d y [(d.dst, s.length)] with
  | none => ((unbound b).cvCount d.cove 0x3818 1).descEnd y { d with bound := if d.builds then [] else d.bound } (stNOCREDIT, 0x10, 0)
  | some b1 =>
    let b2 := if d.builds then (b1.installTab h slot lens false).addRef h slot else b1
    let lost := b.writesLost [(d.dst, s.length)]
    let b3 := (b2.byCount y 0xA28 v.length).byCount y 0xA30 s.length
    b3.descWrites y { d with pend := (if lostSrc || lost then stSCRUB else 0, 0, s.length) } (b3.cutWrite d.dst 0 s)

/-- The work of a COPY or GATHER once every remote read has been answered: the bytes gathered, coded if asked, and written in
logical order (R369, R373, R379). -/
def Blk.moveFinish (b : Blk) (y : Nat) (d : Desc) : Blk :=
  let who := Requester.desc y d.serial
  let runs := b.moveRuns d
  let g := b.gather d who (b.srcPieces d runs) 0
  let b0 := (g.2.2.2.dropRemotes who).byCount y 0xA18 g.1.length
  if d.compresses then
    match g.2.1 with
    | some st => (if d.builds then b0.freeTab (y / 16) (d.bound.headD 0) else b0).descEnd y
        { d with bound := if d.builds then [] else d.bound } (st, openDet, 0)
    | none => (b.dropRemotes who).compressFinish b0 y d g.1 g.2.2.1
  else
    let fr := if overlapRuns runs then b0.freeRun 0x373000 g.1.length else (g.1, b0)
    let w := (runs.foldl (fun (acc : List (Nat × Nat × List Byte) × Nat) r =>
      (acc.1 ++ b.cutWrite r.2.1 acc.2 ((fr.1.drop acc.2).take r.2.2), acc.2 + r.2.2)) ([], 0)).1
    let lost := b.writesLost (runs.map fun r => (r.2.1, r.2.2))
    let pend : DescOut := match g.2.1 with
      | some st => (st, openDet, g.1.length)
      | none => (if g.2.2.1 || lost then stSCRUB else 0, 0, runsLen runs)
    fr.2.descWrites y { d with pend := pend } w

/-- The ranges a transfer touches, judged (R347 to R349, R200): the first status with the field that names the range, or the
failing entry of a GATHER list. -/
def Blk.moveRanges (b : Blk) (d : Desc) : Option DescOut :=
  if d.op = 2 then
    let l := b.globalStatus d.part d.src (16 * d.n1)
    if l.1 != 0 || !b.isLocal d.src then some (descSt (if l.1 = 0 then (stBADPARAM, 0) else l) 8)
    else
      let es := b.gatherList d
      match firstIdx (fun (e : Nat × Nat × Nat) => e.2.2 != 0 || (b.globalStatus d.part e.1 e.2.1).1 != 0) es 0 with
      | some i =>
        let e := nth es i (0, 0, 0)
        let s := b.globalStatus d.part e.1 e.2.1
        some (if e.2.2 != 0 || s.1 = stBADPARAM then descBad 8 i else (s.1, s.2, 0))
      | none => none
  else if d.expands then none
  else match (d.copyRuns.map fun r => b.globalStatus d.part r.1 r.2.2).find? fun s => s.1 != 0 with
    | some s => some (descSt s 8)
    | none => none
def Blk.destRanges (b : Blk) (d : Desc) : Option DescOut :=
  if (b.moveRuns d).any fun r => b.spanInput r.2.1 r.2.2 then some (stBUSY, 2, 0) else
  match ((b.moveRuns d).map fun r => b.globalStatus d.part r.2.1 r.2.2).find? fun s => s.1 != 0 with
  | some s => some (descSt s 0x10)
  | none => none

/-- The remote reads of a transfer's source pieces are sent. -/
def Blk.readPieces (b : Blk) (y : Nat) (d : Desc) (runs : List (Nat × Nat × Nat)) : Blk :=
  let ps := b.srcPieces d runs
  (ps.zipIdx.foldl (fun b p =>
    if b.isLocal p.1.1 then b
    else
      let a := if p.1.2.2 then gLocal p.1.1 / 256 * 256 else gLocal p.1.1
      b.request (.desc y d.serial) p.2
        { dst := gDev p.1.1, kind := 2, part := d.part, addr := a, len := if p.1.2.2 then 256 else p.1.2.1 }) b).setDesc y
    { d with running := true, reading := true }

/-- An EXPAND goes on: its next header is read, or once all stand, the checks are made, its tables bound and its payload read,
or its bytes are written (R380, R382). -/
def Blk.expandGo (b : Blk) (y : Nat) (d : Desc) : Blk :=
  let who := Requester.desc y d.serial
  let total := runsLen d.copyRuns
  let ends := fun (b : Blk) (o : DescOut) => (b.dropRemotes who).descEnd y d o
  let rd := b.headBytes d who
  if b.isLocal d.src && (b.globalStatus d.part d.src 16).1 != 0 then ends b (descSt (b.globalStatus d.part d.src 16) 8)
  else match nextHead rd (total + 1) 0 total with
  | some off =>
    let s := b.globalStatus d.part (d.src + off) 16
    if s.1 != 0 then ends b (descSt s 8)
    else (b.request who off { dst := gDev d.src, kind := 2, part := d.part, addr := gLocal d.src + off, len := 16 }).setDesc y
      { d with running := true, reading := true }
  | none =>
    match b.framesOf y d who total with
    | none => ends b (descBad 8)
    | some l =>
      if (b.remotesOf who).any fun r => payloadOff ≤ r.off then b.expandFinish y d l
      else
        let n := framesEnd l
        let s := b.globalStatus d.part d.src n
        if s.1 != 0 then ends b (descSt s 8)
        else match (if b.isLocal d.src then b.rangeUe (gLocal d.src) n else none) with
          | some u => (b.hbmUe u d.part 0 0).descEnd y d (stHWERROR, b.errDetail, 0)
          | none => match b.chargeAll d y (d.copyRuns.map fun r => (r.2.1, r.2.2)) with
            | none => ends (b.cvCount d.cove 0x3818 1) (stNOCREDIT, 0x10, 0)
            | some b1 =>
              let slots := (l.filterMap fun q => if q.2.2.1 = 0 then b.genTab (y / 16) q.1 q.2.1 else none).eraseDups
              let b2 := slots.foldl (fun b i => b.addRef (y / 16) i) b1
              let d1 := { d with bound := slots, running := true }
              if b.isLocal d.src then b2.expandFinish y d1 l
              else (b2.requestReads who d.part d.src payloadOff n).setDesc y { d1 with reading := true }

/-- The stack that holds a transfer's accesses (R355, R361, R362). -/
def Blk.heldBy (b : Blk) (d : Desc) : Option Nat :=
  (b.moveRuns d).findSome? fun r => ((if b.isLocal r.1 then b.hbmHeld (gLocal r.1) r.2.2 else none)).or
    (if b.isLocal r.2.1 then b.hbmHeld (gLocal r.2.1) r.2.2 else none)
/-- A COPY or GATHER starts (R368): every check, then its remote reads or its whole work. One whose accesses a stack holds waits. -/
def Blk.startMove (b : Blk) (y : Nat) (d : Desc) : Blk :=
  let ends := fun (o : DescOut) => b.descEnd y d o
  match ((d.fieldFault.or d.moveFault).or d.addrFault).or (b.validateFault d) with
  | some o => ends (descBad o)
  | none =>
    if d.compresses && !d.builds && d.bound.isEmpty then ends (descBad 3)
    else if (if d.op = 2 then d.n1 = 0 else d.len = 0 || d.n1 = 0 || d.n2 = 0) then ends (0, 0, 0)
    else match b.moveRanges d, b.heldBy d with
      | some o, _ => ends o
      | none, some k => b.countHold k
      | none, none =>
        let runs := b.moveRuns d
        let total := runsLen runs
        if total = 0 then ends (0, 0, 0)
        else if d.compresses then
          let s := b.globalStatus d.part d.dst d.outcap
          if d.dst % 16 != 0 then ends (descBad 0x10)
          else if d.outcap < total + 32 * cdiv total 1048576 then ends (descBad 0x30)
          else if s.1 != 0 then ends (descSt s 0x10)
          else if b.spanInput d.dst d.outcap then ends (stBUSY, 2, 0)
          else match (if d.builds then (b.reserveTab (y / 16) d.table).map (fun r => (r.2, { d with bound := [r.1] })) else some (b, d)) with
            | none => ends (stTABLEBUSY, openDet, 0)
            | some (b1, d1) => if runs.all fun r => b.isLocal r.1 then b1.moveFinish y d1 else b1.readPieces y d1 runs
        else match b.destRanges d with
          | some o => ends o
          | none =>
            if d.expands then (if d.src % 16 != 0 then ends (descBad 8) else b.expandGo y d)
            else match b.chargeAll d y (runs.map fun r => (r.2.1, r.2.2)) with
              | none => (b.cvCount d.cove 0x3818 1).descEnd y d (stNOCREDIT, 0x10, 0)
              | some b1 => if runs.all fun r => b.isLocal r.1 then b1.moveFinish y d else b1.readPieces y d runs

/-- A running descriptor goes on when its outstanding remote requests have been answered: its reads finish the transfer, its
write lets the next one go, or ends it (R369). -/
def Blk.descAdvance (b : Blk) (y serial : Nat) : Blk :=
  match b.descOf y serial with
  | none => b
  | some d =>
    let who := Requester.desc y serial
    let rs := b.remotesOf who
    if d.out.isSome || !d.running || (d.reading && 0x10 ≤ d.op) || rs.isEmpty || rs.any (fun r => r.st.isNone) then b
    else if d.reading then
      (if d.expands then
        match rs.find? fun r => r.st != some 0 with
        | some r => (b.dropRemotes who).descEnd y d (r.st.getD 0, openDet, 0)
        | none => b.expandGo y { d with reading := false }
      else b.moveFinish y { d with reading := false })
    else match rs.find? fun r => r.st != some 0, d.todo with
      | some r, _ => (b.dropRemotes who).descEnd y { d with todo := [] } (r.st.getD 0, openDet, r.off)
      | none, _ :: rest => (b.dropRemotes who).descWrites y d rest
      | none, [] => b

/-- A descriptor that waits for a stack starts its work once no stack holds it. -/
def Blk.descRetry (b : Blk) (y serial : Nat) : Blk :=
  match b.descOf y serial with
  | none => b
  | some d => if d.running && !d.reading && d.op < 0x10 && d.todo.isEmpty && d.out.isNone && (b.remotesOf (.desc y serial)).isEmpty &&
      (b.heldBy d).isNone then b.startMove y d else b
/-- A descriptor advanced as far as the answers it has allow: a request that no route carries is answered at once. -/
def Blk.descPump (b : Blk) (y serial : Nat) : Blk :=
  (List.range 3).foldl (fun b _ => b.descAdvance y serial) b

/-- VALIDATE is applied to a transfer that has delivered all its data, when it completes (R238). -/
def Blk.descValidated (b : Blk) (y : Nat) (d : Desc) : Blk × Desc :=
  match d.out with
  | some (0, _, p) =>
    if d.validates && (d.op = 1 || d.op = 2) && p != 0 then
      let r := b.applyValidate d
      let d1 := { d with out := some (r.2.1, r.2.2, p) }
      (r.1.setDesc y d1, d1)
    else (b, d)
  | _ => (b, d)

/-! ### Starting and completing (R365, R370) -/

/-- The queue of a Bay's engine starts its next descriptor, if that is of the given kind and its turn has come. -/
def Blk.descStart (b : Blk) (y q : Nat) (is : Desc → Bool) (run : Blk → Desc → Blk) : Blk :=
  match b.startable y q with
  | none => b
  | some d =>
    if !is d then b
    else
      let d1 := { d with running := true }
      let x := b.bay y
      (run ((b.setBay y { x with lastQueue := q }).setDesc y d1) d1).descPump y d.serial

/-- The detail a completion reports (R370): field offsets counted from the command header for CMD_DMA_SUBMIT. -/
def descDetail (d : Desc) (o : DescOut) : Nat :=
  if o.1 = stBADPARAM || o.1 = stLENGTH || o.1 = stNOCREDIT then
    match d.origin with
    | .cmd _ _ i => min (0x20 + 64 * i + o.2.1) 0xFFFF
    | _ => o.2.1
  else o.2.1

/-- A command's descriptor results once all are in (R370); of a closing context it ends cancelled (R55). -/
def Blk.submitDone (b : Blk) (c : Cmd) : Blk :=
  let n := c.m.plen / 64
  if (b.ctx c.ctx).st = 2 then b.finish c stCANCELLED 0 c.bytes else
  match firstIdx (fun i => leAt c.bytes (8 * i) 2 != 0) (List.range n) 0 with
  | none => b.finish c stOK 0 c.bytes
  | some i => b.finish c (leAt c.bytes (8 * i) 2) (leAt c.bytes (8 * i + 2) 2) c.bytes

/-- A descriptor completes (R370, R382): its status is written, its bindings released, its owner told. -/
def Blk.descComplete (b : Blk) (y serial : Nat) : Blk :=
  match b.descOf y serial with
  | none => b
  | some d0 =>
    if d0.out.isNone then b
    else
      let r := b.descValidated y d0
      let d := r.2
      let o := d.out.getD (0, 0, 0)
      let cl := r.1.closeDet (descDetail d o)
      let b1 := d.bound.foldl (fun b i => b.dropRef (y / 16) i) cl.2
      let x := b1.bay y
      let b2 := (b1.setBay y { x with descs := x.descs.filter fun e => e.serial != serial }).byCount y 0xA08 1
      let b3 := if o.1 = 0 then b2 else b2.byCount y 0xA10 1
      let fp := if o.2.2 = openProg then b3.freeVal 0x273 else (o.2.2, b3)
      let b3 := fp.2
      let prog := fp.1 % 2 ^ 32
      match d.origin with
      | .cove c es i a _ =>
        let b4 := if b3.tpLost c then b3.cvCount c 0x3820 1 else b3.tpWrite c (a + 0x38) (leBytes 2 o.1 ++ leBytes 2 cl.1 ++ leBytes 4 prog)
        match (b4.seq c).inflight.find? fun e => e.serial == es with
        | none => b4
        | some e =>
          let bad := if o.1 = 0 then e.bad else match e.bad with
            | some q => if i < q.1 then some (i, o.1, cl.1) else e.bad
            | none => some (i, o.1, cl.1)
          let n := e.ended + 1
          let dn := if n = fld e.word 68 58 then
              some (match bad with | some q => fault q.2.1 q.2.2 q.1 | none => okDone) else none
          (b4.setEntry c { e with ended := n, bad := bad, done := dn }).kick c
      | .cmd ctx seq i =>
        match b3.cmdOf ctx seq with
        | none => b3
        | some c =>
          let c1 := { c with bytes := patch c.bytes (8 * i) (leBytes 2 o.1 ++ leBytes 2 cl.1 ++ leBytes 4 prog), vars := [c.vars.headD 0 - 1] }
          let b4 := b3.setCmd c1
          if c1.vars.headD 0 = 0 then b4.submitDone c1 else b4

/-! ### The rows of the opcode table -/

/-- A COPY without COMPRESS or EXPAND starts, or a descriptor whose OP or flags no other row takes (R371, R373). -/
def execDmaCopy (bay queue : Nat) (s : State) : Host.Outcome State Fault Refusal :=
  s.updIf (bay < nBays && queue < 17) fun b => b.descStart bay queue
    (fun d => (d.op == 1 && !d.compresses && !d.expands) || (d.op != 1 && d.op != 2 && d.fieldFault == some 0)) fun b d => b.startMove bay d
/-- A GATHER without COMPRESS or EXPAND starts (R373). -/
def execDmaGather (bay queue : Nat) (s : State) : Host.Outcome State Fault Refusal :=
  s.updIf (bay < nBays && queue < 17) fun b => b.descStart bay queue
    (fun d => d.op == 2 && !d.compresses && !d.expands) fun b d => b.startMove bay d
/-- A transfer with COMPRESS against a table in place starts (R379, R382). -/
def execDmaCompress (bay queue : Nat) (s : State) : Host.Outcome State Fault Refusal :=
  s.updIf (bay < nBays && queue < 17) fun b => b.descStart bay queue
    (fun d => (d.op == 1 || d.op == 2) && d.compresses && !d.builds) fun b d => b.startMove bay d
/-- A transfer with EXPAND starts (R380, R382). -/
def execDmaExpand (bay queue : Nat) (s : State) : Host.Outcome State Fault Refusal :=
  s.updIf (bay < nBays && queue < 17) fun b => b.descStart bay queue
    (fun d => (d.op == 1 || d.op == 2) && !d.compresses && d.expands) fun b d => b.startMove bay d
/-- A transfer with COMPRESS and BUILD starts (R384). -/
def execDmaBuild (bay queue : Nat) (s : State) : Host.Outcome State Fault Refusal :=
  s.updIf (bay < nBays && queue < 17) fun b => b.descStart bay queue
    (fun d => (d.op == 1 || d.op == 2) && d.compresses && d.builds) fun b d => b.startMove bay d

end Sys2Proof.Machine
end

