-- ==== Sys2Proof/Machine/BlkOp.lean ====
section
/-! DEFINITION. How an operation of OP 0x10 and above runs on a Bay DMA engine (R267, R295, R368, R369, R374): it works on a
copy of the machine that replaces the machine only when the operation has passed every check and has every remote byte it
reads, so that a refusal leaves no effect; its remote writes follow, one at a time (log entry 30). -/
namespace Sys2Proof.Machine

/-- Why an operation does not go on: it ends with an outcome and no effect, it needs n remote bytes at a global address, it
met an uncorrectable HBM unit, or a stack holds its access (R355, R361, R362). -/
inductive Stop where
  | out (o : DescOut)
  | need (a n : Nat)
  | ue (u : Nat)
  | held (k : Nat)
  deriving DecidableEq, Repr

/-- The machine as the operation sees it, its Bay and descriptor, its remote writes so far, the Tidepool ranges it has written,
and whether it met a lost Tidepool (R225). -/
structure Kx where
  b : Blk
  y : Nat
  d : Desc
  wr : List (Nat × List Byte) := []
  far : List (Nat × Nat) := []
  lost : Bool := false
  deriving DecidableEq, Repr

abbrev K := StateT Kx (Except Stop)

def kEnd {α : Type} (o : DescOut) : K α := fun _ => .error (.out o)
/-- ST_BAD_PARAM; the field at fault is SRC, which names the parameter block (log entry 31). -/
def kBad {α : Type} (prog : Nat := 0) : K α := kEnd (descBad 8 prog)
def kCheck (ok : Bool) (prog : Nat := 0) : K Unit := if ok then pure () else kBad prog
def kGet : K Kx := fun k => .ok (k, k)
def kMod (f : Blk → Blk) : K Unit := fun k => .ok ((), { k with b := f k.b })
/-- A counter of the engine's Bay rises. -/
def kCount (off n : Nat) : K Unit := fun k => .ok ((), { k with b := k.b.byCount k.y off n })

/-- The global address of a local address of this device. -/
def Blk.globalOf (b : Blk) (a : Nat) : Nat := b.slice.devid * 2 ^ 43 + a

/-- Bytes read at an address, with the writes that have not left yet laid over them. -/
def overlay (a : Nat) (v : List Byte) (ws : List (Nat × List Byte)) : List Byte :=
  ws.foldl (fun v w =>
    let lo := max a w.1
    let hi := min (a + v.length) (w.1 + w.2.length)
    if lo < hi then patch v (lo - a) ((w.2.drop (lo - w.1)).take (hi - lo)) else v) v
/-- The answer to a read request of an exact range: the bytes, the status that answered it, or nothing yet. -/
def Blk.answer (b : Blk) (who : Requester) (a n : Nat) : Option (Nat × List Byte) :=
  match b.slice.remotes.find? fun r => r.who == who && r.pkt.kind == 2 && r.pkt.dst == gDev a && r.pkt.addr == gLocal a && r.pkt.len == n with
  | none => none
  | some r => match r.st with
    | none => none
    | some st => some (st, r.data)
/-- The bytes of a remote range, once its requests are answered. -/
def Blk.remoteRead (b : Blk) (who : Requester) (a n : Nat) : Except Stop (List Byte) :=
  (pieces n).foldl (fun acc q => match acc with
    | .error e => .error e
    | .ok v => match b.answer who (a + q.1) q.2 with
      | none => .error (.need a n)
      | some (0, w) => .ok (v ++ bytesAt w 0 q.2)
      | some (st, _) => .error (.out (st, openDet, 0))) (.ok [])

def Kx.who (k : Kx) : Requester := .desc k.y k.d.serial
/-- n bytes at a global address. -/
def kRead (a n : Nat) : K (List Byte) := fun k =>
  if n = 0 then .ok ([], k)
  else
    let s := k.b.globalStatus k.d.part a n
    if s.1 != 0 then .error (.out (descSt s 8))
    else if k.b.isLocal a then
      let l := gLocal a
      match k.b.hbmHeld l n, k.b.rangeUe l n with
      | some q, _ => .error (.held q)
      | none, some u => .error (.ue u)
      | none, none =>
        if regionOf l = 1 then
          .ok (k.b.memRead k.d.part l n, { k with b := k.b.tpTouchReads ((l - tpBase) / tpSize) 7 [((l - tpBase) % tpSize, n)]
                                                  lost := k.lost || (covesOf l n).any k.b.tpLost })
        else .ok (k.b.memRead k.d.part l n, k)
    else match k.b.remoteRead k.who a n with
      | .error e => .error e
      | .ok v => .ok (overlay a v k.wr, k)
/-- Bytes written at a global address. -/
def kWrite (a : Nat) (v : List Byte) : K Unit := fun k =>
  if v.isEmpty then .ok ((), k)
  else
    let s := k.b.globalStatus k.d.part a v.length
    if s.1 != 0 then .error (.out (descSt s 8))
    else if k.b.spanInput a v.length then .error (.out (stBUSY, 2, 0))
    else if k.b.isLocal a then
      let l := gLocal a
      match k.b.hbmHeld l v.length, (if regionOf l = 0 then k.b.partialUe l v.length else none) with
      | some q, _ => .error (.held q)
      | none, some u => .error (.ue u)
      | none, none =>
      let b1 := k.b.memWrite k.d.part (some k.d.cove) l v
      if regionOf l = 1 then .ok ((), { k with b := b1, far := k.far ++ [(a, v.length)], lost := k.lost || (covesOf l v.length).any k.b.tpLost })
      else .ok ((), { k with b := b1 })
    else .ok ((), { k with wr := k.wr ++ [(a, v)] })
/-- The same at a local address of this device. -/
def kReadL (a n : Nat) : K (List Byte) := fun k => kRead (k.b.globalOf a) n k
def kWriteL (a : Nat) (v : List Byte) : K Unit := fun k => kWrite (k.b.globalOf a) v k
/-- A little-endian number at a local address. -/
def kNat (a n : Nat) : K Nat := do
  let v ← kReadL a n
  pure (leNat v)
def kPut (a n v : Nat) : K Unit := kWriteL a (leBytes n v)
/-- Is a range in HBM that the issuing partition may access (R267)? -/
def kHbm (a n : Nat) : K Unit := fun k =>
  let s := k.b.accessStatus k.d.part a n
  if n = 0 then .ok ((), k)
  else if regionOf a != 0 then .error (.out (descBad 8))
  else if s.1 != 0 then .error (.out (descSt s 8)) else .ok ((), k)
/-- Is a range in the program region of the issuing Cove's Tidepool (R295)? -/
def Kx.inOwn (k : Kx) (a n : Nat) : Bool :=
  tpAddr k.d.cove 0 ≤ a && a + n ≤ tpAddr k.d.cove (k.b.progEnd k.d.cove)
def kOwn (a n : Nat) : K Unit := fun k => if n = 0 || k.inOwn a n then .ok ((), k) else .error (.out (descBad 8))
/-- Is a range in HBM of the partition or in the issuing Cove's program region (R295, R374)? -/
def kArea (a n : Nat) (prog : Nat := 0) : K Unit := fun k =>
  if n = 0 || k.inOwn a n then .ok ((), k)
  else if regionOf a != 0 then .error (.out (descBad 8 prog))
  else
    let s := k.b.accessStatus k.d.part a n
    if s.1 = stBADPARAM then .error (.out (descBad 8 prog)) else if s.1 != 0 then .error (.out (s.1, s.2, prog)) else .ok ((), k)

/-- The fields a descriptor of OP 0x10 and above must leave zero, and LEN (R374): the offset of the first that is wrong. -/
def Desc.opFault (d : Desc) (words : Nat) : Option Nat :=
  if d.len != 8 * words then some 4
  else if d.dst != 0 then some 0x10
  else match [0x18, 0x1A].find? fun o => leAt d.raw o 2 != 0 with
    | some o => some o
    | none => [0x1C, 0x20, 0x24, 0x28, 0x2C, 0x30].find? fun o => leAt d.raw o 4 != 0
/-- The parameter block of a descriptor: words words at SRC (R374). -/
def kParams (words : Nat) : K (List Nat) := do
  let k ← kGet
  match k.d.opFault words with
  | some o => kEnd (descBad o)
  | none =>
    kArea k.d.src (8 * words)
    let v ← kReadL k.d.src (8 * words)
    pure ((List.range words).map fun i => leAt v (8 * i) 8)

/-- An amount that no rule fixes is added to the engine's counts of bytes read and written: R385 does not say which accesses of
these operations they count (log entry 32). -/
def Blk.countOp (b : Blk) (y : Nat) : Blk :=
  let r := b.freeVal 0x385
  let w := r.2.freeVal 0x386
  (w.2.byCount y 0xA18 r.1).byCount y 0xA20 w.1

/-- An operation run: it waits for remote bytes, ends with no effect, or takes effect, its remote writes to follow; a write
without inbox credit leaves no effect (R217). -/
def Blk.opRun (b : Blk) (y : Nat) (d : Desc) (p : K DescOut) : Blk :=
  let who := Requester.desc y d.serial
  match p { b := b, y := y, d := d } with
  | .error (.need a n) => (b.requestReads who d.part a 0 n).setDesc y { d with running := true, reading := true }
  | .error (.held q) => (b.countHold q).setDesc y { d with running := true, reading := true }
  | .error (.out o) => (b.dropRemotes who).descEnd y { d with reading := false } o
  | .error (.ue u) => ((b.dropRemotes who).hbmUe u d.part 0 0).descEnd y { d with reading := false } (stHWERROR, b.errDetail, 0)
  | .ok (o, k) =>
    match k.b.chargeAll d y k.far with
    | none => ((b.dropRemotes who).cvCount d.cove 0x3818 1).descEnd y { d with reading := false } (stNOCREDIT, 8, 0)
    | some b1 =>
      let o1 : DescOut := if o.1 = 0 && k.lost then (stSCRUB, 0, o.2.2) else o
      let d1 := { d with running := true, reading := false, pend := o1 }
      ((b1.dropRemotes who).countOp y).descWrites y d1 (k.wr.flatMap fun w => (pieces w.2.length).map fun q => (w.1 + q.1, 0, (w.2.drop q.1).take q.2))

end Sys2Proof.Machine
end

