-- ==== Sys2Proof/Machine/Kv.lean ====
section
/-! DEFINITION. The paged key-value cache: sequence descriptors, page directories, frames, rings, and the operations KV_APPEND,
KV_GATHER, KV_FOLD, KV_COMMIT and KV_SHARE (R264 to R293). -/
namespace Sys2Proof.Machine

/-! ### The sequence descriptor (R266, R267) -/

/-- A sequence descriptor's fields (R266). -/
structure KvSeq where
  addr : Nat
  len : Nat
  tent : Nat
  epoch : Nat
  prev : Nat
  active : Nat
  policy : Nat
  decay : Nat
  pfmt : Nat
  n : Nat
  top : Nat
  sink : Nat
  recent : Nat
  layers : Nat
  heads : Nat
  capp : Nat
  budget : Nat
  dirA : Nat
  dirB : Nat
  shadow : Nat
  frames : Nat
  release : Nat
  pool : Nat
  remote : Nat
  deriving DecidableEq, Repr

def kvSeqOf (a : Nat) (v : List Byte) : KvSeq :=
  let w1 := leAt v 4 4
  let w2 := leAt v 8 4
  { addr := a, len := fld (leAt v 0 4) 22 0, tent := fld w1 22 0, epoch := fld w1 26 23, prev := fld w1 30 27,
    active := fld w2 0 0, policy := fld w2 1 1, decay := fld w2 5 2, pfmt := fld w2 7 6, n := fld w2 9 8 + 1, top := fld w2 11 10,
    sink := fld w2 15 12, recent := fld w2 21 16, layers := leAt v 0xC 1, heads := leAt v 0xD 1 % 128, capp := leAt v 0x10 4,
    budget := leAt v 0x14 4, dirA := leAt v 0x18 8, dirB := leAt v 0x20 8, shadow := leAt v 0x28 8, frames := leAt v 0x30 8,
    release := leAt v 0x38 8, pool := leAt v 0x40 8, remote := leAt v 0x48 8 }
/-- Reserved fields zero and every field within its range (R266, R267, R291). -/
def KvSeq.ok (s : KvSeq) (v : List Byte) : Bool :=
  fld (leAt v 0 4) 31 23 == 0 && !tbit (leAt v 4 4) 31 && fld (leAt v 8 4) 31 22 == 0 && leAt v 0xD 1 < 128 && leAt v 0xE 2 == 0 &&
  leAt v 0x50 48 == 0 && s.len + s.tent ≤ 4194304 && s.prev ≤ 8 && s.pfmt != 3 && s.top != 0 && s.recent != 0 && s.layers != 0 &&
  s.heads != 0 && s.capp != 0 && s.capp ≤ 262144 && s.sink + s.recent + 1 ≤ s.budget && s.budget ≤ s.capp &&
  s.dirA % 8 == 0 && s.dirB % 8 == 0 && s.shadow % 16 == 0 && s.remote % 8 == 0
def KvSeq.segs (s : KvSeq) : Nat := s.layers * s.heads
/-- The state word (R266). -/
def KvSeq.stateWord (s : KvSeq) : Nat := s.len + (s.tent + s.epoch * 2 ^ 23 + s.prev * 2 ^ 27) * 2 ^ 32
def KvSeq.dir (s : KvSeq) : Nat := if s.active = 1 then s.dirB else s.dirA

/-- A ring's indexes and size (R271). -/
structure KvRing where
  addr : Nat
  head : Nat
  tail : Nat
  cap : Nat
  deriving DecidableEq, Repr

def KvRing.fill (r : KvRing) : Nat := (r.tail + 2 ^ 32 - r.head) % 2 ^ 32
def kvRing (a : Nat) : K KvRing := do
  kHbm a 32
  let v ← kReadL a 32
  let log := leAt v 0x10 8
  kCheck (log ≤ 20 && leAt v 0x18 8 == 0)
  let r : KvRing := { addr := a, head := leAt v 0 4, tail := leAt v 8 4, cap := 2 ^ log }
  kHbm a (32 + 8 * r.cap)
  kCheck (r.fill ≤ r.cap)
  pure r
/-- The entry at the head of a ring, as it stands. -/
def kvPeek (r : KvRing) : K Nat := kNat (r.addr + 0x20 + 8 * (r.head % r.cap)) 8
/-- The head entry taken; it must be an image of TIER and ADDR alone (R271). -/
def kvTake (a : Nat) : K Nat := do
  let r ← kvRing a
  kCheck (r.fill != 0)
  let e ← kvPeek r
  kCheck (fld e 31 2 == 0 && e % 4 != 0)
  kPut a 4 ((r.head + 1) % 2 ^ 32)
  pure e
/-- An entry image pushed. -/
def kvPush (a e : Nat) : K Unit := do
  let r ← kvRing a
  kCheck (r.fill < r.cap)
  kPut (a + 0x20 + 8 * (r.tail % r.cap)) 8 e
  kPut (a + 8) 4 ((r.tail + 1) % 2 ^ 32)

/-- A descriptor read and checked, with the structures it names (R267). -/
def kvOpen (a : Nat) : K KvSeq := do
  kCheck (a % 128 == 0)
  kHbm a 128
  let v ← kReadL a 128
  let s := kvSeqOf a v
  kCheck (s.ok v)
  kHbm s.dirA (s.segs * (s.capp + 1) * 8)
  kHbm s.dirB (s.segs * (s.capp + 1) * 8)
  kHbm s.shadow (s.segs * s.capp * 16)
  let _ ← kvRing s.frames
  let _ ← kvRing s.release
  if s.policy = 1 then
    let _ ← kvRing s.pool
    pure s
  else pure s
def kvPutState (s : KvSeq) : K Unit := kPut s.addr 8 s.stateWord

/-! ### Pages and frames (R264, R265, R268 to R270) -/

/-- Bytes of a chunk record, of a page, of a frame (R77, R264). -/
def kvChunk (pfmt : Nat) : Nat := if pfmt = 0 then 704 else 1088
def KvSeq.pageBytes (s : KvSeq) : Nat := 2 * s.n * kvChunk s.pfmt
def KvSeq.frameBytes (s : KvSeq) : Nat := cdiv (s.pageBytes + 64) 512 * 512

/-- A page entry (R269). -/
structure KvEnt where
  tier : Nat := 0
  fill : Nat := 0
  sink : Bool := false
  recent : Bool := false
  tentative : Bool := false
  epoch : Nat := 0
  shared : Bool := false
  evicted : Bool := false
  score : Nat := 0
  addr : Nat := 0
  deriving DecidableEq, Repr

def kvEntOf (w : Nat) : KvEnt :=
  { tier := fld w 1 0, fill := fld w 6 2, sink := tbit w 7, recent := tbit w 8, tentative := tbit w 9, epoch := fld w 13 10,
    shared := tbit w 14, evicted := tbit w 15, score := fld w 31 16, addr := fld w 63 32 }
def KvEnt.word (e : KvEnt) : Nat :=
  e.tier + e.fill * 4 + bnat e.sink * 2 ^ 7 + bnat e.recent * 2 ^ 8 + bnat e.tentative * 2 ^ 9 + e.epoch * 2 ^ 10 + bnat e.shared * 2 ^ 14 +
  bnat e.evicted * 2 ^ 15 + e.score * 2 ^ 16 + e.addr * 2 ^ 32
/-- An unopened entry has TIER NONE and EVICTED clear, and is all zero (R269). -/
def KvEnt.unopened (e : KvEnt) : Bool := e.tier == 0 && !e.evicted
def KvEnt.ok (e : KvEnt) : Bool := e.fill ≤ 16 && (!e.unopened || e.word == 0)

/-- Where an entry of a segment, its header and its shadows lie (R268). -/
def KvSeq.entAddr (s : KvSeq) (seg p : Nat) : Nat := s.dir + (seg * (s.capp + 1) + p + 1) * 8
def KvSeq.headAddr (s : KvSeq) (seg : Nat) : Nat := s.dir + seg * (s.capp + 1) * 8
def KvSeq.shadowAddr (s : KvSeq) (seg p : Nat) : Nat := s.shadow + (seg * s.capp + p) * 16
def kvEnt (s : KvSeq) (seg p : Nat) : K KvEnt := do
  let w ← kNat (s.entAddr seg p) 8
  let e := kvEntOf w
  kCheck e.ok
  pure e
def kvPutEnt (s : KvSeq) (seg p : Nat) (e : KvEnt) : K Unit := kPut (s.entAddr seg p) 8 e.word
/-- LIVE of a segment, its header's reserved half zero. -/
def kvLive (s : KvSeq) (seg : Nat) : K Nat := do
  let w ← kNat (s.headAddr seg) 8
  kCheck (w < 2 ^ 32)
  pure w
/-- The frame of an entry as a global address (R270). -/
def kvFrame (s : KvSeq) (tier addr : Nat) : K Nat := do
  let k ← kGet
  if tier = 1 then
    let c := fld addr 31 20
    let a := fld addr 12 0 * 512
    kCheck (fld addr 19 13 == 0 && k.b.partOfCove c == k.b.partOfCove k.d.cove && a + s.frameBytes ≤ k.b.progEnd c)
    pure (k.b.globalOf (tpAddr c a))
  else if tier = 2 then
    kHbm (addr * 512) s.frameBytes
    pure (k.b.globalOf (addr * 512))
  else
    let g ← kNat (s.remote + 8 * addr) 8
    kCheck (g % 512 == 0 && g / 2 ^ 57 == 0 && gDev g != k.b.slice.devid && regionOf (gLocal g) == 0 && inRegion (gLocal g) s.frameBytes)
    pure g
def kvRefs (s : KvSeq) (fr : Nat) : K Nat := do
  let v ← kRead (fr + s.frameBytes - 64) 4
  pure (leNat v)
def kvPutRefs (s : KvSeq) (fr n : Nat) : K Unit := kWrite (fr + s.frameBytes - 64) (leBytes 4 n)

/-! ### Slots (R265, R275) -/

/-- One chunk of a token: its two scales and its 64 elements, as trit-plane integers for TQ3 and as codes otherwise. -/
structure KvTok where
  s0 : Nat := 0x7F
  s1 : Nat := 0x7F
  els : List Int := List.replicate 64 0
  deriving DecidableEq, Repr

/-- T5 bytes from byte lo of a half plane image with the trits from index start on replaced: bytes kept in part must be valid
(R265, R275). Trits beyond the 1,024th are padding. The first bad byte, or the new bytes. -/
def mergeT5 (old : List Byte) (lo start : Nat) (ts : List Int) : Except Nat (List Byte) :=
  let inside := fun (i : Nat) => decide (start ≤ i) && decide (i < start + ts.length)
  let whole := fun (j : Nat) => (List.range 5).all fun i => inside (5 * (lo + j) + i) || decide (1024 ≤ 5 * (lo + j) + i)
  match firstIdx (fun j => !whole j && t5Bad (nth old j 0)) (List.range old.length) 0 with
  | some j => .error (lo + j)
  | none => .ok ((List.range old.length).map fun j => BitVec.ofNat 8 (t5Byte ((List.range 5).map fun i =>
      let x := 5 * (lo + j) + i
      if inside x then nth ts (x - start) 0 else if 1024 ≤ x then 0 else nth (t5Trits (nth old j 0).toNat) i 0)))
/-- Slot t of one chunk record at a global address written; off is the record's offset in its frame. -/
def kvPutChunk (pfmt rec off t : Nat) (x : KvTok) : K Unit := do
  kWrite (rec + 2 * t) (leBytes 1 x.s0 ++ leBytes 1 x.s1)
  if pfmt = 0 then
    let lo := 64 * t / 5
    let n := (64 * t + 63) / 5 + 1 - lo
    (List.range 3).forM fun i => do
      let base := 0x20 + 205 * i + lo
      let old ← kRead (rec + base) n
      match mergeT5 old lo (64 * t) (x.els.map fun e => nth (btDigits 3 e) i 0) with
      | .error j => kEnd (stFORMAT, fmtDetail 1 (off + 0x20 + 205 * i + j), 0)
      | .ok v => kWrite (rec + base) v
  else kWrite (rec + 0x20 + 64 * t) (x.els.map fun e => BitVec.ofNat 8 (toTwos 8 e))
/-- Slot t of a page written, chunk by chunk. -/
def kvPutSlot (s : KvSeq) (fr t : Nat) (xs : List KvTok) : K Unit :=
  (List.range (2 * s.n)).forM fun j => kvPutChunk s.pfmt (fr + j * kvChunk s.pfmt) (j * kvChunk s.pfmt) t (nth xs j {})
/-- A chunk record of zero slots. -/
def kvZeroChunk (pfmt : Nat) : List Byte :=
  List.replicate 32 0x7F#8 ++
  (if pfmt = 0 then (List.range 3).flatMap (fun _ => t5Pack (List.replicate 1024 0)) ++ zeros 57 else zeros 1056)
/-- A frame of zero slots, with its trailer. -/
def KvSeq.zeroFrame (s : KvSeq) : List Byte :=
  let page := (List.range (2 * s.n)).flatMap fun _ => kvZeroChunk s.pfmt
  page ++ zeros (s.frameBytes - 64 - page.length) ++ leBytes 4 1 ++ zeros 60
/-- A token record's burst size: INT4 for TQ3 pages, else the element format (R275). -/
def KvSeq.burst (s : KvSeq) : Nat := if s.pfmt = 0 then 32 else 64
def KvSeq.recBytes (s : KvSeq) : Nat := 4 * s.n * s.burst
/-- The chunks of a token record. -/
def KvSeq.token (s : KvSeq) (r : List Byte) : List KvTok :=
  (List.range (2 * s.n)).map fun j =>
    let b := fun (g : Nat) => bytesAt r ((2 * j + g) * s.burst) s.burst
    let so := if s.pfmt = 0 then 0x10 else 0x20
    let els := fun (g : Nat) => if s.pfmt = 0 then (unpackEls 5 32 (b g)).map (fun c => sx 4 c) else (unpackNat 8 32 (leNat (b g))).map (fun c => sx 8 c)
    { s0 := leAt (b 0) so 1, s1 := leAt (b 1) so 1, els := els 0 ++ els 1 }
/-- The offset of the first NaN scale of a token record. -/
def KvSeq.badScale (s : KvSeq) (r : List Byte) : Option Nat :=
  (List.range (4 * s.n)).findSome? fun g =>
    let o := g * s.burst + (if s.pfmt = 0 then 0x10 else 0x20)
    if leAt r o 1 = 0xFF then some o else none

/-! ### Resolution (R285) -/

def bf16 (c : Nat) : Val := floatVal 0xB c
/-- BF16 round to nearest, saturated (R282). -/
def toBf16 (v : Val) : Nat := (valToFloat 0xB 0 0 v).1
def kvShadows (s : KvSeq) (seg p : Nat) : K (List Nat) := do
  let v ← kReadL (s.shadowAddr seg p) 16
  pure ((List.range 8).map fun i => leAt v (2 * i) 2)
/-- An entry as an operation uses it, resolved first when its speculation epoch has closed. -/
def kvResolve (s : KvSeq) (seg p : Nat) (e : KvEnt) : K KvEnt := do
  if !e.tentative || e.epoch = s.epoch then pure e
  else
    let f := min e.fill (s.len - 16 * p)
    if e.tier != 0 then
      let fr ← kvFrame s e.tier e.addr
      (List.range (e.fill - f)).forM fun i => kvPutSlot s fr (f + i) []
    kCount 0x840 (e.fill - f)
    let sh ← kvShadows s seg p
    let take := if e.epoch = (s.epoch + 15) % 16 then s.prev else 0
    let sum := (sh.take take).foldl (fun a x => (r32 (vAdd a (bf16 x))).1) (bf16 e.score)
    kCount 0x848 ((sh.drop take).filter (· != 0)).length
    kWriteL (s.shadowAddr seg p) (zeros 16)
    let e1 := { e with fill := f, score := if take = 0 then e.score else toBf16 sum, tentative := false, epoch := 0 }
    kvPutEnt s seg p e1
    pure e1

/-! ### Giving up a frame, Scour, opening (R276 to R278, R288) -/

/-- A SHARED frame loses one reference and is released at none; another is released (R278, R288). -/
def kvGiveUp (s : KvSeq) (e : KvEnt) : K Unit := do
  if e.shared then
    let fr ← kvFrame s e.tier e.addr
    let n ← kvRefs s fr
    let m := (n + 2 ^ 32 - 1) % 2 ^ 32
    kvPutRefs s fr m
    if m = 0 then kvPush s.release e.word
  else kvPush s.release e.word
/-- The victim of a segment (R277): the eligible page with the lowest SCORE, the lower page on ties. -/
def kvVictim (s : KvSeq) (seg : Nat) : K (Option (Nat × KvEnt)) :=
  (List.range s.capp).foldlM (fun (best : Option (Nat × KvEnt)) p => do
    let e ← kvEnt s seg p
    if e.tier = s.top && !e.evicted && !e.sink && !e.recent && !e.tentative then
      match best with
      | none => pure (some (p, e))
      | some q => pure (if e.score < q.2.score then some (p, e) else best)
    else pure best) none
/-- The image in the pool ring that a victim of a tier may be demoted to (R278). -/
def kvPoolEntry (s : KvSeq) (e : KvEnt) : K (Option Nat) := do
  if s.policy != 1 || e.shared then pure none
  else
    let r ← kvRing s.pool
    if r.fill = 0 then pure none
    else
      let w ← kvPeek r
      pure (if e.tier < w % 4 then some w else none)
/-- Scour acts once (R277, R278). -/
def kvScour (s : KvSeq) (seg : Nat) : K Unit := do
  match (← kvVictim s seg) with
  | none => kCount 0x830 1
  | some (p, e) =>
    let live ← kvLive s seg
    kPut (s.headAddr seg) 8 (live - 1)
    match (← kvPoolEntry s e) with
    | some _ =>
      let w ← kvTake s.pool
      let old ← kvFrame s e.tier e.addr
      let new ← kvFrame s (w % 4) (w / 2 ^ 32)
      let v ← kRead old s.frameBytes
      kWrite new v
      kvPutEnt s seg p { e with tier := w % 4, addr := w / 2 ^ 32 }
      kvPush s.release e.word
      kCount 0x820 1
    | none =>
      kvPutEnt s seg p { e with tier := 0, addr := 0, shared := false, evicted := true }
      kvGiveUp s e
      kCount 0x818 1
      if s.policy = 1 then kCount 0x828 1
/-- A frame of tier TOP from the frame ring: the image's ADDR and the frame. -/
def kvNewFrame (s : KvSeq) : K (Nat × Nat) := do
  let w ← kvTake s.frames
  kCheck (w % 4 == s.top)
  let fr ← kvFrame s s.top (w / 2 ^ 32)
  pure (w / 2 ^ 32, fr)
/-- Page p opened (R276). -/
def kvOpenPage (s : KvSeq) (seg p : Nat) : K KvEnt := do
  let (a, fr) ← kvNewFrame s
  kWrite fr s.zeroFrame
  let e : KvEnt := { tier := s.top, addr := a, sink := p < s.sink, recent := true }
  kvPutEnt s seg p e
  if s.recent ≤ p then
    let o ← kvEnt s seg (p - s.recent)
    if o.recent then kvPutEnt s seg (p - s.recent) { o with recent := false }
  let live ← kvLive s seg
  kPut (s.headAddr seg) 8 (live + 1)
  kCount 0x810 1
  if s.budget < live + 1 then kvScour s seg
  pure e
/-- A SHARED page copied before it is written (R288). -/
def kvCopyPage (s : KvSeq) (seg p : Nat) (e : KvEnt) : K KvEnt := do
  let old ← kvFrame s e.tier e.addr
  let (a, fr) ← kvNewFrame s
  let v ← kRead old (s.frameBytes - 64)
  kWrite fr (v ++ leBytes 4 1 ++ zeros 60)
  (List.range (16 - e.fill)).forM fun i => kvPutSlot s fr (e.fill + i) []
  let e1 := { e with tier := s.top, addr := a, shared := false }
  kvPutEnt s seg p e1
  if e.tier != s.top then
    let live ← kvLive s seg
    kPut (s.headAddr seg) 8 (live + 1)
  kvGiveUp s e
  kCount 0x838 1
  pure e1

/-! ### The operations (R273) -/

/-- A segment of a sequence: its layer and head within range. -/
def KvSeq.seg (s : KvSeq) (l h : Nat) : K Nat := do
  kCheck (l < s.layers && h < s.heads)
  pure (l * s.heads + h)
/-- The segment's tail: 16 q + FILL of the highest opened page q, as resolution leaves it (R274). -/
def kvTail (s : KvSeq) (seg : Nat) : K Nat :=
  (List.range s.capp).foldlM (fun t p => do
    let e ← kvEnt s seg p
    if e.unopened then pure t
    else pure (16 * p + (if e.tentative && e.epoch != s.epoch then min e.fill (s.len - 16 * p) else e.fill))) 0

/-- KV_APPEND (R274, R275, R279). -/
def kvAppend : K DescOut := do
  let w ← kParams 6
  let c := nth w 4 0
  let pos := nth w 3 0
  let src := nth w 5 0
  kCheck (c ≤ 1024)
  if c = 0 then pure (0, 0, 0)
  else
    let s ← kvOpen (nth w 0 0)
    let seg ← s.seg (nth w 1 0) (nth w 2 0)
    kCheck (s.len ≤ pos && pos + c ≤ 4194304 && cdiv (pos + c) 16 ≤ s.capp)
    let tail ← kvTail s seg
    kCheck (pos ≤ tail)
    kOwn src (c * s.recBytes)
    let data ← kReadL src (c * s.recBytes)
    let recs := (List.range c).map fun i => bytesAt data (i * s.recBytes) s.recBytes
    match (List.range c).findSome? fun i => (s.badScale (nth recs i [])).map fun o => i * s.recBytes + o with
    | some o => kEnd (stFORMAT, fmtDetail 2 o, 0)
    | none =>
      let pages := (List.range (cdiv (pos + c) 16 - pos / 16)).map fun i => pos / 16 + i
      let ents ← pages.mapM fun p => kvEnt s seg p
      kCheck (ents.all fun e => !e.evicted)
      let need := (ents.filter fun e => e.unopened || e.shared).length
      let fr ← kvRing s.frames
      let rr ← kvRing s.release
      kCheck (need ≤ fr.fill && need ≤ rr.cap - rr.fill)
      (List.range c).forM fun i => do
        let p := (pos + i) / 16
        let t := (pos + i) % 16
        let e0 ← kvEnt s seg p
        let e1 ← kvResolve s seg p e0
        let e2 ← if e1.unopened then kvOpenPage s seg p else if e1.shared then kvCopyPage s seg p e1 else pure e1
        let f ← kvFrame s e2.tier e2.addr
        kvPutSlot s f t (s.token (nth recs i []))
        kvPutEnt s seg p { e2 with fill := max e2.fill (t + 1), tentative := true, epoch := s.epoch }
      kvPutState { s with tent := max s.tent (pos + c - s.len) }
      pure (0, 0, openProg)

/-- Address and enable of an output of KV_GATHER (R374). -/
def outOn (w : Nat) : Bool := tbit w 63
def outAt (w : Nat) : Nat := w % 2 ^ 63
/-- One INT8 or E4M3 chunk record as 32 bursts (R280). -/
def kvBursts (r : List Byte) : List Byte :=
  (List.range 16).flatMap fun t => (List.range 2).flatMap fun g =>
    bytesAt r (0x20 + 64 * t + 32 * g) 32 ++ bytesAt r (2 * t + g) 1 ++ zeros 31
/-- The FP32 value of a block scale (R280); the NaN code's is free (log entry 3). -/
def scaleFp (e : Nat) : Nat := if e = 0xFF then freeNan 0x280 e else if e = 0 then 0x00400000 else e * 2 ^ 23
/-- Where the outputs of a gather go: K, V, BIAS, VSCALE, MAP (R280). -/
def kvGatherOut (s : KvSeq) (outs : List Nat) (g1 i : Nat) (page : List Byte) (num f : Nat) (tent : Bool) : K Unit := do
  let o := fun (j : Nat) => nth outs j 0
  let size := if s.pfmt = 0 then 704 else 2048
  let chunk := fun (j : Nat) =>
    let r := bytesAt page (j * kvChunk s.pfmt) (kvChunk s.pfmt)
    if s.pfmt = 0 then r else kvBursts r
  (List.range s.n).forM fun j => do
    if outOn (o 0) then kWriteL (outAt (o 0) + (j * g1 + i) * size) (chunk j)
    if outOn (o 1) then kWriteL (outAt (o 1) + (j * g1 + i) * size) (chunk (s.n + j))
    if outOn (o 3) then
      (List.range 2).forM fun h => kWriteL (outAt (o 3) + ((2 * j + h) * g1 + i) * 64)
        ((List.range 16).flatMap fun t => if f = 0 && num = 0xFFFFFFFF then zeros 4
          else leBytes 4 (scaleFp (leAt page ((s.n + j) * kvChunk s.pfmt + 2 * t + h) 1)))
  if outOn (o 2) then kWriteL (outAt (o 2) + 64 * i) ((List.range 16).flatMap fun t => leBytes 4 (if t < f then 0 else 0xFF800000))
  if outOn (o 4) then kWriteL (outAt (o 4) + 8 * i) (leBytes 8 (num + f * 2 ^ 32 + bnat tent * 2 ^ 37))
/-- A chunk of a pad page: zero slots (R280). -/
def KvSeq.padPage (s : KvSeq) : List Byte := (List.range (2 * s.n)).flatMap fun _ => kvZeroChunk s.pfmt

/-- The pages of a gather in rising order from the i-th live one on: what stopped it, and the live pages written. -/
def kvGatherPages (s : KvSeq) (seg : Nat) (outs : List Nat) (g1 : Nat) : List Nat → Nat → K (Option DescOut × Nat)
  | [], i => pure (none, i)
  | p :: ps, i => do
    let r ← tryCatch (do
        let e0 ← kvEnt s seg p
        let e ← kvResolve s seg p e0
        if e.tier = 0 then
          kCount 0x808 1
          pure (none, false)
        else
          let fr ← kvFrame s e.tier e.addr
          let page ← kRead fr s.pageBytes
          let f := min e.fill (min 16 (s.len + s.tent - 16 * p))
          kvGatherOut s outs g1 i page p f e.tentative
          kCount 0x800 1
          pure ((none : Option DescOut), true))
      fun st => match st with
        | .out o => if o.1 = stABSENT || o.1 = stROUTELOST then pure (some o, false) else throw st
        | _ => throw st
    match r with
    | (some o, _) => pure (some o, i)
    | (none, true) => kvGatherPages s seg outs g1 ps (i + 1)
    | (none, false) => kvGatherPages s seg outs g1 ps i
/-- KV_GATHER (R280, R281). -/
def kvGather : K DescOut := do
  let w ← kParams 11
  let g := nth w 4 0
  let pad := nth w 5 0
  let outs := w.drop 6
  kCheck (g ≤ 4096 && (pad == 1 || pad == 2 || pad == 4) && outs.all fun o => fld o 62 43 == 0)
  if g = 0 then pure (0, 0, 0)
  else
    let s ← kvOpen (nth w 0 0)
    let seg ← s.seg (nth w 1 0) (nth w 2 0)
    let p0 := nth w 3 0
    kCheck (p0 + g ≤ s.capp)
    let pages := (List.range g).map fun i => p0 + i
    let ents ← pages.mapM fun p => kvEnt s seg p
    let live := (ents.filter fun e => e.tier != 0).length
    let g1 := cdiv live pad * pad
    let size := if s.pfmt = 0 then 704 else 2048
    let lens := [s.n * g1 * size, s.n * g1 * size, 64 * g1, 2 * s.n * g1 * 64, 8 * g1]
    (outs.zip lens).forM fun q => if outOn q.1 then kOwn (outAt q.1) q.2 else pure ()
    match (← kvGatherPages s seg outs g1 pages 0) with
    | (some o, i) => pure (o.1, o.2.1, i)
    | (none, i) =>
      (List.range (g1 - live)).forM fun j => kvGatherOut s outs g1 (i + j) s.padPage 0xFFFFFFFF 0 false
      pure (0, 0, g1)

/-- KV_FOLD (R282, R283). -/
def kvFold : K DescOut := do
  let w ← kParams 7
  let g := nth w 4 0
  let spec := nth w 6 0
  kCheck (g ≤ 4096 && spec ≤ 8)
  if g = 0 then pure (0, 0, 0)
  else
    let s ← kvOpen (nth w 0 0)
    let seg ← s.seg (nth w 1 0) (nth w 2 0)
    kArea (nth w 3 0) (8 * g)
    kArea (nth w 5 0) (4 * g)
    let map ← kReadL (nth w 3 0) (8 * g)
    let mass ← kReadL (nth w 5 0) (4 * g)
    let ms := (List.range g).map fun i => leAt mass (4 * i) 4
    match firstIdx (fun m => !fp32Finite m) ms 0 with
    | some i => kEnd (stFORMAT, fmtDetail 3 (4 * i), 0)
    | none =>
      kCheck (ms.all fun m => m < 2 ^ 31 || m == 2 ^ 31)
      let es := (List.range g).map fun i => leAt map (8 * i) 8
      kCheck (es.all fun e => fld e 63 38 == 0 && (fld e 31 0 < s.capp || fld e 31 0 == 0xFFFFFFFF))
      (es.zip ms).forM fun q => do
        let p := fld q.1 31 0
        if p = 0xFFFFFFFF then pure ()
        else
          let e0 ← kvEnt s seg p
          if e0.tier = 0 then pure ()
          else
            let e ← kvResolve s seg p e0
            kCount 0x850 1
            if spec = 0 then
              let m := bf16 e.score
              let d := (r32 (scaleVal m (-(s.decay : Int)))).1
              let t := (r32 (vSub m d)).1
              let u := (r32 (vAdd t (fp32 q.2))).1
              kvPutEnt s seg p { e with score := toBf16 u }
            else
              let sh ← kvShadows s seg p
              let v := toBf16 (vAdd (bf16 (nth sh (spec - 1) 0)) (fp32 q.2))
              kPut (s.shadowAddr seg p + 2 * (spec - 1)) 2 v
              kvPutEnt s seg p { e with tentative := true, epoch := s.epoch }
      pure (0, 0, openProg)

/-- The epoch of a sequence is closed (R284): the status, 0 when the commit is made. -/
def kvClose (s : KvSeq) (n e : Nat) : K Nat := do
  if e = s.epoch && n ≤ s.tent then
    kvPutState { s with len := s.len + n, prev := min n 8, tent := 0, epoch := (s.epoch + 1) % 16 }
    pure stOK
  else if e = (s.epoch + 15) % 16 then pure stALREADY
  else pure stBADPARAM
/-- KV_COMMIT (R284). -/
def kvCommit : K DescOut := do
  let w ← kParams 3
  let s ← kvOpen (nth w 0 0)
  let st ← kvClose s (nth w 1 0) (nth w 2 0)
  if st = 0 then pure (0, 0, openProg) else if st = stBADPARAM then kBad else kEnd (st, openDet, 0)

/-- One page of one segment shared (R287); whether the destination's entry counts in its LIVE. -/
def kvSharePage (s d : KvSeq) (seg l p : Nat) : K Bool := do
  let e0 ← kvEnt s seg p
  let e ← kvResolve s seg p e0
  if e.tier = 0 then
    kvPutEnt d seg p e
    pure false
  else
    let fr ← kvFrame s e.tier e.addr
    kvPutEnt s seg p { e with shared := true }
    let n ← kvRefs s fr
    kvPutRefs s fr ((n + 1) % 2 ^ 32)
    kvPutEnt d seg p { tier := e.tier, addr := e.addr, score := e.score, shared := true, fill := min e.fill (l - 16 * p),
                       sink := p < d.sink, recent := cdiv l 16 ≤ p + d.recent }
    pure (e.tier == d.top)
/-- KV_SHARE (R287). -/
def kvShare : K DescOut := do
  let w ← kParams 3
  let l := nth w 2 0
  if l = 0 then pure (0, 0, 0)
  else
    let s ← kvOpen (nth w 0 0)
    let d ← kvOpen (nth w 1 0)
    let pn := cdiv l 16
    kCheck (l ≤ s.len && s.pfmt == d.pfmt && s.n == d.n && s.layers == d.layers && s.heads == d.heads && d.len == 0 && d.tent == 0 &&
      pn ≤ s.capp && pn ≤ d.capp)
    (List.range s.segs).forM fun g => (List.range pn).forM fun p => do
      let x ← kNat (d.entAddr g p) 8
      kCheck (x == 0)
    (List.range s.segs).forM fun g => do
      let live ← (List.range pn).foldlM (fun a p => do
        let y ← kvSharePage s d g l p
        pure (a + bnat y)) 0
      kPut (d.headAddr g) 8 live
    kvPutState { d with len := l }
    pure (0, 0, openProg)

/-- The operation of a key-value descriptor. -/
def kvOp (op : Nat) : K DescOut :=
  if op = 0x10 then kvAppend else if op = 0x11 then kvGather else if op = 0x12 then kvFold else if op = 0x13 then kvCommit else kvShare
/-- A key-value descriptor starts or goes on with the remote bytes it waited for (R273, R368). -/
def Blk.kvGo (b : Blk) (y : Nat) (d : Desc) : Blk :=
  match d.fieldFault with
  | some o => b.descEnd y d (descBad o)
  | none => b.opRun y d (kvOp d.op)

/-- CMD_SPEC_COMMIT's work for a partition (R284): status, detail, and the machine. A fault of the descriptor is one of the
parameter, a wrong count or epoch one of the payload (R60). -/
def Blk.specCommit (b : Blk) (part addr n e : Nat) : Nat × Nat × Blk :=
  let d : Desc := { serial := 0, queue := 0, raw := [], cove := 0, part := part, origin := .cmd 0 0 0 }
  match kvOpen addr { b := b, y := 0, d := d } with
  | .error (.out o) => (o.1, if o.1 = stBADPARAM then 0x18 else o.2.1, b)
  | .error (.ue u) => (stHWERROR, b.errDetail, b.hbmUe u part 0 0)
  | .error (.held _) => (stBUSY, 2, b)
  | .error (.need _ _) => (stBADPARAM, 0x18, b)
  | .ok (s, _) => match kvClose s n e { b := b, y := 0, d := d } with
    | .ok (st, k) => if st = 0 then (stOK, 0, k.b) else (st, if st = stBADPARAM then 0x20 else openDet, b)
    | .error _ => (stBADPARAM, 0x18, b)

/-- KV_APPEND starts at a Bay's engine. -/
def execKvAppend (bay queue : Nat) (s : State) : Host.Outcome State Fault Refusal :=
  s.updIf (bay < nBays && queue < 17) fun b => b.descStart bay queue (fun d => d.op == 0x10) fun b d => b.kvGo bay d
/-- KV_GATHER starts at a Bay's engine. -/
def execKvGather (bay queue : Nat) (s : State) : Host.Outcome State Fault Refusal :=
  s.updIf (bay < nBays && queue < 17) fun b => b.descStart bay queue (fun d => d.op == 0x11) fun b d => b.kvGo bay d
/-- KV_FOLD starts at a Bay's engine. -/
def execKvFold (bay queue : Nat) (s : State) : Host.Outcome State Fault Refusal :=
  s.updIf (bay < nBays && queue < 17) fun b => b.descStart bay queue (fun d => d.op == 0x12) fun b d => b.kvGo bay d
/-- KV_COMMIT starts at a Bay's engine. -/
def execKvCommit (bay queue : Nat) (s : State) : Host.Outcome State Fault Refusal :=
  s.updIf (bay < nBays && queue < 17) fun b => b.descStart bay queue (fun d => d.op == 0x13) fun b d => b.kvGo bay d
/-- KV_SHARE starts at a Bay's engine. -/
def execKvShare (bay queue : Nat) (s : State) : Host.Outcome State Fault Refusal :=
  s.updIf (bay < nBays && queue < 17) fun b => b.descStart bay queue (fun d => d.op == 0x14) fun b d => b.kvGo bay d

end Sys2Proof.Machine
end

