-- ==== Sys2Proof/Machine/Ex.lean ====
section
/-! DEFINITION. Expert routing: placement, EX_ROUTE, EX_PACK, EX_COLLATE, EX_GROUP and EX_COMBINE (R294 to R320). -/
namespace Sys2Proof.Machine

/-! ### Placement (R296, R297) -/

/-- The 4-byte little-endian words of a list of bytes. -/
def wordsLe : List Byte → List Nat
  | a :: b :: c :: d :: r => leNat [a, b, c, d] :: wordsLe r
  | _ => []
/-- The 4,096 entries in force for a step at a placement table. -/
def exPlacement (plc step : Nat) : K (List Nat) := do
  kCheck (plc % 8 == 0)
  kArea plc 32776
  let h ← kNat plc 8
  kCheck (fld h 31 2 == 0)
  let c := if step < h / 2 ^ 32 then fld h 0 0 else fld h 1 1
  let v ← kReadL (plc + 8 + c * 16384) 16384
  let es := wordsLe v
  kCheck (es.all fun e => fld e 30 26 == 0)
  pure es
def plValid (e : Nat) : Bool := tbit e 31
def plDev (e : Nat) : Nat := fld e 13 0
def plBay (e : Nat) : Nat := fld e 21 14
def plCove (e : Nat) : Nat := fld e 25 22

/-! ### EX_ROUTE (R298 to R303) -/

/-- Does a score rank strictly above another (R299)? -/
def rankAbove (a b : Nat) : Bool :=
  match fp32 a, fp32 b with
  | .nan, _ => false
  | _, .nan => true
  | x, y => vLt y x
/-- An expert placed among ranked ones, after those it does not rank above. -/
def rankIns (s : List Nat) (e : Nat) : List Nat → List Nat
  | [] => [e]
  | x :: r => if rankAbove (nth s e 0) (nth s x 0) then e :: x :: r else x :: rankIns s e r
/-- Experts in rank order (R299). -/
def ranked (s : List Nat) : List Nat := (List.range s.length).foldl (fun l e => rankIns s e l) []
def isNan32 (c : Nat) : Bool := fp32 c == .nan

/-- The outcome of one choice (R300, R302). -/
structure Choice where
  expert : Nat
  dropped : Bool := false
  rerouted : Bool := false
  nan : Bool := false
  crank : Nat := 0
  deriving DecidableEq, Repr

/-- The first reserve candidate that qualifies: its rank. -/
def pickReserve (s rk : List Nat) (k rd : Nat) (taken : List Nat) (count limit : Nat → Nat) : Option Nat :=
  (List.range rd).find? fun i =>
    let e := nth rk (k + i) 0
    !isNan32 (nth s e 0) && !taken.contains e && count e < limit e
/-- One choice settled against the counts and what the token has taken (R300). -/
def settleChoice (s rk : List Nat) (k rd policy r : Nat) (taken : List Nat) (count limit : Nat → Nat) : Choice :=
  let e := nth rk r 0
  if isNan32 (nth s e 0) then { expert := e, dropped := true, nan := true, crank := r }
  else if count e < limit e then { expert := e, crank := r }
  else if policy = 0 then { expert := e, dropped := true, crank := r }
  else match pickReserve s rk k rd (taken ++ [e]) count limit with
    | some i => { expert := nth rk (k + i) 0, rerouted := true, crank := k + i }
    | none => { expert := e, dropped := true, crank := r }
/-- Every choice in rank-major order (R300): the outcomes by (rank, token), and the final counts. -/
def settleAll (ss : List (List Nat)) (k rd policy : Nat) (limit : Nat → Nat) : List ((Nat × Nat) × Choice) × List (Nat × Nat) :=
  let rks := ss.map ranked
  ((List.range k).flatMap fun r => (List.range ss.length).map fun t => (r, t)).foldl (fun acc p =>
    let taken := (acc.1.filter fun q => q.1.2 == p.2 && !q.2.dropped).map fun q => q.2.expert
    let c := settleChoice (nth ss p.2 []) (nth rks p.2 []) k rd policy p.1 taken (sget (fun _ => 0) acc.2) limit
    (acc.1 ++ [(p, c)], if c.dropped then acc.2 else sset (fun _ => 0) acc.2 c.expert (sget (fun _ => 0) acc.2 c.expert + 1))) ([], [])

/-- The weight 1/n in BF16 (R301). -/
def oneOver (n : Nat) : Nat := (roundFloatRat 0xB 0 0 false 1 n 0).1
/-- x_i of an element of S whose maximum is m (R301). -/
def softX (s m : Val) : Val := (vecFn 1 (r32 (vMul (r32 (vSub s m)).1 (fp32 0x3FB8AA3B))).1).1
/-- The largest of a nonempty list of scores without NaN. -/
def topScore : List Val → Val
  | [] => .inf true
  | x :: r => let m := topScore r; if vLt m x then x else m
/-- The BF16 weight of an accepted expert of a token (R301); acc its accepted experts in rising order. -/
def gateWeight (gate : Nat) (s acc : List Nat) (e : Nat) : Nat :=
  let v := fun (i : Nat) => fp32 (nth s i 0)
  if gate = 2 then (match v e with | .inf n => 0x7F7F + (if n then 0x8000 else 0) | x => toBf16 x)
  else
    let set := if gate = 0 then acc else (List.range s.length).filter fun i => !isNan32 (nth s i 0)
    let m := topScore (set.map v)
    match m with
    | .inf false => if v e = .inf false then oneOver (set.filter fun i => v i == .inf false).length else 0
    | .inf true => oneOver set.length
    | m =>
      let sum := (set.map fun i => softX (v i) m).foldl (fun a x => (r32 (vAdd a x)).1) (.fin 0 0)
      toBf16 (vDiv (softX (v e) m) sum).1
/-- A slot of a route record (R302). -/
def routeSlot (c : Choice) (w : Nat) : Nat :=
  c.expert + bnat c.dropped * 2 ^ 12 + bnat c.rerouted * 2 ^ 13 + bnat c.nan * 2 ^ 14 + w * 2 ^ 16 + c.crank * 2 ^ 32
/-- Insertion of a number into a rising list. -/
def insNat (x : Nat) : List Nat → List Nat
  | [] => [x]
  | y :: r => if x ≤ y then x :: y :: r else y :: insNat x r

/-- EX_ROUTE (R298 to R303). -/
def exRoute : K DescOut := do
  let w ← kParams 14
  let p := fun (i : Nat) => nth w i 0
  let t := p 2
  let e := p 3
  let k := p 4
  kCheck (p 0 < 2 ^ 32 && p 1 < 2 ^ 16 && t ≤ 65536 && 1 ≤ e && e ≤ 4096 && 1 ≤ k && k ≤ 8 && k ≤ e && p 5 ≤ 8 && p 6 ≤ 65535 &&
    p 7 ≤ 1 && p 8 ≤ 2 && p 10 % 4 == 0 && 4 * e ≤ p 10)
  if t = 0 then pure (0, 0, 0)
  else
    let rd := min (p 5) (e - k)
    kArea (p 9) ((t - 1) * p 10 + 4 * e)
    kArea (p 11) (t * 8 * k)
    kArea (p 12) (4 * e)
    let pl ← exPlacement (p 13) (p 0)
    let limit := fun (x : Nat) => if plValid (nth pl x 0) then p 6 else 0
    let ss ← (List.range t).mapM fun i => do
      let v ← kReadL (p 9 + i * p 10) (4 * e)
      pure ((List.range e).map fun j => leAt v (4 * j) 4)
    kCount 0x918 (ss.foldl (fun a s => a + (s.filter isNan32).length) 0)
    let r := settleAll ss k rd (p 7) limit
    (List.range t).forM fun i => do
      let mine := r.1.filter fun q => q.1.2 == i
      let acc := (mine.filter fun q => !q.2.dropped).foldl (fun l q => insNat q.2.expert l) []
      kWriteL (p 11 + i * 8 * k) (mine.flatMap fun q =>
        leBytes 8 (routeSlot q.2 (if q.2.dropped then 0 else gateWeight (p 8) (nth ss i []) acc q.2.expert)))
    kWriteL (p 12) ((List.range e).flatMap fun x => leBytes 4 (sget (fun _ => 0) r.2 x))
    let ok := (r.1.filter fun q => !q.2.dropped).length
    kCount 0x900 ok
    kCount 0x910 (r.1.filter fun q => q.2.rerouted).length
    kCount 0x908 (r.1.filter fun q => q.2.dropped).length
    pure (0, 0, ok)

/-! ### Segments and tags (R304, R305) -/

/-- A segment header's fields (R304). -/
structure ExSeg where
  src : Nat
  empty : Bool
  half : Nat
  dir : Nat
  step : Nat
  layer : Nat
  nr : Nat
  rows : Nat
  rslot : Nat
  bytes : Nat
  rb : Nat
  ok : Bool
  at_ : Nat := 0
  deriving DecidableEq, Repr

def exSlotBytes (rb : Nat) : Nat := cdiv (16 + rb) 64 * 64
def exRunBytes (nr : Nat) : Nat := cdiv (4 * nr) 64 * 64
/-- The header at an address, and whether its reserved fields are zero and its sizes agree with each other. -/
def exSegOf (v : List Byte) (a : Nat) : ExSeg :=
  let f := leAt v 2 1
  let nr := leAt v 0xA 2
  let rows := leAt v 0xC 4
  let rb := leAt v 0x18 4
  let sz := exSlotBytes rb
  { src := fld (leAt v 0 2) 13 0, empty := tbit f 0, half := fld f 1 1, dir := fld f 2 2, step := leAt v 4 4, layer := leAt v 8 2,
    nr := nr, rows := rows, rslot := leAt v 0x10 4, bytes := leAt v 0x14 4, rb := rb, at_ := a,
    ok := leAt v 0 2 < 2 ^ 14 && f < 8 && leAt v 3 1 == 0 && leAt v 0x1C 36 == 0 && nr ≤ 4096 && leAt v 0x10 4 == sz &&
      leAt v 0x14 4 == 64 + exRunBytes nr + rows * sz && (!tbit f 0 || (nr == 0 && rows == 0)) }
/-- A header written (R304). -/
def exHeader (src half dir step layer nr rows rb : Nat) : List Byte :=
  let e := rows == 0
  leBytes 2 src ++ leBytes 1 (bnat e + 2 * half + 4 * dir) ++ zeros 1 ++ leBytes 4 step ++ leBytes 2 layer ++ leBytes 2 nr ++ leBytes 4 rows ++
  leBytes 4 (exSlotBytes rb) ++ leBytes 4 (64 + exRunBytes nr + rows * exSlotBytes rb) ++ leBytes 4 rb ++ zeros 36
/-- A token tag (R305). -/
structure ExTag where
  dev : Nat
  slot : Nat
  tok : Nat
  rank : Nat
  rerouted : Bool
  expert : Nat
  gate : Nat
  deriving DecidableEq, Repr
def ExTag.bytes (t : ExTag) : List Byte :=
  leBytes 2 t.dev ++ leBytes 2 t.slot ++ leBytes 4 t.tok ++ leBytes 1 t.rank ++ leBytes 1 (bnat t.rerouted) ++ leBytes 2 t.expert ++
  leBytes 2 t.gate ++ zeros 2
def exTagOf (v : List Byte) : ExTag :=
  { dev := leAt v 0 2, slot := leAt v 2 2, tok := leAt v 4 4, rank := leAt v 8 1, rerouted := tbit (leAt v 9 1) 0, expert := leAt v 0xA 2,
    gate := leAt v 0xC 2 }
/-- Reserved bits of a tag are zero and its fields within their ranges (R295, R305). -/
def exTagOk (v : List Byte) : Bool :=
  leAt v 0 2 < 2 ^ 14 && leAt v 2 2 < 2 ^ 8 && leAt v 4 4 < 65536 && leAt v 8 1 < 8 && leAt v 9 1 < 2 && leAt v 0xA 2 < 2 ^ 12 && leAt v 0xE 2 == 0
/-- A row slot. -/
def exRow (tag payload : List Byte) (rb : Nat) : List Byte := tag ++ bytesAt payload 0 rb ++ zeros (exSlotBytes rb - 16 - rb)

/-- The member ids of an exchange (R306). -/
def exMembers (a nm : Nat) : K (List Nat) := do
  kArea a (2 * nm)
  let v ← kReadL a (2 * nm)
  let l := (List.range nm).map fun i => leAt v (2 * i) 2
  kCheck (l.all fun x => x < 2 ^ 14)
  pure l
/-- Segments written back to back with their sizes; each marker counts (R306, R308). -/
def exWriteSegs (segs : List (List Byte)) (out cap sizes rows : Nat) (empties : Nat) : K DescOut := do
  let total := segs.foldl (fun a s => a + s.length) 0
  kCheck (total ≤ cap)
  kArea out total
  kArea sizes (4 * segs.length)
  let _ ← segs.foldlM (fun a s => do
    kWriteL a s
    pure (a + s.length)) out
  kWriteL sizes (segs.flatMap fun s => leBytes 4 s.length)
  kCount 0x920 rows
  kCount 0x928 empties
  pure (0, 0, rows)

/-- A row to be packed: its member, its expert, its place, its tag and payload. -/
structure ExOut where
  member : Nat
  expert : Nat
  tok : Nat
  rank : Nat
  tag : List Byte
  payload : List Byte
  deriving DecidableEq, Repr

/-- Insertion of a row by (expert, token, rank) for a forward pack and (token, rank) for a return. -/
def exIns (fwd : Bool) (x : ExOut) : List ExOut → List ExOut
  | [] => [x]
  | y :: r =>
    let less := (fwd && x.expert < y.expert) || ((!fwd || x.expert == y.expert) && (x.tok < y.tok || (x.tok == y.tok && x.rank < y.rank)))
    if less then x :: y :: r else y :: exIns fwd x r
/-- A member's segment from its rows in order. -/
def exSegment (me half dir step layer rb : Nat) (rows : List ExOut) : List Byte :=
  let es := (rows.map fun x => x.expert).eraseDups
  let runs := if dir = 1 then [] else es.flatMap fun e => leBytes 4 (e + (rows.filter fun x => x.expert == e).length * 4096)
  let nr := if dir = 1 then 0 else es.length
  exHeader me half dir step layer nr rows.length rb ++ runs ++ zeros (exRunBytes nr - runs.length) ++ rows.flatMap fun x => exRow x.tag x.payload rb
/-- The place of a device in a member list. -/
def memberIdx (ms : List Nat) (d : Nat) : Option Nat := firstIdx (fun m => m == d) ms 0

/-- Common parameters of EX_PACK within their ranges: DIR, STEP, LAYER, HALF, NM. -/
def exPackOk (w : List Nat) : Bool :=
  nth w 0 0 ≤ 1 && nth w 1 0 < 2 ^ 32 && nth w 2 0 < 2 ^ 16 && nth w 3 0 ≤ 1 && 1 ≤ nth w 4 0 && nth w 4 0 ≤ 16384
/-- A forward EX_PACK (R306, R308). -/
def exPackForward : K DescOut := do
  let w ← kParams 18
  let p := fun (i : Nat) => nth w i 0
  let k := p 9
  kCheck (exPackOk w && 1 ≤ k && k ≤ 8 && p 10 ≤ p 11 && p 11 ≤ 65536 && p 15 < 2 ^ 32 && p 16 < 256)
  let ms ← exMembers (p 5) (p 4)
  let pl ← exPlacement (p 17) (p 1)
  let me := (← kGet).b.slice.devid
  let toks := (List.range (p 11 - p 10)).map fun i => p 10 + i
  kArea (p 12 + p 10 * 8 * k) (toks.length * 8 * k)
  let rows ← toks.foldlM (fun (acc : List ExOut) t => do
    let v ← kReadL (p 12 + t * 8 * k) (8 * k)
    let slots := (List.range k).map fun r => (r, leAt v (8 * r) 8)
    kCheck (slots.all fun s => !tbit s.2 15 && fld s.2 63 40 == 0)
    let taken := slots.filter fun s => !tbit s.2 12
    if taken.isEmpty then pure acc
    else
      kArea (p 13 + t * p 14) (p 15)
      let x ← kReadL (p 13 + t * p 14) (p 15)
      taken.foldlM (fun acc s => do
        let e := fld s.2 11 0
        let q := nth pl e 0
        match (if plValid q then memberIdx ms (plDev q) else none) with
        | none => kBad
        | some m =>
          let tag : ExTag := { dev := me, slot := p 16, tok := t, rank := s.1, rerouted := tbit s.2 13, expert := e, gate := fld s.2 31 16 }
          pure (acc ++ [{ member := m, expert := e, tok := t, rank := s.1, tag := tag.bytes, payload := x }])) acc) []
  let segs := (List.range (p 4)).map fun m =>
    exSegment me (p 3) 0 (p 1) (p 2) (p 15) ((rows.filter fun x => x.member == m).foldl (fun l x => exIns true x l) [])
  exWriteSegs segs (p 6) (p 7) (p 8) rows.length ((List.range (p 4)).filter fun m => rows.all fun x => x.member != m).length

/-! ### The group table (R311, R312) -/

/-- A group table's header fields (R312). -/
structure ExTab where
  at_ : Nat
  n : Nat
  rowtile : Nat
  capm : Nat
  astride : Nat
  ostride : Nat
  step : Nat
  layer : Nat
  half : Nat
  tags : Nat
  orb : Nat
  deriving DecidableEq, Repr
/-- An entry of it. -/
structure ExEnt where
  expert : Nat
  cove : Nat
  m : Nat
  act : Nat
  wbase : Nat
  outp : Nat
  first : Nat := 0
  deriving DecidableEq, Repr

/-- A group table read and checked: its header and its entries, each with the rows before it. -/
def exTable (gt : Nat) : K (ExTab × List ExEnt) := do
  kCheck (gt % 64 == 0)
  kArea gt 64
  let h ← kReadL gt 64
  let n := leAt h 0 2
  let t : ExTab := { at_ := gt, n := n, rowtile := leAt h 2 2, capm := leAt h 4 4, astride := leAt h 8 4, ostride := leAt h 0xC 4,
                     step := leAt h 0x10 4, layer := leAt h 0x14 2, half := leAt h 0x16 1, tags := leAt h 0x18 8, orb := leAt h 0x20 4 }
  kCheck (n ≤ 4096 && 1 ≤ t.rowtile && t.rowtile ≤ 1024 && 1 ≤ t.capm && t.capm ≤ 1048576 && t.half ≤ 1 && leAt h 0x17 1 == 0 && leAt h 0x24 28 == 0)
  kArea (gt + 64) (32 * n)
  let v ← kReadL (gt + 64) (32 * n)
  kCheck ((List.range n).all fun i => leAt v (32 * i) 2 < 2 ^ 12 && leAt v (32 * i + 2) 1 < 16 && leAt v (32 * i + 3) 1 ≤ 2 && leAt v (32 * i + 4) 4 ≤ t.capm)
  let es := ((List.range n).foldl (fun (acc : List ExEnt × Nat) i =>
    let e : ExEnt := { expert := leAt v (32 * i) 2, cove := leAt v (32 * i + 2) 1, m := leAt v (32 * i + 4) 4, act := leAt v (32 * i + 8) 8,
                       wbase := leAt v (32 * i + 16) 8, outp := leAt v (32 * i + 24) 8, first := acc.2 }
    (acc.1 ++ [e], acc.2 + e.m)) ([], 0)).1
  pure (t, es)
/-- A return EX_PACK (R307, R308). -/
def exPackReturn : K DescOut := do
  let w ← kParams 10
  let p := fun (i : Nat) => nth w i 0
  kCheck (exPackOk w)
  let ms ← exMembers (p 5) (p 4)
  let me := (← kGet).b.slice.devid
  let (t, es) ← exTable (p 9)
  let rows ← es.foldlM (fun (acc : List ExOut) e => do
    kArea (t.tags + e.first * 16) (e.m * 16)
    (List.range e.m).foldlM (fun acc j => do
      let tag ← kReadL (t.tags + (e.first + j) * 16) 16
      kCheck (exTagOk tag)
      kArea (e.outp + j * t.ostride) t.orb
      let x ← kReadL (e.outp + j * t.ostride) t.orb
      let g := exTagOf tag
      match memberIdx ms g.dev with
      | none => kBad
      | some m => pure (acc ++ [{ member := m, expert := g.expert, tok := g.tok, rank := g.rank, tag := tag, payload := x }])) acc) []
  let segs := (List.range (p 4)).map fun m =>
    exSegment me t.half 1 (p 1) (p 2) t.orb ((rows.filter fun x => x.member == m).foldl (fun l x => exIns false x l) [])
  exWriteSegs segs (p 6) (p 7) (p 8) rows.length ((List.range (p 4)).filter fun m => rows.all fun x => x.member != m).length

/-- The received segments of an exchange, one by one (R310, R311): each failing check names the member in PROGRESS. -/
def exReceive (rbuf sizes nm step layer half dir : Nat) : K (List ExSeg) := do
  kArea sizes (4 * nm)
  let sv ← kReadL sizes (4 * nm)
  let r ← (List.range nm).foldlM (fun (acc : List ExSeg × Nat) i => do
    let sz := leAt sv (4 * i) 4
    kCheck (64 ≤ sz) i
    kArea (rbuf + acc.2) sz i
    let h ← kReadL (rbuf + acc.2) 64
    let s := exSegOf h (rbuf + acc.2)
    kCheck (s.ok && s.bytes == sz && s.step == step && s.layer == layer && s.half == half && s.dir == dir) i
    pure (acc.1 ++ [s], acc.2 + sz)) ([], 0)
  pure r.1
/-- The runs of a segment as (expert, rows). -/
def exRuns (s : ExSeg) : K (List (Nat × Nat)) := do
  let v ← kReadL (s.at_ + 64) (exRunBytes s.nr)
  pure ((List.range s.nr).map fun i => (leAt v (4 * i) 4 % 4096, leAt v (4 * i) 4 / 4096))
/-- The rows of a segment by expert: (expert, address of the slot), in segment order. -/
def exSegRows (s : ExSeg) (runs : List (Nat × Nat)) : List (Nat × Nat) :=
  (runs.foldl (fun (acc : List (Nat × Nat) × Nat) r =>
    (acc.1 ++ (List.range r.2).map (fun i => (r.1, s.at_ + 64 + exRunBytes s.nr + (acc.2 + i) * s.rslot)), acc.2 + r.2)) ([], 0)).1

/-- EX_COLLATE (R311, R312). -/
def exCollate : K DescOut := do
  let w ← kParams 18
  let p := fun (i : Nat) => nth w i 0
  kCheck (p 0 < 2 ^ 32 && p 1 < 2 ^ 16 && p 2 ≤ 1 && 1 ≤ p 3 && p 3 ≤ 16384 && p 12 < 2 ^ 32 && p 13 < 2 ^ 32 && p 14 < 2 ^ 32 &&
    1 ≤ p 15 && p 15 ≤ 1024 && 1 ≤ p 16 && p 16 ≤ 1048576 && p 17 % 64 == 0)
  let k ← kGet
  let me := k.b.slice.devid
  let pl ← exPlacement (p 6) (p 0)
  let segs ← exReceive (p 4) (p 5) (p 3) (p 0) (p 1) (p 2) 0
  let rb := match segs.find? fun s => s.rows != 0 with | some s => s.rb | none => 0
  let rows ← segs.zipIdx.foldlM (fun (acc : List (Nat × Nat)) q => do
    let runs ← exRuns q.1
    kCheck (runs.foldl (fun a r => a + r.2) 0 == q.1.rows && (q.1.rows == 0 || (q.1.rb == rb && q.1.rb ≤ p 12))) q.2
    pure (acc ++ exSegRows q.1 runs)) []
  let here := fun (e : Nat) => let x := nth pl e 0; plValid x && plDev x == me
  let mine := (List.range 4096).filter fun e => here e && plBay (nth pl e 0) == k.y
  let per := mine.map fun e => (e, rows.filter fun r => r.1 == e)
  let total := per.foldl (fun a q => a + q.2.length) 0
  kCheck (total ≤ p 9 && per.all fun q => q.2.length ≤ p 16)
  kArea (p 8) (total * p 12)
  kArea (p 10) (total * 16)
  kArea (p 11) (total * p 13)
  kArea (p 17) (64 + 32 * mine.length)
  kWriteL (p 17) (leBytes 2 mine.length ++ leBytes 2 (p 15) ++ leBytes 4 (p 16) ++ leBytes 4 (p 12) ++ leBytes 4 (p 13) ++ leBytes 4 (p 0) ++
    leBytes 2 (p 1) ++ leBytes 1 (p 2) ++ zeros 1 ++ leBytes 8 (p 10) ++ leBytes 4 (p 14) ++ zeros 28)
  let _ ← per.foldlM (fun (acc : Nat × Nat) q => do
    kArea (p 7 + 8 * q.1) 8
    let wb ← kNat (p 7 + 8 * q.1) 8
    q.2.zipIdx.forM fun r => do
      let v ← kReadL r.1.2 (16 + rb)
      kWriteL (p 10 + (acc.2 + r.2) * 16) (v.take 16)
      kWriteL (p 8 + (acc.2 + r.2) * p 12) (v.drop 16)
    kWriteL (p 17 + 64 + 32 * acc.1) (leBytes 2 q.1 ++ leBytes 1 (plCove (nth pl q.1 0)) ++ zeros 1 ++ leBytes 4 q.2.length ++
      leBytes 8 (p 8 + acc.2 * p 12) ++ leBytes 8 wb ++ leBytes 8 (p 11 + acc.2 * p 13))
    pure (acc.1 + 1, acc.2 + q.2.length)) ((0, 0) : Nat × Nat)
  kCount 0x930 (rows.filter fun r => !here r.1).length
  pure (0, 0, mine.length)

/-! ### EX_GROUP (R313, R314) -/

/-- One work record (R314). -/
def exRecord (t : ExTab) (e : ExEnt) (i j q : Nat) : List Byte :=
  let m := min t.rowtile (e.m - j * t.rowtile)
  leBytes 2 e.expert ++ leBytes 1 (bnat (m == 0) + 2 * bnat (j == 0) + 4 * bnat (j + 1 == q)) ++ zeros 1 ++ leBytes 4 m ++ leBytes 4 i ++ leBytes 4 j ++
  leBytes 8 (e.act + j * t.rowtile * t.astride) ++ leBytes 8 e.wbase ++ leBytes 8 (e.outp + j * t.rowtile * t.ostride) ++
  leBytes 8 (t.tags + (e.first + j * t.rowtile) * 16) ++ zeros 16
def exGroup : K DescOut := do
  let w ← kParams 3
  let k ← kGet
  let (t, es) ← exTable (nth w 0 0)
  if t.n = 0 then pure (0, 0, 0)
  else
    let q := cdiv t.capm t.rowtile
    let mine := es.zipIdx.filter fun e => e.1.cove == k.d.cove % 16
    let size := 64 * q * mine.length
    kCheck (size ≤ nth w 2 0)
    kOwn (nth w 1 0) size
    mine.zipIdx.forM fun x => do
      kWriteL (nth w 1 0 + 64 * q * x.2) ((List.range q).flatMap fun j => exRecord t x.1.1 x.1.2 j q)
      kWriteL (t.at_ + 64 + 32 * x.1.2 + 3) (leBytes 1 (if x.1.1.m = 0 then 2 else 1))
    kCount 0x938 mine.length
    kCount 0x940 (mine.filter fun x => x.1.m == 0).length
    pure (0, 0, mine.length)

/-! ### EX_COMBINE (R316, R317) -/

/-- The contribution of a value and a gate weight: exact, or INF (R317). -/
def exTerm (y g : Val) : Upd :=
  match y, g with
  | .fin m e, .fin n f => .exact_ (m * n) (e + f) false
  | _, _ => .exact_ 0 0 true
/-- One update of the Bay's BAB in EXACT128: did the entry become INF? -/
def exBab (anchor off : Nat) (u : Upd) : K Bool := fun k =>
  let y := k.b.bay k.y
  .ok ((applyUpd 2 anchor (leNat (y.babRead off 16)) u).2.2, { k with b := k.b.setBay k.y (y.babUpdate 2 anchor off u) })
def exCombine : K DescOut := do
  let w ← kParams 14
  let p := fun (i : Nat) => nth w i 0
  let k ← kGet
  let me := k.b.slice.devid
  let size := if p 6 = 0 then 4 else 2
  kCheck (p 0 < 2 ^ 32 && p 1 < 2 ^ 16 && p 2 ≤ 1 && 1 ≤ p 3 && p 3 ≤ 16384 && p 6 ≤ 1 && p 13 < 256 && p 12 % 16 == 0 &&
    p 12 + p 9 * p 11 * 16 ≤ 262144 && p 10 + p 11 ≤ p 7 && p 7 * size < 2 ^ 32)
  let cells := p 9 * p 11
  let bs := if cells = 0 then [] else (List.range ((p 12 + cells * 16 - 1) / 8192 + 1 - p 12 / 8192)).map fun i => p 12 / 8192 + i
  kCheck (bs.all fun s => ((k.b.bay k.y).babTag s).is 2 (p 13))
  let segs ← exReceive (p 4) (p 5) (p 3) (p 0) (p 1) (p 2) 1
  segs.zipIdx.forM fun s => kCheck (s.1.rb == p 7 * size && s.1.nr == 0) s.2
  let slots := segs.flatMap fun s => (List.range s.rows).map fun i => s.at_ + 64 + i * s.rslot
  let r ← slots.foldlM (fun (acc : Nat × Nat × Nat) a => do
    let tv ← kReadL a 16
    kCheck (exTagOk tv)
    let t := exTagOf tv
    if t.dev != me || t.slot != k.y then pure (acc.1, acc.2.1, acc.2.2 + 1)
    else if t.tok < p 8 || p 8 + p 9 ≤ t.tok then pure acc
    else
      let v ← kReadL (a + 16 + p 10 * size) (p 11 * size)
      let q ← (List.range (p 11)).foldlM (fun n i => do
        let raw := leAt v (i * size) size
        let inf ← exBab (p 13) (p 12 + ((t.tok - p 8) * p 11 + i) * 16) (exTerm (if p 6 = 0 then fp32 raw else bf16 raw) (bf16 t.gate))
        pure (n + bnat inf)) acc.2.1
      pure (acc.1 + p 11, q, acc.2.2)) (0, 0, 0)
  kCount 0x930 r.2.2
  kCount 0x948 r.1
  pure (if 0 < r.2.1 then (stINF, min r.2.1 0xFFFF, r.1) else (0, 0, r.1))

/-! ### Starting -/

/-- DIR of an EX_PACK, the first word of its parameter block, as the sequencer of the engine sees it. -/
def Blk.packDir (b : Blk) (d : Desc) : Nat := leNat (b.memRead d.part d.src 1) % 2
/-- The operation of an expert descriptor. -/
def exOp (op dir : Nat) : K DescOut :=
  if op = 0x18 then exRoute else if op = 0x19 then (if dir = 0 then exPackForward else exPackReturn)
  else if op = 0x1A then exCollate else if op = 0x1B then exGroup else exCombine
/-- An expert descriptor starts (R294, R368); EX_COMBINE takes the Bay's BAB engine (R317). -/
def Blk.exGo (b : Blk) (y : Nat) (d : Desc) : Blk :=
  match d.fieldFault with
  | some o => b.descEnd y d (descBad o)
  | none =>
    let b1 := b.opRun y d (exOp d.op (b.packDir d))
    if d.op = 0x1C then b1.setBay y ((b1.bay y).setEngine 1 { (b1.bay y).engine 1 with busy := some (4096 + d.cove), last := d.cove % 16 }) else b1

/-- EX_ROUTE starts at a Bay's engine. -/
def execExRoute (bay queue : Nat) (s : State) : Host.Outcome State Fault Refusal :=
  s.updIf (bay < nBays && queue < 17) fun b => b.descStart bay queue (fun d => d.op == 0x18) fun b d => b.exGo bay d
/-- EX_PACK with DIR 0 starts. -/
def execExPackForward (bay queue : Nat) (s : State) : Host.Outcome State Fault Refusal :=
  s.updIf (bay < nBays && queue < 17) fun b =>
    b.descStart bay queue (fun d => d.op == 0x19 && b.packDir d == 0) fun b d => b.exGo bay d
/-- EX_PACK with DIR 1 starts. -/
def execExPackReturn (bay queue : Nat) (s : State) : Host.Outcome State Fault Refusal :=
  s.updIf (bay < nBays && queue < 17) fun b =>
    b.descStart bay queue (fun d => d.op == 0x19 && b.packDir d == 1) fun b d => b.exGo bay d
/-- EX_COLLATE starts. -/
def execExCollate (bay queue : Nat) (s : State) : Host.Outcome State Fault Refusal :=
  s.updIf (bay < nBays && queue < 17) fun b => b.descStart bay queue (fun d => d.op == 0x1A) fun b d => b.exGo bay d
/-- EX_GROUP starts. -/
def execExGroup (bay queue : Nat) (s : State) : Host.Outcome State Fault Refusal :=
  s.updIf (bay < nBays && queue < 17) fun b => b.descStart bay queue (fun d => d.op == 0x1B) fun b d => b.exGo bay d
/-- EX_COMBINE starts once the Bay's BAB engine is free (R317). -/
def execExCombine (bay queue : Nat) (s : State) : Host.Outcome State Fault Refusal :=
  s.updIf (bay < nBays && queue < 17) fun b =>
    b.descStart bay queue (fun d => d.op == 0x1C && ((b.bay bay).engine 1).busy.isNone) fun b d => b.exGo bay d

end Sys2Proof.Machine
end

