-- ==== Sys2Proof/Machine/Regs.lean ====
section
/-! DEFINITION. Configuration space: which words exist and which of their bits are reserved, what a word reads as, and what a
write does (R14, R15, R62 to R64, R67, R91, R118, R119, R146, R153, R154, R197, R200 to R228, R262, R263, R319, R385, R418,
R451, R477, R495, R513, R530). -/
namespace Sys2Proof.Machine

/-! ### The map (R62) -/

/-- The block of an offset in configuration space, its unit and the offset in it: 0 DV, 1 LH, 2 HL, 3 MC, 4 LK, 5 SW, 6 BY,
7 CV; 8 where the map has no block. -/
def cfgWhere (off : Nat) : Nat × Nat × Nat :=
  if off < 0x10000 then (0, 0, off)
  else if off < 0x20000 then (1, 0, off - 0x10000)
  else if 0x100000 ≤ off && off < 0x200000 then (2, (off - 0x100000) / 0x10000, off % 0x10000)
  else if 0x200000 ≤ off && off < 0x300000 then (3, (off - 0x200000) / 0x10000, off % 0x10000)
  else if 0x300000 ≤ off && off < 0x480000 then (4, (off - 0x300000) / 0x10000, off % 0x10000)
  else if 0x500000 ≤ off && off < 0x600000 then (5, (off - 0x500000) / 0x10000, off % 0x10000)
  else if 0x1000000 ≤ off && off < 0x2000000 then (6, (off - 0x1000000) / 0x10000, off % 0x10000)
  else if 0x4000000 ≤ off && off < 0x8000000 then (7, (off - 0x4000000) / 0x4000, off % 0x4000)
  else (8, 0, 0)

/-- A row of a register table: block, first offset, how many words and how far apart, and the bits that are not reserved. -/
structure RegRow where
  blk : Nat
  base : Nat
  count : Nat := 1
  stride : Nat := 8
  named : Nat := 2 ^ 64 - 1
  deriving DecidableEq, Repr

/-- Bits [hi:lo] as a mask. -/
def bitsMask (hi lo : Nat) : Nat := 2 ^ (hi + 1) - 2 ^ lo

def regRowsDv : List RegRow :=
  [{ blk := 0, base := 0x000, named := bitsMask 55 0 }, { blk := 0, base := 0x008 },
   { blk := 0, base := 0x100, count := 2, stride := 64, named := 0x1F }, { blk := 0, base := 0x108, count := 2, stride := 64 },
   { blk := 0, base := 0x110, count := 2, stride := 64 }, { blk := 0, base := 0x118, count := 2, stride := 64 },
   { blk := 0, base := 0x120, count := 2, stride := 64 }, { blk := 0, base := 0x128, count := 2, stride := 64 },
   { blk := 0, base := 0x130, count := 2, stride := 64 }, { blk := 0, base := 0x138, count := 2, stride := 64, named := 0 },
   { blk := 0, base := 0x400, named := 1 }, { blk := 0, base := 0x800, named := bitsMask 17 0 + bitsMask 63 32 },
   { blk := 0, base := 0x808, named := bitsMask 16 0 + bitsMask 45 32 }, { blk := 0, base := 0x810, named := bitsMask 23 0 },
   { blk := 0, base := 0x818, count := 3 }, { blk := 0, base := 0x900 },
   { blk := 0, base := 0x908, named := 0x1F + bitsMask 31 16 }, { blk := 0, base := 0x910, count := 2 }] ++
  [{ blk := 0, base := 0xA00, named := bitsMask 33 0 }, { blk := 0, base := 0xA08 }, { blk := 0, base := 0xA40, count := 4 },
   { blk := 0, base := 0xC00, named := 0xF + bitsMask 31 16 }, { blk := 0, base := 0xC08, named := bitsMask 35 0 },
   { blk := 0, base := 0xC10 }, { blk := 0, base := 0xC38 }, { blk := 0, base := 0xC40, count := 6 },
   { blk := 0, base := 0xD00, count := 16, named := 7 + bitsMask 43 16 }, { blk := 0, base := 0xD80, named := 3 },
   { blk := 0, base := 0xE00, named := bitsMask 31 0 }, { blk := 0, base := 0xE08, named := 1 + bitsMask 63 32 },
   { blk := 0, base := 0xE10, count := 4 }, { blk := 0, base := 0xE30, count := 2 }] ++
  [{ blk := 0, base := 0xF00, named := bitsMask 20 0 }, { blk := 0, base := 0xF08 }, { blk := 0, base := 0xF10, named := 0xE0F },
   { blk := 0, base := 0xF18, named := 0x7F }, { blk := 0, base := 0xF20, named := bitsMask 47 0 },
   { blk := 0, base := 0x1000, count := 256 }, { blk := 0, base := 0x1800, count := 144, named := 0x3F3F3F3F3F3F3F3F },
   { blk := 0, base := 0x4000, count := 128, stride := 64, named := 7 + bitsMask 46 16 + bitsMask 58 48 },
   { blk := 0, base := 0x4008, count := 128, stride := 64 },
   { blk := 0, base := 0x4010, count := 128, stride := 64, named := bitsMask 13 0 + bitsMask 63 32 }]
def regRowsMid : List RegRow :=
  [{ blk := 1, base := 0, named := bitsMask 41 0 }, { blk := 1, base := 8 },
   { blk := 2, base := 0x1000, count := 64, named := bitsMask 12 0 + bitsMask 31 16 }, { blk := 2, base := 0x2000, count := 1024 },
   { blk := 3, base := 0, named := 7 + bitsMask 23 8 }, { blk := 3, base := 8, count := 7 }, { blk := 3, base := 0x40, named := bitsMask 40 0 },
   { blk := 3, base := 0x48, named := bitsMask 31 0 },
   { blk := 4, base := 0, named := 3 + bitsMask 15 8 }, { blk := 4, base := 8, named := 7 + bitsMask 20 4 }, { blk := 4, base := 0x10 },
   { blk := 4, base := 0x18, named := bitsMask 18 0 + bitsMask 63 32 }, { blk := 4, base := 0x20, named := bitsMask 23 0 },
   { blk := 4, base := 0x40, count := 10 }, { blk := 4, base := 0xC0, count := 9 }] ++
  [{ blk := 5, base := 0, count := 256, stride := 64 },
   { blk := 5, base := 8, count := 256, stride := 64, named := 3 + bitsMask 15 8 + bitsMask 63 32 },
   { blk := 5, base := 0x10, count := 256, stride := 64 }, { blk := 5, base := 0x18, count := 256, stride := 64 },
   { blk := 5, base := 0x20, count := 256, stride := 64, named := bitsMask 40 0 },
   { blk := 5, base := 0x28, count := 256, stride := 64, named := bitsMask 38 0 }, { blk := 5, base := 0x30, count := 256, stride := 64 },
   { blk := 5, base := 0x38, count := 256, stride := 64, named := 0 }]
def regRowsBy : List RegRow :=
  [{ blk := 6, base := 0, count := 12 }, { blk := 6, base := 0x60, named := bitsMask 25 0 }, { blk := 6, base := 0x80, count := 16 },
   { blk := 6, base := 0x100, count := 16, stride := 32, named := bitsMask 25 12 + bitsMask 51 32 },
   { blk := 6, base := 0x108, count := 16, stride := 32 }, { blk := 6, base := 0x110, count := 16, stride := 32, named := bitsMask 39 0 },
   { blk := 6, base := 0x118, count := 16, stride := 32, named := bitsMask 60 0 }, { blk := 6, base := 0x300, count := 32, named := bitsMask 12 0 },
   { blk := 6, base := 0x400, count := 16, named := bitsMask 12 0 + bitsMask 46 32 }, { blk := 6, base := 0x800, count := 11 },
   { blk := 6, base := 0x900, count := 10 }, { blk := 6, base := 0xA00, named := bitsMask 14 0 }, { blk := 6, base := 0xA08, count := 8 },
   { blk := 6, base := 0xC00, count := 256, named := bitsMask 16 0 + bitsMask 63 32 }, { blk := 6, base := 0x1800, named := bitsMask 59 0 },
   { blk := 6, base := 0x1808, named := bitsMask 19 0 }, { blk := 6, base := 0x1810, named := bitsMask 16 0 }]
def regRowsCv : List RegRow :=
  [{ blk := 7, base := 0, named := 7 + bitsMask 25 16 + bitsMask 42 32 }, { blk := 7, base := 8, named := bitsMask 41 0 + bitsMask 63 48 },
   { blk := 7, base := 0x10, named := 0xFF }, { blk := 7, base := 0x18, count := 5 }, { blk := 7, base := 0x100, count := 32 },
   { blk := 7, base := 0x1000, named := 1 }, { blk := 7, base := 0x1008, named := 0x7F + bitsMask 10 8 + bitsMask 36 12 },
   { blk := 7, base := 0x1010, count := 9 }, { blk := 7, base := 0x1800, count := 5 }, { blk := 7, base := 0x1840, count := 7 },
   { blk := 7, base := 0x1878, named := bitsMask 17 0 + bitsMask 47 32 }, { blk := 7, base := 0x1880, named := bitsMask 31 0 },
   { blk := 7, base := 0x2000, count := 256, named := 0x0FF70FF70FF70FF7 }, { blk := 7, base := 0x3000 }, { blk := 7, base := 0x3008, named := 1 },
   { blk := 7, base := 0x3100, count := 32 }, { blk := 7, base := 0x3200, count := 64, named := bitsMask 16 0 + bitsMask 63 32 }] ++
  [{ blk := 7, base := 0x3400, count := 64, named := bitsMask 18 0 + bitsMask 44 20 }, { blk := 7, base := 0x3800, named := 0xF },
   { blk := 7, base := 0x3808, named := bitsMask 31 0 }, { blk := 7, base := 0x3810, count := 6 }, { blk := 7, base := 0x3880, count := 16 },
   { blk := 7, base := 0x3900, count := 16, stride := 16, named := bitsMask 53 0 }, { blk := 7, base := 0x3908, count := 16, stride := 16 },
   { blk := 7, base := 0x3A00, count := 64, stride := 16, named := bitsMask 51 0 },
   { blk := 7, base := 0x3A08, count := 64, stride := 16, named := bitsMask 56 0 }, { blk := 7, base := 0x3E00, count := 2 }]
def regRowsOf (blk : Nat) : List RegRow :=
  if blk = 0 then regRowsDv else if blk = 6 then regRowsBy else if blk = 7 then regRowsCv else regRowsMid
/-- The row of the word at an offset of a block. -/
def regRow (blk o : Nat) : Option RegRow :=
  (regRowsOf blk).find? fun r => r.blk == blk && r.base ≤ o && o < r.base + r.count * r.stride && (o - r.base) % r.stride == 0
/-- Is there a word at an offset of configuration space? -/
def cfgMapped (off : Nat) : Bool := let w := cfgWhere off; (regRow w.1 w.2.2).isSome
/-- The first reserved bit that a written value sets, as the bit where its reserved field begins (R14, R60). -/
def reservedAt (named v : Nat) : Option Nat :=
  match (List.range 64).find? fun i => tbit v i && !tbit named i with
  | none => none
  | some i => some ((List.range (i + 1)).foldl (fun lo j => if tbit named j then j + 1 else lo) 0)

/-! ### Reading -/

def b1 (x : Bool) (i : Nat) : Nat := bnat x * 2 ^ i
/-- A counter whose amount is timing or a physical event that no command of the table reports: what it holds beside those is
free (log entries 3 and 4). -/
def timedWord (blk o : Nat) : Bool :=
  (blk == 0 && ([0x120, 0x128, 0x160, 0x168, 0xC38, 0xE30, 0xE38, 0xF08].contains o || (0xC40 ≤ o && o < 0xC70))) ||
  (blk == 3 && (o == 0x30 || o == 0x38)) || (blk == 4 && (o == 0x40 || o == 0x48 || (0xC0 ≤ o && o < 0x108))) ||
  (blk == 6 && [0x0, 0x8, 0x38].contains o) ||
  (blk == 7 && ([0x28, 0x1028, 0x1030, 0x1038, 0x1048, 0x3838, 0x3E00, 0x3E08].contains o || (0x3880 ≤ o && o < 0x3900)))

def dvId : Nat := 0x000003B00B334C58
/-- The Coves of no partition and every partition are in SLACK (R477). -/
def Blk.allSlack (b : Blk) : Bool := b.dev.slack && (List.range nParts).all fun p => (b.part p).st == 0 || (b.part p).slack
/-- A change of power state or a reset is in progress (R477). -/
def Blk.changing (b : Blk) : Bool :=
  b.dev.changing != 0 || b.cores.lhReset.isSome || b.parts.any (fun p => p.2.isReset) || b.hbmStacks.any (fun k => k.2.retrain) ||
  b.coves.any (fun c => c.2.clearing) || b.links.any (fun l => l.2.cmdKind == 5 && l.2.cmd.isSome) ||
  b.host.cmds.any fun c => c.m.opcode == 0x800 && c.started
def popCount (n : Nat) : Nat → Nat
  | 0 => 0
  | k + 1 => bnat (tbit n k) + popCount n k
/-- The words of the DV_ block that are not held in cfg. -/
def Blk.dvWord (b : Blk) (o : Nat) : Option Nat :=
  let s := b.slice
  if o = 0 then some dvId
  else if o = 8 then some Config.serial.toNat
  else if o = 0x100 || o = 0x140 then let p := b.port ((o - 0x100) / 64); some (bnat p.up + p.lanes % 16 * 2)
  else if o = 0x138 || o = 0x178 then some 0
  else if o = 0x800 then some (s.devid % 2 ^ 14 + b1 s.joined 14 + b1 s.harbour 15 + s.fmode % 4 * 2 ^ 16 + s.sliceid % 2 ^ 32 * 2 ^ 32)
  else if o = 0x808 then some (s.dims % 2 ^ 17 + s.hmid % 2 ^ 14 * 2 ^ 32)
  else if o = 0x900 then some (b.tide % 2 ^ 64)
  else if o = 0x908 then some (b.sync.st + b.sync.parent * 4 + b.sync.offset % 2 ^ 16 * 2 ^ 16)
  else if o = 0x910 then some b.sync.pps
  else if o = 0xA00 then some (b.mode.change % 2 ^ 32 + b.mode.phase % 4 * 2 ^ 32)
  else if o = 0xA08 then some b.mode.epoch
  else if o = 0xC00 then
    some ((if 2 ≤ b.dev.power then b.dev.power else bnat b.allSlack) + b1 b.changing 2 + b1 b.board.mainOk 3 +
      (List.range nParts).foldl (fun a p => a + b1 (b.part p).slack (16 + p)) 0)
  else if o = 0xC08 then some (b.dev.lost % 2 ^ 32 + b.dev.lostKind % 16 * 2 ^ 32)
  else if o = 0xC10 then some b.fw.fwTide
  else if 0xD00 ≤ o && o < 0xD80 then
    let p := b.part ((o - 0xD00) / 8)
    some (p.st + p.hlmask % 2 ^ 16 * 2 ^ 16 + popCount (p.grans ||| p.leaving) 1152 * 2 ^ 32 + b1 p.dissolving 43)
  else if o = 0xD80 then some (bnat b.fw.certReady + b1 b.fw.idErased 1)
  else if o = 0xE08 then some (bnat b.dev.fatal + b.err.next % 2 ^ 32 * 2 ^ 32)
  else if o = 0xF00 then
    let hot := b.board.steps.foldl max 0
    let die := (firstIdx (fun t => t == b.board.dieTemp.foldl max (-300)) b.board.dieTemp 0).getD 0
    some (toTwos 16 b.board.tj + nth b.board.steps die 0 * 2 ^ 16 + b1 (0 < hot) 20)
  else if o = 0xF10 then some (bnat b.dev.fatal + b.board.alerts % 16 / 2 * 2 + b.cfgGet 0xF10 / 0x200 % 8 * 0x200)
  else if o = 0xF18 then
    some (Config.smbStraps % 8 + b1 b.board.trefOk 3 + b1 b.board.ppsSeen 4 + b1 b.board.lref0 5 + b1 b.board.lref1 6)
  else if o = 0xF20 then some (b.board.mainMv % 2 ^ 16 + b.board.mainI % 2 ^ 16 * 2 ^ 16 + b.board.auxMw % 2 ^ 16 * 2 ^ 32)
  else if 0x1000 ≤ o && o < 0x1800 then
    some ((List.range 64).foldl (fun a i => a + b1 (s.missing.contains ((o - 0x1000) * 8 + i)) i) 0)
  else if 0x1800 ≤ o && o < 0x1C80 then
    some ((List.range 8).foldl (fun a i =>
      let g := (o - 0x1800) + i
      a + ((match b.granOwner g with | some p => p + 16 | none => 0) + b1 (tbit b.zeroing g) 5) * 2 ^ (8 * i)) 0)
  else if 0x4000 ≤ o then
    let x := b.chan ((o - 0x4000) / 64)
    let w := o % 64
    some (if !x.opened then 0
      else if w = 0 then 1 + x.kind * 2 + b1 x.failed 2 + x.gen % 2 ^ 16 * 2 ^ 16 + x.members.length % 2 ^ 15 * 2 ^ 32 + x.parts.length % 2 ^ 11 * 2 ^ 48
      else if w = 8 then x.done % 2 ^ 32 + x.done % 2 ^ 32 * 2 ^ 32
      else x.self + x.buf % 2 ^ 32 * 2 ^ 32)
  else none

def TabSlot.word (t : TabSlot) : Nat := if t.st = 0 then 0 else t.st + t.table * 4 + t.gen * 256 + b1 t.hold 12 + t.refs % 2 ^ 16 * 2 ^ 16
/-- PPR_LEFT: the least that is left in a bank group of the stack (R385). -/
def Blk.pprLeft (b : Blk) (k pc g : Nat) : Nat :=
  Config.fusedPpr k pc g - ((b.stack k).repairs.filter fun r => r.1 / 32 == pc && Config.bankGroup (r.1 % 32) == g).length
def Blk.pprLeast (b : Blk) (k : Nat) : Nat :=
  (List.range 1024).foldl (fun m i => min m (b.pprLeft k (i / 32) (Config.bankGroup (i % 32)))) 65535
def ScTag.word (t : ScTag) : Nat := bnat t.valid + t.dom * 2 + t.anchor * 8 + b1 t.inexact 11 + b1 t.inf 12
def Cred.word (k : Cred) : Nat := if k.valid then k.target + k.inbox * 2 ^ 12 + 2 ^ 16 + k.avail * 2 ^ 32 else 0
/-- The physical slot of a logical Cove of a Bay, and the slots retired (R513). -/
def Blk.coveSlot (b : Blk) (y i : Nat) : Nat := sget (fun i => Config.fusedSlot y i) (b.bay y).coveMap i
def Blk.retiredSlots (b : Blk) (y : Nat) : Nat := Nat.lor (Config.fusedRetired y) (b.bay y).retired
/-- Words of HL, MC, LK, LH and SW blocks not held in cfg. -/
def Blk.midWord (b : Blk) (blk u o : Nat) : Option Nat :=
  if blk = 1 then
    (if o = 0 then some ((List.range 8).foldl (fun a i => a + nth b.cores.map i 0 * 2 ^ (4 * i)) 0 + b.cores.retired % 1024 * 2 ^ 32) else none)
  else if blk = 2 then
    (if o < 0x2000 then some (b.tab u ((o - 0x1000) / 8)).word
     else
       let t := b.tab u ((o - 0x2000) / 128)
       some ((List.range 16).foldl (fun a j => a + nth t.lens (16 * (o / 8 % 16) + j) 0 * 2 ^ (4 * j)) 0))
  else if blk = 3 then
    let k := b.stack u
    (if o = 0 then some (bnat (k.ready == 1 || k.ready == 2) + b1 k.selfref 1 + b1 k.retrain 2 + k.temp % 256 * 2 ^ 8 + k.spared % 256 * 2 ^ 16)
     else if o = 0x40 then some k.lastUe
     else if o = 0x48 then some (b.pprLeast u % 2 ^ 16 + k.pprDone % 2 ^ 16 * 2 ^ 16) else none)
  else if blk = 4 then
    let l := b.link u
    (if o = 8 then some (l.st + l.cause * 16 + l.spare * 256 + l.width * 4096 + l.swapPeer * 65536)
     else if o = 0x10 then some l.peerSerial
     else if o = 0x18 then some (l.peerDev % 2 ^ 14 + l.peerPort % 32 * 2 ^ 14 + l.peerSlice % 2 ^ 32 * 2 ^ 32) else none)
  else if blk = 5 then
    let w := b.watch u (o / 64)
    let k := o % 64
    some (if k = 0 then w.ctl else if k = 8 then w.policy else if k = 0x10 then w.tsaddr else if k = 0x18 then w.bsaddr
      else if k = 0x20 then toTwos 32 w.ema + w.warmLeft % 256 * 2 ^ 32 + b1 w.init 40
      else if k = 0x28 then toTwos 16 w.lastN + toTwos 16 w.lastMax * 2 ^ 16 + w.lastInd % 32 * 2 ^ 32 + w.lastResult % 4 * 2 ^ 37
      else if k = 0x30 then w.closed % 2 ^ 32 + min w.surges 65535 * 2 ^ 32 + w.count % 2 ^ 16 * 2 ^ 48 else 0)
  else none
/-- Words of a BY_ block not held in cfg. -/
def Blk.byWord (b : Blk) (y o : Nat) : Option Nat :=
  let x := b.bay y
  if o = 0x60 then some (match x.matchHolder with | some c => c + 2 ^ 12 + x.matchKeys.length % 2 ^ 13 * 2 ^ 13 | none => 0)
  else if 0x80 ≤ o && o < 0x100 then
    let r := sget (fun _ => ((0, 0) : Nat × Nat)) x.results ((o - 0x80) / 8)
    some (r.1 % 2 ^ 32 + r.2 % 2 ^ 32 * 2 ^ 32)
  else if 0x100 ≤ o && o < 0x300 then
    let s := (b.cove (16 * y + (o - 0x100) / 32)).spill
    let w := b.cfgGet (cfgBY y + o)
    some (if o % 32 = 0 then w + s.rhead % 2 ^ 20 * 2 ^ 32 else if o % 32 = 24 then w + s.rfill % 2 ^ 21 * 2 ^ 40 else w)
  else if 0x300 ≤ o && o < 0x400 then some (x.babTag ((o - 0x300) / 8)).word
  else if 0x400 ≤ o && o < 0x480 then
    let p := (o - 0x400) / 8
    some ((x.hiaTag p).word + (x.spaceEntries (x.hiaTag p).dom p).length * 2 ^ 32)
  else if o = 0xA00 then some (x.running + (x.descs.filter fun d => d.queue == 16 && !d.running).length * 16)
  else if 0xC00 ≤ o && o < 0x1400 then some (b.credAt 1 y ((o - 0xC00) / 8)).word
  else if o = 0x1800 then some ((List.range 12).foldl (fun a i => a + b.coveSlot y i % 32 * 2 ^ (5 * i)) 0)
  else if o = 0x1808 then some ((List.range 4).foldl (fun a i => a + b.coveSlot y (12 + i) % 32 * 2 ^ (5 * i)) 0)
  else if o = 0x1810 then some (b.retiredSlots y % 2 ^ 17)
  else none
/-- The word of CV_ARR_STAT (R118). -/
def Cove.arrStat (x : Cove) : Nat :=
  let a := x.slotA
  let s := x.slotB
  let lay := fun (q : Slot) => if q.st = 2 then q.layout else 0
  let busy := a.st == 1 || s.st == 1 || x.seq.inflight.any fun e => e.queue == 1 && e.started
  a.st + s.st * 4 + lay a * 16 + lay s * 256 + a.n * 2 ^ 12 + s.n * 2 ^ 16 + a.zero * 2 ^ 20 + s.zero * 2 ^ 28 + b1 busy 36
def RowTag.word (t : RowTag) : Nat := t.dom + b1 t.inexact 1 + b1 t.inf 2 + t.anchor % 256 * 16
/-- Words of a CV_ block not held in cfg. -/
def Blk.cvWord (b : Blk) (c o : Nat) : Option Nat :=
  let x := b.cove c
  let q := x.seq
  let s := x.stats
  if o = 0 then some (q.st + q.pc % 1024 * 2 ^ 16 + q.count * 2 ^ 32)
  else if o = 8 then some (if q.exitLost then 0 else q.exit.st + q.exit.det * 2 ^ 16 + q.exit.index % 1024 * 2 ^ 32 + q.exit.rows % 2 ^ 16 * 2 ^ 48)
  else if o = 0x10 then some (q.preds % 256)
  else if o = 0x18 then some ((List.range 4).foldl (fun a k => a + q.lreg k % 2 ^ 16 * 2 ^ (16 * k)) 0)
  else if 0x100 ≤ o && o < 0x200 then some (sreg q.sregs ((o - 0x100) / 8))
  else if o = 0x1008 then some x.arrStat
  else if 0x1840 ≤ o && o < 0x1868 then some (s.ssq / 2 ^ (8 * (o - 0x1840)) % 2 ^ 64)
  else if o = 0x1868 || o = 0x1870 then some (s.max / 2 ^ (8 * (o - 0x1868)) % 2 ^ 64)
  else if o = 0x1878 then some (toTwos 16 s.l + b1 s.infSeen 16 + b1 s.inexactSeen 17 + s.elements % 2 ^ 16 * 2 ^ 32)
  else if o = 0x1880 then some s.c
  else if 0x2000 ≤ o && o < 0x2800 then
    some ((List.range 4).foldl (fun a i => a + (x.tag ((o - 0x2000) / 8 * 4 + i)).word * 2 ^ (16 * i)) 0)
  else if o = 0x3008 then some 0
  else if 0x3100 ≤ o && o < 0x3200 then let w := (o - 0x3100) / 8; some (b.gen c (2 * w) % 2 ^ 32 + b.gen c (2 * w + 1) % 2 ^ 32 * 2 ^ 32)
  else if 0x3200 ≤ o && o < 0x3400 then some (x.cred ((o - 0x3200) / 8)).word
  else if 0x3400 ≤ o && o < 0x3600 then
    let p := x.prodEnt ((o - 0x3400) / 8)
    some (if p.valid then p.owner + p.ring * 2 ^ 12 + 2 ^ 18 + p.tail * 2 ^ 20 + p.credits * 2 ^ 32 else 0)
  else if 0x3900 ≤ o && o < 0x3A00 then
    let i := x.inbox ((o - 0x3900) / 16)
    some (if o % 16 = 0 then i.word else if i.en then i.grant % 2 ^ 32 + i.arrived % 2 ^ 32 * 2 ^ 32 else 0)
  else if 0x3A00 ≤ o && o < 0x3E00 then
    let r := x.ring ((o - 0x3A00) / 16)
    some (if o % 16 = 0 then r.word else r.timeout + (if r.en then r.head * 2 ^ 32 + r.full.length * 2 ^ 44 else 0))
  else none
/-- The value of a mapped word: its unit's own state, or what cfg holds, with a free amount where the count is timing. -/
def Blk.cfgRead (b : Blk) (off : Nat) : Nat × Blk :=
  let w := cfgWhere off
  let v := if w.1 = 0 then b.dvWord w.2.2 else if w.1 = 6 then b.byWord w.2.1 w.2.2 else if w.1 = 7 then b.cvWord w.2.1 w.2.2
    else b.midWord w.1 w.2.1 w.2.2
  match v with
  | some x => (x, b)
  | none =>
    if timedWord w.1 w.2.2 then let r := b.freeVal off; ((b.cfgGet off + r.1) % 2 ^ 64, r.2) else (b.cfgGet off, b)

/-! ### Writing: the words with checks and effects of their own -/

/-- A refused write: status, detail when the status is not ST_BAD_PARAM, and the byte of the word that is at fault. -/
abbrev CfgBad := Nat × Nat × Nat
def cfgBad (byte : Nat) : CfgBad := (stBADPARAM, 0, byte)
def cfgBusy : CfgBad := (stBUSY, 2, 0)
/-- RUN or SUSPENDED (R166). -/
def Blk.runs (b : Blk) (c : Nat) : Bool := (b.seq c).st == 1 || (b.seq c).st == 2
/-- Ranges taken in a Tidepool: enabled inboxes and their grant words, and enabled rings, but for one inbox and one ring. -/
def Cove.taken (x : Cove) (notInbox notRing : Nat) : List (Nat × Nat) :=
  ((x.enInboxes.filter fun p => p.1 != notInbox).flatMap fun p => [(p.2.base, p.2.units * 4096), (p.2.gaddr, 8)]) ++
  ((x.enRings.filter fun p => p.1 != notRing).map fun p => (p.2.base, p.2.count * p.2.slot))
/-- The first free index of a table. -/
def freeIdx (used : Nat → Bool) (n : Nat) : Option Nat := (List.range n).find? fun j => !used j

/-- A credit entry put into its source's table, or taken out (R216, R217). -/
def Blk.addCred (b : Blk) (kind src owner inbox units : Nat) : Blk :=
  match freeIdx (fun j => (b.credAt kind src j).valid) (if kind = 1 then 256 else 64) with
  | none => b
  | some j => b.setCred kind src j { valid := true, target := owner, inbox := inbox, grant := units, consumed := 0 }
def Blk.dropCred (b : Blk) (kind src owner inbox : Nat) : Blk :=
  match b.credIdx kind src owner inbox with
  | none => b
  | some j => b.setCred kind src j {}
/-- Descriptors that could be charged to a source (R216). -/
def Blk.chargeable (b : Blk) (kind src : Nat) : Bool :=
  if kind = 1 then (b.bay src).descs.any fun d => d.queue == 16
  else (b.bay (bayOf src)).descs.any fun d => d.queue == src % 16
/-- A write to CV_TP_INBOX (R216, R227). -/
def Blk.inboxPut (b : Blk) (c i w : Nat) : Except CfgBad Blk :=
  let x := b.cove c
  let old := x.inbox i
  let n : Inbox := { word := w }
  let srcOk := if n.srck = 1 then n.src < nBays && b.partOfHl (n.src / 16) == b.partOfCove c else b.samePart c n.src
  let busy := fun (q : Inbox) => b.runs c || (q.srck == 0 && b.runs q.src) || b.chargeable q.srck q.src
  if n.srck = 1 && 256 ≤ n.src then .error (cfgBad 0)
  else if !n.en then
    (if !old.en then .ok (b.setCove c (x.setInbox i n))
     else if busy old then .error cfgBusy
     else .ok ((b.setCove c (x.setInbox i n)).dropCred old.srck old.src c i))
  else
    let b0 := if old.en then b.dropCred old.srck old.src c i else b
    let rs := [(n.base, n.units * 4096), (n.gaddr, 8)]
    if n.units = 0 then .error (cfgBad 3)
    else if 1024 < n.units || rs.any (fun r => b.progEnd c < r.1 + r.2) then .error (cfgBad 1)
    else if rangesMeet rs (x.taken i 64) || meets n.base (n.units * 4096) n.gaddr 8 then .error (cfgBad 1)
    else if !srcOk then .error (cfgBad 0)
    else if (freeIdx (fun j => (b0.credAt n.srck n.src j).valid) (if n.srck = 1 then 256 else 64)).isNone then .error (cfgBad 0)
    else if busy n || (old.en && busy old) then .error cfgBusy
    else .ok ((b0.setCove c ((b0.cove c).setInbox i { n with grant := n.units })).addCred n.srck n.src c i n.units)

/-- A ring's producer entry, put into the producer's table or taken out (R220). -/
def Blk.addProd (b : Blk) (p owner ring n : Nat) : Blk :=
  match freeIdx (fun j => ((b.cove p).prodEnt j).valid) 64 with
  | none => b
  | some j => b.setProd p j { valid := true, owner := owner, ring := ring, tail := 0, credits := n }
def Blk.dropProd (b : Blk) (p owner ring : Nat) : Blk :=
  match b.prodIdx p owner ring with
  | none => b
  | some j => b.setProd p j {}
/-- A write to CV_TP_RING, both words as they would stand (R220). -/
def Blk.ringPut (b : Blk) (c r w t : Nat) : Except CfgBad Blk :=
  let x := b.cove c
  let old := x.ring r
  let n : Ring := { word := w, timeout := t % 2 ^ 32 }
  if 10 < fld w 4 1 then .error (cfgBad 0)
  else if !n.en then
    (if !old.en then .ok (b.setCove c (x.setRing r n))
     else if b.runs c || b.runs old.producer then .error cfgBusy
     else .ok ((b.setCove c (x.setRing r n)).dropProd old.producer c r))
  else if n.timeout = 0 then .error (cfgBad 8)
  else if old.en && old.word = w then .ok (b.setCove c (x.setRing r { old with timeout := n.timeout }))
  else
    let b0 := if old.en then b.dropProd old.producer c r else b
    if n.count = 0 || 4096 < n.count then .error (cfgBad 0)
    else if n.base % n.slot != 0 || b.progEnd c < n.base + n.count * n.slot then .error (cfgBad 3)
    else if rangesMeet [(n.base, n.count * n.slot)] (x.taken 16 r) then .error (cfgBad 3)
    else if !b.samePart c n.producer then .error (cfgBad 2)
    else if (freeIdx (fun j => ((b0.cove n.producer).prodEnt j).valid) 64).isNone then .error (cfgBad 2)
    else if b.runs c || b.runs n.producer || (old.en && b.runs old.producer) then .error cfgBusy
    else .ok ((b0.setCove c ((b0.cove c).setRing r n)).addProd n.producer c r n.count)

/-- Windows of this device that touch a range of the window region. -/
def Blk.windowMeets (b : Blk) (a n : Nat) : Bool := b.slice.windows.any fun w => w.2.opened && meets w.2.base w.2.len a n
/-- A write to CV_TP_CTL (R201, R214): ARB, and a change of the cache portion. -/
def Blk.tpCtlPut (b : Blk) (c w : Nat) : Except CfgBad Blk :=
  let old := b.cfgGet (cfgCV c + 0x3800)
  let c0 := cacheBytes (fld old 3 2)
  let c1 := cacheBytes (fld w 3 2)
  let x := b.cove c
  if fld w 1 0 = 3 then .error (cfgBad 0)
  else if b.runs c then .error cfgBusy
  else if c0 = c1 then .ok (b.cfgSet (cfgCV c + 0x3800) w)
  else if (b.bay (bayOf c)).descs.any (fun d => d.cove == c && d.cached) then .error cfgBusy
  else if (x.taken 16 64).any (fun r => tpSize - c1 < r.1 + r.2) || b.windowMeets (tpAddr c (tpSize - c1)) c1 then .error (cfgBad 0)
  else
    let lo := tpAddr c (tpSize - max c0 c1)
    let hi := tpAddr c (tpSize - min c0 c1)
    .ok ({ b with mem := sclear b.mem lo hi }.setCove c { x with lines := [], cacheChanging := true } |>.cfgSet (cfgCV c + 0x3800) w)
/-- The groups of a slot map (R204, R205). -/
def mapCode (w g : Nat) : Nat := fld w (4 * g + 3) (4 * g)
/-- A write to CV_TP_SLOTMAP (R201, R205). -/
def Blk.slotmapPut (b : Blk) (c w : Nat) : Except CfgBad Blk :=
  let g := fun i => mapCode w i
  let others := [1, 2, 3, 5, 6, 7]
  if g 0 != 0 || g 4 != 0 then .error (cfgBad 0)
  else if others.any fun i => g i == 0 || (10 < g i && g i < 15) then .error (cfgBad 0)
  else if others.all fun i => g i != 1 then .error (cfgBad 0)
  else if others.all fun i => g i != 15 && g i != 6 then .error (cfgBad 0)
  else if b.runs c then .error cfgBusy
  else .ok (b.cfgSet (cfgCV c + 0x3808) w)

/-- Is a range within the HBM regions of a partition, or, when allowed, in Tidepools of its Coves? -/
def Blk.inPart (b : Blk) (p a n : Nat) (tp : Bool) : Bool :=
  n = 0 || (inRegion a n && (if regionOf a = 0 then (granulesOf a n).all fun g => b.granOwner g == some p
    else tp && (covesOf a n).all fun c => b.partOfCove c == some p))
/-- Writes to the BY_SP_SPILL words of a Cove, all four as they would stand (R248, R262, R263). -/
def Blk.spillPutCfg (b : Blk) (c w0 w1 w2 w3 : Nat) : Except CfgBad Blk :=
  let size := 2 ^ (12 + fld w0 25 22)
  let base := fld w0 21 12 * 4096
  let busy := (b.seq c).inflight.any fun e => wOpcode e.word == 0x73 ||
    (wOpcode e.word == 0x72 && (b.spDesc c (xaddr e.word e.regs 90 69)).kind == 1)
  if busy then .error cfgBusy
  else if 8 < fld w0 25 22 then .error (cfgBad 2)
  else if base % size != 0 || b.progEnd c < base + size then .error (cfgBad 1)
  else if w1 % 256 != 0 then .error (cfgBad 8)
  else if w2 % 4096 != 0 then .error (cfgBad 16)
  else if !b.inPart (b.partNum c) w1 w2 false then .error (cfgBad 8)
  else .ok ((((b.cfgSet (spWord c 0) (w0 % 2 ^ 32)).cfgSet (spWord c 1) w1).cfgSet (spWord c 2) w2).cfgSet (spWord c 3) (w3 % 2 ^ 40))

/-- A watch slot's four words as they would stand (R153, R154): the byte of the group at fault. -/
def Blk.watchFault (b : Blk) (p ctl pol ts bs : Nat) : Option Nat :=
  if fld ctl 1 0 = 3 then some 0
  else if 8 < fld ctl 7 4 then some 0
  else if fld ctl 47 32 = 0 then some 4
  else if 512 ≤ fld ctl 63 48 && fld ctl 63 48 < 65024 then some 6
  else if fld pol 7 2 != 0 then some 8
  else if fld pol 31 16 != 0 then some 10
  else if 1048576 < fld pol 63 32 then some 12
  else if tbit pol 0 && (ts % 4 != 0 || !b.inPart p ts 4 true) then some 16
  else if tbit pol 1 && !b.inPart p bs (fld pol 63 32) true then some 24
  else none
/-- A watch slot rewritten: the open sample, INIT and the counters go, WARM_LEFT is WARMUP again (R154). -/
def Blk.watchPut (b : Blk) (p s ctl pol ts bs : Nat) : Blk :=
  let w := b.watch p s
  b.setWatch p s { w with ctl := ctl, policy := pol, tsaddr := ts, bsaddr := bs, init := false, warmLeft := fld ctl 31 24, closed := 0,
                          surges := 0, count := 0, sumsq := 0, maxlog := -32768, ind := 0, span := 0xFF, late := [] }

/-- A write to one word of a CV_ block that is not part of a group. -/
def Blk.cvPut (b : Blk) (c o w : Nat) : Except CfgBad Blk :=
  if 0x100 ≤ o && o < 0x200 then
    (if b.runs c then .error cfgBusy
     else .ok (b.setSeq c ((b.seq c).setSreg ((o - 0x100) / 8) w)))
  else if o = 0x3008 then
    .ok (if tbit w 0 then b.setGens c ((List.range 64).map (laneSeed (b.cfgGet (cfgCV c + 0x3000)))) else b)
  else if 0x3100 ≤ o && o < 0x3200 then
    (if w % 2 ^ 32 = 0 then .error (cfgBad 0)
     else if w / 2 ^ 32 = 0 then .error (cfgBad 4)
     else
       let k := 2 * ((o - 0x3100) / 8)
       .ok (b.setGens c (((b.gens c).set k (w % 2 ^ 32)).set (k + 1) (w / 2 ^ 32))))
  else if o = 0x3800 then b.tpCtlPut c w
  else if o = 0x3808 then b.slotmapPut c w
  else if 0x3900 ≤ o && o < 0x3A00 then (if o % 16 = 0 then b.inboxPut c ((o - 0x3900) / 16) w else .ok b)
  else if (b.cvWord c o).isSome then .ok b
  else .ok (b.cfgSet (cfgCV c + o) w)
/-- A write to one word of a DV_ block. -/
def Blk.dvPut (b : Blk) (o w : Nat) : Except CfgBad Blk :=
  if o = 0x400 then (if b.parts.any (fun p => p.2.st != 0) then .error cfgBusy else .ok (b.cfgSet 0x400 w))
  else if o = 0x810 then (if fld w 15 0 = 0 then .error (cfgBad 0) else .ok (b.cfgSet o w))
  else if o = 0xE00 then
    (if fld w 15 0 = 0 then .error (cfgBad 0) else if fld w 31 16 = 0 then .error (cfgBad 2) else .ok (b.cfgSet o w))
  else if o = 0xF10 then
    .ok ({ b with board := { b.board with alerts := b.board.alerts - Nat.land b.board.alerts (w % 16 / 2 * 2) } }.cfgSet 0xF10 (fld w 11 9 * 0x200))
  else if (b.dvWord o).isSome then .ok b
  else .ok (b.cfgSet o w)
/-- A write to one word of an LK_, HL_, MC_ or LH_ block. -/
def Blk.midPut (b : Blk) (blk u o w off : Nat) : Except CfgBad Blk :=
  if blk = 2 && o < 0x2000 then
    let i := (o - 0x1000) / 8
    let t := b.tab u i
    (if t.st = 2 || t.st = 3 then .ok (b.setTab u i ({ t with hold := tbit w 12 }).settle)
     else if tbit w 12 then .error cfgBusy else .ok b)
  else if blk = 4 && o = 0 then (if fld w 15 8 < 8 || 40 < fld w 15 8 then .error (cfgBad 1) else .ok (b.cfgSet off w))
  else if blk = 4 && o = 0x20 then
    (match (List.range 3).find? fun i => fld w (8 * i + 7) (8 * i) == 0 with | some i => .error (cfgBad i) | none => .ok (b.cfgSet off w))
  else if (b.midWord blk u o).isSome then .ok b
  else .ok (b.cfgSet off w)

/-! ### A whole write (R63) -/

/-- The first offset of the group of words that are judged together (R154, R220, R263). -/
def cfgGroup (off : Nat) : Nat :=
  let w := cfgWhere off
  if w.1 = 5 then off / 64 * 64
  else if w.1 = 6 && 0x100 ≤ w.2.2 && w.2.2 < 0x300 then off / 32 * 32
  else if w.1 = 7 && 0x3A00 ≤ w.2.2 && w.2.2 < 0x3E00 then off / 16 * 16 else off
/-- The value a word of a group would have: the last one written, or what it holds. -/
def newWord (l : List (Nat × Nat)) (off old : Nat) : Nat := match l.find? fun p => p.1 == off with | some p => p.2 | none => old
/-- One group written: the fault counts bytes from the group's start. -/
def Blk.groupPut (b : Blk) (g : Nat) (l : List (Nat × Nat)) : Except CfgBad Blk :=
  let w := cfgWhere g
  let v := newWord l
  if w.1 = 5 then
    let s := w.2.2 / 64
    let x := b.watch w.2.1 s
    let ctl := v g x.ctl
    let pol := v (g + 8) x.policy
    let ts := v (g + 16) x.tsaddr
    let bs := v (g + 24) x.bsaddr
    (if l.all fun p => g + 32 ≤ p.1 then .ok b
     else match b.watchFault w.2.1 ctl pol ts bs with
       | some byte => .error (cfgBad byte)
       | none => .ok (b.watchPut w.2.1 s ctl pol ts bs))
  else if w.1 = 6 && 0x100 ≤ w.2.2 && w.2.2 < 0x300 then
    b.spillPutCfg (16 * w.2.1 + (w.2.2 - 0x100) / 32) (v g (b.cfgGet g)) (v (g + 8) (b.cfgGet (g + 8))) (v (g + 16) (b.cfgGet (g + 16)))
      (v (g + 24) (b.cfgGet (g + 24)))
  else if w.1 = 7 && 0x3A00 ≤ w.2.2 && w.2.2 < 0x3E00 then
    let r := (w.2.2 - 0x3A00) / 16
    let x := (b.cove w.2.1).ring r
    b.ringPut w.2.1 r (v g x.word) (v (g + 8) x.timeout)
  else match l with
    | [] => .ok b
    | p :: _ =>
      if w.1 = 0 then b.dvPut w.2.2 p.2
      else if w.1 = 7 then b.cvPut w.2.1 w.2.2 p.2
      else if w.1 = 6 then .ok (if (b.byWord w.2.1 w.2.2).isSome then b else b.cfgSet g p.2)
      else b.midPut w.1 w.2.1 w.2.2 p.2 g
/-- Consecutive words written from an offset, group by group; the first that is refused refuses all. The fault is a status, a
detail and the offset in configuration space. -/
def Blk.cfgWriteAll (b : Blk) : Nat → List (Nat × Nat) → Except CfgBad Blk
  | 0, _ => .ok b
  | _, [] => .ok b
  | n + 1, (off, w) :: rest =>
    let g := cfgGroup off
    let same := rest.takeWhile fun p => cfgGroup p.1 == g && g != off || cfgGroup p.1 == off
    match b.groupPut g ((off, w) :: same) with
    | .error e => .error (e.1, e.2.1, g + e.2.2)
    | .ok b1 => b1.cfgWriteAll n (rest.drop same.length)
/-- Reserved bits set in any word: the offset of the first such field. -/
def cfgReserved : List (Nat × Nat) → Option Nat
  | [] => none
  | (off, w) :: rest =>
    let p := cfgWhere off
    match regRow p.1 p.2.2 with
    | none => cfgReserved rest
    | some r => match reservedAt r.named w with
      | some i => some (off + i / 8)
      | none => cfgReserved rest

/-! ### Reach (R63, R476, R487) -/

/-- The partition whose resources a word belongs to, when there is one. -/
def Blk.cfgPart (b : Blk) (off : Nat) : Option Nat :=
  let w := cfgWhere off
  if w.1 = 2 then b.partOfHl w.2.1 else if w.1 = 6 then b.partOfHl (w.2.1 / 16) else if w.1 = 7 then b.partOfCove w.2.1
  else if w.1 = 5 then some w.2.1 else none
/-- May a context reach a word? Context 0 reaches every block; another its Headlands', its SW_ and the identity words. -/
def Blk.cfgReach (b : Blk) (ctx off : Nat) : Bool :=
  ctx = 0 || b.cfgPart off == some (b.ctx ctx).part || off < 0x10
def Blk.cfgScrub (b : Blk) (off : Nat) : Bool := match b.cfgPart off with | some p => (b.part p).st == 3 | none => false
/-- Does a word lie in an island whose crossing is closed: unpowered in NEAP or DORMANT, in reset, or retraining (R476)? -/
def Blk.cfgClosed (b : Blk) (off : Nat) : Bool :=
  let w := cfgWhere off
  let low := 2 ≤ b.dev.power || b.dev.changing = 2
  if w.1 = 2 || w.1 = 6 then low
  else if w.1 = 3 then low || b.dev.closed.contains (1, w.2.1)
  else if w.1 = 4 then b.dev.power = 3 || b.dev.closed.contains (2, w.2.1)
  else if w.1 = 7 then low || b.dev.closed.contains (0, w.2.1)
  else w.1 = 1 && b.dev.closed.contains (3, 0)

/-- The words an access names: offsets of n words from a local address. -/
def cfgOffs (a n : Nat) : List Nat := (List.range n).map fun i => a - cfgBase + 8 * i
/-- The first check of an access (R6, R62, R63): the status and detail that refuse it. -/
def Blk.cfgCheck (b : Blk) (ctx a n : Nat) : Option (Nat × Nat) :=
  if n = 0 then none
  else if a % 8 != 0 || a < cfgBase || !(cfgOffs a n).all cfgMapped then some (stBADPARAM, 0x18)
  else if !(cfgOffs a n).all (b.cfgReach ctx) then some (stNOPERM, 2) else none
/-- CMD_CFG_READ runs (R63, R487). -/
def Blk.doCfgRead (b : Blk) (c : Cmd) : Blk :=
  let n := leAt c.m.payload 0 2
  if leAt c.m.payload 2 6 != 0 then b.reject c stBADPARAM 0x22
  else if 8192 < n then b.reject c stBADPARAM 0x20
  else match b.cfgCheck c.ctx c.m.param n with
    | some e => b.reject c e.1 e.2
    | none =>
      let offs := if n = 0 then [] else cfgOffs c.m.param n
      if offs.any b.cfgClosed then b.setCmd { c with started := true, vars := [0x100] }
      else
        let r := offs.foldl (fun (s : List Byte × Blk) o =>
          if s.2.cfgScrub o then (s.1 ++ zeros 8, s.2) else let v := s.2.cfgRead o; (s.1 ++ leBytes 8 v.1, v.2)) ([], b)
        r.2.finish c (if offs.any b.cfgScrub then stSCRUB else stOK) 0 r.1
/-- A write extends CFG for words outside the blocks of partitions, and PM_p for words of p's blocks (R493). -/
def Blk.measureWrite (b : Blk) (m : Msg) (offs : List Nat) : Blk :=
  let own := fun o => let w := (cfgWhere o).1; w == 2 || w == 5 || w == 6 || w == 7
  let b1 := if offs.any fun o => !own o then b.extendCfg m else b
  ((List.range nParts).filter fun p => offs.any fun o => b.cfgPart o == some p).foldl (fun b p => b.extendPm p m []) b1
/-- The detail of a refused word: the offset of the word in the message, since the words are the payload's fields (R60; log entry 40). -/
def cfgDetail (c : Cmd) (off : Nat) : Nat := min (0x20 + (off - (c.m.param - cfgBase)) / 8 * 8) 0xFFFF
/-- CMD_CFG_WRITE runs (R63). -/
def Blk.doCfgWrite (b : Blk) (c : Cmd) : Blk :=
  let n := c.m.plen / 8
  match b.cfgCheck c.ctx c.m.param n with
  | some e => b.reject c e.1 e.2
  | none =>
    let offs := if n = 0 then [] else cfgOffs c.m.param n
    let ws := offs.zipIdx.map fun p => (p.1, leAt c.m.payload (8 * p.2) 8)
    if offs.any b.cfgScrub then b.reject c stSCRUB
    else if offs.any b.cfgClosed then b.setCmd { c with started := true, vars := [0x100] }
    else match cfgReserved ws with
      | some o => b.reject c stBADPARAM (cfgDetail c o)
      | none => match b.cfgWriteAll n ws with
        | .error e => b.reject c e.1 (if e.1 = stBADPARAM then cfgDetail c e.2.2 else e.2.1)
        | .ok b1 => (b1.measureWrite c.m offs).finish c stOK 0 []
/-- Configuration accesses that wait for a crossing are tried again. -/
def Blk.retryCfg (b : Blk) : Blk :=
  (b.host.cmds.filter fun c => c.started && c.vars == [0x100] && c.m.opcode / 2 == 0x80).foldl (fun b c =>
    if c.m.opcode = 0x100 then b.doCfgRead c else b.doCfgWrite c) b

end Sys2Proof.Machine
end

