-- ==== Sys2Proof/Machine/Ctx.lean ====
section
/-! DEFINITION. What the commands about contexts, ports and the error log do once they run: NOP, HELLO, CTX_OPEN, PORT_FAILOVER,
ERRLOG_READ (R41, R51, R52, R55, R57, R58, R478, R503). -/
namespace Sys2Proof.Machine

/-- The detail of a fault in the parameter, and of one in a payload byte (R60). -/
def detParam : Nat := 0x18
def detPay (off : Nat) : Nat := min (0x20 + off) 0xFFFF
/-- A command that ends in ST_BAD_PARAM at a header or payload byte. -/
def Blk.badAt (b : Blk) (c : Cmd) (det : Nat) : Blk := b.reject c stBADPARAM det
/-- A command that ends in ST_BUSY for a wrong state. -/
def Blk.busy (b : Blk) (c : Cmd) : Blk := b.reject c stBUSY 2

/-- CMD_NOP (R57). -/
def Blk.doNopCmd (b : Blk) (c : Cmd) : Blk := if c.m.param != 0 then b.badAt c detParam else b.finish c stOK 0 []
/-- CMD_HELLO (R42, R58). -/
def Blk.doHello (b : Blk) (c : Cmd) : Blk :=
  let x := b.ctx c.ctx
  if c.m.param != 0 then b.badAt c detParam
  else b.finish c stOK 0 (leBytes 8 dvId ++ leBytes 8 Config.serial.toNat ++ leBytes 4 (c.m.port % 2 + 2 * bnat x.series) ++
    leBytes 4 (if x.series then x.expect else 0))
/-- CMD_CTX_OPEN (R51, R52, R55, R478, R487). -/
def Blk.doCtxOpen (b : Blk) (c : Cmd) : Blk :=
  let p := c.m.param
  let n := fld p 11 0
  let part := fld p 19 16
  let depth := fld p 28 20
  let ok := fld p 15 12 == 0 && fld p 31 29 == 0 && fld p 39 34 == 0 && p / 2 ^ 45 == 0
  if !ok || n = 0 || depth = 0 || 256 < depth || (b.part part).st = 0 then b.badAt c detParam
  else if (b.part part).st = 3 then b.reject c stSCRUB
  else if (b.ctx n).st != 0 then b.busy c
  else (b.setCtx n { held := (b.ctx n).held, st := 1, part := part, depth := depth, home := bnat (tbit p 32), homeSet := true, failover := tbit p 33,
                     privs := fld p 44 40 }).finish c stOK 0 []

/-- A context moves to a port, and what it holds leaves there (R41, R58). -/
def Blk.moveCtx (b : Blk) (port n : Nat) : Blk := (b.setCtx n { b.ctx n with home := port, homeSet := true }).flushCtx port n
/-- CMD_PORT_FAILOVER (R41, R58). -/
def Blk.doPortFailover (b : Blk) (c : Cmd) : Blk :=
  let p := c.m.param
  let opened := (b.host.ctxs.filter fun q => q.2.st == 1).map Prod.fst
  let set := if tbit p 1 then opened else opened.filter fun n => tbit (leAt c.m.payload (n / 8) 1) (n % 8)
  if 4 ≤ p then b.badAt c detParam
  else (set.foldl (fun b n => b.moveCtx (p % 2) n) b).finish c stOK 0 []
/-- CMD_ERRLOG_READ (R503). -/
def Blk.doErrlogRead (b : Blk) (c : Cmd) : Blk :=
  let n := leAt c.m.payload 0 8
  let f := c.m.param
  if 2 ^ 32 ≤ f then b.badAt c detParam
  else if 1023 < n then b.badAt c (detPay 0)
  else
    let recs := b.err.recs.filter fun r => (r.index + 2 ^ 32 - f) % 2 ^ 32 < n
    let oldest := match b.err.recs with | r :: _ => r.index | [] => b.err.next
    b.finish c stOK 0 (leBytes 4 oldest ++ leBytes 4 b.err.next ++ recs.flatMap fun r => r.bytes)

/-- Programs and spans that a command may name: the partition number it acts for (R52). -/
def Cmd.part (c : Cmd) : Nat := c.m.partition

end Sys2Proof.Machine
end

