-- ==== Sys2Proof/Machine/Prog.lean ====
section
/-! DEFINITION. Loading, starting and stopping programs (R167 to R172, R195, R196, R321, R455). -/
namespace Sys2Proof.Machine

/-! ### Cove sets (R52, R56, R455, R469, R487) -/

/-- A command accepted and ended in one step (R48). -/
def Blk.acceptEnd (b : Blk) (c : Cmd) (st det : Nat) (payload : List Byte) : Blk := (b.accept c).finish { c with started := true } st det payload
/-- Coves that a command may not use: of a Headland that has not sent READY or failed, or failing themselves (R455). -/
def Blk.covesReady (b : Blk) (cs : List Nat) : Option (Nat × Nat) :=
  if cs.any fun c => (b.hl (hlOf c)).ready == 0 then some (stBUSY, 2)
  else if cs.any fun c => (b.hl (hlOf c)).ready == 3 || b.badCoves.contains c then some (stHWERROR, openDet)
  else none
/-- The Coves of a command's set, when it may use them. -/
def Blk.withCoves (b : Blk) (c : Cmd) (go : List Nat → Blk) : Blk :=
  match coveSet c.m.param with
  | none => b.badAt c detParam
  | some s =>
    let cs := setCoves s
    if !b.covesOk c.part cs then b.reject c stNOPERM 2
    else if cs.any b.coveScrub then b.reject c stSCRUB
    else match b.covesReady cs with
      | some e => b.reject c e.1 e.2
      | none => go cs
/-- Does a serving engine keep a command away from some Cove of a set (R321)? A HALTED one lets programs be loaded. -/
def Blk.servingBars (b : Blk) (cs : List Nat) (load : Bool) : Bool :=
  cs.any fun c => match b.partOfCove c with
    | some p => (b.serve p).engine == 1 || ((b.serve p).engine == 2 && !load)
    | none => false
/-- A scope of SLACK: a partition, or the Coves of none (R469). -/
def Blk.slackAt (b : Blk) (k : Option Nat) : Bool := match k with | some p => (b.part p).slack | none => b.dev.slack
def Blk.setSlack (b : Blk) (v : Bool) (k : Option Nat) : Blk :=
  match k with | some p => b.setPart p { b.part p with slack := v } | none => { b with dev := { b.dev with slack := v } }
def Blk.scopeCoves (b : Blk) (k : Option Nat) : List Nat :=
  match k with | some p => b.partCoves p | none => (b.coves.map Prod.fst).filter fun v => (b.partOfCove v).isNone
/-- A scope leaves SLACK: its Coves go on, but for those of a paused Bay (R172, R469). -/
def Blk.wakePart (b : Blk) (k : Option Nat) : Blk :=
  if b.slackAt k then
    (b.scopeCoves k).foldl (fun b c => if (b.bay (bayOf c)).sparing.isSome then b else b.resumeCove c) (b.setSlack false k)
  else b
/-- WAKE: the new power state and the lost-settings bitmap, which DV_LOST keeps (R460, R472). -/
def Blk.wakeEvent (b : Blk) (bitmap : Nat) : Blk :=
  ({ b with dev := { b.dev with lost := bitmap, lostKind := 0 } }).event0 evWAKE (leBytes 4 0 ++ leBytes 4 bitmap)
/-- Scopes in SLACK among some leave it, with one WAKE for all of them (R472). -/
def Blk.wakeParts (b : Blk) (ps : List (Option Nat)) : Blk :=
  match ps.filter b.slackAt with
  | [] => b
  | l => (l.foldl (fun b p => b.wakePart p) b).wakeEvent 0
/-- A command wakes the gated Coves it needs (R56). -/
def Blk.wakeCoves (b : Blk) (cs : List Nat) : Blk :=
  b.wakeParts ((none :: (List.range nParts).map some).filter fun k => cs.any fun c => b.partOfCove c == k)

/-! ### CMD_PROG_LOAD (R167, R168) -/

/-- The image a Cove holds in its Tidepool. -/
def Blk.imageOf (b : Blk) (c addr n : Nat) : List Nat := imageWords n (b.tpRead c addr (16 * n))
/-- A program buffer loaded: indexes 0 to n − 1, the count, IDLE. -/
def Seq.load (q : Seq) (img : List Nat) : Seq :=
  { q with prog := ssetRun (fun _ => 0) q.prog 0 img, count := img.length, st := 0 }
/-- A load extends the measurement of each partition that it names Coves of, with the instructions loaded into each (R493). -/
def Blk.measureLoad (b : Blk) (c : Cmd) (cs : List Nat) (more : List Byte) : Blk :=
  if c.queued then b
  else ((List.range nParts).filter fun p => cs.any fun v => b.partOfCove v == some p).foldl (fun b p => b.extendPm p c.m more) b
def Blk.doProgLoad (b : Blk) (c : Cmd) : Blk :=
  b.withCoves c fun cs =>
    let addr := leAt c.m.payload 0 8
    let n := leAt c.m.payload 8 8
    if 2 ^ 22 ≤ addr || addr % 16 != 0 then b.badAt c (detPay 0)
    else if 1024 < n then b.badAt c (detPay 8)
    else if tpSize < addr + 16 * n then b.badAt c (detPay 0)
    else if b.servingBars cs true || cs.any b.runs then b.busy c
    else
      let b1 := b.wakeCoves cs
      if n = 0 then (b1.measureLoad c cs []).acceptEnd c stOK 0 []
      else match cs.findSome? fun v => imageFault (b1.imageOf v addr n) with
        | some f => (b1.measureLoad c cs []).acceptEnd c stFORMAT (f.1 * 4096 + f.2) []
        | none =>
          let b2 := cs.foldl (fun b v => b.setSeq v ((b.seq v).load (b.imageOf v addr n))) b1
          (b2.measureLoad c cs (cs.flatMap fun v => b1.tpRead v addr (16 * n))).acceptEnd c stOK 0 []

/-! ### Bounds of a BOUNDED start (R195, R203, R253, R375) -/

/-- The scalar register an instruction writes. -/
def writesReg (w : Nat) : Option Nat :=
  let op := wOpcode w
  if op = 0x04 || op = 0x05 || op = 0x09 then some (fld w 95 91) else if op = 0x07 then some (fld w 90 86) else none
/-- The indexes a program with no backward branch can come to from its entry, in rising order. -/
def reachable (prog : Nat → Nat) (n entry : Nat) : List Nat :=
  ((List.range n).foldl (fun (s : List Nat × List Nat) i =>
    if i = entry || s.2.contains i then
      let w := prog i
      let next := if wOpcode w = 0x02 then (if wGen w then [i + 1, brTarget w] else [brTarget w])
        else if wOpcode w = 0x01 then (if wGen w then [i + 1] else [])
        else if wOpcode w = 0x03 then [i + 1, loopEnd w + 1] else [i + 1]
      (s.1 ++ [i], next ++ s.2)
    else s) ([], [])).1
/-- Can the walk bound a Cove's program, as far as its form goes: no backward branch, every register that a LOOP count or a TWAIT
takes set by the image and not written before, and every Bay whose shared units it uses wholly in the set? -/
def Blk.boundable (b : Blk) (cs : List Nat) (entry mask c : Nat) : Bool :=
  let q := b.seq c
  let prog := fun i => sget (fun _ => 0) q.prog i
  let r := reachable prog q.count entry
  let bayHeld := (List.range 16).all fun i => cs.contains (16 * bayOf c + i)
  let fromImage := fun (i x : Nat) => x = 0 || (tbit mask x && r.all fun j => i ≤ j || writesReg (prog j) != some x)
  fld (b.cfgGet (cfgCV c + 0x3800)) 1 0 != 1 && r.all fun i =>
    let w := prog i
    let op := wOpcode w
    if op = 0x02 then i < brTarget w
    else if op = 0x03 then !tbit w 93 || fromImage i (fld w 81 77)
    else if op = 0x82 then fromImage i (fld w 95 91)
    else if op = 0x60 || op = 0x62 then bayHeld
    else if wUnit w = 7 then bayHeld && ((op != 0x72 && op != 0x73) || 2 ≤ fld (b.cfgGet (spWord c 0)) 25 22)
    else true
/-- The instructions that the walk takes: those of every Cove of the set. -/
def Blk.walked (b : Blk) (cs : List Nat) : List (List IWord) :=
  cs.map fun c => (List.range (b.seq c).count).map fun i => BitVec.ofNat 128 (sget (fun _ => 0) (b.seq c).prog i)
/-- Is a BOUNDED start admitted at a start instant t (R195)? The bound W is a free value (log entry 4). -/
def Blk.startFits (b : Blk) (c : Cmd) (cs : List Nat) (entry mask t : Nat) : Bool :=
  cs.all (b.boundable cs entry mask) &&
  (!c.flag 13 || 2 * t + Config.walkBound (b.walked cs) ((List.range 31).map fun i => BitVec.ofNat 64 (leAt c.m.payload (0x10 + 8 * i) 8)) entry ≤
    2 * c.deadline)

/-! ### CMD_PROG_START (R169, R170, R196) -/

/-- Is a Cove taken by an accepted start whose instant has not come? -/
def Blk.claimed (b : Blk) (v : Nat) : Bool :=
  b.host.cmds.any fun c => c.m.opcode == 0x201 && c.started && c.vars.length == 1 &&
    (match coveSet c.m.param with | some s => s.1 ≤ v && v < s.1 + s.2 | none => false)
def Blk.doProgStart (b : Blk) (c : Cmd) : Blk :=
  b.withCoves c fun cs =>
    let entry := leAt c.m.payload 0 8
    let mask := leAt c.m.payload 8 8
    if 1024 ≤ entry then b.badAt c (detPay 0)
    else if tbit mask 0 || 2 ^ 32 ≤ mask then b.badAt c (detPay 8)
    else if cs.isEmpty then b.acceptEnd c stOK 0 []
    else if b.servingBars cs false then b.busy c
    else if cs.any fun v => (b.seq v).count ≤ entry then b.badAt c (detPay 0)
    else if (cs.any b.runs) || cs.any b.claimed then b.busy c
    else
      let r := b.freeVal 0x169
      let t := b.tide + r.1 % 5001
      if c.m.cls = 1 && !b.startFits c cs entry mask t then b.reject c stBUSY 3
      else (r.2.wakeCoves cs).accept { c with vars := [t] }
/-- A sequencer begins at an entry with a register image (R169). -/
def Seq.begin (q : Seq) (entry mask : Nat) (image : Nat → Nat) : Seq :=
  let q1 := (List.range 31).foldl (fun q i => if tbit mask (i + 1) then q.setSreg (i + 1) (image i) else q) q
  { q1 with st := 1, pc := entry, preds := 0, lregs := [], cont := 0, loops := [], inflight := [], issuedHere := 0,
            stopping := 0, hold := .none, fault := none, exitFlags := 0, suspendedOnce := false }
/-- The start instant of a CMD_PROG_START (R169). A Cove reset since its acceptance has its exit record and does not start (R465). -/
def Blk.startInstant (b : Blk) (ctx seq : Nat) : Blk :=
  match b.cmdOf ctx seq with
  | none => b
  | some c =>
    match coveSet c.m.param, c.vars with
    | some s, [t] =>
      if c.m.opcode != 0x201 || !c.started then b
      else
        let b1 := ({ b with tide := max b.tide t }).wakeCoves (setCoves s)
        let entry := leAt c.m.payload 0 8
        let mask := leAt c.m.payload 8 8
        (((setCoves s).filter fun v => entry < (b1.seq v).count && !(b1.cove v).clearing).foldl (fun b v => b.setSeq v ((b.seq v).begin entry mask fun i =>
          leAt c.m.payload (0x10 + 8 * i) 8)) b1).setCmd { c with vars := [t, 1] }
    | _, _ => b

/-- The 16 bytes of an exit record (R170). -/
def ExitRec.bytes (e : ExitRec) (v : Nat) (late : Bool) : List Byte :=
  leBytes 2 v ++ leBytes 1 e.state ++ leBytes 1 (e.flags % 4 + 4 * bnat late) ++ leBytes 2 e.st ++ leBytes 2 e.det ++ leBytes 2 e.index ++
  leBytes 2 e.rows ++ leBytes 4 e.issued
/-- Why a BOUNDED start was late (R196): throttling, suspension, else a party outside the walk. Throttling is the only cause of a
Cove clock below 2.0 GHz (R32), so reason 0x0002 never comes first. -/
def Blk.lateReason (b : Blk) (vs : List Nat) : Nat :=
  if vs.any fun v => nth b.board.steps (v / 1024) 0 != 0 then 1 else if vs.any fun v => (b.seq v).suspendedOnce then 3 else 4
/-- The end of a CMD_PROG_START whose Coves have all left RUN and SUSPENDED (R170, R196); of a closing context it ends cancelled (R55). -/
def Blk.startDone (b : Blk) (c : Cmd) (cs : List Nat) : Blk :=
  if (b.ctx c.ctx).st = 2 then b.finish c stCANCELLED 0 (cs.flatMap fun v => (b.seq v).exit.bytes v false) else
  let ex := fun v => (b.seq v).exit
  let late := fun v => c.m.cls == 1 && c.flag 13 && c.deadline < (ex v).tide
  let pay := cs.flatMap fun v => (ex v).bytes v (late v)
  let find := fun (st : Nat) => cs.find? fun v => (ex v).st == st
  match find stUNCONTAINED, find stHWERROR with
  | some v, _ => b.finish c stUNCONTAINED (ex v).det pay
  | none, some v => b.finish c stHWERROR (ex v).det pay
  | none, none =>
    let ls := cs.filter late
    if ls.isEmpty then b.finish c stOK 0 pay else b.finish c stLATE (b.lateReason ls) pay
def Blk.startComplete (b : Blk) (ctx seq : Nat) : Blk :=
  match b.cmdOf ctx seq with
  | none => b
  | some c =>
    match coveSet c.m.param, c.vars with
    | some s, [_, _] =>
      if c.m.opcode != 0x201 || !c.started || (setCoves s).any b.runs then b else b.startDone c (setCoves s)
    | _, _ => b

/-! ### CMD_PROG_STOP (R171) -/

/-- A stop that waits ends once every Cove of its set has stopped. -/
def Blk.pollProgStop (b : Blk) (c : Cmd) : Blk :=
  match coveSet c.m.param with
  | none => b
  | some s => if (setCoves s).any b.runs then b else b.finish c stOK 0 []
def Blk.doProgStop (b : Blk) (c : Cmd) : Blk :=
  b.withCoves c fun cs =>
    if b.servingBars cs false then b.busy c
    else
      let b1 := ((cs.filter b.runs).foldl (fun b v => b.stopCove v) (b.wakeCoves cs)).accept c
      match b1.cmdOf c.ctx c.seq with | some d => b1.pollProgStop d | none => b1

end Sys2Proof.Machine
end

