-- ==== Sys2Proof/Machine/Spans.lean ====
section
/-! DEFINITION. The Surge watch and Step Replay: samples, surges, watch slots, spans, their logs, replays and commits (R148 to
R164, R537). -/
namespace Sys2Proof.Machine

/-! ### Samples (R150, R151, R537) -/

/-- The sample norm N in steps of 1/16 (R150). -/
def sampleNorm (sumsq : Nat) (sl : Int) : Int := if sumsq = 0 then -32768 else (Nat.log2 (sumsq ^ 8) : Int) + 16 * sl
/-- The average in the steps of N. -/
def Watch.ema16 (k : Watch) : Int := k.ema / 256
/-- The average moved toward a norm (R151 step 2). -/
def emaStep (ema n : Int) (alpha : Nat) : Int := ema + (n * 256 - ema) / (2 ^ alpha : Nat)
/-- What a closed sample comes to: INIT, WARM_LEFT and EMA as they stand after it, RESULT, and the direction of the surge it raises (1 up, 2
down, 0 none). -/
structure Verdict where
  init : Bool
  warm : Nat
  ema : Int
  result : Nat
  surge : Nat
  deriving DecidableEq, Repr
/-- The steps of R151, with RESULT as R537 gives it. -/
def Watch.judge (k : Watch) (n : Int) (ind : Nat) : Verdict :=
  let odd := tbit ind 0 || tbit ind 2 || tbit ind 3
  let up := k.ema16 + (fld k.ctl 15 8 : Nat) < n || tbit ind 0 || tbit ind 3
  let down := n < k.ema16 - (fld k.ctl 23 16 : Nat) || tbit ind 2
  let moved := emaStep k.ema n (fld k.ctl 7 4)
  if !k.init then (if odd then ⟨false, k.warmLeft, k.ema, 0, 0⟩ else ⟨true, k.warmLeft, n * 256, 0, 0⟩)
  else if k.warmLeft != 0 then ⟨true, k.warmLeft - 1, moved, 0, 0⟩
  else
    let r := if up then 2 else if down then 3 else 1
    if up && tbit k.ctl 2 then ⟨true, 0, k.ema, r, 1⟩
    else if down && tbit k.ctl 3 then ⟨true, 0, k.ema, r, 2⟩
    else ⟨true, 0, moved, r, 0⟩
/-- A slot's open sample discarded. -/
def Watch.empty (k : Watch) : Watch := { k with count := 0, sumsq := 0, maxlog := -32768, ind := 0, span := 0xFF }
/-- The open sample takes the deliveries kept for it, as many as it holds (R149). -/
def Watch.refill (k : Watch) : Watch :=
  let n := k.samples - k.count
  (k.late.take n).foldl (fun k d => k.join d.1 d.2) { k with late := k.late.drop n }
/-- The indications of a sample at its close: ZERO joins for an empty sum (R150). -/
def Watch.closeInd (k : Watch) : Nat := k.ind ||| (if k.sumsq = 0 then 4 else 0)
/-- A slot after its sample closes, with the verdict. -/
def Watch.close (k : Watch) : Watch × Verdict :=
  let n := sampleNorm k.sumsq k.sl
  let v := k.judge n k.closeInd
  ({ k.empty with
      init := v.init, warmLeft := v.warm, ema := v.ema, lastN := n, lastMax := k.maxlog, lastInd := k.closeInd, lastResult := v.result,
      closed := (k.closed + 1) % 2 ^ 32, surges := if v.surge = 0 then k.surges else min (k.surges + 1) 65535 }.refill, v)

/-! ### Surges (R152, R160, R162, R164) -/

/-- The 16 bytes of a SURGE event (R164). -/
def surgeBytes (slot span action dir : Nat) (n ema16 maxlog : Int) (ind replay : Nat) : List Byte :=
  leBytes 1 slot ++ leBytes 1 span ++ leBytes 1 action ++ leBytes 1 dir ++ leBytes 2 (toTwos 16 n) ++ leBytes 2 (toTwos 16 ema16) ++
  leBytes 2 (toTwos 16 maxlog) ++ leBytes 1 ind ++ leBytes 1 replay ++ zeros 4
/-- The Coves of a span. -/
def Span.coves (x : Span) : List Nat := (List.range x.count).map fun i => x.first + i
/-- A surge of a slot of a partition acts (R152, R160, R162). k is the slot before the close. -/
def Blk.surge (b : Blk) (p slot : Nat) (k : Watch) (dir : Nat) : Blk :=
  let n := sampleNorm k.sumsq k.sl
  let ind := k.closeInd
  let mixed := tbit ind 4
  let x := b.span p k.span
  let inSpan := !mixed && k.span < 16 && x.opened
  let pay := fun (span action : Nat) => surgeBytes slot span action dir n k.ema16 k.maxlog ind (if span = 0xFF then 0 else x.replays)
  if fld k.ctl 1 0 = 2 && mixed then b.eventP p evSURGE (pay 0xFF 3)
  else if fld k.ctl 1 0 = 2 && inSpan && x.phase != 2 then
    if x.cap ≤ x.replays then
      b.setSpan p k.span { x with capped := true, surging := x.surging ++ [(slot, k.maxlog, pay k.span 2)] }
    else
      let b1 := (b.setSpan p k.span { x with phase := 1, surging := x.surging ++ [(slot, k.maxlog, pay k.span 1)] }).eventP p evSURGE (pay k.span 1)
      if x.phase = 0 then x.coves.foldl (fun b v => b.stopCove v) b1 else b1
  else b.eventP p evSURGE (pay (if inSpan then k.span else 0xFF) 0)
/-- A complete sample of a slot closes (R149 to R152). -/
def Blk.sampleClose (b : Blk) (p slot : Nat) : Blk :=
  let k := b.watch p slot
  if fld k.ctl 1 0 = 0 || k.samples = 0 || k.count < k.samples then b
  else
    let r := k.close
    let b1 := b.setWatch p slot r.1
    if r.2.surge = 0 then b1 else b1.surge p slot k r.2.surge

/-! ### CMD_WATCH_SET (R154) -/

/-- The partition a command without a Cove set acts for: its header's, which must exist. -/
def Blk.withPart (b : Blk) (c : Cmd) (go : Nat → Blk) : Blk :=
  if nParts ≤ c.part || (b.part c.part).st = 0 then b.badAt c 0x11
  else if (b.part c.part).st = 3 then b.reject c stSCRUB
  else go c.part
def Blk.doWatchSet (b : Blk) (c : Cmd) : Blk :=
  b.withPart c fun p =>
    let w := fun i => leAt c.m.payload (8 * i) 8
    if 256 ≤ c.m.param then b.badAt c detParam
    else match b.watchFault p (w 0) (w 1) (w 2) (w 3) with
      | some i => b.badAt c (detPay (i / 8 * 8))
      | none => (b.watchPut p c.m.param (w 0) (w 1) (w 2) (w 3)).finish c stOK 0 []

/-! ### Opening a span (R155, R156) -/

def spanIn (pay : List Byte) (i : Nat) : Nat × Nat := (leAt pay (0x10 + 16 * i) 8, leAt pay (0x18 + 16 * i) 8)
def spanOut (pay : List Byte) (ni i : Nat) : Nat × Nat × Nat :=
  let o := 0x10 + 16 * ni + 24 * i
  (leAt pay o 8, leAt pay (o + 8) 8, leAt pay (o + 16) 8)
/-- The offset of the first field of CMD_SPAN_OPEN's payload that is wrong (R155). -/
def Blk.spanFault (b : Blk) (p : Nat) (pay : List Byte) : Option Nat :=
  let w := leAt pay 8 8
  let ni := fld w 15 8
  let no := fld w 23 16
  let ins := (List.range ni).map (spanIn pay)
  let outs := (List.range no).map (spanOut pay ni)
  match coveSet (leAt pay 0 8) with
  | none => some 0
  | some s =>
    if !(setCoves s).all fun v => b.partOfCove v == some p && b.spanOf p v == 0xFF then some 0
    else if fld w 1 0 = 0 || fld w 7 2 != 0 then some 8
    else if 16 < ni then some 9
    else if 16 < no then some 0xA
    else if fld w 63 24 != 0 then some 0xB
    else match firstIdx (fun (r : Nat × Nat) => !b.inPart p r.1 r.2 true) ins 0 with
      | some i => some (0x10 + 16 * i)
      | none => match firstIdx (fun (r : Nat × Nat × Nat) => !b.inPart p r.1 r.2.2 true || !b.inPart p r.2.1 r.2.2 true ||
            (outs.any fun q => meets r.1 r.2.2 q.2.1 q.2.2) || ins.any fun q => meets r.1 r.2.2 q.1 q.2) outs 0 with
        | some i => some (0x10 + 16 * ni + 24 * i)
        | none => none
/-- CMD_SPAN_OPEN: the checkpoint is taken (R155, R156). -/
def Blk.doSpanOpen (b : Blk) (c : Cmd) : Blk :=
  b.withPart c fun p =>
    let pay := c.m.payload
    let w := leAt pay 8 8
    if 16 ≤ c.m.param || (b.span p c.m.param).opened then b.badAt c detParam
    else match b.spanFault p pay with
      | some o => b.badAt c (detPay o)
      | none =>
        let s := (coveSet (leAt pay 0 8)).getD (0, 0)
        let x : Span := { opened := true, ctx := c.ctx, first := s.1, count := s.2, cap := fld w 1 0,
                          inputs := (List.range (fld w 15 8)).map (spanIn pay),
                          outputs := (List.range (fld w 23 16)).map (spanOut pay (fld w 15 8)) }
        ((setCoves s).foldl (fun b v => b.setCove v { b.cove v with checkpoint := b.gens v }) (b.setSpan p c.m.param x)).acceptEnd c stOK 0 []

/-! ### The log (R157) -/

/-- The open spans whose log receives a command of a context, by key. -/
def Blk.logsOf (b : Blk) (c : Cmd) : List (Nat × Span) :=
  if logOps.contains c.m.opcode then b.spans.filter fun p => p.2.opened && p.2.ctx == c.ctx && p.2.closing.isNone else []
/-- Does a logged command keep to the Coves of a span (R157)? -/
def Span.holds (x : Span) (m : Msg) : Bool :=
  if m.opcode / 16 = 0x20 then
    match coveSet m.param with
    | none => true
    | some s => s.2 = 0 || (x.first ≤ s.1 && s.1 + s.2 ≤ x.first + x.count)
  else if m.opcode = 0x302 then
    let y := fld m.param 7 0
    (List.range 16).any fun i => x.first ≤ 16 * y + i && 16 * y + i < x.first + x.count
  else true
def Span.logBytes (x : Span) : Nat := x.log.foldl (fun a l => a + l.m.payload.length + Msg.bulkLen l.m) 0
/-- A command enters the logs that receive it; the status and detail that refuse it (R157). -/
def Blk.logCmd (b : Blk) (c : Cmd) : Except (Nat × Nat) Blk :=
  let ls := b.logsOf c
  if ls.isEmpty || b.logged c.ctx c.seq then .ok b
  else if !ls.all fun p => p.2.holds c.m then .error (stBADPARAM, 0x18)
  else if ls.any fun p => 256 ≤ p.2.log.length || 1048576 < p.2.logBytes + c.m.payload.length + Msg.bulkLen c.m then .error (stBUSY, 1)
  else .ok (ls.foldl (fun b p => { b with spans := sset (fun _ => {}) b.spans p.1 { p.2 with log := p.2.log ++ [{ m := { c.m with bulk := c.got }, tide := c.tide }] } }) b)
/-! ### Closing, committing, replaying (R159 to R163) -/

/-- CMD_SPAN_CLOSE names an open span of its context's partition and waits (R160). -/
def Blk.doSpanClose (b : Blk) (c : Cmd) : Blk :=
  b.withPart c fun p =>
    let x := b.span p c.m.param
    if 16 ≤ c.m.param then b.badAt c detParam
    else if !x.opened || x.ctx != c.ctx || x.closing.isSome then b.badAt c detParam
    else (b.setSpan p c.m.param { x with closing := some c.seq }).accept c
/-- Every logged command of a span receives its final reply, but for one that another open span still holds (R159). -/
def Blk.logReplies (b : Blk) (l : List LogCmd) : Blk :=
  l.foldl (fun b e => if b.logged e.m.ctx e.m.seq then b else
    let d := e.done.getD (stCANCELLED, 0, [])
    b.finalReply e.m true d.1 d.2.1 d.2.2) b
/-- A logged command's last execution counts as ending with ST_OVERFLOW_INF (R163, R170). -/
def LogCmd.inf (l : LogCmd) : Bool :=
  match l.done with
  | none => false
  | some d => d.1 == stINF || (l.m.opcode == 0x201 && (List.range (d.2.2.length / 16)).any fun i => tbit (leAt d.2.2 (16 * i + 3) 1) 0)
/-- The end of a CMD_SPAN_CLOSE: the span is free, the held replies go out, then the close's own, stamped with the commit point. -/
def Blk.spanEnd (b : Blk) (p n st det : Nat) : Blk :=
  let x := b.span p n
  let b1 := (b.setSpan p n {}).logReplies x.log
  match x.closing with
  | none => b1
  | some seq => match b1.cmdOf x.ctx seq with
    | none => b1
    | some c =>
      let t := c.vars.headD b1.tide
      { ({ b1 with tide := t }.finish c st det []) with tide := b1.tide }
/-- The commit point (R160): every logged command has completed and no replay runs. With a surge beyond the cap the close ends
there (R162). -/
def Blk.commitPoint (b : Blk) (p n : Nat) : Blk :=
  let x := b.span p n
  match x.closing with
  | none => b
  | some seq =>
    if !x.opened || x.phase != 0 || !x.log.all (·.done.isSome) then b
    else match b.cmdOf x.ctx seq with
      | none => b
      | some c =>
        let b1 := b.setCmd { c with vars := [b.tide] }
        if x.capped then
          let b2 := x.surging.foldl (fun b s => b.eventP p evSURGE s.2.2) b1
          b2.spanEnd p n stSURGE (x.surging.foldl (fun a s => min a s.1) 255)
        else b1.setSpan p n { x with phase := 2 }
/-- The staging ranges are copied to their destinations and the close completes (R163). An uncorrectable unit met is a hardware
error, and its range is not copied. -/
def Blk.stagingDone (b : Blk) (p n : Nat) : Blk :=
  let x := b.span p n
  if !x.opened || x.phase != 2 then b
  else
    let r := x.outputs.foldl (fun (s : Blk × Option Nat) o =>
      match s.1.rangeUe o.1 o.2.2 with
      | some u => (s.1.hbmUe u p x.ctx (x.closing.getD 0), some (s.2.getD s.1.errDetail))
      | none => (s.1.memWrite p none o.2.1 (s.1.memRead p o.1 o.2.2), s.2)) (b, none)
    let infs := (x.log.filter LogCmd.inf).length
    match r.2 with
    | some d => r.1.spanEnd p n stHWERROR d
    | none => if infs = 0 then r.1.spanEnd p n stOK 0 else r.1.spanEnd p n stINF infs

/-- d of R161. -/
def rescale (maxlog : Int) (target : Nat) : Int :=
  if maxlog = -32768 then 0 else max (-32) (min 32 (-(-maxlog / 16) - sx 8 target))
/-- The policy of one surging slot applied (R161). -/
def Blk.applyPolicy (b : Blk) (p slot : Nat) (maxlog : Int) : Blk :=
  let k := b.watch p slot
  let d := rescale maxlog (fld k.policy 15 8)
  let b1 := if tbit k.policy 0 then
      match b.rangeUe k.tsaddr 4 with
      | some u => b.hbmUe u p 0 0
      | none =>
        let y := r32 (scaleVal (fp32 (leNat (b.memRead p k.tsaddr 4))) d)
        (match y.1 with
         | .fin m _ => if m = 0 then b.setWatch p slot { k with surges := min (k.surges + 1) 65535 }
                       else b.memWrite p none k.tsaddr (leBytes 4 (valToFloat 0xC 0 0 y.1).1)
         | _ => b.setWatch p slot { k with surges := min (k.surges + 1) 65535 })
    else b
  if tbit k.policy 1 then
    let n := fld k.policy 63 32
    match b1.rangeUe k.bsaddr n with
    | some u => b1.hbmUe u p 0 0
    | none => b1.memWrite p none k.bsaddr ((b1.memRead p k.bsaddr n).map fun x =>
        if x.toNat = 0xFF then x else BitVec.ofNat 8 (max 0 (min 0xFE ((x.toNat : Int) + d))).toNat)
  else b1
/-- Have a span's programs stopped and drained, and the DMA it had started completed (R160 step 2)? -/
def Blk.spanDrained (b : Blk) (x : Span) : Bool :=
  !(x.coves.any b.runs) && !(b.bays.any fun y => y.2.descs.any fun d => d.running &&
    (match d.origin with | .cmd ctx seq _ => b.logged ctx seq && x.log.any fun l => l.m.ctx == ctx && l.m.seq == seq | _ => false))
/-- The log's commands leave the machine: those uncompleted, with descriptors not started and requests not answered. -/
def Blk.withdraw (b : Blk) (l : List LogCmd) : Blk :=
  let isIn := fun (ctx seq : Nat) => l.any fun e => e.m.ctx == ctx && e.m.seq == seq
  { b with
    host := { b.host with cmds := b.host.cmds.filter fun c => !isIn c.ctx c.seq }
    bays := smap (fun _ => {}) (fun _ y => { y with descs := y.descs.filter fun d =>
      match d.origin with | .cmd ctx seq _ => !isIn ctx seq | _ => true }) b.bays
    slice := { b.slice with remotes := b.slice.remotes.filter fun r => match r.who with | .cmd ctx seq => !isIn ctx seq | _ => true } }
/-- Steps 3 to 5 of a replay (R160). -/
def Blk.replayDrained (b : Blk) (p n : Nat) : Blk :=
  let x := b.span p n
  if !x.opened || x.phase != 1 || !b.spanDrained x then b
  else
    let slots := (List.range 256).filter fun s => x.surging.any fun q => q.1 == s
    let b1 := slots.foldl (fun b s => match x.surging.find? fun q => q.1 == s with
      | some q => b.applyPolicy p s q.2.1
      | none => b) b
    let b2 := x.coves.foldl (fun b v => b.setGens v (b.cove v).checkpoint) b1
    let b3 := slots.foldl (fun b s => b.setWatch p s { (b.watch p s).empty with late := [] }) b2
    let again := x.log.map fun l => ({ m := l.m, tide := l.tide, got := l.m.bulk, queued := true } : Cmd)
    let b4 := (b3.withdraw x.log).setSpan p n { x with phase := 0, surging := [], replays := x.replays + 1, log := x.log.map fun l => { l with done := none } }
    { b4 with host := { b4.host with cmds := again ++ b4.host.cmds } }

/-- Spans are freed by CTX_CLOSE or a kill (R163): their logged commands complete with ST_CANCELLED, nothing is committed. -/
def Blk.freeSpans (b : Blk) (is : Nat → Span → Bool) : Blk :=
  (b.spans.filter fun q => q.2.opened && is q.1 q.2).foldl (fun b q =>
    let l := q.2.log.map fun e => { e with done := some (stCANCELLED, 0, []) }
    ((b.withdraw l).setSpan (q.1 / 16) (q.1 % 16) {}).logReplies l) b

end Sys2Proof.Machine
end

