-- ==== Sys2Proof/Machine/MemCmd.lean ====
section
/-! DEFINITION. Commands and events about memory: CMD_MEM_WRITE and CMD_MEM_READ, DMA_SUBMIT, TABLE_BUILD, cache and speculation
commands, network ingress, grants, spill copies, and what a memory controller does (R58, R213, R218, R226, R248, R284, R352 to R359,
R370, R383). -/
namespace Sys2Proof.Machine

/-! ### CMD_MEM_WRITE and CMD_MEM_READ (R58, R219, R348) -/

/-- The data of a CMD_MEM_WRITE. -/
def Cmd.data (c : Cmd) : List Byte := if c.flag 14 then c.got else c.m.payload
/-- The mark in vars of a command that waits for an HBM stack, and of one that waits for remote answers. -/
def waitHbm : Nat := 0x355
def waitRemote : Nat := 0x406
/-- The status of a range as a command reports it: a wrong range is a fault of the parameter. -/
def cmdStatus (s : Nat × Nat) : Nat × Nat := if s.1 = stBADPARAM then (stBADPARAM, detParam) else s
/-- Does a command's range meet a Tidepool that discards writes and reads as zeros (R225)? -/
def Blk.rangeLost (b : Blk) (a n : Nat) : Bool := n != 0 && regionOf a == 1 && (covesOf a n).any b.tpLost

/-- A local write of a command, accepted. A partial write to an uncorrectable unit leaves that unit and ends in ST_HW_ERROR. -/
def Blk.memWriteGo (b : Blk) (c : Cmd) : Blk :=
  let a := gLocal c.m.param
  let v := c.data
  match (if regionOf a = 0 then b.hbmHeld a v.length else none) with
  | some k => if c.vars = [waitHbm] then b else (b.countHold k).setCmd { c with vars := [waitHbm] }
  | none =>
    match (if regionOf a = 0 then b.partialUe a v.length else none) with
    | some u => ((b.memWrite c.part none a v).hbmUe u c.part c.ctx c.seq).finish c stHWERROR b.errDetail []
    | none => (b.memWrite c.part none a v).finish c (if b.rangeLost a v.length then stSCRUB else stOK) 0 []
def Blk.doMemWrite (b : Blk) (c : Cmd) : Blk :=
  let n := c.data.length
  let s := b.globalStatus c.part c.m.param n
  if c.flag 14 && leAt c.m.payload 4 4 != 0 then b.badAt c (detPay 4)
  else if s.1 != 0 then b.reject c (cmdStatus s).1 (cmdStatus s).2
  else if n = 0 then b.acceptEnd c stOK 0 []
  else if b.spanInput c.m.param n then b.busy c
  else
    let b1 := b.accept c
    let c1 : Cmd := { c with started := true, queued := true }
    if b.isLocal c.m.param then b1.memWriteGo c1
    else (b1.setCmd { c1 with vars := [waitRemote] }).requestWrites (.cmd c.ctx c.seq) c.part c.m.param 0 c.data

/-- The BULK frames of data returned for a command, then its final reply with the bytes delivered (R40, R58). -/
def Blk.returnData (b : Blk) (c : Cmd) (v : List Byte) (st det : Nat) : Blk :=
  let fr := (List.range (cdiv v.length 1048576)).foldl (fun b i =>
    b.sendOut { kind := 2, ctx := c.ctx, event := false,
                body := leBytes 2 (c.ctx % 4096) ++ zeros 2 ++ leBytes 4 c.seq ++ leBytes 8 (1048576 * i) ++ (v.drop (1048576 * i)).take 1048576 } 0) b
  fr.finish c st det (leBytes 4 v.length ++ zeros 4)
def Blk.memReadGo (b : Blk) (c : Cmd) : Blk :=
  let a := gLocal c.m.param
  let n := leAt c.m.payload 0 4
  match (if regionOf a = 0 then b.hbmHeld a n else none) with
  | some k => if c.vars = [waitHbm] then b else (b.countHold k).setCmd { c with vars := [waitHbm] }
  | none =>
    match b.rangeUe a n with
    | some u => (b.hbmUe u c.part c.ctx c.seq).returnData c (b.memRead c.part a (64 * u - a)) stHWERROR b.errDetail
    | none =>
      let b1 := if regionOf a = 1 then b.tpTouchReads ((a - tpBase) / tpSize) 6 [((a - tpBase) % tpSize, n)] else b
      b1.returnData c (b.memRead c.part a n) (if b.rangeLost a n then stSCRUB else stOK) 0
/-- CMD_MEM_READ: what a scrub-pending partition held reads as zeros (R487). -/
def Blk.doMemRead (b : Blk) (c : Cmd) : Blk :=
  let n := leAt c.m.payload 0 4
  let s := b.globalStatus c.part c.m.param n
  if leAt c.m.payload 4 4 != 0 then b.badAt c (detPay 4)
  else if s.1 = stSCRUB && c.part < nParts && (b.part c.part).st = 3 then
    (b.accept c).returnData { c with started := true } (zeros n) stSCRUB 0
  else if s.1 != 0 then b.reject c (cmdStatus s).1 (cmdStatus s).2
  else if n = 0 then (b.accept c).returnData { c with started := true } [] stOK 0
  else
    let b1 := b.accept c
    let c1 : Cmd := { c with started := true, queued := true }
    if b.isLocal c.m.param then b1.memReadGo c1
    else (b1.setCmd { c1 with vars := [waitRemote] }).requestReads (.cmd c.ctx c.seq) c.part c.m.param 0 n
/-- A memory command that waits for a stack or for remote answers goes on. A read that ends early delivers what came before. -/
def Blk.pollMem (b : Blk) (c : Cmd) : Blk :=
  let who := Requester.cmd c.ctx c.seq
  let rs := b.remotesOf who
  if c.vars = [waitHbm] then (if c.m.opcode = 0x300 then b.memWriteGo c else b.memReadGo c)
  else if c.vars != [waitRemote] || rs.any fun r => r.st.isNone then b
  else
    let bad := rs.find? fun r => r.st != some 0
    let st := match bad with | some r => r.st.getD 0 | none => stOK
    let ok := rs.takeWhile fun r => r.st == some 0
    let b1 := b.dropRemotes who
    let det := if st = stBADPARAM then detParam else if st = stBUSY then 2 else if st = stOK then 0 else openDet
    if c.m.opcode = 0x300 then b1.finish c st det []
    else b1.returnData c (ok.flatMap fun r => bytesAt r.data 0 r.pkt.len) st det

/-! ### CMD_DMA_SUBMIT (R365, R370, R382) -/

/-- The status that keeps a command from a Headland, if any (R455). -/
def Blk.hlReady (b : Blk) (h : Nat) : Option (Nat × Nat) :=
  if (b.hl h).ready = 0 then some (stBUSY, 2) else if (b.hl h).ready = 3 then some (stHWERROR, openDet) else none
/-- Descriptors of a command queued at a Bay's engine, from the i-th on (R365, R382). -/
def Blk.queueDescs (b : Blk) (c : Cmd) (y n : Nat) : Blk :=
  (List.range n).foldl (fun b i =>
    let raw := bytesAt c.m.payload (64 * i) 64
    let r := b.bindDesc y raw
    let x := r.2.bay y
    r.2.setBay y { x with
      descs := x.descs ++ [{ serial := x.nextDesc, queue := 16, raw := raw, cove := 16 * y + leAt raw 2 1 % 16, part := c.part,
                             origin := .cmd c.ctx c.seq i, bound := r.1 }]
      nextDesc := x.nextDesc + 1 }) b
def Blk.doDmaSubmit (b : Blk) (c : Cmd) : Blk :=
  let y := c.m.param
  let n := c.m.plen / 64
  if 256 ≤ y then b.badAt c detParam
  else if !b.covesOk c.part [16 * y] then b.reject c stNOPERM 2
  else if b.coveScrub (16 * y) then b.reject c stSCRUB
  else match b.hlReady (hlOf (16 * y)) with
    | some e => b.reject c e.1 e.2
    | none =>
      if 1024 < n then b.reject c stLENGTH 0xC
      else if 1024 < ((b.bay y).descs.filter fun d => d.queue == 16).length + n then b.reject c stBUSY 1
      else if n = 0 then b.acceptEnd c stOK 0 []
      else (b.accept { c with vars := [n], bytes := zeros (8 * n) }).queueDescs c y n

/-! ### CMD_TABLE_BUILD (R383) -/

def Blk.doTableBuild (b : Blk) (c : Cmd) : Blk :=
  let h := fld c.m.param 3 0
  let t := fld c.m.param 13 8
  let src := leAt c.m.payload 0 8
  let w := leAt c.m.payload 8 8
  let n := fld w 31 0
  let s := b.accessStatus c.part src n
  if c.m.param != h + t * 256 then b.badAt c detParam
  else if c.part != 0xFF && b.partOfHl h != some c.part then b.reject c stNOPERM 2
  else if b.coveScrub (256 * h) then b.reject c stSCRUB
  else match b.hlReady h with
    | some e => b.reject c e.1 e.2
    | none =>
      if 2 ^ 34 ≤ w then b.badAt c (detPay 12)
      else if n = 0 then b.acceptEnd c stOK 0 []
      else if tbit w 32 && n != 128 then b.badAt c (detPay 8)
      else if s.1 != 0 then b.reject c s.1 (if s.1 = stBADPARAM then detPay 0 else s.2)
      else match b.reserveTab h t with
        | none => b.reject c stTABLEBUSY
        | some r => r.2.accept { c with vars := [r.1] }
/-- The build of a table ends: the lengths are read or computed, and the slot becomes CURRENT (R383 steps 2 and 3). -/
def Blk.tableDone (b : Blk) (ctx seq : Nat) : Blk :=
  match b.cmdOf ctx seq with
  | none => b
  | some c =>
    match c.vars with
    | [i] =>
      let h := fld c.m.param 3 0
      let src := leAt c.m.payload 0 8
      let w := leAt c.m.payload 8 8
      let n := fld w 31 0
      if c.m.opcode != 0x303 || !c.started || (b.tab h i).st != 1 || (b.hbmHeld src n).isSome then b
      else match b.rangeUe src n with
        | some u => ((b.setTab h i {}).hbmUe u c.part c.ctx c.seq).finish c stHWERROR b.errDetail []
        | none =>
          let v := b.memRead c.part src n
          let lens := if tbit w 32 then lengthsFrom v else codeLengths (histogram v)
          if tbit w 32 && !lengthsOk lens then (b.setTab h i {}).badAt c (detPay 0)
          else
            let t := b.tab h i
            (b.installTab h i lens (tbit w 33)).finish c stOK 0 (leBytes 8 (t.table % 64 + t.gen % 16 * 2 ^ 8 + i * 2 ^ 16))
    | _ => b

/-! ### Caches and speculation (R213, R284) -/

def Blk.doCacheInvalidate (b : Blk) (c : Cmd) : Blk :=
  b.withCoves c fun cs => (cs.foldl (fun b v => b.setCove v { b.cove v with lines := [] }) b).acceptEnd c stOK 0 []
def Blk.doSpecCommit (b : Blk) (c : Cmd) : Blk :=
  let w := leAt c.m.payload 0 8
  let a := c.m.param
  if 2 ^ 27 ≤ w then b.badAt c (detPay 3)
  else if (b.hbmHeld a 128).isSome then b.setCmd { c with started := true, vars := [waitHbm] }
  else
    let r := b.specCommit c.part a (fld w 22 0) (fld w 26 23)
    r.2.2.finish c r.1 r.2.1 []

/-! ### At the Tidepools (R198, R218, R225, R226) -/

/-- An access arrives through network ingress. A lost Tidepool discards a write and counts it. A reply's bytes land in the Tidepool
of the Cove that asked for them. -/
def Blk.ingress (b : Blk) (a : Ingress) : Blk :=
  let c := a.cove
  match a.kind with
  | .read => b.tpTouchReads c 6 [(a.addr, a.len)]
  | .write => if b.tpLost c then b.cvCount c 0x3820 1 else (b.tpWriteFar c a.addr a.data).bankTouch c 6 a.addr a.data.length
  | .reply => if b.tpLost c then b.cvCount c 0x3820 1 else (b.tpWrite c a.addr a.data).bankTouch c 6 a.addr a.data.length
/-- A local write sets the grant word of an enabled inbox (R218). -/
def Blk.grantWrite (b : Blk) (c i v : Nat) : Blk :=
  let x := (b.cove c).inbox i
  if !x.en then b else b.tpWrite c x.gaddr (leBytes 8 v)
/-- The grant of an inbox reaches its source (R218). -/
def Blk.grantArrive (b : Blk) (c i : Nat) : Blk :=
  let x := (b.cove c).inbox i
  let src := if x.srck = 0 then x.src else x.src % 256
  if !x.en then b
  else match b.credIdx x.srck src c i with
    | none => b
    | some j => b.setCred x.srck src j { b.credAt x.srck src j with grant := x.grant }

/-! ### Spill copies (R248) and the cache portion (R214) -/

def Blk.spillStart (b : Blk) (c : Nat) : Blk :=
  let s := (b.cove c).spill
  if !s.copying && b.spillCanCopy c then b.setSpill c { s with copying := true } else b
def Blk.spillEnd (b : Blk) (c : Nat) : Blk := if (b.cove c).spill.copying && b.spillCanCopy c then b.spillCopy c else b
def Blk.cacheChangeDone (b : Blk) (c : Nat) : Blk :=
  let x := b.cove c
  if x.cacheChanging then b.setCove c { x with cacheChanging := false } else b

/-! ### Memory controllers (R352 to R359) -/

/-- The PATH of the row of an HBM offset (R499). -/
def Blk.rowPath (b : Blk) (a : Nat) : Nat :=
  let l := b.pcBankRow a
  b.stackOf a + l.1 * 16 + l.2.1 * 512 + l.2.2 * 2 ^ 14 + 0xFF * 2 ^ 32
/-- A unit was corrected on a read (R357). -/
def Blk.hbmCe (b : Blk) (u part : Nat) : Blk :=
  let a := 64 * u
  (b.count (cfgMC (b.stackOf a) + 8) 1).addError { cls := 0, kind := 4, code := 0x10, path := b.rowPath a, addr := a, part := if part < nParts then part else 0xFF }
/-- The units of an access that the check bits of its reads are found to say something about: by number, counted from its first. -/
def accUnits (x : HbmAccess) (l : List Nat) : List Nat :=
  (unitsOf x.addr (if x.write then x.data.length else x.len)).zipIdx.filterMap fun p => if l.contains p.2 then some p.1 else none
/-- Is the access refused or held before a controller serves it (R354, R355, R486)? -/
def Blk.hbmStopped (b : Blk) (x : HbmAccess) (n : Nat) : Bool :=
  ((b.stacksOf x.addr n).any fun k => !(b.stack k).usable) || (x.part < nParts && (b.part x.part).st == 3)
/-- An access served (R352, R357, R358). A write reads only the units it covers in part. -/
def Blk.hbmServe (b : Blk) (x : HbmAccess) : Blk :=
  let n := if x.write then x.data.length else x.len
  if b.hbmStopped x n then b
  else match b.hbmHeld x.addr n with
    | some k => b.countHold k
    | none =>
      let reads := (unitsOf x.addr n).filter fun u => !x.write || !coversUnit x.addr n u
      let bad := reads.filter fun u => b.ueUnits.contains u || (accUnits x x.uncorrectable).contains u
      let fixed := reads.filter fun u => !bad.contains u && (accUnits x x.corrected).contains u
      let b1 := { b with ueUnits := b.ueUnits ++ bad.filter fun u => !b.ueUnits.contains u }
      let b2 := fixed.foldl (fun b u => b.hbmCe u x.part) b1
      let b3 := bad.foldl (fun b u => b.hbmUe u (if x.part < nParts then x.part else 0xFF) 0 0) b2
      if x.write then b3.hbmWrite x.part x.addr x.data else b3
/-- A parity error: the controller reissues the command until a reissue passes or the fourth fails (R359). failed is how many
reissues failed. -/
def Blk.hbmParity (b : Blk) (k : Nat) (x : HbmAccess) (failed : Nat) : Blk :=
  let n := min (failed + 1) 4
  let b1 := b.count (cfgMC k + 0x18) n
  let r : ErrRec := { kind := 4, code := 0x12, path := b.rowPath x.addr, addr := x.addr, part := if x.part < nParts then x.part else 0xFF, detail := n }
  if failed < 4 then (b1.addError r).hbmServe x
  else (b1.count (cfgMC k + 0x20) 1).addError { r with cls := 1, status := stHWERROR }
/-- The interval of refresh follows the last temperature readout (R356). -/
def Blk.hbmRefresh (b : Blk) (k : Nat) : Blk := b.setStack k { b.stack k with hotRefresh := 85 ≤ (b.stack k).temp }
def Blk.hbmTemp (b : Blk) (k t : Nat) : Blk := b.setStack k { b.stack k with temp := t % 256 }

end Sys2Proof.Machine
end

