-- ==== Sys2Proof/Machine/Serving.lean ====
section
/-! DEFINITION. Serving: plans, requests, accounts, the steps of a partition's serving engine and their seal (R321 to R346). -/
namespace Sys2Proof.Machine

/-! ### The serving plan (R323) -/

def Plan.at (p : Plan) (off n : Nat) : Nat := leAt p.raw off n
def Plan.nt (p : Plan) : Nat := p.at 0xC 4 % 16
def Plan.nsplit (p : Plan) : Nat := fld (p.at 0xC 4) 7 4 + 1
def Plan.nclass (p : Plan) : Nat := fld (p.at 0xC 4) 10 8 + 1
def Plan.pchunk (p : Plan) : Nat := p.at 0x14 2
def Plan.pmaxe (p : Plan) : Nat := p.at 0x16 2
def Plan.ptok (p : Plan) : Nat := p.at 0x18 4
def Plan.minstep (p : Plan) : Nat := p.at 0x1C 4
def Plan.cls (p : Plan) (c : Nat) : Nat := p.at (0x48 + 2 * c) 2
def Plan.split (p : Plan) (k : Nat) : Nat := p.at (0x58 + 2 * k) 2
def Plan.ledger (p : Plan) (step : Nat) : Nat := p.at 0x38 8 + step % 2 ^ p.at 0x40 8 * 64
/-- The largest class. -/
def Plan.cmax (p : Plan) : Nat := p.cls (p.nclass - 1)
/-- Bytes of a plan with its TS table. -/
def planBytes : Nat := 0x540

/-- The Bays of a partition, in rising order. -/
def Blk.partBays (b : Blk) (p : Nat) : List Nat :=
  (List.range nHeadlands).flatMap fun h => if tbit (b.part p).hlmask h then (List.range 16).map fun i => 16 * h + i else []
/-- Does a range lie in a partition's HBM regions? -/
def Blk.inHbm (b : Blk) (p a n : Nat) : Bool := b.inPart p a n false
/-- The first place where a list that must rise in [1, most] does not. -/
def notRising (lo most : Nat) : List Nat → Nat → Option Nat
  | [], _ => none
  | x :: r, i => if x < lo || most < x then some i else notRising (x + 1) most r (i + 1)
/-- The first field of a plan that is out of range, as the index of its split or class, or 0 for any other field (R14, R267, R323,
R331, R332). -/
def Plan.fault (q : Plan) (b : Blk) (p : Nat) : Option Nat :=
  let w := fun off n => q.at off n
  let logs := w 0x40 8
  let tab := fun off n => w off 8 % 64 == 0 && b.inHbm p (w off 8) n
  match notRising 1 4094 ((List.range q.nclass).map q.cls) 0 with
  | some i => some i
  | none => match notRising 0 (b.partBays p).length ((List.range q.nsplit).map q.split) 0 with
    | some i => some i
    | none =>
      if 4094 < q.cmax * q.nt + q.pmaxe then some (q.nclass - 1)
      else if w 4 4 != 0 || 2 ^ 11 ≤ w 0xC 4 || q.nt = 0 || 8 < q.nt || 1024 ≤ w 0x10 2 || 1024 ≤ w 0x12 2 || q.pchunk = 0 || 4096 < q.pchunk ||
        q.pmaxe = 0 || 256 < q.pmaxe || q.ptok = 0 || 1048576 < q.ptok || w 0x24 2 = 0 || w 0x26 2 = 0 || 256 < w 0x26 2 ||
        logs < 4 || 20 < logs || w 0x130 16 != 0 || !tab 0x28 (64 * (q.cmax + q.pmaxe)) || !tab 0x30 (64 * (q.cmax + q.pmaxe)) ||
        !tab 0x38 (64 * 2 ^ logs) then some 0
      else none

/-! ### Pools, splits and step bounds (R324, R330, R343) -/

/-- The Bays of a pool under split k: the decode pool takes the lowest-numbered Bays (R330). -/
def Plan.pool (q : Plan) (bays : List Nat) (k : Nat) (prefill : Bool) : List Nat :=
  let d := bays.length - q.split k
  if prefill then bays.drop d else bays.take d
def poolCoves (bays : List Nat) : List Nat := bays.flatMap fun y => (List.range 16).map fun i => 16 * y + i
/-- The start image of a pool: s1 to s8, then the plan's IMAGE (R330). -/
def Plan.image (q : Plan) (step c k : Nat) (pool : List Nat) (i : Nat) : Nat :=
  if i = 1 then q.at 0x28 8 else if i = 2 then step else if i = 3 then q.at 0x30 8 else if i = 4 then c else if i = 5 then k
  else if i = 6 then pool.headD 0 else if i = 7 then pool.length else if i = 8 then q.pmaxe else q.at (0x78 + 8 * (i - 9)) 8
/-- Every register of the image but s0. -/
def imageMask : Nat := 2 ^ 32 - 2
def Plan.entry (q : Plan) (prefill : Bool) : Nat := if prefill then q.at 0x12 2 else q.at 0x10 2
/-- Can the walk bound a pool's programs (R195)? -/
def Blk.poolBoundable (b : Blk) (q : Plan) (cs : List Nat) (prefill : Bool) : Bool :=
  cs.all fun c => q.entry prefill < (b.seq c).count && b.boundable cs (q.entry prefill) imageMask c
/-- The walk of a pool in Cove cycles (R195; log entry 4). -/
def Blk.poolWalk (b : Blk) (q : Plan) (bays : List Nat) (c k : Nat) (prefill : Bool) : Nat :=
  let pool := q.pool bays k prefill
  if pool.isEmpty then 0
  else Config.walkBound (b.walked (poolCoves pool)) ((List.range 31).map fun i => BitVec.ofNat 64 (q.image 0 c k pool (i + 1))) (q.entry prefill)
/-- σ of a class in ns (R329). -/
def Plan.sigma (q : Plan) (c : Nat) : Nat := 10000 + 20 * (c * q.nt + q.pmaxe)
/-- TS of split k at class index i (R343). A half nanosecond counts as one. -/
def Blk.stepBound (b : Blk) (q : Plan) (bays : List Nat) (k i : Nat) : Nat :=
  let c := q.cls i
  max q.minstep (5000 + cdiv (max (b.poolWalk q bays c k false) (b.poolWalk q bays c k true)) 2 + q.at 0x20 4 + q.sigma c)
/-- Is split k allowed under the limits (R324)? -/
def Plan.allowed (q : Plan) (nb k : Nat) : Bool :=
  let s := q.split k
  let l := q.lims
  s ≤ nb && l.2.2.1 ≤ s && s ≤ l.2.2.2 && l.1 ≤ nb - s && nb - s ≤ l.2.1
def Plan.splits (q : Plan) (nb : Nat) : List Nat := (List.range q.nsplit).filter (q.allowed nb)
def Plan.tsOf (q : Plan) (k i : Nat) : Nat := nth q.ts (8 * k + i) 0
/-- TSmax of a class index (R343). -/
def Plan.tsMax (q : Plan) (nb i : Nat) : Nat := (q.splits nb).foldl (fun a k => max a (q.tsOf k i)) 0
/-- BCAP: the largest class whose TSmax keeps the smallest promise, or 0; the largest class with no promise (R343). -/
def Plan.bcap (q : Plan) (nb : Nat) (tpot : Option Nat) : Nat :=
  match tpot with
  | none => q.cmax
  | some t => (List.range q.nclass).foldl (fun a i => if q.tsMax nb i ≤ t then max a (q.cls i) else a) 0
def Serve.bounded (x : Serve) : List Req := x.reqs.filter fun r => r.bounded
/-- P_min: the smallest TPOT among live BOUNDED requests (R343). -/
def minTpot (l : List Req) : Option Nat :=
  l.foldl (fun a r => match a with | none => some r.tpot | some t => some (min t r.tpot)) none

/-! ### Installing a plan (R322, R324) -/

/-- PSTATUS of a plan in memory (R323). -/
def Blk.putPstatus (b : Blk) (p addr st reason idx : Nat) : Blk :=
  b.hbmWrite p addr (leBytes 1 st ++ leBytes 1 reason ++ leBytes 2 idx)
/-- CMD_POOL_SET. A later one takes the place of a plan not yet built. -/
def Blk.doPoolSet (b : Blk) (c : Cmd) : Blk :=
  b.withPart c fun p =>
    let w := fun i => leAt c.m.payload (2 * i) 2
    let a := leAt c.m.payload 8 8
    let x := b.serve p
    if c.m.param != 0 then b.badAt c detParam
    else match (List.range 4).find? fun i => 256 < w i with
      | some i => b.badAt c (detPay (2 * i))
      | none =>
        if w 1 < w 0 then b.badAt c (detPay 0)
        else if w 3 < w 2 then b.badAt c (detPay 4)
        else if a = 0 then
          if !x.reqs.isEmpty then b.badAt c (detPay 8)
          else (b.setServe p { x with offNext := x.engine != 0, building := none, next := none }).finish c stOK 0 []
        else if a % 64 != 0 || !b.inHbm p a planBytes then b.badAt c (detPay 8)
        else ((b.putPstatus p a 0 0 0).setServe p { x with offNext := false, building := some { addr := a, lims := (w 0, w 1, w 2, w 3) } }).finish c stOK 0 []
/-- A plan with its TS table computed, or why it is refused: reason and index (R324). -/
def Blk.buildPlan (b : Blk) (p : Nat) (q : Plan) (live : List Req) : Except (Nat × Nat) Plan :=
  let bays := b.partBays p
  match q.fault b p with
  | some i => .error (1, i)
  | none =>
    match (List.range q.nsplit).find? fun k => !(b.poolBoundable q (poolCoves (q.pool bays k false)) false && b.poolBoundable q (poolCoves (q.pool bays k true)) true) with
    | some k => .error (2, k)
    | none =>
      let ts := (List.range 128).map fun j => if j / 8 < q.nsplit && j % 8 < q.nclass then b.stepBound q bays (j / 8) (j % 8) else 0
      let q1 := { q with ts := ts }
      if (q1.splits bays.length).isEmpty then .error (4, 0)
      else if q1.bcap bays.length (minTpot live) < live.length then .error (3, 0)
      else .ok q1
/-- The words of the TS table that the device writes. -/
def Blk.putTs (b : Blk) (p : Nat) (q : Plan) : Blk :=
  (List.range q.nsplit).foldl (fun b k =>
    b.hbmWrite p (q.addr + 0x140 + 64 * k) ((List.range q.nclass).flatMap fun i => leBytes 8 (q.tsOf k i))) b
/-- The build of a plan ends (R324). -/
def Blk.planDone (b : Blk) (p : Nat) : Blk :=
  let x := b.serve p
  match x.building with
  | none => b
  | some q0 =>
    let q := { q0 with raw := b.hbmRead p q0.addr 0x140 }
    match (match b.rangeUe q.addr 0x140 with | some _ => .error (1, 0) | none => b.buildPlan p q x.bounded : Except (Nat × Nat) Plan) with
    | .error e => (b.putPstatus p q.addr 2 e.1 e.2).setServe p { x with building := none }
    | .ok q1 => (b.putTs p q1).setServe p { x with building := none, next := some q1 }

/-! ### Accounts (R339 to R341) -/

/-- 2^32 units make a token. -/
def tokenUnits : Int := 2 ^ 32
/-- The balance of an account refilled to an instant (R340). -/
def Account.refill (a : Account) (t : Nat) : Int :=
  max (-(2 ^ 63)) (min (a.cap * tokenUnits) (a.bal + a.rate * (t - a.last : Nat)))
/-- Has an account balance (R341)? -/
def Account.has (a : Account) : Bool := 0 < a.bal
/-- An account at a step boundary: refilled, then its changes take effect (R339, R340). -/
def Account.atBoundary (a : Account) (t : Nat) : Account :=
  let a1 := { a with bal := a.refill t, last := t }
  match a.next with
  | none => a1
  | some n => { a1 with cap := n.1, rate := n.2.1, pweight := n.2.2.1, weight := n.2.2.2, next := none, fill := false
                        bal := if a.fill then n.1 * tokenUnits else a1.bal }
def Blk.refillAll (b : Blk) (p : Nat) : Blk :=
  { b with accounts := b.accounts.map fun q => (q.1, if q.2.part == some p then q.2.atBoundary b.tide else q.2) }
/-- CMD_ACCOUNT_SET (R339). -/
def Blk.doAccountSet (b : Blk) (c : Cmd) : Blk :=
  b.withPart c fun p =>
    let w := fun off n => leAt c.m.payload off n
    let k := c.m.param
    if nCtxs ≤ k then b.badAt c detParam
    else if w 3 1 != 0 then b.badAt c (detPay 3)
    else if w 0xA 1 = 0 then b.badAt c (detPay 0xA)
    else if 4 ≤ w 0xB 1 then b.badAt c (detPay 0xB)
    else if w 0xC 4 != 0 then b.badAt c (detPay 0xC)
    else
      let a := b.account k
      if a.part.isSome && a.part != some p then b.reject c stNOPERM 2
      else
        let a0 : Account := if a.part.isNone then { part := some p, last := b.tide } else a
        let bal := if a.part.isNone then 0 else a.refill b.tide
        let a1 := if tbit (w 0xB 1) 0 then a
          else { a0 with next := some (w 0 3, w 4 4, w 8 2, w 0xA 1), fill := a0.fill || tbit (w 0xB 1) 1 }
        (b.setAccount k a1).finish c stOK 0 (leBytes 8 (toTwos 64 bal))

/-! ### Requests (R325 to R328, R337, R344) -/

/-- Prompt tokens left to run. -/
def Req.rest (r : Req) : Nat := r.plen - r.run
/-- The final reply of a request and its end (R328): its status, or ST_LATE in place of ST_OK when a token or the deadline was late. -/
def Blk.endReq (b : Blk) (p : Nat) (r : Req) (st : Nat) : Blk :=
  let x := b.serve p
  let dead := x.dead ++ [(r.id, r.out)]
  let b1 := b.setServe p { x with reqs := x.reqs.filter fun q => q.order != r.order, dead := dead.drop (dead.length - 65536) }
  let late := st = stOK && (r.late != 0 || r.missed)
  let pay := leBytes 4 r.out ++ leBytes 4 r.lastStep ++ leBytes 4 r.late ++ leBytes 2 r.reason ++ zeros 2
  match b1.cmdOf r.ctx r.seq with
  | none => b1
  | some c => b1.finish c (if late then stLATE else st) (if late then r.reason else 0) pay
def Serve.inStep (x : Serve) (r : Req) : Bool := match x.step with | some s => s.ents.any fun e => e.req == r.order | none => false
/-- A live request is cancelled: at once, or with the step it is in (R337). -/
def Blk.cancelReq (b : Blk) (p : Nat) (r : Req) : Blk :=
  let x := b.serve p
  if x.inStep r then b.setServe p { x with reqs := x.reqs.map fun q => if q.order = r.order then { q with cancelled := true } else q }
  else b.endReq p r stCANCELLED
/-- CMD_REQ_CANCEL (R337). -/
def Blk.doReqCancel (b : Blk) (c : Cmd) : Blk :=
  b.withPart c fun p =>
    let x := b.serve p
    let pay := fun n => leBytes 4 n ++ zeros 4
    match x.reqs.find? fun r => r.id == c.m.param with
    | some r => (b.cancelReq p r).finish c stOK 0 (pay r.out)
    | none => match x.dead.reverse.find? fun d => d.1 == c.m.param with
      | some d => b.finish c stALREADY 0 (pay d.2)
      | none => b.badAt c detParam

/-- The request that a payload spells (R325). -/
def reqOf (c : Cmd) (order : Nat) : Req :=
  let w := fun off n => leAt c.m.payload off n
  let bd := c.m.cls = 1
  { id := w 0 4, ctx := c.ctx, seq := c.seq, acct := w 4 2 % 4096, prio := w 4 2 / 4096, seqd := w 8 8, paddr := w 0x10 8, plen := w 0x18 4,
    maxnew := w 0x1C 4, tbuf := w 0x20 8, tpot := w 0x28 4, user := bytesAt c.m.payload 0x30 16, bounded := bd,
    st := if w 0x18 4 = 0 then 2 else 0, tok := w 0x2C 4, order := order, deadline := if c.flag 13 && !bd then some c.deadline else none }
/-- The first payload field of a request that breaks R325. -/
def Blk.reqFault (b : Blk) (p : Nat) (x : Serve) (c : Cmd) : Option Nat :=
  let r := reqOf c 0
  if x.reqs.any fun q => q.id == r.id then some 0
  else if leAt c.m.payload 6 2 != 0 then some 6
  else if x.reqs.any fun q => q.seqd == r.seqd then some 8
  else if r.paddr % 4 != 0 || !b.inHbm p r.paddr (4 * r.plen) then some 0x10
  else if 4194304 < r.plen then some 0x18
  else if 4194304 < r.maxnew then some 0x1C
  else if r.tbuf % 4 != 0 || !b.inHbm p r.tbuf (4 * r.maxnew) then some 0x20
  else if (r.tpot = 0) = r.bounded then some 0x28
  else if r.plen != 0 && r.tok != 0 then some 0x2C
  else none
/-- Is the sequence descriptor of a request fit for it (R267, R326)? -/
def Blk.seqdOk (b : Blk) (p : Nat) (r : Req) : Bool :=
  match kvOpen r.seqd { b := b, y := 0, d := { serial := 0, queue := 0, raw := [], cove := 0, part := p, origin := .cmd 0 0 0 } } with
  | .ok (s, _) => s.tent = 0 && s.len + r.plen + r.maxnew ≤ 4194304
  | .error _ => false
/-- The first-token promise of a BOUNDED request, if it is admitted (R344). -/
def Blk.promise (b : Blk) (p : Nat) (x : Serve) (r : Req) : Option Nat :=
  match x.plan with
  | none => none
  | some q =>
    let live := r :: x.bounded
    let nb := (b.partBays p).length
    let cap := q.bcap nb (minTpot live)
    let u := min q.pchunk q.ptok
    let s := (x.bounded.filter fun j => j.out == 0).foldl (fun a j => a + cdiv j.rest u) 0 + max 1 (cdiv r.plen u)
    let ts := ((List.range q.nclass).filter fun i => q.cls i == cap).foldl (fun _ i => q.tsMax nb i) 0
    if (b.account r.acct).has && live.length ≤ cap then some (b.tide + (1 + s) * ts) else none
/-- CMD_REQ_SUBMIT (R326, R328). -/
def Blk.doReqSubmit (b : Blk) (c : Cmd) : Blk :=
  b.withPart c fun p =>
    let x := b.serve p
    let r := reqOf c x.order
    let a := b.account r.acct
    let f := if r.bounded then b.promise p x r else some 0
    if c.m.param != 0 then b.badAt c detParam
    else if x.engine = 0 || (x.engine = 2 && x.building.isNone && x.next.isNone) then b.busy c
    else if 65536 ≤ x.reqs.length then b.reject c stBUSY 1
    else match b.reqFault p x c with
      | some i => b.badAt c (detPay i)
      | none =>
        if (b.hbmHeld 0 hbmEnd).isSome then b.setCmd { c with started := true, vars := [waitHbm] }
        else if !b.seqdOk p r then b.badAt c (detPay 8)
        else if a.part.isSome && a.part != some p then b.reject c stNOPERM 2
        else if a.part.isNone || a.cap = 0 then b.reject c stNOBUDGET 0
        else match f with
          | none => b.reject c stBUSY 3
          | some t =>
            if r.bounded && c.flag 13 && c.deadline < t then b.reject c stBUSY 3
            else if r.maxnew = 0 then (b.accept c (zeros 16)).finish { c with started := true } stOK 0 (zeros 16)
            else (b.accept { c with vars := [] } (leBytes 8 t ++ leBytes 4 r.tpot ++ zeros 4)).setServe p
              { x with reqs := x.reqs ++ [{ r with first := t }], order := x.order + 1 }

/-! ### The step boundary (R329, R331, R333, R335, R342) -/

/-- The plan that waits comes into force (R324). -/
def Blk.swapPlan (b : Blk) (p : Nat) : Blk :=
  let x := b.serve p
  match x.next with
  | none => b
  | some q =>
    let b1 := match x.plan with | some o => b.putPstatus p o.addr 3 0 0 | none => b
    (b1.putPstatus p q.addr 1 0 0).setServe p
      { x with plan := some q, next := none, engine := 1, lastStep := if x.ran then x.lastStep else (q.at 8 4 + 2 ^ 32 - 1) % 2 ^ 32 }
/-- Serving turns OFF at a boundary (R322). -/
def Blk.turnOff (b : Blk) (p : Nat) : Blk :=
  let x := b.serve p
  let b1 := match x.plan with | some o => b.putPstatus p o.addr 3 0 0 | none => b
  b1.setServe p { x with engine := 0, plan := none, offNext := false, split := none }
/-- |a − b|. -/
def natDist (a b : Nat) : Nat := (a - b) + (b - a)
/-- The split of the list whose prefill count is nearest to a target; ties go to the lower count. -/
def Plan.nearest (q : Plan) (r : Nat) (ks : List Nat) : Option Nat :=
  ks.foldl (fun best k => match best with
    | none => some k
    | some j => if natDist (q.split k) r < natDist (q.split j) r then some k else some j) none
def Blk.eligible (b : Blk) (r : Req) : Bool := r.bounded || (b.account r.acct).has
/-- The split of the next step (R333). Where no allowed split lies within MOVE of the current one, the nearest to it is taken. -/
def Blk.chooseSplit (b : Blk) (p : Nat) (x : Serve) (q : Plan) : Option Nat :=
  let nb := (b.partBays p).length
  let el := x.reqs.filter b.eligible
  let qp := (el.filter fun r => r.st != 2).foldl (fun a r => a + r.rest) 0 * 16
  let qd := (el.filter fun r => r.st == 2).length * q.nt * q.at 0x24 2
  let ks := q.splits nb
  let cur := x.split
  let r := if qp + qd = 0 then cur.getD 0 else (2 * nb * qp + (qp + qd) - 1) / (2 * (qp + qd))
  match cur with
  | none => q.nearest r ks
  | some s =>
    if qp + qd = 0 then q.nearest s ks
    else match q.nearest r (ks.filter fun k => natDist (q.split k) s ≤ q.at 0x26 2) with
      | some k => some k
      | none => q.nearest s ks

/-- Up to n requests in order, each with its tokens out of a budget. -/
def takeTok (cost : Req → Nat) : Nat → Nat → List Req → List (Req × Nat)
  | 0, _, _ => []
  | _ + 1, _, [] => []
  | n + 1, tok, r :: l => if tok = 0 then [] else (r, min (cost r) tok) :: takeTok cost n (tok - min (cost r) tok) l
def tokSum (l : List (Req × Nat)) : Nat := l.foldl (fun a q => a + q.2) 0
/-- The lowest account above a with a request in the list, else the lowest (R342). -/
def nextAcct (l : List Req) (a : Nat) : Option Nat :=
  let low := fun (l : List Nat) => l.foldl (fun m x => match m with | none => some x | some y => some (min x y)) none
  match low ((l.map fun r => r.acct).filter fun x => a < x) with
  | some x => some x
  | none => low (l.map fun r => r.acct)
/-- A request put in its place by (PRIO, acceptance). -/
def prioIns (r : Req) : List Req → List Req
  | [] => [r]
  | x :: l => if x.prio < r.prio || (x.prio = r.prio && x.order ≤ r.order) then x :: prioIns r l else r :: x :: l
def byPrio (l : List Req) : List Req := l.foldl (fun a r => prioIns r a) []
/-- The rounds over accounts of R342: the entries taken, and the last account served. -/
def takeTurns (weight : Nat → Nat) (cost : Req → Nat) : Nat → Nat → Nat → Nat → List Req → List (Req × Nat) × Nat
  | 0, _, _, a, _ => ([], a)
  | fuel + 1, free, tok, a, left =>
    if free = 0 || tok = 0 then ([], a)
    else match nextAcct left a with
      | none => ([], a)
      | some x =>
        let t := takeTok cost (min (weight x) free) tok (byPrio (left.filter fun r => r.acct == x))
        let r := takeTurns weight cost fuel (free - t.length) (tok - tokSum t) x (left.filter fun r => !t.any fun q => q.1.order == r.order)
        (t ++ r.1, r.2)
/-- Entries for a list of requests: BOUNDED ones first, then rounds over the accounts with balance. -/
def Blk.takeEntries (b : Blk) (cost : Req → Nat) (free tok rr : Nat) (l : List Req) : List (Req × Nat) × Nat :=
  let bd := takeTok cost free tok (l.filter fun r => r.bounded)
  let el := l.filter fun r => !r.bounded && (b.account r.acct).has
  let r := takeTurns (fun a => (b.account a).weight) cost el.length (free - bd.length) (tok - tokSum bd) rr el
  (bd ++ r.1, r.2)

/-- POS and EPOCH of a request's sequence (R266). -/
def Blk.seqState (b : Blk) (p : Nat) (r : Req) : Nat × Nat :=
  let v := b.hbmRead p r.seqd 8
  (fld (leAt v 0 4) 22 0, fld (leAt v 4 4) 26 23)
/-- The 64 bytes of a batch entry (R331). -/
def batchBytes (r : Req) (e : StepEnt) : List Byte :=
  leBytes 4 r.id ++ leBytes 1 (2 * bnat (!r.begun) + 4 * bnat e.lastChunk) ++ leBytes 1 e.epoch ++ leBytes 2 r.acct ++ leBytes 8 r.seqd ++
  leBytes 4 e.pos ++ leBytes 4 e.count ++ leBytes 8 (if e.prefill then r.paddr + 4 * r.run else 0) ++ leBytes 4 (if e.prefill then 0 else r.tok) ++
  zeros 4 ++ r.user ++ zeros 8
def emptyEntry : List Byte := [1#8] ++ zeros 63
/-- The head of a ledger entry that opens (R335). -/
def ledgerOpen (s : Step) : List Byte := leBytes 4 s.num ++ [1#8] ++ leBytes 1 s.split ++ leBytes 2 s.cls ++ leBytes 8 s.start
/-- The boundary of a running engine: the step's batch is formed and its tables written. -/
def Blk.openStep (b : Blk) (p : Nat) (q : Plan) (k : Nat) : Blk :=
  let x := b.serve p
  let nb := (b.partBays p).length
  let live := x.reqs.filter fun r => !r.cancelled
  let d := b.takeEntries (fun _ => 1) (q.bcap nb (minTpot x.bounded)) 4096 x.rrDec (live.filter fun r => r.st == 2)
  let f := b.takeEntries (fun r => min q.pchunk r.rest) q.pmaxe q.ptok x.rrPre (live.filter fun r => r.st != 2 && r.rest != 0)
  let ci := ((List.range q.nclass).find? fun i => d.1.length ≤ q.cls i).getD (q.nclass - 1)
  let c := q.cls ci
  let ent := fun (prefill : Bool) (base : Nat) (t : (Req × Nat) × Nat) =>
    let s := b.seqState p t.1.1
    ({ place := base + t.2, req := t.1.1.order, prefill := prefill, pos := s.1, count := t.1.2, epoch := s.2,
       lastChunk := prefill && t.1.1.rest == t.1.2 } : StepEnt)
  let ents := d.1.zipIdx.map (ent false 0) ++ f.1.zipIdx.map (ent true c)
  let table := (List.range (c + q.pmaxe)).flatMap fun i =>
    match ents.find? fun e => e.place == i with
    | none => zeros 4 ++ emptyEntry.take 60
    | some e => match x.reqs.find? fun r => r.order == e.req with | some r => batchBytes r e | none => zeros 64
  let r := b.freeVal 0x329
  let s : Step := { num := (x.lastStep + 1) % 2 ^ 32, cls := c, split := k, ts := q.tsOf k ci, start := b.tide + r.1 % 5001, ents := ents,
                    deferred := (live.filter fun r => !r.bounded && !(b.account r.acct).has).length }
  let b1 := (r.2.hbmWrite p (q.at 0x28 8) table).hbmWrite p (q.ledger s.num) (ledgerOpen s)
  b1.setServe p { x with
    step := some s, ran := true, lastStep := s.num, rrDec := d.2, rrPre := f.2, split := some (q.split k), nextBnd := b.tide + q.minstep
    reqs := x.reqs.map fun r => if ents.any fun e => e.req == r.order then { r with begun := true } else r }
/-- Does serving wait: intake stopped, the device in low power, or an HBM stack that holds accesses (R346, R355)? -/
def Blk.serveWaits (b : Blk) : Bool := b.host.intakeStopped || 2 ≤ b.dev.power || b.devMode != 4 || (b.hbmHeld 0 hbmEnd).isSome
/-- A step boundary (R329 step 1). With the engine OFF or HALTED it only brings a plan into force or turns serving OFF. -/
def Blk.stepBoundary (b : Blk) (p : Nat) : Blk :=
  let x := b.serve p
  if b.serveWaits || x.step.isSome || x.halting || (x.engine != 1 && x.next.isNone && !x.offNext) then b
  else
    let b1 := ({ b with tide := max b.tide x.nextBnd }).refillAll p
    if x.offNext && x.next.isNone then b1.turnOff p
    else
      let b2 := b1.swapPlan p
      match (b2.serve p).plan with
      | none => b2
      | some q => match b2.chooseSplit p (b2.serve p) q with
        | none => b2
        | some k => b2.openStep p q k

/-! ### The start instant (R329 step 2, R330) -/

def Blk.startPool (b : Blk) (p : Nat) (q : Plan) (s : Step) (prefill : Bool) : Blk :=
  let pool := q.pool (b.partBays p) s.split prefill
  (poolCoves pool).foldl (fun b v => b.setSeq v ((b.seq v).begin (q.entry prefill) imageMask fun i => q.image s.num s.cls s.split pool (i + 1))) b
/-- Both pools start, once no Cove of the partition runs. -/
def Blk.stepStart (b : Blk) (p : Nat) : Blk :=
  let x := b.serve p
  match x.step, x.plan with
  | some s, some q =>
    if s.started || (b.partCoves p).any b.runs then b
    else
      let b1 := ({ b with tide := max b.tide s.start }).wakeParts [some p]
      ((b1.startPool p q s false).startPool p q s true).setServe p { x with step := some { s with started := true } }
  | _, _ => b

/-! ### The seal (R332, R334 to R336, R341, R345) -/

/-- Does a result obey R332? -/
def resultOk (r : Req) (e : StepEnt) (nt : Nat) (v : List Byte) : Bool :=
  let n := leAt v 5 1
  leAt v 0 4 == r.id && leAt v 4 1 ≤ 2 && (if e.prefill then n ≤ bnat e.lastChunk else n ≤ nt) && leAt v 6 2 == 0 &&
  leNat (v.drop (8 + 4 * n)) == 0
/-- The tokens a sealed entry commits (R332). -/
def StepEnt.commitN (e : StepEnt) (v : List Byte) : Nat := if e.prefill then e.count else leAt v 5 1
/-- The result of an entry. -/
def Blk.resultOf (b : Blk) (p : Nat) (q : Plan) (e : StepEnt) : List Byte := b.hbmRead p (q.at 0x30 8 + 64 * e.place) 64
def Serve.reqOf (x : Serve) (e : StepEnt) : Option Req := x.reqs.find? fun r => r.order == e.req
/-- May a step be sealed: every exit HALTED, every result and every commit sound (R332)? -/
def Blk.sealOk (b : Blk) (p : Nat) (x : Serve) (q : Plan) (s : Step) : Bool :=
  (poolCoves (b.partBays p)).all (fun v => (b.seq v).exit.state == 3) &&
  s.ents.all fun e => match x.reqOf e with
    | none => false
    | some r =>
      let v := b.resultOf p q e
      (b.rangeUe (q.at 0x30 8 + 64 * e.place) 64).isNone && resultOk r e q.nt v && (b.specCommit p r.seqd (e.commitN v) e.epoch).1 == stOK
/-- The fields of a ledger entry beyond START (R335). -/
def ledgerRest (s : Step) (at0 out late ptok cancelled reason : Nat) : List Byte :=
  let d := (s.ents.filter fun e => !e.prefill).length
  leBytes 8 at0 ++ leBytes 2 d ++ leBytes 2 (s.ents.length - d) ++ leBytes 2 out ++ leBytes 2 late ++ leBytes 4 ptok ++ leBytes 2 cancelled ++
  leBytes 2 s.deferred ++ leBytes 4 s.ts ++ leBytes 2 reason ++ zeros 18
def Blk.putLedger (b : Blk) (p : Nat) (q : Plan) (s : Step) (st : Nat) (rest : List Byte) : Blk :=
  (b.hbmWrite p (q.ledger s.num + 0x10) rest).hbmWrite p (q.ledger s.num) (leBytes 4 s.num ++ leBytes 1 st ++ leBytes 1 s.split ++ leBytes 2 s.cls)
/-- The requests of a step that were cancelled end (R337). -/
def Blk.endCancelled (b : Blk) (p : Nat) : Blk := ((b.serve p).reqs.filter fun r => r.cancelled).foldl (fun b r => b.endReq p r stCANCELLED) b
/-- Live BOUNDED requests are delayed: their late tokens name reason 6 (R332, R345). -/
def Serve.hold (x : Serve) : Serve := { x with reqs := x.reqs.map fun r => if r.bounded then { r with held := true } else r }
/-- A step is abandoned (R332). -/
def Blk.abandonStep (b : Blk) (p : Nat) (q : Plan) (s : Step) : Blk :=
  let gone := ((b.serve p).reqs.filter fun r => r.cancelled).length
  let b1 := b.putLedger p q s 3 (ledgerRest s 0 0 0 0 gone 0)
  let b2 := b1.addError { cls := 1, kind := 0, code := 0x50, part := p }
  (b2.setServe p { (b2.serve p).hold with step := none, engine := 2, halting := false, stalled := false }).endCancelled p

/-- Why a late token is late (R345). Throttling is the only cause of a Cove clock below 2.0 GHz. What exceeds XM is not timed by the
model: reason 4 is named where no other is known to apply. -/
def Blk.tokenReason (b : Blk) (x : Serve) (r : Req) (coves : List Nat) : Nat :=
  let n := b.lateReason coves
  if n != 4 then n else if x.stalled then 5 else if r.held then 6 else 4
/-- What the seal gathers: the machine, the STEP_OUTPUT entries as (context, late, bytes), the prompt tokens, the first late reason, the
requests that end as (order, status). -/
structure SealAcc where
  b : Blk
  outs : List (Nat × Bool × List Byte) := []
  ptok : Nat := 0
  reason : Nat := 0
  ended : List (Nat × Nat) := []

/-- The entries of a request's tokens in STEP_OUTPUT (R336). -/
def outEntries (r : Req) (n : Nat) (v : List Byte) (ends : Bool) (reason : Nat) : List (Nat × Bool × List Byte) :=
  (List.range n).map fun j =>
    let last := j + 1 = n
    let st := leAt v 4 1
    (r.ctx, reason != 0,
      leBytes 4 r.id ++ bytesAt v (8 + 4 * j) 4 ++ leBytes 4 (r.out + j) ++
      leBytes 2 (bnat (r.out + j = 0) + 2 * bnat (last && ends) + 4 * bnat (reason != 0) + 8 * bnat (last && st = 2) + 16 * bnat (last && st = 1)) ++
      leBytes 2 reason)
/-- One entry sealed: committed, charged, delivered, its request advanced (R334, R341, R345). -/
def SealAcc.entry (z : SealAcc) (p : Nat) (q : Plan) (s : Step) (coves : List Nat) (e : StepEnt) : SealAcc :=
  let b := z.b
  let x := b.serve p
  match x.reqOf e with
  | none => z
  | some r =>
    if r.cancelled then z
    else
      let v := b.resultOf p q e
      let n := min (leAt v 5 1) (r.maxnew - r.out)
      let a := b.account r.acct
      let cost : Int := if e.prefill then (e.count * a.pweight * 2 ^ 24 : Nat) else (leAt v 5 1 * 2 ^ 32 : Nat)
      let b1 := (b.specCommit p r.seqd (e.commitN v) e.epoch).2.2
      let b2 := b1.setAccount r.acct { a with bal := max (-(2 ^ 63)) (a.bal - cost) }
      let b3 := b2.hbmWrite p (r.tbuf + 4 * r.out) (bytesAt v 8 (4 * n))
      let late := r.bounded && n != 0 && (if r.out = 0 then r.first < b.tide else r.sealAt + r.tpot < b.tide)
      let why := if late then b.tokenReason x r coves else 0
      let miss := n != 0 && r.out = 0 && (match r.deadline with | some t => t < b.tide | none => false)
      let st := leAt v 4 1
      let ends := if st = 2 then some stSURGE else if st = 1 || r.out + n = r.maxnew then some stOK else none
      let run := if e.prefill then r.run + e.count else r.run
      let r1 := { r with
        run := run, out := r.out + n, st := if r.st = 2 || r.out + n != 0 then 2 else 1, tok := if n = 0 then r.tok else leAt v (8 + 4 * (n - 1)) 4
        sealAt := if n = 0 then r.sealAt else b.tide, lastStep := if n = 0 then r.lastStep else s.num, late := r.late + (if late then n else 0)
        reason := if r.reason != 0 then r.reason else if late then why else if miss then 7 else 0, missed := r.missed || miss
        held := r.held && n == 0 }
      { z with
        b := b3.setServe p { x with reqs := x.reqs.map fun y => if y.order = r.order then r1 else y }
        outs := z.outs ++ outEntries r n v ends.isSome why
        ptok := z.ptok + (if e.prefill then e.count else 0)
        reason := if z.reason != 0 then z.reason else why
        ended := z.ended ++ (match ends with | some t => [(r.order, t)] | none => []) }
/-- The STEP_OUTPUT event of a context (R336). -/
def Blk.stepOutput (b : Blk) (p : Nat) (s : Step) (at0 : Nat) (outs : List (Nat × Bool × List Byte)) (c : Nat) : Blk :=
  let mine := outs.filter fun o => o.1 == c
  b.eventTo [c] evSTEPOUTPUT (leBytes 4 s.num ++ leBytes 1 p ++ leBytes 1 (bnat (mine.any fun o => o.2.1)) ++ leBytes 2 mine.length ++ leBytes 8 at0 ++
    leBytes 8 s.start ++ zeros 8 ++ mine.flatMap fun o => o.2.2)
/-- The contexts of a list of entries, each once, in rising order. -/
def outCtxs (outs : List (Nat × Bool × List Byte)) : List Nat := outs.foldl (fun l o => if l.contains o.1 then l else insNat o.1 l) []
/-- The seal of a step and what follows from it (R334). -/
def Blk.sealStep (b : Blk) (p : Nat) (q : Plan) (s : Step) : Blk :=
  let coves := poolCoves (b.partBays p)
  let z : SealAcc := s.ents.foldl (fun (z : SealAcc) e => z.entry p q s coves e) { b := b }
  let x := z.b.serve p
  let gone := (s.ents.filter fun e => match x.reqOf e with | some r => r.cancelled | none => false).length
  let b1 := z.b.putLedger p q s 2 (ledgerRest s b.tide z.outs.length (z.outs.filter fun o => o.2.1).length z.ptok gone z.reason)
  let b2 := b1.setServe p { (if x.halting then x.hold else x) with step := none, stalled := false, engine := if x.halting then 2 else x.engine, halting := false }
  let b3 := (outCtxs z.outs).foldl (fun b c => b.stepOutput p s b2.tide z.outs c) b2
  let b4 := z.ended.foldl (fun b d => match (b.serve p).reqs.find? fun r => r.order == d.1 with | some r => b.endReq p r d.2 | none => b) b3
  b4.endCancelled p
/-- Both pools are done: the step is sealed or abandoned (R329 steps 3 and 4). While intake is stopped the step waits, and its late
tokens name reason 5 (R346). -/
def Blk.poolsDone (b : Blk) (p : Nat) : Blk :=
  let x := b.serve p
  match x.step, x.plan with
  | some s, some q =>
    if !s.started || (poolCoves (b.partBays p)).any b.runs then b
    else if b.host.intakeStopped then b.setServe p { x with stalled := true }
    else if b.serveWaits then b
    else if b.sealOk p x q s then b.sealStep p q s else b.abandonStep p q s
  | _, _ => b

/-! ### Interruption (R338, R346) -/

/-- Live requests are cancelled where a test holds. -/
def Blk.cancelReqs (b : Blk) (is : Req → Bool) : Blk :=
  (List.range nParts).foldl (fun b p => ((b.serve p).reqs.filter is).foldl (fun b r => b.cancelReq p r) b) b
/-- A kill: the engine goes OFF and every request ends at once (R338). -/
def Blk.killServe (b : Blk) (p : Nat) : Blk :=
  let x := b.serve p
  let b1 := b.setServe p { x with engine := 0, step := none, plan := none, building := none, next := none, offNext := false, split := none, halting := false }
  x.reqs.foldl (fun b r => b.endReq p r stCANCELLED) b1
/-- Entry to NEAP or DORMANT: an engine between steps becomes HALTED at once, one in a step when it seals (R346). -/
def Blk.haltServing (b : Blk) : Blk :=
  (List.range nParts).foldl (fun b p =>
    let x := b.serve p
    if x.engine != 1 then b
    else if x.step.isSome then b.setServe p { x with halting := true } else b.setServe p { x.hold with engine := 2 }) b

end Sys2Proof.Machine
end

