-- ==== Sys2Proof/Machine/Links.lean ====
section
/-! DEFINITION. The links: training, the cabling check, CMD_LINK_SET, lanes, flits and their replay (R387 to R403). LINKCTL messages
that this end sends stand in Link.ctlOut, coded as log entry 25 gives; those of the peer arrive as rows of their own. -/
namespace Sys2Proof.Machine

/-! ### RESET_DONE (R460, R461) -/

/-- RESET_DONE: kind and target coded as in CMD_RESET's parameter, then the bitmap, which DV_LOST keeps (R460). -/
def Blk.resetDone (b : Blk) (kind target bitmap : Nat) (part : Option Nat) : Blk :=
  let b1 := { b with dev := { b.dev with lost := bitmap, lostKind := kind } }
  let pay := leBytes 4 (kind + target * 2 ^ 16) ++ leBytes 4 bitmap
  match part with
  | some p => b1.eventP p evRESETDONE pay
  | none => b1.event0 evRESETDONE pay

/-! ### LINKCTL messages (R390) -/

def Blk.linkSend (b : Blk) (k : Nat) (msg : List Byte) : Blk :=
  let l := b.link k
  b.setLink k { l with ctlOut := l.ctlOut ++ [msg] }
def ctlNak (fseq : Nat) : List Byte := [0#8] ++ leBytes 2 fseq
def Blk.ctlIdentity (b : Blk) (k : Nat) : List Byte :=
  [1#8] ++ leBytes 8 Config.serial.toNat ++ leBytes 2 b.slice.devid ++ leBytes 1 k ++ leBytes 4 b.slice.sliceid
def ctlLane (lane : Nat) : List Byte := [2#8] ++ leBytes 1 lane
def ctlWidth (half : Nat) : List Byte := [3#8] ++ leBytes 1 half
def ctlFence : List Byte := [4#8]
def ctlActive : List Byte := [5#8]

/-- The command that waits for a link ends, when it waits for one of the given kinds. A LINK reset also sends RESET_DONE (R461). -/
def Blk.linkCmdEnd (b : Blk) (k : Nat) (kinds : List Nat) (st det : Nat) (payload : List Byte := []) : Blk :=
  let l := b.link k
  match l.cmd with
  | none => b
  | some w =>
    if !kinds.contains l.cmdKind then b
    else
      let b1 := b.setLink k { l with cmd := none }
      let b2 := match b1.cmdOf w.1 w.2 with | some c => b1.finish c st det payload | none => b1
      if l.cmdKind = 5 then b2.resetDone 5 k 0 none else b2

/-! ### Training and the cabling check (R400 to R402) -/

def Blk.planEnt (b : Blk) (k : Nat) : Option PlanEnt := b.slice.plan.map fun l => nth l k {}
/-- Does link i report the peer expected on link j? -/
def Blk.reportsFor (b : Blk) (i j : Nat) : Bool :=
  match b.planEnt j with
  | none => false
  | some e => (b.link i).reported && (b.link i).peerSerial == e.serial && (b.link i).peerPort == e.port
/-- The result of the check of a link that has its peer's report: state, cause, SWAPPEER (R402). -/
def Blk.checkLink (b : Blk) (k : Nat) : Nat × Nat × Nat :=
  let l := b.link k
  match b.planEnt k with
  | none => (4, 1, 0)
  | some e =>
    match (List.range nLinks).find? fun j => j != k && b.reportsFor k j && b.reportsFor j k && !b.reportsFor k k with
    | some j => (4, 2, j)
    | none =>
      if l.peerSerial != e.serial then (4, 3, 0)
      else if l.peerDev != e.peerId then (4, 4, 0)
      else if l.peerPort != e.port || l.peerPort / 4 != Nat.xor (k / 4) 1 then (4, 5, 0)
      else if e.fence then (5, 0, 0)
      else if l.peerSlice != e.slice then (4, 6, 0)
      else (6, 0, 0)
/-- A link is trained in CHECKING and beyond (R399). -/
def Link.trained (l : Link) : Bool := 3 ≤ l.st
/-- The state of a link that passes the check: a FENCED one stays so until CMD_LINK_SET ACTIVE. -/
def Link.passed (l : Link) : Nat := if l.st = 5 then 5 else if l.four then 7 else 6
/-- The check of one link applied. Leaving CHECKING sends READY, and the command that waits for the resulting state ends (R400, R403,
R453). -/
def Blk.applyCheck (b : Blk) (k : Nat) : Blk :=
  let l := b.link k
  if !l.trained || !l.reported then b
  else
    let r := b.checkLink k
    let b1 := b.setLink k { l with cause := r.2.1, swapPeer := r.2.2 }
    let st1 := if r.1 = 6 then l.passed else r.1
    let b2 := if st1 = 6 || st1 = 7 then b1.linkState k st1 else b1.linkLeave k st1
    let b3 := if l.st = 3 then b2.event0 evREADY (leBytes 1 3 ++ leBytes 1 k ++ zeros 6) else b2
    b3.linkCmdEnd k [1, 5] stOK 0
/-- The check of a link, and of the link it is swapped with. -/
def Blk.recheck (b : Blk) (k : Nat) : Blk :=
  let r := b.checkLink k
  let b1 := b.applyCheck k
  if r.2.1 = 2 then b1.applyCheck r.2.2 else b1
/-- Signal on all nine lanes of an enabled link starts training (R400, R453). -/
def Blk.linkSignal (b : Blk) (k : Nat) : Blk :=
  let l := b.link k
  if b.dev.svc && !b.dev.fatal && l.enabled && l.st == 1 then b.linkState k 2 else b
/-- Training ends: the spare lane chosen by error counts that the manual does not give is a free value; identities are exchanged
(R397, R400). -/
def Blk.linkTrained (b : Blk) (k : Nat) : Blk :=
  let l := b.link k
  if l.st != 2 then b
  else
    let r := b.freeVal 0x397
    let sp := r.1 % 9
    let b1 := r.2.setLink k { l with spare := sp, lanes := (List.range 9).filter (· != sp), failed := 0, darkLanes := 0, four := false, halfHigh := false
                                     reported := false, switching := none, askedSelf := false, askedPeer := false, fencedPeer := false, trainFails := 0 }
    (b1.linkState k 3).linkSend k (b1.ctlIdentity k)
/-- 150 ms without CHECKING: DOWN, and again; the third failure ends the command that waits (R400, R403). -/
def Blk.linkTrainFail (b : Blk) (k : Nat) : Blk :=
  let l := b.link k
  if l.st != 2 then b
  else
    let b1 := (b.linkState k 1).setLink k { (b.linkState k 1).link k with trainFails := l.trainFails + 1 }
    if 3 ≤ l.trainFails + 1 then b1.linkCmdEnd k [1, 5] stHWERROR openDet else b1
/-- The peer's identity arrives (R400, R402). -/
def Blk.linkIdentity (b : Blk) (k serial devid port slice : Nat) : Blk :=
  let l := b.link k
  if !l.trained then b
  else (b.setLink k { l with reported := true, peerSerial := serial % 2 ^ 64, peerDev := devid % 2 ^ 14, peerPort := port % 32, peerSlice := slice % 2 ^ 32 }).recheck k
/-- A link trains anew: from TRAINING when it was trained, else from DOWN (R400, R466). -/
def Blk.retrain (b : Blk) (k : Nat) : Blk :=
  let b1 := b.setLink k { b.link k with enabled := true, trainFails := 0 }
  if (b.link k).trained then b1.linkLeave k 2 else if (b.link k).st = 0 then b1.linkState k 1 else b1

/-! ### CMD_LINK_SET (R403) -/

def Blk.linkWait (b : Blk) (k kind : Nat) (c : Cmd) : Blk := (b.accept c).setLink k { (b.accept c).link k with cmd := some (c.ctx, c.seq), cmdKind := kind }
/-- Both ends have asked for ACTIVE: the link carries traffic. -/
def Blk.linkActivate (b : Blk) (k : Nat) : Blk :=
  let l := b.link k
  if l.st = 5 && l.askedSelf && l.askedPeer then
    ((b.setLink k { l with askedSelf := false, askedPeer := false, fencedPeer := false }).linkState k (if l.four then 7 else 6)).linkCmdEnd k [3] stOK 0
  else b
def Blk.doLinkSet (b : Blk) (c : Cmd) : Blk :=
  let p := c.m.param
  let k := fld p 4 0
  let t := fld p 10 8
  let l := b.link k
  if p != k + t * 256 || nLinks ≤ k || 4 ≤ t then b.badAt c detParam
  else if l.cmd.isSome then b.busy c
  else if t = 0 then ((b.linkLeave k 0).setLink k { (b.linkLeave k 0).link k with enabled := false, cause := 0 }).acceptEnd c stOK 0 []
  else if t = 1 then
    if l.trained && l.st != 7 then (if l.reported then (b.linkWait k 1 c).recheck k else b.linkWait k 1 c) else (b.linkWait k 1 c).retrain k
  else if t = 2 then
    if !l.trained then b.busy c
    else if l.st = 5 && l.fencedPeer then b.acceptEnd c stOK 0 []
    else ((b.linkWait k 2 c).linkLeave k 5).linkSend k ctlFence
  else
    if l.st != 5 || !l.reported || (b.checkLink k).1 != 6 then b.busy c
    else
      let b1 := (b.linkWait k 3 c).linkSend k ctlActive
      (b1.setLink k { b1.link k with askedSelf := true, cause := 0 }).linkActivate k
/-- The peer has not asked for ACTIVE within 10 ms. -/
def Blk.linkAskTimeout (b : Blk) (k : Nat) : Blk :=
  let l := b.link k
  if l.askedSelf && l.cmdKind = 3 then (b.setLink k { l with askedSelf := false }).linkCmdEnd k [3] stFENCED 0 else b
/-- The peer asks for ACTIVE. -/
def Blk.linkAskRx (b : Blk) (k : Nat) : Blk :=
  let l := b.link k
  if l.trained then (b.setLink k { l with askedPeer := true }).linkActivate k else b
/-- The peer fences its end: this end is fenced too, and answers (R403). -/
def Blk.linkFenceRx (b : Blk) (k : Nat) : Blk :=
  let l := b.link k
  if !l.trained then b
  else
    let b1 := b.setLink k { l with fencedPeer := true, askedPeer := false }
    if l.st = 5 then b1.linkCmdEnd k [2] stOK 0 else (b1.linkLeave k 5).linkSend k ctlFence

/-- CMD_CABLING_PLAN: the 24 entries, and the check again on every trained link; a link with no peer expected goes DISABLED (R401). -/
def planEntOf (v : List Byte) (k : Nat) : PlanEnt :=
  let o := 16 * k
  { serial := leAt v o 8, peerId := leAt v (o + 8) 2, port := leAt v (o + 0xA) 1 % 32, fence := tbit (leAt v (o + 0xA) 1) 5,
    unused := tbit (leAt v (o + 0xA) 1) 6, slice := leAt v (o + 0xC) 4 }
def planFault (v : List Byte) : Option Nat :=
  (List.range nLinks).findSome? fun k =>
    let o := 16 * k
    if 2 ^ 14 ≤ leAt v (o + 8) 2 then some (o + 8)
    else if tbit (leAt v (o + 0xA) 1) 7 || nLinks ≤ leAt v (o + 0xA) 1 % 32 then some (o + 0xA)
    else if leAt v (o + 0xB) 1 != 0 then some (o + 0xB) else none
def Blk.disableLink (b : Blk) (k : Nat) : Blk := (b.linkLeave k 0).setLink k { (b.linkLeave k 0).link k with enabled := false, cause := 0, swapPeer := 0 }
def Blk.doCablingPlan (b : Blk) (c : Cmd) : Blk :=
  if c.m.param != 0 then b.badAt c detParam
  else match planFault c.m.payload with
    | some o => b.badAt c (detPay o)
    | none =>
      let ents := (List.range nLinks).map (planEntOf c.m.payload)
      let b1 := { b with slice := { b.slice with plan := some ents } }
      ((List.range nLinks).foldl (fun b k => if (nth ents k {}).unused then b.disableLink k else b.recheck k) b1).finish c stOK 0 []

/-! ### Lanes (R397, R398) -/

/-- The logical lanes that carry traffic. -/
def Link.active (l : Link) : List Nat := if !l.four then l.lanes else if l.halfHigh then l.lanes.drop 4 else l.lanes.take 4
def Link.halfOk (l : Link) (hi : Bool) : Bool := !((if hi then l.lanes.drop 4 else l.lanes.take 4).any fun x => tbit l.failed x)
/-- DATA flits stop for a lane switch or a width change, and the peer is told. -/
def Blk.startSwitch (b : Blk) (k kind arg : Nat) : Blk :=
  (b.setLink k { b.link k with switching := some (kind, arg) }).linkSend k (if kind = 0 then ctlLane arg else ctlWidth arg)
/-- What a link does about a failed lane among those that carry traffic: spare it, wait for the host, fall to four lanes, or go DOWN. -/
def Blk.recoverLanes (b : Blk) (k : Nat) : Blk :=
  let l := b.link k
  let ctl := b.cfgGet (cfgLK k)
  if !l.carries || l.switching.isSome then b
  else match l.active.find? fun x => tbit l.failed x with
    | none => b
    | some lane =>
      if l.spare != 0xF then (if tbit ctl 0 then b.startSwitch k 0 lane else b)
      else if tbit ctl 1 && !l.four && l.halfOk false then b.startSwitch k 1 0
      else if tbit ctl 1 && !l.four && l.halfOk true then b.startSwitch k 1 1
      else b.linkDown k
/-- The record of a failed lane: CORRECTED when a spare takes its place, else CONTAINED with a proposal to retire it (R500, R505). -/
def Blk.laneRecord (b : Blk) (k lane : Nat) (spared : Bool) : Blk :=
  b.addError { cls := bnat (!spared), kind := 5, code := 0x20, path := k + lane * 256, proposal := if spared then 0 else 2 }
/-- A lane of a link that carries traffic fails. When it is the spare in training for another lane, that switch fails (R398). -/
def Blk.laneFail (b : Blk) (k lane : Nat) : Blk :=
  let l := b.link k
  if !l.carries || tbit l.failed lane then b
  else
    let b1 := b.setLink k { l with failed := l.failed + 2 ^ lane }
    if lane = l.spare then
      let was : Bool := match l.switching with | some s => s.1 == 0 | none => false
      let b2 := (b1.setLink k { b1.link k with spare := 0xF, switching := if was then none else l.switching }).laneRecord k lane false
      ((if was then b2.linkCmdEnd k [4] stHWERROR (b2.err.next - 1) else b2).recoverLanes k)
    else (b1.laneRecord k lane (l.spare != 0xF && tbit (b.cfgGet (cfgLK k)) 0 && l.switching.isNone && l.active.contains lane)).recoverLanes k
/-- A lane loses signal; five of them make the link DOWN (R394, R397). -/
def Blk.laneDark (b : Blk) (k lane : Nat) : Blk :=
  let l := b.link k
  if tbit l.darkLanes lane then b
  else
    let b1 := b.setLink k { l with darkLanes := l.darkLanes + 2 ^ lane }
    if 5 ≤ popCount (l.darkLanes + 2 ^ lane) 9 && l.trained then b1.linkDown k else b1.laneFail k lane
/-- A lane switch or width change ends, and DATA flits resume; a repair command reports its stall (R397, R506). -/
def Blk.switchDone (b : Blk) (k : Nat) : Blk :=
  let l := b.link k
  match l.switching with
  | none => b
  | some s =>
    let l1 := if s.1 = 0 then { l with lanes := l.lanes.map (fun x => if x = s.2 then l.spare else x), spare := 0xF, switching := none }
              else { l with four := true, halfHigh := s.2 == 1, switching := none }
    let b1 := (b.setLink k l1).count (cfgLK k + 0x80) 1
    let b2 := if l1.four && l1.st = 6 then b1.linkState k 7 else b1
    let stall := match l.cmd with
      | some w => (match b2.cmdOf w.1 w.2 with | some c => b2.tide - c.vars.headD b2.tide | none => 0)
      | none => 0
    ((b2.linkCmdEnd k [4] stOK 0 (leBytes 8 stall)).transmit k).recoverLanes k
/-- A sparing (0) or width (1) message of the peer (R397). -/
def Blk.laneMsg (b : Blk) (k kind arg : Nat) : Blk :=
  let l := b.link k
  if !l.carries || l.switching.isSome then b
  else if kind = 0 && l.spare != 0xF && l.lanes.contains arg then b.setLink k { l with switching := some (0, arg) }
  else if kind = 1 && !l.four then b.setLink k { l with switching := some (1, arg % 2) }
  else b
/-- CMD_LANE_SPARE of a link (R398). -/
def Blk.doLaneSpareLink (b : Blk) (c : Cmd) : Blk :=
  let p := c.m.param
  let k := fld p 4 0
  let lane := fld p 11 8
  let l := b.link k
  if p != k + lane * 256 + 65536 || nLinks ≤ k || 9 ≤ lane || lane = l.spare then b.badAt c detParam
  else if l.st != 6 || l.spare = 0xF || l.switching.isSome || l.cmd.isSome || !l.lanes.contains lane then b.busy c
  else (b.linkWait k 4 { c with vars := [b.tide] }).startSwitch k 0 lane

/-! ### Flits and replay (R390 to R395) -/

/-- The flits from the i-th unacknowledged one on are sent again; sixteen resends without progress make the link DOWN (R394). -/
def Blk.resend (b : Blk) (k i : Nat) : Blk :=
  let l := b.link k
  let b1 := (b.setLink k { l with resends := l.resends + 1 }).count (cfgLK k + 0x58) (l.sent.length - i)
  if 16 ≤ l.resends + 1 then b1.linkDown k else b1
def Blk.linkNakRx (b : Blk) (k fseq : Nat) : Blk :=
  match firstIdx (fun (q : Nat × Nat × Nat × Pkt) => q.1 == fseq) (b.link k).sent 0 with
  | some i => if (b.link k).carries then b.resend k i else b
  | none => b
def Blk.replayTimeout (b : Blk) (k : Nat) : Blk :=
  if (b.link k).carries && !(b.link k).sent.isEmpty then b.resend k 0 else b
/-- ACK of a flit: the flits it covers leave the replay buffer. -/
def Link.ack (l : Link) (fseq : Nat) : Link :=
  match firstIdx (fun (q : Nat × Nat × Nat × Pkt) => q.1 == fseq) l.sent 0 with
  | some i => { l with sent := l.sent.drop (i + 1), resends := 0 }
  | none => l
/-- A receive window with one PSEQ taken, or none when it is a duplicate (R395). -/
def FaceRx.slide : Nat → FaceRx → FaceRx
  | 0, x => x
  | n + 1, x => if x.marked.contains x.low then FaceRx.slide n { low := (x.low + 1) % 2 ^ 32, marked := x.marked.erase x.low } else x
def FaceRx.take (x : FaceRx) (pseq : Nat) : Option FaceRx :=
  if 2 ^ 31 ≤ (pseq + 2 ^ 32 - x.low) % 2 ^ 32 || x.marked.contains pseq then none
  else some (FaceRx.slide (x.marked.length + 1) { x with marked := x.marked ++ [pseq] })
def Blk.faceRxOf (b : Blk) (face : Nat) : FaceRx := sget (fun _ => {}) b.slice.faceRx face
/-- A whole packet received on a link: a duplicate is discarded and counted. -/
def Blk.packetIn (b : Blk) (k : Nat) (p : Pkt) (deliver : Blk → Nat → Pkt → Blk) : Blk :=
  match (b.faceRxOf (k / 4)).take p.pseq with
  | none => b.count (cfgLK k + 0x60) 1
  | some x => deliver { b with slice := { b.slice with faceRx := sset (fun _ => {}) b.slice.faceRx (k / 4) x } } k p
/-- A flit that is not taken: NAK names the FSEQ expected, once until it arrives (R394). -/
def Blk.flitNak (b : Blk) (k : Nat) : Blk :=
  let l := b.link k
  if l.nakSent then b else (b.setLink k { l with nakSent := true }).linkSend k (ctlNak l.rxNext)
/-- A DATA flit in order. -/
def Blk.flitData (b : Blk) (k : Nat) (f : List Byte) (deliver : Blk → Nat → Pkt → Blk) : Blk :=
  let l := b.link k
  let w := leAt f 0 1
  let vc := fld w 7 4
  if !l.carries then b
  else if leAt f 1 2 != l.rxNext then b.flitNak k
  else
    let v := Machine.sget (fun _ => []) l.asm vc ++ bytesAt f 0xC (min (leAt f 7 1) 240)
    let last := tbit w 2
    let l1 := { l with rxNext := (l.rxNext + 1) % 65536, nakSent := false, asm := sset (fun _ => []) l.asm vc (if last then [] else v) }
    let b1 := (b.setLink k l1).count (cfgLK k + 0x70) 1
    if last then b1.packetIn k (pktParse v) deliver else b1
/-- A flit arrives: its CRC, its ACK and credits, its data (R390, R392, R394). -/
def Blk.flitRx (b : Blk) (k : Nat) (f : List Byte) (deliver : Blk → Nat → Pkt → Blk) : Blk :=
  let l := b.link k
  if !l.trained then b
  else if f.length != 256 || crc32c (f.take 252) != leAt f 252 4 then (b.count (cfgLK k + 0x50) 1).flitNak k
  else
    let vc := leAt f 5 1 % 16
    let l1 := { l.ack (leAt f 3 2) with credits := sset (fun _ => 8) l.credits vc (l.credit vc + leAt f 6 1), ctlOut := [] }
    let b1 := (b.setLink k l1).transmit k
    if leAt f 0 1 % 4 = 1 then b1.flitData k f deliver else b1

end Sys2Proof.Machine
end

