-- ==== Sys2Proof/Machine/Slice.lean ====
section
/-! DEFINITION. The slice: joining, route tables, windows, the packets of remote accesses and their notices (R404 to R416). -/
namespace Sys2Proof.Machine

/-! ### CMD_SLICE_JOIN (R404) -/

/-- Size − 1 of a dimension in DIMS, and its WRAP bit. -/
def dimOf (dims d : Nat) : Nat := if d = 0 then fld dims 4 0 else if d = 1 then fld dims 9 5 else fld dims 13 10
def inDims (dims dev : Nat) : Bool := (List.range 3).all fun d => coordOf dev d ≤ dimOf dims d
def joinFault (v : List Byte) : Option Nat :=
  let dims := leAt v 8 4
  if 2 ^ 14 ≤ leAt v 0 2 || !inDims dims (leAt v 0 2) then some 0
  else if leAt v 2 2 != leAt v 2 1 % 8 then some 2
  else if leAt v 4 4 = 0 then some 4
  else if 2 ^ 17 ≤ dims || (List.range 3).any (fun d => tbit dims (14 + d) && dimOf dims d ≤ 1) then some 8
  else if 2 ^ 14 ≤ leAt v 0xC 4 || !inDims dims (leAt v 0xC 2) || (tbit (leAt v 2 1) 0 && leAt v 0xC 2 != leAt v 0 2) then some 0xC
  else none
/-- Identities are exchanged again on every trained link. -/
def Blk.identities (b : Blk) : Blk := (List.range nLinks).foldl (fun b k => if (b.link k).trained then b.linkSend k (b.ctlIdentity k) else b) b
def Blk.join (b : Blk) (v : List Byte) : Blk :=
  let hm := tbit (leAt v 2 1) 0
  let b1 := { b with slice := { b.slice with joined := true, devid := leAt v 0 2, harbour := hm, extref := tbit (leAt v 2 1) 1, sliceid := leAt v 4 4,
                                             dims := leAt v 8 4, hmid := leAt v 0xC 2 }
                     sync := if hm then { b.sync with st := 2, parent := 7, offset := 0 } else if b.slice.harbour then { b.sync with st := 1 } else b.sync }
  (List.range 6).foldl (fun b f => b.reportFace f) b1.identities
/-- LEAVE: no identity, and every trained link QUARANTINED with cause SLICE. -/
def Blk.leaveSlice (b : Blk) : Blk :=
  let b1 := { b with slice := { b.slice with joined := false, devid := 0, harbour := false, extref := false, sliceid := 0, dims := 0, hmid := 0, darkFaces := [] }
                     sync := { b.sync with st := 0, parent := 7, offset := 0, run := 0, faces := [] } }
  (List.range nLinks).foldl (fun b k =>
    if (b.link k).trained then (b.setLink k { b.link k with cause := 6, swapPeer := 0 }).linkLeave k 4 else b) b1
def Blk.doSliceJoin (b : Blk) (c : Cmd) : Blk :=
  let v := c.m.payload
  if c.m.param != 0 then b.badAt c detParam
  else if tbit (leAt v 2 1) 2 then
    (if leNat v != 4 * 2 ^ 16 then b.badAt c (if leAt v 0 2 != 0 then detPay 0 else if leAt v 2 2 != 4 then detPay 2 else detPay 4)
     else b.leaveSlice.acceptEnd c stOK 0 [])
  else match joinFault v with
    | some o => b.badAt c (detPay o)
    | none => if b.slice.joined && b.slice.sliceid != leAt v 4 4 then b.busy c else (b.join v).acceptEnd c stOK 0 []

/-! ### CMD_ROUTE_SHADOW (R409) -/

/-- The shadow table with entries written from one on. -/
def putRoutes (base : List (Nat × Nat)) (first : Nat) (es : List Nat) : List (Nat × Nat) := ssetRun (fun _ => 0) base first es
/-- Is an entry of destination d fit for an image (R409)? -/
def routeOk (me d e : Nat) (image : List (Nat × Nat)) : Bool :=
  e < 2 ^ 17 && rtMode e != 3 &&
  (rtMode e = 0 || (rtVia e != me && rtVia e != d && rtMember (sget (fun _ => 0) image (rtVia e))))
def Blk.doRouteShadow (b : Blk) (c : Cmd) : Blk :=
  let w := leAt c.m.payload 0 8
  let first := fld w 13 0
  let n := fld w 29 16 + 1
  let es := (List.range n).map fun i => leAt c.got (4 * i) 4
  let image := putRoutes (if tbit w 32 then b.slice.routes else b.slice.shadow) first es
  if c.m.param != 0 then b.badAt c detParam
  else if w != first + (n - 1) * 2 ^ 16 + bnat (tbit w 32) * 2 ^ 32 || 16384 < first + n then b.badAt c (detPay 0)
  else if !(es.zipIdx.all fun q => routeOk b.slice.devid (first + q.2) q.1 image) then b.reject c stBADPARAM
  else ({ b with slice := { b.slice with shadow := image } }).acceptEnd c stOK 0 []

/-! ### Windows (R415, R416) -/

def Slice.window (s : Slice) (i : Nat) : Window := sget (fun _ => {}) s.windows i
def Blk.setWindow (b : Blk) (i : Nat) (x : Window) : Blk := { b with slice := { b.slice with windows := sset (fun _ => {}) b.slice.windows i x } }
def Blk.doWindowOpen (b : Blk) (c : Cmd) : Blk :=
  let base := leAt c.m.payload 0 8
  let len := leAt c.m.payload 8 8
  let w := leAt c.m.payload 0x10 8
  if c.m.param != 0 then b.badAt c detParam
  else if base % 4096 != 0 || regionOf base != 1 then b.badAt c (detPay 0)
  else if len % 4096 != 0 || len = 0 || 2 ^ 34 < len || tpEnd < base + len then b.badAt c (detPay 8)
  else if w != fld w 13 0 + fld w 17 16 * 2 ^ 16 then b.badAt c (detPay 0x10)
  else if (c.part != 0xFF && (covesOf base len).any fun v => b.partOfCove v != some c.part) || b.touchesCache base len then b.badAt c (detPay 0)
  else if (covesOf base len).any b.coveScrub then b.reject c stSCRUB
  else if b.slice.fmode = 1 then b.busy c
  else match (List.range 16).find? fun i => !(b.slice.window i).opened with
    | none => b.reject c stBUSY 1
    | some i =>
      (b.setWindow i { opened := true, base := base, len := len, peer := fld w 13 0, writes := tbit w 16, reads := tbit w 17, part := c.part }).finish c stOK 0
        (leBytes 8 i)
/-- CMD_WINDOW_CLOSE: every accepted access is over when the command runs. -/
def Blk.doWindowClose (b : Blk) (c : Cmd) : Blk :=
  let i := c.m.param
  if 16 ≤ i then b.badAt c detParam
  else if !(b.slice.window i).opened then b.busy c
  else if c.part != 0xFF && (b.slice.window i).part != c.part then b.reject c stNOPERM 2
  else (b.setWindow i {}).acceptEnd c stOK 0 []
/-- Windows closed where a test holds. -/
def Blk.closeWindows (b : Blk) (is : Window → Bool) : Blk :=
  { b with slice := { b.slice with windows := b.slice.windows.filter fun w => !is w.2 } }
/-- Does an open window admit a peer's access (R416)? -/
def Blk.windowAdmits (b : Blk) (peer a n : Nat) (write : Bool) : Bool :=
  b.slice.windows.any fun q => q.2.opened && q.2.peer == peer && (if write then q.2.writes else q.2.reads) && q.2.base ≤ a && a + n ≤ q.2.base + q.2.len

/-! ### Packets for this device (R406, R411, R471, R486) -/

/-- The status of a remote access, 0 when it may proceed. -/
def Blk.pktStatus (b : Blk) (p : Pkt) (write : Bool) : Nat :=
  let n := pktLen p
  let a := p.addr
  if 2 ≤ b.dev.power then stBUSY
  else if 2 ^ 43 ≤ a || 4096 < n || (write && p.data.length != n) then stBADPARAM
  else if n = 0 then 0
  else if !inRegion a n then stBADPARAM
  else if regionOf a = 1 then
    (if (covesOf a n).any b.coveScrub then stSCRUB else if !b.windowAdmits p.src a n write then stWINDOW else if b.touchesCache a n then stBADPARAM else 0)
  else (b.accessStatus p.part a n).1
/-- An access that meets a stack that holds is counted there, and served when the stack goes on. -/
def Blk.pktHold (b : Blk) (p : Pkt) : Blk :=
  if regionOf p.addr = 0 then (match b.hbmHeld p.addr (pktLen p) with | some k => b.countHold k | none => b) else b
/-- A WRITE is applied and acknowledged. -/
def Blk.pktWrite (b : Blk) (p : Pkt) : Blk :=
  let st := b.pktStatus p true
  let ack := fun (b : Blk) (st : Nat) => b.sendReply { dst := p.src, kind := 4, part := p.part, tag := p.tag, addr := p.addr, status := st }
  if st != 0 then ack b st
  else
    let b0 := b.pktHold p
    let b1 := b0.memWrite p.part none p.addr p.data
    match (if regionOf p.addr = 0 then b.partialUe p.addr p.data.length else none) with
    | some u => ack (b1.hbmUe u (if p.part < nParts then p.part else 0xFF) 0 0) stHWERROR
    | none => ack b1 (if b.rangeLost p.addr (pktLen p) then stSCRUB else 0)
/-- A READ is answered with READ_DATA. -/
def Blk.pktRead (b : Blk) (p : Pkt) : Blk :=
  let st := b.pktStatus p false
  let n := pktLen p
  let back := fun (b : Blk) (st : Nat) (v : List Byte) =>
    b.sendReply { dst := p.src, kind := 3, part := p.part, tag := p.tag, addr := p.addr, len := v.length, status := st, data := v }
  if st != 0 then back b st []
  else
    let b0 := b.pktHold p
    match b.rangeUe p.addr n with
    | some u => back (b0.hbmUe u (if p.part < nParts then p.part else 0xFF) 0 0) stHWERROR []
    | none =>
      let b1 := if n != 0 && regionOf p.addr = 1 then b0.tpTouchReads ((p.addr - tpBase) / tpSize) 6 [((p.addr - tpBase) % tpSize, n)] else b0
      back b1 (if b.rangeLost p.addr n then stSCRUB else 0) (b.memRead p.part p.addr n)
/-- A reply of the kind its request asks for (R406). -/
def Blk.pktReply (b : Blk) (p : Pkt) (kind : Nat) : Blk :=
  match b.remoteOf p.tag with
  | some r => if r.pkt.kind = kind && r.pkt.dst = p.src then b.setRemote { r with st := some p.status, data := p.data } else b
  | none => b
/-- A NOTICE: of a collective packet it waits to be acted on; of a request it resends or ends the access (R411). -/
def Blk.pktNotice (b : Blk) (p : Pkt) : Blk :=
  let b1 := b.count 0x820 1
  let q := if p.data.length < 32 then pktParse (bytesAt p.data 0 32) else pktParse p.data
  if 0x10 ≤ q.kind then { b1 with slice := { b1.slice with notices := b1.slice.notices ++ [(p.cause % 256, q)] } }
  else match b1.remoteOf p.tag with
    | some r => if p.cause % 256 = 3 then b1.setRemote { r with st := some stROUTELOST } else b1.noticeFor r.pkt (p.cause % 256)
    | none => b1
/-- A request without reply or notice (R411). -/
def Blk.remoteTimeout (b : Blk) (tag : Nat) : Blk :=
  match b.remoteOf tag with
  | some r => b.setRemote { r with st := some stROUTELOST }
  | none => b

end Sys2Proof.Machine
end

