-- ==== Sys2Proof/Machine/Coll.lean ====
section
/-! DEFINITION. Collective channels: posting, the order of combination, the traffic of each operation, failure (R420 to R440). -/
namespace Sys2Proof.Machine

/-! ### Operation records (R425, R428) -/

def rOp (v : List Byte) : Nat := leAt v 0 1
def rFmt (v : List Byte) : Nat := leAt v 1 1
def rAnchor (v : List Byte) : Nat := leAt v 2 1
def rK (v : List Byte) : Nat := leAt v 3 1
def rRoot (v : List Byte) : Nat := leAt v 4 2
def rCount (v : List Byte) : Nat := leAt v 8 4
def rSeq (v : List Byte) : Nat := leAt v 0xC 4
def rSrc (v : List Byte) : Nat := leAt v 0x10 8
def rDst (v : List Byte) : Nat := leAt v 0x18 8
def rSizes (v : List Byte) : Nat := leAt v 0x20 8
def rRsizes (v : List Byte) : Nat := leAt v 0x28 8
def rDcap (v : List Byte) : Nat := leAt v 0x30 4
/-- Bytes of an element, and of one in the partial format (R428, R431). -/
def collEl (fmt : Nat) : Nat := nth [4, 8, 16, 4, 2] fmt 4
def collPart (fmt : Nat) : Nat := nth [4, 8, 16, 4, 4] fmt 4
/-- Bytes that an operation reads at SRC and writes at DST of one participant. -/
def srcBytes (v : List Byte) : Nat :=
  if rOp v = 6 then 16 * rCount v else if rOp v = 4 || rOp v = 5 then 0 else rCount v * collEl (rFmt v)
def dstBytes (v : List Byte) (n : Nat) : Nat :=
  if rOp v = 6 then 16 * rK v else if rOp v = 4 then rDcap v else if rOp v = 5 then 0
  else if rOp v = 1 then rCount v * collEl (rFmt v) / n else if rOp v = 2 then n * rCount v * collEl (rFmt v) else rCount v * collEl (rFmt v)
/-- May a participant of a Cove name a range: none, HBM of its partition, or the program region of its own Tidepool (R425)? -/
def Blk.collRange (b : Blk) (part cove a n : Nat) : Bool :=
  a = 0 || n = 0 || b.inPart part a n false || (tpAddr cove 0 ≤ a && a + n ≤ tpAddr cove (b.progEnd cove))
/-- Does the n-th record of a participant obey R425? -/
def Blk.recordOk (b : Blk) (x : Chan) (cove seq : Nat) (v : List Byte) : Bool :=
  let m := x.members.length
  let op := rOp v
  let f := rFmt v
  op ≤ 6 && f ≤ 4 && ((op != 4 && op != 5) || f == 0) && (op != 6 || f == 0 || f == 3) &&
  (f == 1 || f == 2 || rAnchor v == 0) && (if op = 6 then 1 ≤ rK v && rK v ≤ 16 else rK v == 0) &&
  (if op = 3 then rRoot v < m else rRoot v == 0) && leAt v 6 2 == 0 && rSeq v == seq % 2 ^ 32 && leAt v 0x34 12 == 0 &&
  (op != 1 || rCount v % m == 0) && b.collRange x.part cove (rSrc v) (srcBytes v) && b.collRange x.part cove (rDst v) (dstBytes v m) &&
  (op != 4 || (b.collRange x.part cove (rSizes v) (4 * m) && b.collRange x.part cove (rRsizes v) (4 * m)))

/-! ### Addition (R431, R435) -/

/-- IEEE 754 binary32 addition of two codes under RNE, the NaN canonical. -/
def addFp32 (x y : Nat) : Nat := if x = 2 ^ 31 && y = 2 ^ 31 then 2 ^ 31 else toFP32 (vAdd (fp32 x) (fp32 y))
/-- Addition of two's complement codes with an absorbing INF code at the bottom of the range. -/
def addInf (bits x y : Nat) : Nat :=
  let inf := 2 ^ (bits - 1)
  let s := sx bits x + sx bits y
  if x = inf || y = inf || inf ≤ s.natAbs then inf else toTwos bits s
def addEl (fmt x y : Nat) : Nat := if fmt = 0 then addInf 32 x y else if fmt = 1 then addInf 64 x y else if fmt = 2 then addInf 128 x y else addFp32 x y
/-- Two partials of one format added element by element, the left one first. -/
def addPartials (fmt : Nat) (x y : List Byte) : List Byte :=
  let w := collPart fmt
  (List.range (x.length / w)).flatMap fun i => leBytes w (addEl fmt (leAt x (w * i) w) (leAt y (w * i) w))
/-- Does a TOPK record rank above another: by value, then by the lower position? -/
def topAbove (fmt : Nat) (x y : List Byte) : Bool :=
  let p := leAt x 0 4
  let q := leAt y 0 4
  let lo := leAt x 8 8 < leAt y 8 8
  if fmt = 0 then sx 32 q < sx 32 p || (p = q && lo)
  else match fp32 p, fp32 q with
    | .nan, .nan => lo
    | .nan, _ => false
    | _, .nan => true
    | u, v => vLt v u || (!vLt u v && lo)
def topIns (fmt : Nat) (r : List Byte) : List (List Byte) → List (List Byte)
  | [] => [r]
  | x :: l => if topAbove fmt r x then r :: x :: l else x :: topIns fmt r l
/-- The K highest-ranked records of two lists (R435). -/
def topMerge (fmt k : Nat) (x y : List Byte) : List Byte :=
  ((runsOf 16 ((x ++ y).length / 16) (x ++ y)).foldl (fun l r => (topIns fmt r l).take k) []).flatten
/-- The combination of two partials, an empty one adding nothing. -/
def combine (v x y : List Byte) : List Byte :=
  if x.isEmpty then y else if y.isEmpty then x else if rOp v = 6 then topMerge (rFmt v) (rK v) x y else addPartials (rFmt v) x y
/-- The fixed tree of R433 over a list: neighbours are combined, level by level. -/
def pairParts (v : List Byte) : List (List Byte) → List (List Byte)
  | x :: y :: l => combine v x y :: pairParts v l
  | l => l
def treeCombine (v : List Byte) : Nat → List (List Byte) → List Byte
  | 0, l => l.headD []
  | n + 1, l => treeCombine v n (pairParts v l)
/-- A contribution in the partial format: BF16 elements widened, TOPK records cut to the K highest (R431, R435). -/
def toPartial (v s : List Byte) : List Byte :=
  if rOp v = 6 then topMerge (rFmt v) (rK v) s []
  else if rFmt v = 4 then (List.range (s.length / 2)).flatMap fun i => zeros 2 ++ bytesAt s (2 * i) 2
  else s
/-- One result element in its format: NaN canonical, BF16 rounded once. -/
def resultEl (fmt x : Nat) : Nat :=
  if fmt = 3 then (if fp32 x = .nan then 0x7FC00000 else x)
  else if fmt = 4 then (if x = 2 ^ 31 then 0x8000 else (valToFloat 0xB 0 0 (fp32 x)).1)
  else x
def resultBytes (fmt : Nat) (p : List Byte) : List Byte :=
  let w := collPart fmt
  (List.range (p.length / w)).flatMap fun i => leBytes (collEl fmt) (resultEl fmt (leAt p (w * i) w))
/-- Is an element of a format INF or non-finite? -/
def elInf (fmt x : Nat) : Bool :=
  if fmt ≤ 2 then x == 2 ^ (8 * collEl fmt - 1) else if fmt = 3 then x / 2 ^ 23 % 256 == 255 else x / 2 ^ 7 % 256 == 255
def countInf (fmt : Nat) (s : List Byte) : Nat :=
  ((List.range (s.length / collEl fmt)).filter fun i => elInf fmt (leAt s (collEl fmt * i) (collEl fmt))).length
/-- The K records of a TOPK result, padded (R435). -/
def topResult (v p : List Byte) : List Byte :=
  let pad := leBytes 4 (if rFmt v = 0 then 0x80000000 else 0x7FC00000) ++ zeros 4 ++ leBytes 8 (2 ^ 64 - 1)
  p ++ (List.range (rK v - p.length / 16)).flatMap fun _ => pad

/-! ### Members, packets, completion records (R427, R432, R433, R436) -/

def Chan.memberIdx (x : Chan) (dev : Nat) : Option Nat := firstIdx (fun m => m == dev) x.members 0
def Chan.n (x : Chan) : Nat := x.members.length
/-- The level of a member in the tree: the power of two that divides its index; member 0 lies above every level. -/
def treeLevel (n i : Nat) : Nat := if i = 0 then Nat.log2 n + 1 else ((List.range 15).find? fun l => i / 2 ^ l % 2 == 1).getD 0
/-- The members that send partials to this one, in the order in which their partials are added: the one before it in the chain, or its
children in the tree by rising level. -/
def Chan.upstream (x : Chan) : List Nat :=
  if x.kind = 0 then (if x.self = 0 then [] else [x.self - 1])
  else (List.range (treeLevel x.n x.self)).filterMap fun l => if x.self + 2 ^ l < x.n then some (x.self + 2 ^ l) else none
/-- The member that takes this one's partials; none at the one where the result forms. -/
def Chan.downstream (x : Chan) : Option Nat :=
  if x.kind = 0 then (if x.self + 1 < x.n then some (x.self + 1) else none)
  else if x.self = 0 then none else some (x.self - 2 ^ treeLevel x.n x.self)
def collPkt (ch : Nat) (x : Chan) (kind m seq chunk sig : Nat) (data : List Byte) : Pkt :=
  { dst := nth x.members m 0, kind := kind, part := x.part, tag := ch, addr := seq % 2 ^ 32 + chunk * 2 ^ 32, len := data.length + x.gen * 65536,
    status := sig % 65536, cause := sig / 65536, data := data }
/-- A collective packet leaves; one that no route carries is noted as its own notice, 4 for a lost route (R410, R411, R439). -/
def Blk.collSend (b : Blk) (p : Pkt) : Blk :=
  let r := b.originate p
  match r.2 with
  | none => r.1
  | some st => { r.1 with slice := { r.1.slice with notices := r.1.slice.notices ++ [(if st = stABSENT then 2 else 4, { p with src := b.slice.devid })] } }
/-- A packet to every other member. -/
def Blk.collAll (b : Blk) (ch : Nat) (x : Chan) (kind seq sig : Nat) (data : List Byte) : Blk :=
  ((List.range x.n).filter fun m => m != x.self).foldl (fun b m => b.collSend (collPkt ch x kind m seq 0 sig data)) b
/-- A chunk sent and kept until it is acknowledged (R438). -/
def Blk.collChunk (b : Blk) (ch m chunk : Nat) (data : List Byte) : Blk :=
  let x := b.chan ch
  match x.op with
  | none => b
  | some o =>
    let p := collPkt ch x 0x10 m o.seq chunk o.sig data
    (b.setChan ch { x with op := some { o with sent := o.sent ++ [(m, chunk, 0, p)] } }).collSend p

/-- The 64 bytes of a completion record (R427). -/
def doneRecord (seq st det progress infs tide : Nat) : List Byte :=
  leBytes 4 seq ++ leBytes 2 st ++ leBytes 2 det ++ leBytes 4 progress ++ leBytes 4 infs ++ leBytes 8 tide ++ zeros 40
/-- Completion records go into the completion rings as credit allows, in order for each ring (R427). -/
def Blk.flushOwed (b : Blk) (ch : Nat) : Blk :=
  let r := (b.chan ch).owed.foldl (fun (s : Blk × List (Nat × Nat × List Byte)) q =>
    let ring := (s.1.cove q.1).ring q.2.1
    match s.1.prodIdx q.1 q.1 q.2.1 with
    | none => s
    | some j =>
      let k := (s.1.cove q.1).prodEnt j
      if !ring.en then s
      else if k.credits = 0 || s.2.any fun e => e.1 == q.1 && e.2.1 == q.2.1 then (s.1, s.2 ++ [q])
      else
        let b1 := s.1.setProd q.1 j { k with credits := k.credits - 1, tail := (k.tail + 1) % ring.count }
        (b1.setRing q.1 q.2.1 { ring with landing := ring.landing ++ [(k.tail, q.2.2)] }, s.2)) (b, [])
  r.1.setChan ch { r.1.chan ch with owed := r.2 }
/-- A completion record for a participant. -/
def Chan.owe (x : Chan) (i : Nat) (r : List Byte) : Nat × Nat × List Byte :=
  let w := nth x.parts i (0, 0, 0, 0)
  (w.1, w.2.1, r)

/-! ### Failure (R439) -/

/-- The running or next operation fails here: a record for every participant that posted it, ST_BUSY for what was posted behind it,
and the channel is FAILED. Every other member is told when tell holds. -/
def Blk.collFail (b : Blk) (ch st det : Nat) (tell : Bool) : Blk :=
  let x := b.chan ch
  if !x.opened || x.failed then b
  else
    let o := x.op
    let sig := match o with | some o => o.sig | none => 0
    let b1 := if tell then b.collAll ch x 0x15 x.done sig (leBytes 2 st ++ leBytes 2 det) else b
    let rec1 := fun (q : Nat × Nat × List Byte) =>
      if q.2.1 = x.done then
        x.owe q.1 (doneRecord q.2.1 st det (match o with | some o => if rDst q.2.2 = 0 then 0 else o.progress | none => 0) (match o with | some o => o.infs | none => 0) b.tide)
      else x.owe q.1 (doneRecord q.2.1 stBUSY 2 0 0 b.tide)
    let x1 := b1.chan ch
    (b1.setChan ch { x1 with failed := true, op := none, owed := x1.owed ++ x1.posted.map rec1, posted := [], early := []
                             done := x1.done + bnat (x1.posted.any fun q => q.2.1 == x1.done) }).flushOwed ch

/-! ### Results (R428, R432, R433, R435) -/

/-- Bytes written at an offset of every DST, and counted (R427, R431). -/
def Blk.collWrite (b : Blk) (ch off : Nat) (s : List Byte) (infs : Nat) (lead : Bool) : Blk :=
  let x := b.chan ch
  match x.op with
  | none => b
  | some o =>
    let recs := if lead then o.recs.take 1 else o.recs
    let b1 := recs.foldl (fun b v => if rDst v = 0 then b else b.memWrite x.part none (rDst v + off) s) b
    b1.setChan ch { b1.chan ch with op := some { o with progress := o.progress + s.length, infs := o.infs + infs } }
/-- The elements of part m of a REDUCE_SCATTER, in partial bytes: first and length. -/
def partRange (v : List Byte) (n m : Nat) : Nat × Nat :=
  let e := rCount v / n * collPart (rFmt v)
  (m * e, e)
/-- The slice of the partial bytes s at an offset that falls in a range. -/
def cutTo (off : Nat) (s : List Byte) (r : Nat × Nat) : Nat × List Byte :=
  let lo := max off r.1
  let hi := min (off + s.length) (r.1 + r.2)
  (lo, if lo < hi then (s.drop (lo - off)).take (hi - lo) else [])
/-- A piece of a result, as partial bytes at an offset of the whole, written here. -/
def Blk.resultWrite (b : Blk) (ch off : Nat) (s : List Byte) : Blk :=
  let x := b.chan ch
  match x.op with
  | none => b
  | some o =>
    let v := o.recs.headD []
    if rOp v = 6 then
      let t := topResult v s
      let inf := ((runsOf 16 (s.length / 16) s).filter fun r => if rFmt v = 0 then leAt r 0 4 == 2 ^ 31 else elInf 3 (leAt r 0 4)).length
      b.collWrite ch 0 t inf false
    else
      let r := if rOp v = 1 then partRange v x.n x.self else (0, rCount v * collPart (rFmt v))
      let c := cutTo off s r
      let t := resultBytes (rFmt v) c.2
      b.collWrite ch ((c.1 - r.1) / collPart (rFmt v) * collEl (rFmt v)) t (countInf (rFmt v) t) false
/-- A chunk of a combination over no contribution: zeros (R430). -/
def zeroChunk (v : List Byte) (chunk : Nat) : List Byte :=
  let t := rCount v * collPart (rFmt v)
  if rOp v = 6 then [] else zeros (min 4096 (t - 4096 * chunk))
/-- A result chunk is at this member: written, and passed on: back along the chain, or down the tree in descending level; in a
chain's REDUCE_SCATTER the last member sends each its part (R432, R433). -/
def Blk.collResult (b : Blk) (ch chunk : Nat) (s : List Byte) : Blk :=
  let x := b.chan ch
  match x.op with
  | none => b
  | some o =>
    let v := o.recs.headD []
    let rs := x.kind = 0 && rOp v = 1
    let off := if rs then max (4096 * chunk) (if x.self + 1 = x.n then 0 else (partRange v x.n x.self).1) else 4096 * chunk
    let b1 := b.resultWrite ch off s
    let b2 := match (b1.chan ch).op with | some o => b1.setChan ch { b1.chan ch with op := some { o with done := o.done ++ [chunk] } } | none => b1
    if rs then
      (if x.self + 1 != x.n then b2
       else (List.range x.self).foldl (fun b m =>
         let c := (cutTo (4096 * chunk) s (partRange v x.n m)).2
         if c.isEmpty then b else b.collChunk ch m chunk c) b2)
    else if x.kind = 0 then (if x.self = 0 then b2 else b2.collChunk ch (x.self - 1) chunk s)
    else x.upstream.reverse.foldl (fun b m => b.collChunk ch m chunk s) b2

/-! ### The running operation -/

/-- Chunks of a reduction's partial. -/
def redChunks (v : List Byte) : Nat := if rOp v = 6 then 1 else cdiv (rCount v * collPart (rFmt v)) 4096
def isRed (v : List Byte) : Bool := rOp v == 0 || rOp v == 1 || rOp v == 6
/-- An operation that carries no data (R430). -/
def isEmptyOp (v : List Byte) : Bool := rOp v == 5 || (rOp v != 4 && rCount v == 0 && rOp v != 6) || (rOp v == 6 && rCount v == 0)
def devChunk (v dev : List Byte) (c : Nat) : List Byte := if rOp v = 6 then dev else (dev.drop (4096 * c)).take 4096
/-- One chunk of the partial formed, once every upstream partial of it is held: added in order, their credits returned (R432, R433,
R437). -/
def Blk.formChunk (b : Blk) (ch c : Nat) : Blk :=
  let x := b.chan ch
  match x.op with
  | none => b
  | some o =>
    let v := o.recs.headD []
    let ups := x.upstream.map fun m => (m, (o.held.find? fun h => h.1 == m && h.2.1 == c).map fun h => h.2.2)
    if o.formed.contains c || ups.any fun u => u.2.isNone then b
    else
      let mine := devChunk v o.dev c
      let s := if x.kind = 0 then combine v ((ups.headD (0, none)).2.getD []) mine else ups.foldl (fun a u => combine v a (u.2.getD [])) mine
      let o1 := { o with formed := o.formed ++ [c], held := o.held.filter fun h => h.2.1 != c,
                         sums := if x.downstream.isSome then o.sums ++ [(c, s)] else o.sums }
      let b1 := ups.foldl (fun b u => b.collSend (collPkt ch x 0x12 u.1 o.seq 1 o.sig [])) (b.setChan ch { x with op := some o1 })
      if x.downstream.isSome then b1 else b1.collResult ch c (if s.isEmpty then zeroChunk v c else s)
/-- A formed partial sent against credit (R423). -/
def Blk.sendSum (b : Blk) (ch : Nat) : Blk :=
  let x := b.chan ch
  match x.op, x.downstream with
  | some o, some m =>
    match o.sums with
    | [] => b
    | (c, s) :: rest =>
      let n := sget (fun _ => 0) x.credit m
      if n = 0 then b
      else (b.setChan ch { x with credit := sset (fun _ => 0) x.credit m (n - 1), op := some { o with sums := rest } }).collChunk ch m c s
  | _, _ => b
/-- Offset at DST of the segment that a member sends here. -/
def sizeOf0 (o : CollOp) (m : Nat) : Nat := sget (fun _ => 0) o.sizes m
def segOff (o : CollOp) (m : Nat) : Nat := (List.range m).foldl (fun a i => a + sizeOf0 o i) 0
def segChunks (n : Nat) : Nat := cdiv n 4096
/-- With the sizes of every member, the exchange is accepted or refused and the senders are told; an accepted segment of its own is copied
(R429). -/
def Blk.answerSizes (b : Blk) (ch : Nat) : Blk :=
  let x := b.chan ch
  match x.op with
  | none => b
  | some o =>
    let v := o.recs.headD []
    if rOp v != 4 || o.arrived.length != x.n || o.formed.contains 0 then b
    else
      let tot := segOff o x.n
      let no := rDcap v < tot
      let b1 := if rRsizes v = 0 then b else b.memWrite x.part none (rRsizes v) ((List.range x.n).flatMap fun m => leBytes 4 (sizeOf0 o m))
      let b2 := b1.setChan ch { b1.chan ch with op := some { o with formed := [0], refused := no } }
      let b3 := ((List.range x.n).filter fun m => m != x.self).foldl (fun b m =>
        b.collSend (collPkt ch x 0x14 m o.seq 0 o.sig (leBytes 4 (bnat no) ++ leBytes 4 (segOff o m)))) b2
      if no then b3.setChan ch { b3.chan ch with op := (b3.chan ch).op.map fun o => { o with gos := sset (fun _ => none) o.gos x.self (some (2 ^ 32)) } }
      else
        let sz := rSizes v
        let own := if sz = 0 then 0 else (List.range x.self).foldl (fun a i => a + leNat (b.memRead x.part (sz + 4 * i) 4)) 0
        let s := b.memRead x.part (rSrc v + own) (sizeOf0 o x.self)
        let b4 := if s.isEmpty then b3 else b3.collWrite ch (segOff o x.self) s 0 true
        b4.setChan ch { b4.chan ch with op := (b4.chan ch).op.map fun o => { o with gos := sset (fun _ => none) o.gos x.self (some 0) } }
/-- Is the exchange over here: every answer in, every accepted segment received? -/
def Chan.exchanged (x : Chan) (o : CollOp) : Bool :=
  o.formed.contains 0 && (List.range x.n).all (fun m => (sget (fun _ => (none : Option Nat)) o.gos m).isSome) &&
  (o.refused || (List.range x.n).all fun m => m == x.self || (List.range (segChunks (sizeOf0 o m))).all fun c => o.got.contains (m, c))
/-- Has this member all it needs, with nothing of its own unacknowledged? -/
def Chan.opDone (x : Chan) (o : CollOp) : Bool :=
  let v := o.recs.headD []
  let n := cdiv (rCount v * collEl (rFmt v)) 4096
  let others := (List.range x.n).filter fun m => m != x.self
  o.sent.isEmpty && o.sums.isEmpty &&
  (if isEmptyOp v then others.all o.arrived.contains
   else if rOp v = 4 then x.exchanged o
   else if rOp v = 2 then others.all fun m => o.arrived.contains m || (List.range n).all fun c => o.got.contains (m, c)
   else if rOp v = 3 then x.self == rRoot v || o.arrived.contains (rRoot v) || (List.range n).all fun c => o.got.contains (rRoot v, c)
   else if rOp v = 1 && x.kind = 0 && x.self + 1 != x.n then
     (List.range (redChunks v)).all fun c =>
       o.done.contains c || (cutTo (4096 * c) (zeros (min 4096 (rCount v * collPart (rFmt v) - 4096 * c))) (partRange v x.n x.self)).2.isEmpty
   else (List.range (redChunks v)).all o.done.contains)
/-- The status an operation ends with (R429, R431). -/
def Chan.opStatus (x : Chan) (o : CollOp) : Nat × Nat :=
  let v := o.recs.headD []
  let no := (List.range x.n).find? fun m => sget (fun _ => (none : Option Nat)) o.gos m == some (2 ^ 32) && m != x.self
  if rOp v = 4 then (if o.refused then (stLENGTH, x.self) else match no with | some m => (stLENGTH, m) | none => (stOK, 0))
  else if o.infs != 0 && rFmt v ≤ 2 then (stINF, min o.infs 0xFFFF) else (stOK, 0)
/-- The operation completes (R427). -/
def Blk.collDone (b : Blk) (ch : Nat) : Blk :=
  let x := b.chan ch
  match x.op with
  | none => b
  | some o =>
    if !x.opDone o then b
    else
      let v := o.recs.headD []
      let st := x.opStatus o
      let recs := o.recs.zipIdx.map fun q =>
        x.owe q.2 (doneRecord o.seq st.1 st.2 (if rDst q.1 = 0 || (rOp v = 4 && q.2 != 0) then 0 else o.progress) o.infs b.tide)
      let b1 := if rFmt v = 3 || rFmt v = 4 then b.count 0xA50 o.infs else b
      (b1.setChan ch { x with op := none, done := x.done + 1, posted := x.posted.filter fun q => q.2.1 != o.seq, owed := x.owed ++ recs }).flushOwed ch
/-- Everything the running operation can do now. -/
def Blk.collStep (b : Blk) (ch : Nat) : Blk :=
  match (b.chan ch).op with
  | none => b
  | some o =>
    let v := o.recs.headD []
    let b1 := if isRed v && !isEmptyOp v then (List.range (redChunks v)).foldl (fun b c => b.formChunk ch c) b else b.answerSizes ch
    let b2 := (List.range (redChunks v + 1)).foldl (fun b _ => b.sendSum ch) b1
    b2.collDone ch

/-! ### Packets of an operation -/

def ackOf (ch : Nat) (x : Chan) (m : Nat) (p : Pkt) : Pkt := collPkt ch x 0x11 m (pktOpseq p) (pktChunk p) (pktSig p) []
/-- A packet of the running operation from member m, taken once: a partial, a result, a block or a segment (R437, R438); a size, an answer,
an arrival. A signature that differs fails the operation (R426). -/
def Blk.collTake (b : Blk) (ch m : Nat) (p : Pkt) : Blk :=
  let x := b.chan ch
  match x.op with
  | none => b
  | some o =>
    let v := o.recs.headD []
    let c := pktChunk p
    let set := fun (o : CollOp) => b.setChan ch { x with op := some o }
    if pktSig p != o.sig && p.kind != 0x15 then b.collFail ch stBADPARAM m true
    else if p.kind = 0x10 then
      (if o.got.contains (m, c) then b.count 0xA40 1
       else
         let o1 := { o with got := o.got ++ [(m, c)] }
         if isRed v then
           (if x.upstream.contains m then set { o1 with held := o1.held ++ [(m, c, p.data)] } else (set o1).collResult ch c p.data)
         else if rOp v = 4 then (if o.refused then set o1 else (set o1).collWrite ch (segOff o m + 4096 * c) p.data 0 true)
         else (set o1).collWrite ch ((if rOp v = 2 then m * (rCount v * collEl (rFmt v)) else 0) + 4096 * c) p.data (countInf (rFmt v) p.data) false)
    else if p.kind = 0x13 then set { o with sizes := sset (fun _ => 0) o.sizes m (leAt p.data 0 4), arrived := if o.arrived.contains m then o.arrived else o.arrived ++ [m] }
    else if p.kind = 0x14 then
      let no := leAt p.data 0 4 = 1
      if (sget (fun _ => (none : Option Nat)) o.gos m).isSome then b
      else
        let b1 := set { o with gos := sset (fun _ => none) o.gos m (some (if no then 2 ^ 32 else leAt p.data 4 4)) }
        if no || rSizes v = 0 then b1
        else
          let len := fun i => leNat (b.memRead x.part (rSizes v + 4 * i) 4)
          let off := (List.range m).foldl (fun a i => a + len i) 0
          let s := b.memRead x.part (rSrc v + off) (len m)
          (List.range (segChunks s.length)).foldl (fun b c => b.collChunk ch m c ((s.drop (4096 * c)).take 4096)) b1
    else if p.kind = 0x16 then set { o with arrived := if o.arrived.contains m then o.arrived else o.arrived ++ [m] }
    else b.collFail ch (leAt p.data 0 2) (leAt p.data 2 2) false
/-- A packet of a channel arrives (R438): discarded when its channel is closed or of another generation, kept when its operation has not
started here. A chunk is acknowledged whenever it is held. -/
def Blk.collRx (b : Blk) (p : Pkt) : Blk :=
  let ch := p.tag % 128
  let x := b.chan ch
  match x.memberIdx p.src with
  | none => b.count 0xA58 1
  | some m =>
    let seq := pktOpseq p
    let ack := fun (b : Blk) => if p.kind = 0x10 then b.collSend (ackOf ch x m p) else b
    if !x.opened || pktGen p != x.gen then b.count 0xA58 1
    else if x.failed then b
    else if p.kind = 0x12 then (b.setChan ch { x with credit := sset (fun _ => 0) x.credit m (sget (fun _ => 0) x.credit m + pktChunk p) }).collStep ch
    else if p.kind = 0x11 then
      match x.op with
      | some o => if o.seq = seq then (b.setChan ch { x with op := some { o with sent := o.sent.filter fun s => !(s.1 == m && s.2.1 == pktChunk p) } }).collStep ch else b
      | none => b
    else if x.op.isSome && seq = x.done % 2 ^ 32 then (ack (b.collTake ch m p)).collStep ch
    else if p.kind = 0x15 && seq = x.done % 2 ^ 32 then b.collFail ch (leAt p.data 0 2) (leAt p.data 2 2) false
    else if 2 ^ 31 ≤ (seq + 2 ^ 32 - x.done % 2 ^ 32) % 2 ^ 32 then ack (if p.kind = 0x10 then b.count 0xA40 1 else b)
    else if x.early.any fun q => q.src == p.src && q.kind == p.kind && q.addr == p.addr then ack (if p.kind = 0x10 then b.count 0xA40 1 else b)
    else ack (b.setChan ch { x with early := x.early ++ [p] })

/-! ### Starting an operation (R426, R432, R433) -/

/-- A list in an order that the manual leaves to the arrival at the engine: a free choice (R432). -/
def Blk.anyOrder (b : Blk) : Nat → List (List Byte) → List (List Byte) × Blk
  | 0, l => (l, b)
  | n + 1, l =>
    if l.length ≤ 1 then (l, b)
    else
      let r := b.freeVal 0x432
      let i := r.1 % l.length
      let o := r.2.anyOrder n (l.eraseIdx i)
      (nth l i [] :: o.1, o.2)
/-- The engine reads a range: the Tidepool's ring and bank state take note of it. -/
def Blk.engineRead (b : Blk) (part a n : Nat) : List Byte × Blk :=
  if a = 0 || n = 0 then ([], b)
  else (b.memRead part a n, if regionOf a = 1 then b.tpTouchReads ((a - tpBase) / tpSize) 6 [((a - tpBase) % tpSize, n)] else b)
/-- This device's contribution to a combination, in the partial format; empty for none (R432, R433). -/
def Blk.deviceSum (b : Blk) (x : Chan) (recs : List (List Byte)) : List Byte × Blk :=
  let v := recs.headD []
  let r := recs.foldl (fun (s : List (List Byte) × Blk) q =>
    let t := s.2.engineRead x.part (rSrc q) (srcBytes q)
    (s.1 ++ [if t.1.isEmpty then [] else toPartial v t.1], t.2)) ([], b)
  if x.kind = 1 then (treeCombine v 11 r.1, r.2)
  else
    let o := r.2.anyOrder r.1.length (r.1.filter fun c => !c.isEmpty)
    (o.1.foldl (combine v) [], o.2)
/-- The send sizes of an exchange, by member. -/
def Blk.sendSizes (b : Blk) (x : Chan) (v : List Byte) : List Nat :=
  if rSizes v = 0 then List.replicate x.n 0 else (List.range x.n).map fun i => leNat (b.memRead x.part (rSizes v + 4 * i) 4)
/-- The records that every participant has posted for the next operation, in participant order. -/
def Chan.ready (x : Chan) : Option (List (List Byte)) :=
  (List.range x.parts.length).mapM fun i => (x.posted.find? fun q => q.1 == i && q.2.1 == x.done).map fun q => q.2.2
/-- The first uncorrectable unit among the bytes that an operation reads (R358, R439). -/
def Blk.collUe (b : Blk) (x : Chan) (recs : List (List Byte)) : Option Nat :=
  let v := recs.headD []
  let rs := if isRed v then recs.map fun q => (rSrc q, srcBytes q)
    else if rOp v = 4 then [(rSrc v, (b.sendSizes x v).foldl (fun a n => a + n) 0), (rSizes v, 4 * x.n)]
    else if rOp v = 2 || (rOp v = 3 && x.self = rRoot v) then [(rSrc v, srcBytes v)] else []
  (rs.filter fun r => r.1 != 0 && r.2 != 0).findSome? fun r => b.rangeUe r.1 r.2
/-- Why an operation whose records are all posted fails at its start: status and detail (R426, R439). -/
def Blk.collBar (b : Blk) (x : Chan) (recs : List (List Byte)) : Option (Nat × Nat) :=
  let v := recs.headD []
  if recs.any fun q => q.take 16 != v.take 16 then some (stBADPARAM, x.self)
  else if !(recs.zipIdx.all fun q => b.recordOk x (nth x.parts q.2 (0, 0, 0, 0)).1 x.done q.1) then some (stBADPARAM, x.self)
  else if rOp v = 4 && !b.collRange x.part (nth x.parts 0 (0, 0, 0, 0)).1 (rSrc v) ((b.sendSizes x v).foldl (fun a n => a + n) 0) then some (stBADPARAM, x.self)
  else match x.members.findIdx? b.isMissing with
    | some m => some (stABSENT, m)
    | none => if x.parts.any fun w => b.tpLost w.1 then some (stCANCELLED, x.self) else none
/-- A block of this member sent to every other one and written here at an offset of DST; with no SRC an arrival tells so. -/
def Blk.collBlock (b : Blk) (ch off : Nat) (v : List Byte) : Blk :=
  let x := b.chan ch
  match x.op with
  | none => b
  | some o =>
    let r := b.engineRead x.part (rSrc v) (srcBytes v)
    if r.1.isEmpty then r.2.collAll ch x 0x16 o.seq o.sig []
    else
      let b1 := ((List.range x.n).filter fun m => m != x.self).foldl (fun b m =>
        (List.range (cdiv r.1.length 4096)).foldl (fun b c => b.collChunk ch m c ((r.1.drop (4096 * c)).take 4096)) b) r.2
      b1.collWrite ch off r.1 (countInf (rFmt v) r.1) false
/-- The operation's own part. -/
def Blk.collOpen (b : Blk) (ch : Nat) : Blk :=
  let x := b.chan ch
  match x.op with
  | none => b
  | some o =>
    let v := o.recs.headD []
    if isEmptyOp v then b.collAll ch x 0x16 o.seq o.sig []
    else if rOp v = 2 then b.collBlock ch (x.self * (rCount v * collEl (rFmt v))) v
    else if rOp v = 3 then (if x.self = rRoot v then b.collBlock ch 0 v else b)
    else if rOp v = 4 then
      let sz := b.sendSizes x v
      let b1 := b.setChan ch { x with op := some { o with sizes := sset (fun _ => 0) o.sizes x.self (nth sz x.self 0), arrived := [x.self] } }
      ((List.range x.n).filter fun m => m != x.self).foldl (fun b m => b.collSend (collPkt ch x 0x13 m o.seq 0 o.sig (leBytes 4 (nth sz m 0)))) b1
    else
      let r := b.deviceSum x o.recs
      r.2.setChan ch { r.2.chan ch with op := some { o with dev := r.1 } }
/-- The next operation of a channel starts once every participant has posted it; what arrived early for it is taken. -/
def Blk.collStart (b : Blk) (ch : Nat) : Blk :=
  let x := b.chan ch
  if !x.opened || x.failed || x.op.isSome then b
  else match x.ready with
    | none => b
    | some recs =>
      match b.collBar x recs with
      | some e => b.collFail ch e.1 e.2 true
      | none =>
        match b.collUe x recs with
        | some u => (b.hbmUe u x.part 0 0).collFail ch stHWERROR x.self true
        | none =>
          let o : CollOp := { seq := x.done % 2 ^ 32, sig := crc32c ((recs.headD []).take 16), recs := recs, start := b.tide }
          let now := x.early.filter fun p => pktOpseq p == x.done % 2 ^ 32
          let b1 := (b.setChan ch { x with op := some o, early := x.early.filter fun p => pktOpseq p != x.done % 2 ^ 32 }).collOpen ch
          (now.foldl (fun b p => match x.memberIdx p.src with | some m => b.collTake ch m p | none => b) b1).collStep ch
/-- Operations of a channel start while they can; at most 8 are outstanding (R424). -/
def Blk.collRun (b : Blk) (ch : Nat) : Blk := (List.range 9).foldl (fun b _ => b.collStart ch) b

/-! ### Posting (R424) -/

/-- A participant writes its post word (R424). -/
def Blk.collPost (b : Blk) (ch part value : Nat) : Blk :=
  let x := b.chan ch
  if !x.opened || x.parts.length ≤ part then b
  else
    let w := nth x.parts part (0, 0, 0, 0)
    let b1 := if b.tpLost w.1 then b else b.tpWrite w.1 w.2.2.2 (leBytes 8 value)
    let n := value % 2 ^ 32
    let was := nth x.counts part 0
    if x.failed then
      ((b1.setChan ch { x with counts := x.counts.set part (max was n)
                               owed := x.owed ++ (List.range (min 8 (n - was))).map fun i => x.owe part (doneRecord (was + i) stBUSY 2 0 0 b.tide) }).flushOwed ch)
    else if n < was || x.done + 8 < n then b1.collFail ch stBADPARAM x.self true
    else
      let new := (List.range (n - was)).map fun i => (part, was + i, b.tpRead w.1 (w.2.2.1 + 64 * ((was + i) % 8)) 64)
      (b1.setChan ch { x with counts := x.counts.set part n, posted := x.posted ++ new }).collRun ch

/-! ### Notices, timeouts, losses (R411, R438, R439) -/

/-- A notice of a packet of this device: a dead face makes it leave once more on its alternate; anything else fails its operation. -/
def Blk.collNotice (b : Blk) (cause : Nat) (p : Pkt) : Blk :=
  let ch := p.tag % 128
  let x := b.chan ch
  match firstIdx (fun d => d == p.dst) x.members 0 with
  | none => b
  | some m =>
    let kept := match x.op with
      | some o => o.sent.find? fun s => s.1 == m && s.2.1 == pktChunk p && o.seq == pktOpseq p
      | none => none
    if !x.opened || pktGen p != x.gen || (p.kind = 0x10 && kept.isNone) then b
    else
      let b0 := if cause = 1 then b.setFallback p.dst else b
      if cause = 1 && !p.resent && rtMode (b0.route p.dst) != 0 then
        let q := match (if p.kind = 0x10 then kept else none) with | some s => s.2.2.2 | none => { p with phase := 0 }
        let b1 := (b0.count 0x828 1).count 0xA48 (bnat (p.kind == 0x10))
        b1.collSend { q with resent := true }
      else if x.failed || pktOpseq p != x.done % 2 ^ 32 then b0
      else b0.collFail ch (if cause = 2 then stABSENT else stROUTELOST) m true
/-- Every notice that waits is acted on. -/
def Blk.collNotices (b : Blk) : Nat → Blk
  | 0 => b
  | n + 1 => match b.slice.notices with
    | [] => b
    | q :: rest => ({ b with slice := { b.slice with notices := rest } }.collNotice q.1 q.2).collNotices n
/-- 100 µs without COLL_ACK: the oldest chunk leaves again; after three resends its route is lost (R438, R439). -/
def Blk.collResend (b : Blk) (ch : Nat) : Blk :=
  let x := b.chan ch
  match x.op with
  | none => b
  | some o => match o.sent with
    | [] => b
    | (m, c, k, p) :: rest =>
      if 3 ≤ k then b.collFail ch stROUTELOST m true
      else ((b.setChan ch { x with op := some { o with sent := rest ++ [(m, c, k + 1, p)] } }).count 0xA48 1).collSend p
/-- TIMEOUT passes (R439). -/
def Blk.collTimeout (b : Blk) (ch : Nat) : Blk := if (b.chan ch).op.isSome then b.collFail ch stROUTELOST 0xFFFF true else b
/-- A device is marked missing: the running operation of every channel with it as a member fails (R439). -/
def Blk.collMissing (b : Blk) (d : Nat) : Blk :=
  (b.chans.map Prod.fst).foldl (fun b ch => match (b.chan ch).memberIdx d with
    | some m => if (b.chan ch).op.isSome then b.collFail ch stABSENT m true else b
    | none => b) b
/-- A Cove's Tidepool is lost: the running operation of a channel it takes part in fails (R225, R439). -/
def Blk.collCoveLost (b : Blk) (c : Nat) : Blk :=
  (b.chans.map Prod.fst).foldl (fun b ch =>
    if (b.chan ch).op.isSome && (b.chan ch).parts.any fun w => w.1 == c then b.collFail ch stCANCELLED (b.chan ch).self true else b) b
/-- Completion records that find credit, and operations that can start, on every channel. -/
def Blk.collPump (b : Blk) : Blk :=
  let b0 := b.collNotices (b.slice.notices.length + 64)
  (b0.chans.map Prod.fst).foldl (fun b ch => ((b.flushOwed ch).collStep ch).collRun ch) b0

/-! ### CMD_CHAN_OPEN and CMD_CHAN_CLOSE (R420 to R423, R440) -/

/-- KiB of buffer that an open reserves (R423). -/
def chanBuf (kind window n : Nat) : Nat := if n ≤ 1 then 0 else window * 4 * (if kind = 0 then 1 else Nat.log2 (n - 1) + 1)
/-- Participant p of a payload, and the bits beside its fields. -/
def chanPart (v : List Byte) (at0 p : Nat) : Nat × Nat × Nat × Nat :=
  let o := at0 + 16 * p
  (leAt v o 2 % 4096, leAt v (o + 2) 1 % 64, leAt v (o + 4) 4, leAt v (o + 8) 8)
def chanPartFault (v : List Byte) (at0 p : Nat) : Option Nat :=
  let o := at0 + 16 * p
  if 4096 ≤ leAt v o 2 then some o
  else if 64 ≤ leAt v (o + 2) 2 then some (o + 2)
  else if 2 ^ 22 ≤ leAt v (o + 4) 4 || leAt v (o + 4) 4 % 512 != 0 then some (o + 4)
  else if 2 ^ 22 ≤ leAt v (o + 8) 8 || leAt v (o + 8) 8 % 8 != 0 then some (o + 8) else none
/-- Post queues and post words of a list of participants in one Tidepool. -/
def postRanges (l : List (Nat × Nat × Nat × Nat)) (cove : Nat) : List (Nat × Nat) :=
  (l.filter fun w => w.1 == cove).flatMap fun w => [(w.2.2.1, 512), (w.2.2.2, 8)]
/-- Does a participant's ring, queue or word break R422? -/
def Blk.partFault (b : Blk) (part : Nat) (w : Nat × Nat × Nat × Nat) : Bool :=
  let x := b.cove w.1
  let r := x.ring w.2.1
  let rs := [(w.2.2.1, 512), (w.2.2.2, 8)]
  let other := postRanges ((b.chans.filter fun q => q.2.opened).flatMap fun q => q.2.parts) w.1
  b.partOfCove w.1 != some part || !r.en || r.producer != w.1 || r.count < 8 || r.slot < 64 ||
  rs.any (fun q => b.progEnd w.1 < q.1 + q.2) || meets w.2.2.1 512 w.2.2.2 8 || rangesMeet rs (other ++ x.taken 16 64)
def nodup : List Nat → Bool
  | [] => true
  | x :: l => !l.contains x && nodup l
/-- The offset of the first field of the payload that R421 or R422 refuses. -/
def Blk.chanFault (b : Blk) (ch part : Nat) (v : List Byte) : Option Nat :=
  let n := leAt v 4 4
  let p := leAt v 8 4
  let at0 := 0x20 + 8 * cdiv (2 * n) 8
  let mem := (List.range n).map fun m => leAt v (0x20 + 2 * m) 2
  let ps := (List.range p).map (chanPart v at0)
  if 2 ≤ leAt v 0 1 || (leAt v 0 1 = 1 && 8 ≤ ch) then some 0
  else if leAt v 1 1 = 0 || 64 < leAt v 1 1 then some 1
  else if n = 0 || 16384 < n then some 4
  else if p = 0 || 1024 < p then some 8
  else if leAt v 0xC 4 = 0 then some 0xC
  else if leAt v 0x10 16 != 0 then some 0x10
  else match mem.findIdx? fun d => 2 ^ 14 ≤ d with
    | some m => some (0x20 + 2 * m)
    | none =>
      if !nodup mem || !mem.contains b.slice.devid then some 0x20
      else if leAt v (0x20 + 2 * n) (at0 - 0x20 - 2 * n) != 0 then some (0x20 + 2 * n)
      else match (List.range p).findSome? (chanPartFault v at0) with
        | some o => some o
        | none => if !nodup (ps.map Prod.fst) then some at0 else (ps.findIdx? (b.partFault part)).map fun i => at0 + 16 * i
def Blk.doChanOpen (b : Blk) (c : Cmd) : Blk :=
  b.withPart c fun part =>
    let v := c.m.payload
    let ch := c.m.param
    let n := leAt v 4 4
    let at0 := 0x20 + 8 * cdiv (2 * n) 8
    let mem := (List.range n).map fun m => leAt v (0x20 + 2 * m) 2
    let buf := chanBuf (leAt v 0 1) (leAt v 1 1) n
    let used := b.chans.foldl (fun a q => a + q.2.buf) 0
    if 128 ≤ ch then b.badAt c detParam
    else match b.chanFault ch part v with
      | some o => b.badAt c (detPay o)
      | none =>
        if leAt v 0 1 = 1 && c.ctx != 0 && !tbit (b.ctx c.ctx).privs 1 then b.reject c stNOPERM 1
        else if (b.chan ch).opened then b.busy c
        else match mem.findIdx? b.isMissing with
          | some m => b.reject c stABSENT m
          | none => match mem.findIdx? fun d => d != b.slice.devid && !rtMember (b.route d) with
            | some m => b.reject c stROUTELOST m
            | none =>
              if 32768 < used + buf then b.reject c stBUSY 1
              else
                let x : Chan := { opened := true, kind := leAt v 0 1, window := leAt v 1 1, gen := leAt v 2 2, members := mem,
                                  parts := (List.range (leAt v 8 4)).map (chanPart v at0), timeout := leAt v 0xC 4,
                                  self := (firstIdx (fun d => d == b.slice.devid) mem 0).getD 0, buf := buf, part := part, ctx := c.ctx,
                                  counts := List.replicate (leAt v 8 4) 0, owed := (b.chan ch).owed }
                (x.upstream.foldl (fun b m => b.collSend (collPkt ch x 0x12 m 0 x.window 0 [])) (b.setChan ch x)).finish c stOK 0 []
/-- A channel closes: its running operation and all that is posted end with ST_CANCELLED (R440). -/
def Blk.closeChan (b : Blk) (ch : Nat) : Blk :=
  let x := b.chan ch
  let sig := match x.op with | some o => o.sig | none => 0
  let b1 := if x.op.isSome then b.collAll ch x 0x15 x.done sig (leBytes 2 stCANCELLED ++ leBytes 2 x.self) else b
  let y := b1.chan ch
  let recs := y.posted.map fun q => y.owe q.1 (doneRecord q.2.1 stCANCELLED x.self
    (match x.op with | some o => if q.2.1 = x.done && rDst q.2.2 != 0 then o.progress else 0 | none => 0) 0 b.tide)
  let b2 := (b1.setChan ch { y with owed := y.owed ++ recs, posted := [], op := none }).flushOwed ch
  b2.setChan ch { owed := (b2.chan ch).owed }
/-- The channels of a partition close (R440, R485). -/
def Blk.closeChans (b : Blk) (part : Nat) : Blk :=
  ((b.chans.filter fun q => q.2.opened && q.2.part == part).map Prod.fst).foldl (fun b ch => b.closeChan ch) b
def Blk.doChanClose (b : Blk) (c : Cmd) : Blk :=
  let ch := c.m.param
  if 128 ≤ ch then b.badAt c detParam
  else if !(b.chan ch).opened then b.busy c
  else if c.part != 0xFF && (b.chan ch).part != c.part then b.reject c stNOPERM 2
  else (b.closeChan ch).acceptEnd c stOK 0 []

end Sys2Proof.Machine
end

