-- ==== Sys2Proof/Machine/Sync.lean ====
section
/-! DEFINITION. The Tide clock, slice barriers, mode changes, missing devices, and the delivery of packets (R413, R436, R441 to R450). The
words that control packets carry beyond R436 are coded as log entry 24 gives them. -/
namespace Sys2Proof.Machine

/-! ### Control packets and floods (R436, R447) -/

/-- A control packet of this device to another. -/
def ctlPkt (dst kind opseq sig : Nat) (data : List Byte := []) : Pkt :=
  { dst := dst, kind := kind, part := 0xFF, addr := opseq % 2 ^ 32, len := data.length, status := sig % 65536, cause := sig / 65536 % 65536, data := data }
def Blk.sendCtl (b : Blk) (p : Pkt) : Blk := b.sendReply p
/-- A flooded packet on one live link of every live face but one; its DST is the neighbour. -/
def Blk.floodOn (b : Blk) (p : Pkt) (except : Option Nat) : Blk :=
  (List.range 6).foldl (fun b f =>
    match b.slice.leads b.slice.devid f with
    | some d => if except != some f && b.faceLive f then b.sendHop { p with dst := d } f else b
    | none => b) b
/-- This device begins a flood: its number stands in CHUNK. -/
def Blk.flood (b : Blk) (p : Pkt) : Blk :=
  let n := b.mode.floods % 2 ^ 32
  let b1 := { b with mode := { b.mode with floods := b.mode.floods + 1, seen := ((p.kind, n + b.slice.devid * 2 ^ 32) :: b.mode.seen).take 64 } }
  b1.floodOn { p with src := b.slice.devid, addr := p.addr % 2 ^ 32 + n * 2 ^ 32 } none
/-- Is a flooded packet a first copy? -/
def Blk.firstCopy (b : Blk) (p : Pkt) : Bool := !b.mode.seen.contains (p.kind, pktChunk p + p.src * 2 ^ 32)
/-- The first copy of a flooded packet is noted and forwarded (R447). -/
def Blk.forwardFlood (b : Blk) (k : Nat) (p : Pkt) : Blk :=
  ({ b with mode := { b.mode with seen := ((p.kind, pktChunk p + p.src * 2 ^ 32) :: b.mode.seen).take 64 } }).floodOn p (some (k / 4))

/-! ### The Tide clock (R441 to R443, R522) -/

/-- Hops of a dimension-ordered route (R407). -/
def Slice.distance (s : Slice) (a t : Nat) : Nat :=
  (List.range 3).foldl (fun n d =>
    let x := coordOf a d
    let y := coordOf t d
    n + (if s.ring d then min ((y + s.size d - x) % s.size d) ((x + s.size d - y) % s.size d) else max x y - min x y)) 0
/-- The parent face: of the live faces, the one whose neighbour is nearest to the Harbourmaster, the lower on ties (R442). -/
def Blk.parentFace (b : Blk) : Option Nat :=
  (((List.range 6).filter b.faceLive).foldl (fun best f =>
    match b.slice.leads b.slice.devid f, best with
    | none, _ => best
    | some d, none => some (f, b.slice.distance d b.slice.hmid)
    | some d, some q => if b.slice.distance d b.slice.hmid < q.2 then some (f, b.slice.distance d b.slice.hmid) else best) none).map Prod.fst
/-- TIDE_SYNC on every live face: the send instant and the last received instant of that face. -/
def Blk.tideSend (b : Blk) : Blk :=
  (List.range 6).foldl (fun b f =>
    match b.slice.leads b.slice.devid f with
    | some d =>
      if b.slice.joined && b.faceLive f then
        let p := { ctlPkt d 0x20 0 0 (leBytes 8 b.tide ++ leBytes 8 (sget (fun _ => 0) b.sync.faces (2 * f + 1))) with src := b.slice.devid }
        ({ b with sync := { b.sync with faces := sset (fun _ => 0) b.sync.faces (2 * f) b.tide } }).sendHop p f
      else b
    | none => b) b
/-- One-way measurement from both directions: this device's count minus the parent's, in 1/16 ns. -/
def tideOffset (sent peerGot peerSent got : Nat) : Int := ((got : Int) - peerSent - ((peerGot : Int) - sent)) * 8
/-- A measured offset taken: OFFSET, the correction by rate, and the state. -/
def TideSync.take (y : TideSync) (off : Int) : TideSync :=
  let near := off.natAbs ≤ 32
  let run := if near then min 16 (y.run + 1) else 0
  { y with offset := toTwos 16 (max (-32768) (min 32767 off)), slew := -(off / 16), run := run, st := if 16 ≤ run then 2 else 1, synced := y.synced || 16 ≤ run }
/-- TIDE_SYNC arrives over a link (R442). -/
def Blk.tideRx (b : Blk) (k : Nat) (p : Pkt) : Blk :=
  let f := k / 4
  let sent := leAt p.data 0 8
  let peerGot := leAt p.data 8 8
  let b1 := b.count 0x918 1
  let y := { b1.sync with faces := sset (fun _ => 0) b1.sync.faces (2 * f + 1) b.tide }
  if !b.slice.joined || b.slice.harbour || b.parentFace != some f then { b1 with sync := y }
  else if y.st = 0 then { b1 with sync := { y with st := 1, parent := f, run := 0 }, tide := if y.synced then b.tide else sent }
  else
    let mine := sget (fun _ => 0) y.faces (2 * f)
    if mine = 0 || peerGot = 0 then { b1 with sync := { y with parent := f, st := if y.st = 3 then 1 else y.st } }
    else { b1 with sync := { y.take (tideOffset mine peerGot sent b.tide) with parent := f } }
/-- 1 ms without a sync (R442). -/
def Blk.tideHoldover (b : Blk) : Blk :=
  if b.slice.harbour || (b.sync.st != 1 && b.sync.st != 2) then b else { b with sync := { b.sync with st := 3, run := 0 } }
/-- A pulse-per-second edge at a Harbourmaster joined with EXTREF; others ignore it (R443, R522, R530). -/
def Blk.ppsEdge (b : Blk) : Blk :=
  if b.slice.joined && b.slice.harbour && b.slice.extref then { b with sync := { b.sync with pps := b.tide }, board := { b.board with ppsSeen := true } } else b
def Blk.ppsExpiry (b : Blk) : Blk := { b with board := { b.board with ppsSeen := false } }
/-- The 10 MHz reference is lost, or returns, on a Harbourmaster joined with EXTREF (R522). -/
def Blk.trefLoss (b : Blk) : Blk := { b with board := { b.board with trefOk := false } }
def Blk.trefReturn (b : Blk) : Blk :=
  if b.slice.joined && b.slice.harbour && b.slice.extref then { b with board := { b.board with trefOk := true } } else b

/-! ### Slice barriers (R444) -/

/-- The members of the slice as this device's foreground table marks them, itself among them. -/
def Blk.members (b : Blk) : List Nat :=
  b.slice.devid :: ((b.slice.routes.filter fun r => rtMember r.2 && r.1 != b.slice.devid).map Prod.fst)
/-- A CMD_SLICE_BARRIER that waits here ends at the release instant. -/
def Blk.barEnd (b : Blk) (n st det : Nat) (payload : List Byte) : Blk :=
  match b.bars.waiting.find? fun w => w.1 == n with
  | none => b
  | some w =>
    let b1 := { b with bars := { b.bars with waiting := b.bars.waiting.filter fun x => x.1 != n } }
    match b1.cmdOf w.2.1 w.2.2 with
    | none => b1
    | some c =>
      if st = stOK && c.m.cls = 1 && c.flag 13 && c.deadline < b.tide then b1.finish c stLATE 4 payload else b1.finish c st det payload
/-- The Harbourmaster counts an arrival; with the last one it floods the release (R444). -/
def Blk.barArrive (b : Blk) (dev n : Nat) : Blk :=
  if !b.slice.harbour then b
  else
    let l := sget (fun _ => ([] : List Nat)) b.bars.arrived n
    let l1 := if l.contains dev then l else l ++ [dev]
    if b.members.all l1.contains then
      (({ b with bars := { b.bars with arrived := sset (fun _ => []) b.bars.arrived n [] } }).flood (ctlPkt 0 0x24 n 0 (leBytes 8 b.tide))).barEnd n stOK 0 (leBytes 8 b.tide)
    else { b with bars := { b.bars with arrived := sset (fun _ => []) b.bars.arrived n l1 } }
def Blk.barArriveRx (b : Blk) (p : Pkt) : Blk := b.barArrive p.src (pktOpseq p % 256)
def Blk.barReleaseRx (b : Blk) (k : Nat) (p : Pkt) : Blk :=
  if b.firstCopy p then (b.forwardFlood k p).barEnd (pktOpseq p % 256) stOK 0 (bytesAt p.data 0 8) else b
/-- Every barrier that waits ends for want of a device. -/
def Blk.barMissing (b : Blk) (d : Nat) : Blk := (b.bars.waiting.map Prod.fst).foldl (fun b n => b.barEnd n stABSENT d []) b
def Blk.doSliceBarrier (b : Blk) (c : Cmd) : Blk :=
  let n := c.m.param
  if 256 ≤ n then b.badAt c detParam
  else if !b.slice.joined || b.bars.waiting.any (fun w => w.1 == n) then b.busy c
  else
    let b1 := b.accept c
    let b2 := { b1 with bars := { b1.bars with waiting := b1.bars.waiting ++ [(n, c.ctx, c.seq)] } }
    match b.slice.missing.find? fun d => rtMember (b.route d) with
    | some d => b2.barMissing d
    | none => if b.slice.harbour then b2.barArrive b.slice.devid n else b2.sendCtl (ctlPkt b.slice.hmid 0x23 n 0)

/-! ### Mode changes (R445 to R450) -/

def mcChange (v : List Byte) : Nat := leAt v 0 4
def mcBits (v : List Byte) : Nat := leAt v 4 1
def mcTimeout (v : List Byte) : Nat := leAt v 8 4
def modeFault (v : List Byte) : Option Nat :=
  if 16 ≤ mcBits v then some 4 else if 4 ≤ leAt v 5 1 then some 5 else if leAt v 7 1 != 0 then some 7
  else if mcTimeout v < 10 || 10000000 < mcTimeout v then some 8 else if leAt v 0xC 4 != 0 then some 0xC else none
/-- The first epoch at or after an instant (R443). -/
def epochFrom (t : Nat) : Nat := cdiv t (2 ^ 20) * 2 ^ 20
/-- Packets held in doubt leave (R449). -/
def Blk.releaseHeld (b : Blk) : Blk :=
  (b.mode.held).foldl (fun b p =>
    if 0x10 ≤ p.kind then b.collSend p
    else
      let r := b.originate p
      match r.2, r.1.remoteOf p.tag with
      | some st, some q => r.1.setRemote { q with st := some st }
      | _, _ => r.1) { b with mode := { b.mode with held := [] } }
/-- The change ends here without effect: MODE_ABORTED with the device and unit that did not acknowledge (R448). -/
def Blk.modeDrop (b : Blk) (dev unit : Nat) : Blk :=
  let ch := b.mode.change
  (({ b with mode := { b.mode with phase := 0, staged := none, coord := false, cmd := none, acks := [], commit := none } }).releaseHeld).event0 evMODEABORTED
    (leBytes 4 ch ++ leBytes 2 dev ++ leBytes 1 unit ++ zeros 1)
/-- The coordinator aborts: its command ends, and in slice scope every member is told (R448, R450). -/
def Blk.modeAbort (b : Blk) (dev unit st det : Nat) : Blk :=
  let w := b.mode.cmd
  let slice := match b.mode.staged with | some v => tbit (mcBits v) 0 | none => false
  let b1 := if slice then b.flood (ctlPkt 0 0x28 b.mode.change (dev + unit * 65536)) else b
  let b2 := b1.modeDrop dev unit
  match w with
  | some q => (match b2.cmdOf q.1 q.2 with | some c => b2.finish c st det [] | none => b2)
  | none => b2
/-- The commit is set: E, and every other member told of it (R447 step 3, R450). -/
def Blk.modeCommit (b : Blk) : Blk :=
  let e := epochFrom (b.tide + 2 ^ 20)
  let slice := match b.mode.staged with | some v => tbit (mcBits v) 0 | none => false
  let b1 := { b with mode := { b.mode with commit := some e, uncommitted := if slice then b.members.filter fun d => d != b.slice.devid else [] } }
  if slice then b1.flood (ctlPkt 0 0x27 b.mode.change 0 (leBytes 8 e)) else b1
/-- Every member has acknowledged: the commit follows. -/
def Blk.modeAcked (b : Blk) : Blk := if b.members.all b.mode.acks.contains then b.modeCommit else b
/-- CMD_MODE_PREPARE (R445 to R447, R450). In device scope a free value names a unit that does not acknowledge, 3 for none. -/
def Blk.doModePrepare (b : Blk) (c : Cmd) : Blk :=
  let v := c.m.payload
  let slice := tbit (mcBits v) 0
  if c.m.param != 0 then b.badAt c detParam
  else match modeFault v with
    | some o => b.badAt c (detPay o)
    | none =>
      if (slice && !(b.slice.joined && b.slice.harbour)) || (!slice && tbit (mcBits v) 2 && b.slice.joined) then b.badAt c 0x24
      else if b.mode.phase != 0 then b.busy c
      else if !b.slice.missing.isEmpty then b.reject c stABSENT 0
      else
        let b1 := b.accept c
        let m := { b1.mode with change := mcChange v, phase := 1, staged := some v, coord := true, cmd := some (c.ctx, c.seq), acks := [b.slice.devid],
                                uncommitted := [], commit := none }
        if slice then (({ b1 with mode := m }).flood (ctlPkt 0 0x25 (mcChange v) 0 v)).modeAcked
        else
          let r := Blk.freeVal { b1 with mode := m } 0x450
          if r.1 % 4 = 3 then r.2.modeCommit else { r.2 with mode := { r.2.mode with acks := [r.1 % 4] } }
/-- MODE_PREPARE at a member: staged and acknowledged, or refused by the Lighthouse, unit 0 (R447 step 2). -/
def Blk.modePrepareRx (b : Blk) (k : Nat) (p : Pkt) : Blk :=
  if !b.firstCopy p then b
  else
    let b1 := b.forwardFlood k p
    let ch := pktOpseq p
    if b1.sync.st != 2 || b1.mode.staged.isSome then b1.sendCtl (ctlPkt p.src 0x26 ch 1)
    else ({ b1 with mode := { b1.mode with change := ch, phase := 1, staged := some (bytesAt p.data 0 16), coord := false, commit := none } }).sendCtl (ctlPkt p.src 0x26 ch 0)
/-- MODE_ACK at the Harbourmaster: SIG [0] refuses, [2:1] the first unit that refuses (R447, R448). -/
def Blk.modeAckRx (b : Blk) (p : Pkt) : Blk :=
  if !b.mode.coord || b.mode.change != pktOpseq p || b.mode.commit.isSome || b.mode.phase = 0 then b
  else if tbit (pktSig p) 0 then b.modeAbort p.src (fld (pktSig p) 2 1) stBUSY 2
  else ({ b with mode := { b.mode with acks := if b.mode.acks.contains p.src then b.mode.acks else b.mode.acks ++ [p.src] } }).modeAcked
/-- TIMEOUT without every acknowledgement: the record names the device and unit (R448, R450). -/
def Blk.modeAckTimeout (b : Blk) : Blk :=
  if !b.mode.coord || b.mode.commit.isSome || b.mode.phase = 0 then b
  else
    let slice := match b.mode.staged with | some v => tbit (mcBits v) 0 | none => false
    let dev := if slice then (b.members.find? fun d => !b.mode.acks.contains d).getD b.slice.devid else b.slice.devid
    let unit := if slice then 0 else b.mode.acks.headD 0
    let det := b.errDetail
    (b.addError { cls := 1, kind := 0, code := 0x51, status := stHWERROR, detail := dev + unit * 65536 }).modeAbort dev unit stHWERROR det
/-- The committed change takes effect in every unit (R405, R409, R416, R447 steps 4 and 5). -/
def Blk.modeSwitch (b : Blk) (e : Nat) (v : List Byte) : Blk :=
  let bits := mcBits v
  let b1 := if tbit bits 1 then { b with slice := { b.slice with routes := b.slice.shadow, shadow := b.slice.routes, fallback := [] } } else b
  let b2 := if tbit bits 2 then
      let f := leAt v 5 1 % 4
      let x := { b1 with slice := { b1.slice with fmode := f } }
      if f = 1 then x.closeWindows (fun _ => true) else x
    else b1
  let b3 := if tbit bits 3 then b2.cfgSet 0x810 (setFld (b2.cfgGet 0x810) 23 16 (leAt v 6 1)) else b2
  let w := b3.mode.cmd
  let b4 := (({ b3 with mode := { b3.mode with phase := 0, staged := none, coord := false, cmd := none, acks := [], commit := none, epoch := e } }).releaseHeld).event0
    evMODECOMMITTED (leBytes 4 (mcChange v) ++ zeros 4 ++ leBytes 8 e)
  match w with
  | some q => (match b4.cmdOf q.1 q.2 with | some c => b4.finish c stOK 0 (leBytes 8 e) | none => b4)
  | none => b4
/-- Epoch E comes. -/
def Blk.modeEpoch (b : Blk) : Blk :=
  match b.mode.commit, b.mode.staged with
  | some e, some v => ({ b with tide := max b.tide e }).modeSwitch e v
  | _, _ => b
/-- MODE_COMMIT at a member; in doubt and after E it applies at once (R447, R449). -/
def Blk.modeCommitRx (b : Blk) (k : Nat) (p : Pkt) : Blk :=
  let b0 := if b.firstCopy p then b.forwardFlood k p else b
  let e := leAt p.data 0 8
  if b0.mode.coord || b0.mode.change != pktOpseq p then b0
  else
    let b1 := b0.sendCtl (ctlPkt p.src 0x29 (pktOpseq p) 0)
    match b1.mode.staged with
    | none => b1
    | some v =>
      if e ≤ b1.tide then b1.modeSwitch e v
      else ({ b1 with mode := { b1.mode with commit := some e, phase := 1 } }).releaseHeld
def Blk.commitAckRx (b : Blk) (p : Pkt) : Blk :=
  if b.mode.change = pktOpseq p then { b with mode := { b.mode with uncommitted := b.mode.uncommitted.filter fun d => d != p.src } } else b
/-- Every 100 µs MODE_COMMIT goes again to the members that have not returned COMMIT_ACK. -/
def Blk.modeResend (b : Blk) : Blk :=
  let e := b.mode.commit.getD b.mode.epoch
  b.mode.uncommitted.foldl (fun b d => b.sendCtl (ctlPkt d 0x27 b.mode.change 0 (leBytes 8 e))) b
/-- MODE_ABORT at a member: SIG [13:0] the device, [17:16] the unit that did not acknowledge. -/
def Blk.modeAbortRx (b : Blk) (k : Nat) (p : Pkt) : Blk :=
  let b0 := if b.firstCopy p then b.forwardFlood k p else b
  if b0.mode.coord || b0.mode.change != pktOpseq p || b0.mode.staged.isNone || b0.mode.commit.isSome then b0
  else b0.modeDrop (pktSig p % 2 ^ 14) (fld (pktSig p) 17 16)
/-- An acknowledged member hears neither commit nor abort (R449). -/
def Blk.modeInDoubt (b : Blk) : Blk :=
  if b.mode.coord || b.mode.phase != 1 || b.mode.commit.isSome then b
  else ({ b with mode := { b.mode with phase := 2 } }).addError { cls := 2, kind := 0, code := 0x52, detail := b.mode.change }

/-! ### Missing devices (R413, R439, R444, R448) -/

/-- A device is marked missing here, or its mark clears: DEVICE_MISSING, and what waits for it ends. -/
def Blk.setMissing (b : Blk) (d : Nat) (on : Bool) : Blk :=
  if b.isMissing d = on then b
  else
    let b1 := { b with slice := { b.slice with missing := if on then b.slice.missing ++ [d] else b.slice.missing.filter fun x => x != d } }
    let ctxs := (0 :: ((b1.chans.filter fun q => q.2.opened && q.2.members.contains d).map fun q => q.2.ctx)).eraseDups
    let b2 := b1.eventTo ctxs evDEVICEMISSING (leBytes 2 d ++ leBytes 1 (bnat on) ++ zeros 5)
    if !on then b2
    else
      let b3 := (b2.collMissing d).barMissing d
      if b3.mode.coord && b3.mode.commit.isNone && b3.mode.phase != 0 && b3.members.contains d then b3.modeAbort d 0 stABSENT d else b3
/-- The Harbourmaster's mark goes to every member: SIG [13:0] the device, [16] set or clear. What a missing device reported no longer counts. -/
def Blk.broadcastMissing (b : Blk) (d : Nat) (on : Bool) : Blk :=
  let b1 := if on then { b with slice := { b.slice with darkFaces := b.slice.darkFaces.filter fun q => q.1 / 8 != d } } else b
  (b1.flood (ctlPkt 0 0x22 0 (d + 65536 * bnat on))).setMissing d on
def Blk.missingRx (b : Blk) (k : Nat) (p : Pkt) : Blk :=
  if b.firstCopy p then (b.forwardFlood k p).setMissing (pktSig p % 2 ^ 14) (tbit (pktSig p) 16) else b
/-- Reports held about a device, by their reporters, but for one of these. -/
def Blk.reportsOf (b : Blk) (d but : Nat) : List Nat :=
  (b.slice.darkFaces.filter fun q => q.2 / 4 == d && q.2 != 0 && q.1 / 8 != but && q.1 / 8 != d && !b.isMissing (q.1 / 8)).map fun q => q.2 % 4
/-- Is a device dark as far as reporters other than one say? -/
def Blk.darkTo (b : Blk) (d but : Nat) : Bool := let l := b.reportsOf d but; !l.isEmpty && l.all fun x => x == 1
/-- Do all faces that lead to a device from a member say it is dark? A member that is dark to all others has no say. -/
def Blk.allDark (b : Blk) (d : Nat) : Bool :=
  let l := b.slice.darkFaces.filter fun q => q.2 / 4 == d && q.2 != 0 && q.1 / 8 != d && !b.isMissing (q.1 / 8) && !b.darkTo (q.1 / 8) d
  !l.isEmpty && l.all fun q => q.2 % 4 == 1
def Blk.missingTimer (b : Blk) (d : Nat) : Blk :=
  if b.slice.joined && b.slice.harbour && d != b.slice.devid && !b.isMissing d && b.allDark d then b.broadcastMissing d true else b
/-- Marks clear once a link toward their device has passed the check (R413). -/
def Blk.clearMissing (b : Blk) : Blk :=
  if !(b.slice.joined && b.slice.harbour) then b
  else (b.slice.missing.filter fun d => b.slice.darkFaces.any fun q => q.2 == 4 * d + 3 && q.1 / 8 != d && !b.isMissing (q.1 / 8) && !b.darkTo (q.1 / 8) d).foldl (fun b d => b.broadcastMissing d false) b
/-- A neighbour's report of its face toward a device (R413). -/
def Blk.faceStateRx (b : Blk) (p : Pkt) : Blk :=
  let s := pktSig p
  if !(b.slice.joined && b.slice.harbour) then b
  else ({ b with slice := { b.slice with darkFaces := sset (fun _ => 0) b.slice.darkFaces (p.src * 8 + s % 8) (faceCode (fld s 29 16) (tbit s 3) (tbit s 4)) } }).clearMissing

/-! ### Delivery -/

/-- A whole packet received over a link: for this device by its KIND, or on its way to another (R407, R436). -/
def Blk.deliverPkt (b : Blk) (k : Nat) (p : Pkt) : Blk :=
  if p.dst != b.slice.devid then b.forward p
  else if p.kind = 1 then b.pktWrite p
  else if p.kind = 2 then b.pktRead p
  else if p.kind = 3 then b.pktReply p 2
  else if p.kind = 4 then b.pktReply p 1
  else if p.kind = 5 then b.pktNotice p
  else if 0x10 ≤ p.kind && p.kind ≤ 0x16 then b.collRx p
  else if p.kind = 0x20 then b.tideRx k p
  else if p.kind = 0x21 then b.faceStateRx p
  else if p.kind = 0x22 then b.missingRx k p
  else if p.kind = 0x23 then b.barArriveRx p
  else if p.kind = 0x24 then b.barReleaseRx k p
  else if p.kind = 0x25 then b.modePrepareRx k p
  else if p.kind = 0x26 then b.modeAckRx p
  else if p.kind = 0x27 then b.modeCommitRx k p
  else if p.kind = 0x28 then b.modeAbortRx k p
  else if p.kind = 0x29 then b.commitAckRx p
  else b

end Sys2Proof.Machine
end

