-- ==== Sys2Proof/Machine/Wipe.lean ====
section
/-! DEFINITION. What resets, power states, kills and closes take away: the losses of a Cove and of a Bay, commands cancelled, contexts
closed, COVE resets, kills of partitions and their creation and keys (R55, R109, R145, R172, R225, R261, R338, R457, R458, R465, R478 to
R488). -/
namespace Sys2Proof.Machine

/-! ### Losses of a Cove and of a Bay (R457, R458) -/

/-- Engines of a Bay that a Cove's instruction holds are free again. -/
def Blk.freeEngines (b : Blk) (c : Nat) : Blk :=
  let y := b.bay (bayOf c)
  b.setBay (bayOf c) { y with engines := smap (fun _ => {}) (fun _ e => if e.busy = some c then { e with busy := none } else e) y.engines }
/-- A Cove stops at once: what waits is given up, what is queued discarded, and a running program ends STOPPED (R465, R485). -/
def Blk.stopNow (b : Blk) (c : Nat) : Blk :=
  let b1 := b.dropHold c
  let b2 := if b1.runs c || b1.claimed c then b1.leave c 5 0 0 (b1.seq c).pc 0 else b1.releaseMatch c
  (b2.setSeq c { b2.seq c with inflight := [] }).freeEngines c
/-- ACM and ARRAY: entries, tags, pending tags and statistics; both slots (R109, R145). -/
def Cove.loseAcm (x : Cove) : Cove := { x with acm := [], tags := [], pend := [], stats := {}, slotA := {}, slotB := {} }
/-- PROGRAMS: the program buffer and sequencer state; the exit record stays for the command that reports it, and CV_SEQ_EXIT reads 0 (R172, R458, R465). -/
def Cove.loseProgram (x : Cove) : Cove := { x with seq := { exit := x.seq.exit, exitLost := true, nextSerial := x.seq.nextSerial } }
/-- TP_DATA and the TIDEPOOL group: rings, inboxes, credits, the cache portion (R225). -/
def Cove.loseTidepool (x : Cove) : Cove :=
  { x with inboxes := [], rings := [], creds := [], prods := [], lines := [], lineClock := 0, bankPtr := [], cacheChanging := false }
/-- The words of a block that a test on the offset in it names return to their reset values. -/
def Blk.cfgLose (b : Blk) (blk unit : Nat) (is : Nat → Bool) : Blk :=
  { b with cfg := b.cfg.filter fun q => let w := cfgWhere q.1; !(w.1 == blk && w.2.1 == unit && is w.2.2) }
/-- Is an offset of a CV_ block one of the TIDEPOOL group's? -/
def tpWord (o : Nat) : Bool := o == 0x3800 || o == 0x3808
/-- The entries that other Coves and the Bays hold for lost Tidepools are removed, and producers that wait on one go on under R222. -/
def Blk.dropTargets (b : Blk) (lost : Nat → Bool) : Blk :=
  let b1 := { b with
    coves := smap (fun _ => {}) (fun v x => if lost v then x else
      { x with creds := x.creds.filter fun k => !lost k.2.target, prods := x.prods.filter fun k => !lost k.2.owner }) b.coves
    bays := smap (fun _ => {}) (fun _ y => { y with creds := y.creds.filter fun k => !lost k.2.target }) b.bays }
  ((b.coves.filter fun q => !lost q.1 && q.2.prods.any fun k => lost k.2.owner).map Prod.fst).foldl (fun b c => b.kick c) b1
/-- The bytes of lost Tidepools are zero. -/
def Blk.zeroTidepools (b : Blk) (lost : Nat → Bool) : Blk :=
  { b with mem := b.mem.filter fun q => !(regionOf q.1 == 1 && lost ((q.1 - tpBase) / tpSize)) }
/-- What a COVE reset loses: COVE, TIDEPOOL, PROGRAMS, TP_DATA, ACM, ARRAY (R458). -/
def Blk.loseCove (b : Blk) (c : Nat) : Blk :=
  let b1 := b.setCove c { ((b.cove c).loseAcm.loseProgram).loseTidepool with gens := [] }
  ((b1.cfgLose 7 c fun _ => true).zeroTidepools fun v => v == c).dropTargets fun v => v == c
/-- SCATTER and the CMU's grant: every tag not VALID, the match table empty and unheld (R261). -/
def Bay.loseScatter (y : Bay) : Bay :=
  { y with bab := [], babTags := [], hia := [], hiaTags := [], matchKeys := [], matchHolder := none, results := [], engines := [] }

/-! ### DMA descriptors cancelled (R465, R485, R486) -/

/-- A descriptor cancelled: unstarted with no effect, running at the end of a unit the manual's timing sets, a free PROGRESS. -/
def Blk.cancelDesc (b : Blk) (y : Nat) (d : Desc) : Blk :=
  ((b.setDesc y { d with running := true, todo := [], reading := false, out := some (stCANCELLED, 0, if d.running then openProg else 0) }).dropRemotes
    (.desc y d.serial)).descComplete y d.serial
/-- The descriptors of a Bay cancelled where a test holds. -/
def Blk.cancelDescs (b : Blk) (y : Nat) (is : Desc → Bool) : Blk :=
  ((b.bay y).descs.filter is).foldl (fun b d => match b.descOf y d.serial with | some e => b.cancelDesc y e | none => b) b
/-- The same in every Bay. -/
def Blk.cancelAllDescs (b : Blk) (is : Desc → Bool) : Blk := (b.bays.map Prod.fst).foldl (fun b y => b.cancelDescs y is) b

/-! ### Commands cancelled (R55, R462, R485) -/

/-- Nothing waits any more to report to a command. -/
def Blk.detach (b : Blk) (ctx seq : Nat) : Blk :=
  let off := fun (o : Option (Nat × Nat)) => if o = some (ctx, seq) then none else o
  { (b.dropRemotes (.cmd ctx seq)) with
    links := smap (fun _ => {}) (fun _ l => { l with cmd := off l.cmd }) b.links
    hbmStacks := smap (fun _ => {}) (fun _ k => { k with busyCmd := off k.busyCmd }) b.hbmStacks
    parts := smap (fun _ => {}) (fun _ x => { x with killer := off x.killer }) b.parts
    dev := { b.dev with changer := off b.dev.changer }
    mode := { b.mode with cmd := off b.mode.cmd }
    bars := { b.bars with waiting := b.bars.waiting.filter fun w => w.2 != (ctx, seq) } }
/-- The payload of a cancelled command: CMD_MEM_READ states that no byte was delivered (R58). -/
def Cmd.cancelPay (c : Cmd) : List Byte := if c.m.opcode = 0x301 then zeros 8 else []
/-- A command cancelled at once. A mode change not yet committed is aborted; a table being built is freed. -/
def Blk.cancelCmd (b : Blk) (c : Cmd) : Blk :=
  if c.started && c.m.opcode = 0x604 && b.mode.cmd = some (c.ctx, c.seq) && b.mode.commit.isNone then b.modeAbort b.slice.devid 0 stCANCELLED 0
  else if c.started && c.m.opcode = 0x400 && b.serves.any (fun q => q.2.reqs.any fun r => r.ctx == c.ctx && r.seq == c.seq) then
    b.cancelReqs fun r => r.ctx == c.ctx && r.seq == c.seq
  else
    let h := fld c.m.param 3 0
    let b1 := if c.started && c.m.opcode = 0x303 && (match c.vars with | [i] => (b.tab h i).st == 1 | _ => false) then b.setTab h (c.vars.headD 0) {} else b
    (b1.detach c.ctx c.seq).finish c stCANCELLED 0 c.cancelPay
/-- Commands of a list cancelled at once, as they stand when their turn comes. -/
def Blk.cancelCmds (b : Blk) (l : List Cmd) : Blk :=
  l.foldl (fun b c => match b.cmdOf c.ctx c.seq with | some d => b.cancelCmd d | none => b) b
/-- Every uncompleted command ends, those that wait in intake and those that a span's log holds among them (R462, R507). -/
def Blk.endAll (b : Blk) (but : Option (Nat × Nat)) (st det : Nat) : Blk :=
  let here := b.host.cmds.map fun c => c.m
  let held := (b.spans.flatMap fun q => if q.2.opened then q.2.log.map fun l => l.m else []).filter fun m => !here.any fun n => n.ctx == m.ctx && n.seq == m.seq
  let once := held.foldl (fun l m => if l.any fun n => n.ctx == m.ctx && n.seq == m.seq then l else l ++ [m]) []
  let ends := (here ++ once ++ b.host.intake.filterMap fun q => q.2.1).filter fun m => some (m.ctx, m.seq) != but
  let b1 := { b with spans := [], host := { b.host with cmds := b.host.cmds.filter (fun c => some (c.ctx, c.seq) == but), intake := [] } }
  ends.foldl (fun b m => b.finalReply m true st det (if m.opcode = 0x301 then zeros 8 else [])) b1

/-! ### CMD_CTX_CLOSE (R55) -/

/-- The context is gone: frames that are no events wait on, its event queue is discarded. -/
def Blk.ctxGone (b : Blk) (n : Nat) : Blk :=
  let x := b.ctx n
  b.setCtx n { home := x.home, homeSet := x.homeSet, held := x.held.filter fun o => !o.event }
/-- One command of a closing context: what runs is stopped and reports later, the rest ends at once. -/
def Blk.closeCmd (b : Blk) (c : Cmd) : Blk :=
  if c.started && c.m.opcode = 0x201 && c.vars.length = 2 then
    match coveSet c.m.param with | some s => (setCoves s).foldl (fun b v => b.stopCove v) b | none => b
  else if c.started && c.m.opcode = 0x302 then
    b.cancelAllDescs fun d => !d.running && (match d.origin with | .cmd ctx seq _ => ctx == c.ctx && seq == c.seq | _ => false)
  else b.cancelCmd c
/-- A context that closes: its spans are freed, its requests and commands cancelled. -/
def Blk.closing (b : Blk) (n : Nat) (but : Option (Nat × Nat)) : Blk :=
  let b1 := ((b.setCtx n { b.ctx n with st := 2 }).freeSpans fun _ x => x.ctx == n).cancelReqs fun r => r.ctx == n
  (b1.host.cmds.filter fun c => c.ctx == n && some (c.ctx, c.seq) != but).foldl (fun b c => match b.cmdOf c.ctx c.seq with
    | some d => b.closeCmd d
    | none => b) b1
/-- A CMD_CTX_CLOSE that waits ends once nothing of the context is left. -/
def Blk.pollCtxClose (b : Blk) (c : Cmd) : Blk :=
  let n := c.m.param
  if b.host.cmds.any fun d => d.ctx == n && !(d.ctx == c.ctx && d.seq == c.seq) then b else (b.finish c stOK 0 []).ctxGone n
def Blk.doCtxClose (b : Blk) (c : Cmd) : Blk :=
  let n := c.m.param
  if nCtxs ≤ n || n = 0 then b.badAt c detParam
  else if (b.ctx n).st = 0 then b.reject c stNOPERM 4
  else if (b.ctx n).st = 2 then b.busy c
  else
    let b1 := (b.accept c).closing n (some (c.ctx, c.seq))
    match b1.cmdOf c.ctx c.seq with | some d => b1.pollCtxClose d | none => b1

/-! ### COVE reset (R465) -/

/-- The commands that wait for the reset of a Cove. -/
def Blk.coveResets (b : Blk) (v : Nat) : List Cmd :=
  b.host.cmds.filter fun c => c.m.opcode == 0x801 && c.started && fld c.m.param 3 0 == 4 && fld c.m.param 27 16 == v
/-- A Cove is reset: stopped, its unstarted descriptors cancelled, all lost, and its clearing under way with the crossing closed. -/
def Blk.resetCove (b : Blk) (v : Nat) : Blk :=
  let b1 := (b.stopNow v).cancelDescs (bayOf v) fun d => !d.running && (match d.origin with | .cove c _ _ _ _ => c == v | _ => false)
  let b2 := (b1.loseCove v).collCoveLost v
  let b3 := b2.setCove v { b2.cove v with clearing := true }
  { b3 with dev := { b3.dev with closed := if b3.dev.closed.contains (0, v) then b3.dev.closed else b3.dev.closed ++ [(0, v)] } }
    |>.kickBay (bayOf v) (v % 16)
/-- The clearing of a Tidepool and ACM ends, and the reset completes. -/
def Blk.clearingEnd (b : Blk) (v : Nat) : Blk :=
  let x := b.cove v
  if !x.clearing then b
  else
    let b1 := b.setCove v { x with clearing := false }
    (b.coveResets v).foldl (fun b c => (b.finish c stOK 0 []).resetDone 4 v 0x2E0600 (b.partOfCove v)) b1

/-! ### Kills (R484 to R488) -/

/-- Is an uncompleted command of a partition, by its header? A CMD_CTX_CLOSE goes on. -/
def Cmd.isOf (c : Cmd) (p : Nat) (but : Nat × Nat) : Bool := c.m.partition == p && (c.ctx, c.seq) != but && c.m.opcode != 4
/-- Steps 1 to 3 of a kill: the partition stops, its key is gone, what it had under way is cancelled (R485, R486). -/
def Blk.killPart (b : Blk) (p : Nat) (dissolve zero isReset : Bool) (who : Nat × Nat) : Blk :=
  let x := b.part p
  let cs := b.partCoves p
  let b1 := { (b.setPart p { x with st := 3, key := [], pm := zeros 64, dissolving := dissolve, killer := some who, isReset := isReset, slack := false }) with
    zeroing := if zero then b.zeroing ||| x.grans else b.zeroing }
  let b2 := cs.foldl (fun b c => b.stopNow c) b1
  let b3 := (b.partBays p).foldl (fun b y => b.cancelDescs y fun _ => true) b2
  let b4 := (b3.freeSpans fun k _ => k / 16 == p).killServe p
  let b5 := b4.cancelCmds (b4.host.cmds.filter fun c => c.isOf p who)
  ((b5.closeChans p).closeWindows fun w => w.part == p || (covesOf w.base w.len).any fun v => cs.contains v)
    |> fun b => { b with slice := { b.slice with remotes := b.slice.remotes.filter fun r => r.pkt.part != p } }
def Blk.doPartKill (b : Blk) (c : Cmd) : Blk :=
  let p := fld c.m.param 3 0
  let x := b.part p
  if c.m.param != p + fld c.m.param 33 32 * 2 ^ 32 then b.badAt c detParam
  else if x.st = 0 || x.st = 3 || b.dev.changing != 0 || b.host.cmds.any (fun d => d.m.opcode == 0x800 && d.started) ||
      (x.grans ||| x.leaving) &&& b.zeroing != 0 then b.busy c
  else (b.accept c).killPart p (tbit c.m.param 33) (tbit c.m.param 32) false (c.ctx, c.seq)
/-- Step 4: everything on the chip that the partition held is zeros and defaults (R458, R485). -/
def Blk.scrubPart (b : Blk) (p : Nat) : Blk :=
  let has := fun v => b.partOfCove v == some p
  let bays := b.partBays p
  let b1 := ((b.zeroTidepools has).dropTargets has)
  let b2 := { b1 with
    coves := smap (fun _ => {}) (fun v x => if has v then { seq := { nextSerial := x.seq.nextSerial }, clearing := x.clearing } else x) b1.coves
    bays := smap (fun _ => {}) (fun v y => if bays.contains v then
        { coveMap := y.coveMap, retired := y.retired, sparing := y.sparing, nextDesc := y.nextDesc } else y) b1.bays
    hls := smap (fun _ => {}) (fun v h => if tbit (b.part p).hlmask v then { h with slots := [] } else h) b1.hls
    cfg := b1.cfg.filter fun q => let w := (cfgWhere q.1).1; !((w == 2 || w == 5 || w == 6 || w == 7) && b.cfgPart q.1 == some p)
    watches := b1.watches.filter fun q => q.1 / 256 != p
    serves := b1.serves.filter fun q => q.1 != p
    accounts := b1.accounts.filter fun q => q.2.part != some p
    chans := smap (fun _ => {}) (fun _ x => { x with owed := x.owed.filter fun o => !has o.1 }) b1.chans }
  (b2.host.ctxs.filter fun q => q.1 != 0 && q.2.part == p).foldl (fun b q =>
    b.setCtx q.1 { b.ctx q.1 with held := (b.ctx q.1).held.filter (fun o => !o.event), lost := 0 }) b2
/-- SCRUB_DONE: the partition, and whether background zeroing ends (R485, R488). -/
def Blk.scrubDone (b : Blk) (p : Nat) (zeroed : Bool) : Blk := b.event0 evSCRUBDONE (leBytes 1 p ++ leBytes 1 (bnat zeroed) ++ zeros 6)
/-- Under DISSOLVE the contexts close, the Headlands are free, and the granules are, once they are not being zeroed. -/
def Blk.dissolve (b : Blk) (p : Nat) : Blk :=
  let x := b.part p
  let b1 := ((b.host.ctxs.filter fun q => q.1 != 0 && q.2.st != 0 && q.2.part == p).map Prod.fst).foldl (fun b n => (b.closing n none).ctxGone n) b
  b1.setPart p { st := 0, leaving := x.leaving ||| (x.grans &&& b.zeroing) }
/-- Step 5 of a kill, or of a PARTITION reset, which also sends RESET_DONE (R464, R485). -/
def Blk.killDone (b : Blk) (p : Nat) : Blk :=
  let x := b.part p
  if x.st != 3 then b
  else
    let b1 := (b.scrubPart p).scrubDone p false
    let fin := fun (b : Blk) => match x.killer with
      | some w => (match b.cmdOf w.1 w.2 with | some c => b.finish c stOK 0 [] | none => b)
      | none => b
    let b2 := fin (if x.isReset then b1.resetDone 3 p 0x01FE0F88 (some p) else b1)
    if x.dissolving then b2.dissolve p
    else b2.setPart p { b2.part p with st := 1, dissolving := false, killer := none, isReset := false }
/-- The last ZEROING granule of a partition is written (R488). -/
def Blk.zeroingDone (b : Blk) (p : Nat) : Blk :=
  let x := b.part p
  let z := (x.grans ||| x.leaving) &&& b.zeroing
  if z = 0 || x.st = 3 then b
  else
    let isIn := fun (a : Nat) => regionOf a == 0 && tbit z (a / 2 ^ 30)
    let b1 := { b with
      mem := b.mem.filter fun q => !isIn q.1
      unitKeys := b.unitKeys.filter fun q => !isIn (64 * q.1)
      ueUnits := b.ueUnits.filter fun u => !isIn (64 * u)
      zeroed := b.zeroed ||| z
      zeroing := b.zeroing - z }
    (b1.setPart p { x with leaving := x.leaving - (x.leaving &&& z) }).scrubDone p true

/-! ### Partitions made and keyed (R479, R482, R483) -/

def Blk.doPartCreate (b : Blk) (c : Cmd) : Blk :=
  let p := c.m.param
  let mask := leAt c.m.payload 0 8
  let grans := leAt c.m.payload 8 144
  let hs := (List.range nHeadlands).filter fun h => tbit mask h
  let taken := (List.range nParts).foldl (fun a q => if (b.part q).st = 0 then a else a ||| (b.part q).grans) 0
  let going := (List.range nParts).foldl (fun a q => a ||| (b.part q).leaving) b.zeroing
  if 16 ≤ p then b.badAt c detParam
  else if 2 ^ 16 ≤ mask then b.badAt c (detPay 2)
  else if (b.part p).st != 0 then b.busy c
  else if mask = 0 || hs.any fun h => (b.partOfHl h).isSome then b.badAt c (detPay 0)
  else if grans &&& taken != 0 then b.badAt c (detPay 8)
  else if grans &&& going != 0 then b.reject c stSCRUB
  else if hs.any fun h => (b.hl h).ready == 0 then b.busy c
  else if hs.any fun h => (b.hl h).ready == 3 then b.reject c stHWERROR
  else ((b.accept c).setPart p { st := 1, hlmask := mask, grans := grans, pm := zeros 64, leaving := (b.part p).leaving, slack := b.dev.slack }).finish { c with started := true } stOK 0 []
def Blk.doPartKey (b : Blk) (c : Cmd) : Blk :=
  let p := c.m.param
  let x := b.part p
  if 16 ≤ p || x.st = 0 then b.badAt c detParam
  else if x.st != 1 then b.busy c
  else
    let ss := Config.kemDecap b.fw.kemKey (bytesAt c.m.payload 0 1568)
    let kek := (Config.shake256 (ss ++ [0x50#8] ++ leBytes 1 p ++ b.fw.bootNonce) 32).take 32
    match Config.aesUnwrap kek (bytesAt c.m.payload 0x620 72) with
    | none => b.reject c stNOPERM 3
    | some k =>
      let key := bytesAt k 0 64
      if key.take 32 = key.drop 32 then b.badAt c (detPay 0x620)
      else (b.setPart p { x with st := 2, key := key }).finish c stOK 0 []

end Sys2Proof.Machine
end

