-- ==== Sys2Proof/Machine/Power.lean ====
section
/-! DEFINITION. Resets, power states, FATAL and the board's power pins (R453 to R473, R507, R517 to R519). -/
namespace Sys2Proof.Machine

/-! ### DEVICE and COLD resets (R456 to R462, R503, R512, R514, R531) -/

/-- What every reset but COLD keeps of a Bay and of a stack: the repair maps and the repairs made. -/
def Bay.kept (y : Bay) : Bay := { coveMap := y.coveMap, retired := y.retired }
def Stack.kept (k : Stack) : Stack := { spared := k.spared, repairs := k.repairs, pprDone := k.pprDone, spareUsed := k.spareUsed }
/-- Context 0 as it comes into existence (R51). -/
def ctxZero : Ctx := { st := 1, failover := true }
/-- The host side after a DEVICE reset: the ports as they stand, context 0 alone, and the replies that still wait to leave. -/
def HostSide.afterReset (h : HostSide) : HostSide :=
  let old := smap (fun _ => ({} : Ctx)) (fun _ x => { home := x.home, homeSet := x.homeSet, held := x.held.filter fun o => !o.event }) h.ctxs
  { portA := h.portA, portB := h.portB, evSeq := h.evSeq,
    ctxs := sset (fun _ => {}) old 0 { ctxZero with held := (sget (fun _ => ({} : Ctx)) old 0).held } }
/-- The state that a reset of every island but the Beacon ports and the boot ROM domain leaves (R462 steps 3 and 4). hbm: is what
HBM holds kept? -/
def Blk.afterReset (b : Blk) (hbm : Bool) : Blk :=
  { Blk.reset with
    free := b.free
    host := b.host.afterReset
    err := { recs := b.err.recs, next := b.err.next }
    board := b.board
    mem := if hbm then b.mem.filter fun q => regionOf q.1 == 0 else []
    unitKeys := if hbm then b.unitKeys else []
    ueUnits := if hbm then b.ueUnits else []
    zeroed := if hbm then b.zeroed else 0
    bays := smap (fun _ => {}) (fun _ y => y.kept) b.bays
    hbmStacks := smap (fun _ => {}) (fun _ k => k.kept) b.hbmStacks
    cores := { map := b.cores.map, retired := b.cores.retired }
    cfg := b.cfg.filter fun q => q.1 == 0xE30 || q.1 == 0xE38
    dev := { powered := true, reachedSvc := b.dev.reachedSvc, mrstLow := b.dev.mrstLow, lost := b.dev.lost, lostKind := b.dev.lostKind } }
/-- A DEVICE reset begins: every command ends, then the reset's own with ST_OK, then every island is in reset. -/
def Blk.deviceReset (b : Blk) (c : Option Cmd) : Blk :=
  let b1 := b.endAll (c.map fun c => (c.ctx, c.seq)) stCANCELLED 0
  let b2 := match c with | some c => (b1.accept c).finish { c with started := true } stOK 0 [] | none => b1
  let b3 := b2.afterReset true
  { b3 with dev := { b3.dev with changing := 3 } }
/-- The device is in ROM again and says so (R462 step 5); not while MRST_N is low (R519). -/
def Blk.deviceResetDone (b : Blk) : Blk :=
  if b.dev.changing != 3 || b.dev.mrstLow || !b.dev.powered then b
  else ({ b with dev := { b.dev with changing := 0 } }).resetDone 1 0 0x01FF0FFF none
/-- MRST_N low for 10 µs: a DEVICE reset, or more of the one that runs. -/
def Blk.mrstAssert (b : Blk) : Blk :=
  if !b.dev.powered || b.dev.mrstLow then b
  else
    let b1 := if b.dev.changing = 3 then b else b.deviceReset none
    { b1 with dev := { b1.dev with mrstLow := true } }
def Blk.mrstRelease (b : Blk) : Blk :=
  if !b.dev.powered || !b.dev.mrstLow then b else ({ b with dev := { b.dev with mrstLow := false } }).deviceResetDone
/-- PWR_OK low: no island has power. The stacks' repairs are in their own fuses. -/
def Blk.powerOff (b : Blk) : Blk :=
  { Blk.reset with
    free := b.free
    hbmStacks := smap (fun _ => {}) (fun _ k => { repairs := k.repairs, spareUsed := k.spareUsed }) b.hbmStacks
    dev := { powered := false } }
/-- PWR_OK high: a COLD reset, the boot ROM from Tide 0. -/
def Blk.powerOn (b : Blk) : Blk :=
  if b.dev.powered then b else { Blk.reset with free := b.free, hbmStacks := b.hbmStacks }

/-! ### FATAL (R507, R518, R521) -/

/-- The event of a record just sent, again on the port that is not context 0's home, under the same sequence (R49, R507). -/
def Blk.errorOnOther (b : Blk) (r : ErrRec) : Blk :=
  let p := 1 - b.homeOf 0
  let seq := (b.host.evSeq + (2 ^ 32 - 1)) % 2 ^ 32
  b.sendOn p { kind := 1, ctx := 0, event := true, body := msgBytes evERROR 0 true true seq 0 0 b.tide r.bytes }
/-- Entry to FATAL: Coves and DMA engines stop, stacks in self-refresh, links DISABLED, every uncompleted command ST_UNCONTAINED, the
record on both ports. -/
def Blk.enterFatal (b : Blk) (code kind path detail : Nat) : Blk :=
  if b.dev.fatal || !b.dev.powered then b
  else
    let det := b.errDetail
    let b1 := (b.coves.map Prod.fst).foldl (fun b c => if b.runs c then b.stopNow c else b) b
    let b2 := { b1 with bays := smap (fun _ => {}) (fun _ y => { y with descs := [] }) b1.bays }
    let b3 := (List.range nStacks).foldl (fun b k => b.setStack k { b.stack k with selfref := true, bankBlocked := none, channelHeld := none }) b2
    let b4 := (List.range nLinks).foldl (fun b k => b.linkLeave k 0) b3
    let b5 := (b4.endAll none stUNCONTAINED det)
    let b6 := { b5 with dev := { b5.dev with fatal := true, changing := 0, changer := none }, host := { b5.host with intakeStopped := false } }
    let b7 := b6.addError { cls := 3, kind := kind, code := code, path := path, proposal := 5, status := stUNCONTAINED, detail := detail }
    match b7.err.recs.getLast? with
    | some r => b7.errorOnOther r
    | none => b7
/-- The main input below 36 V: what the chip held is lost, HBM with it, and the boot ROM enters FATAL (R518). -/
def Blk.mainCollapse (b : Blk) (mv : Nat) : Blk :=
  if !b.dev.powered then b
  else
    let b1 := { b with board := { b.board with mainMv := mv, mainOk := false } }
    if !b.board.mainOk then b1
    else
      let b2 := (b1.enterFatal 0x62 10 1 1).afterReset false
      { b2 with dev := { b2.dev with fatal := true, reachedSvc := b.dev.reachedSvc } }
/-- The main input outside 40 V to 58 V for 1 ms. -/
def Blk.mainFault (b : Blk) (mv : Nat) : Blk :=
  if !b.dev.powered then b
  else
    let b1 := { b with board := { b.board with mainMv := mv, mainOk := false } }
    if b.board.mainOk then b1.enterFatal 0x62 10 1 0 else b1
/-- A warning band (R518): MAIN_WARN is latched, bit 3. -/
def latch (alerts bit : Nat) : Nat := if tbit alerts bit then alerts else alerts + 2 ^ bit
def Blk.mainWarn (b : Blk) (mv : Nat) : Blk :=
  if b.dev.powered then { b with board := { b.board with mainMv := mv, alerts := latch b.board.alerts 3 } } else b
def Blk.mainInRange (b : Blk) (mv : Nat) : Blk := if b.dev.powered then { b with board := { b.board with mainMv := mv, mainOk := true } } else b
def Blk.sysclkLoss (b : Blk) : Blk := (if b.dev.powered then { b with board := { b.board with sysclk := false } } else b).enterFatal 0x62 10 0 0x10

/-! ### CMD_RESET (R461 to R467) -/

def resetKind (c : Cmd) : Nat := fld c.m.param 3 0
def resetTarget (c : Cmd) : Nat := fld c.m.param 27 16
/-- May the header's partition ask for this reset (R461)? -/
def Blk.resetPartOk (b : Blk) (c : Cmd) : Bool :=
  c.part == 0xFF || (resetKind c == 3 && c.part == resetTarget c) || (resetKind c == 4 && b.partOfCove (resetTarget c) == some c.part)
/-- Is a change of power state under way (R467)? -/
def Blk.powerChanging (b : Blk) : Bool := b.dev.changing == 1 || b.dev.changing == 2 || b.host.cmds.any fun c => c.m.opcode == 0x800 && c.started
/-- Intake stops: what arrives waits (R66). -/
def Blk.stopIntake (b : Blk) : Blk :=
  { b with host := { b.host with intakeStopped := true }, cores := { b.cores with stallFrom := b.tide } }
def Blk.closeXing (b : Blk) (kind idx : Nat) : Blk :=
  if b.dev.closed.contains (kind, idx) then b else { b with dev := { b.dev with closed := b.dev.closed ++ [(kind, idx)] } }
def Blk.openXing (b : Blk) (kind idx : Nat) : Blk := { b with dev := { b.dev with closed := b.dev.closed.filter (· != (kind, idx)) } }
def Blk.resetLighthouse (b : Blk) (c : Cmd) : Blk :=
  let b1 := ((b.accept c).stopIntake).closeXing 3 0
  { b1 with cores := { b1.cores with lhReset := some (c.ctx, c.seq) } }
def Blk.resetLink (b : Blk) (k : Nat) (c : Cmd) : Blk := ((b.linkWait k 5 c).closeXing 2 k).retrain k
def Blk.resetStack (b : Blk) (k : Nat) (c : Cmd) : Blk :=
  let b1 := (b.accept c).closeXing 1 k
  b1.setStack k { b1.stack k with retrain := true, busyCmd := some (c.ctx, c.seq) }
def Blk.doReset (b : Blk) (c : Cmd) : Blk :=
  let kind := resetKind c
  let t := resetTarget c
  let most := if kind = 3 then 16 else if kind = 4 then nCoves else if kind = 5 then nLinks else if kind = 6 then nStacks else 1
  if c.m.param != kind + t * 65536 || kind = 0 || 6 < kind || most ≤ t then b.badAt c detParam
  else if !b.resetPartOk c then b.reject c stNOPERM 2
  else if kind = 1 then b.deviceReset (some c)
  else if b.devMode != 4 && !(kind = 2 && b.devMode = 5) then b.busy c
  else if b.powerChanging then b.busy c
  else if kind = 2 then (if b.cores.lhReset.isSome then b.busy c else b.resetLighthouse c)
  else if kind = 3 then
    (if (b.part t).st = 0 || (b.part t).st = 3 then b.busy c else (b.accept c).killPart t false false true (c.ctx, c.seq))
  else if kind = 4 then (if (b.cove t).clearing || b.coveScrub t then b.busy c else (b.accept c).resetCove t)
  else if kind = 5 then (if (b.link t).cmd.isSome then b.busy c else b.resetLink t c)
  else if (b.stack t).retrain || (b.stack t).training || (b.stack t).busyCmd.isSome then b.busy c else b.resetStack t c

/-! ### CMD_POWER_STATE (R468 to R473) -/

/-- The partitions of a command's scope. -/
def Blk.scopeParts (b : Blk) (c : Cmd) : List Nat :=
  if tbit c.m.param 8 then [fld c.m.param 19 16] else (List.range nParts).filter fun p => (b.part p).st != 0
/-- Its scopes of SLACK: DEVICE takes in the Coves of no partition. -/
def Blk.scopeKeys (b : Blk) (c : Cmd) : List (Option Nat) := (if tbit c.m.param 8 then [] else [none]) ++ (b.scopeParts c).map some
/-- Entry to SLACK: the Coves of the scope drain. -/
def Blk.enterSlack (b : Blk) (c : Cmd) (ks : List (Option Nat)) : Blk :=
  ks.foldl (fun b k => (b.scopeCoves k).foldl (fun b v => b.suspendCove v) (b.setSlack true k)) (b.accept c)
/-- The entry ends once no Cove of the scope issues; a partition that a command has woken since is no longer waited for. -/
def Blk.pollSlack (b : Blk) (c : Cmd) : Blk :=
  if c.m.param % 4 = 1 && ((b.scopeKeys c).all fun k => !b.slackAt k || (b.scopeCoves k).all fun v => (b.seq v).st != 1) then b.finish c stOK 0 []
  else b
/-- Is a Cove outside a running serving step RUN or SUSPENDED (R470)? -/
def Blk.coveOutside (b : Blk) : Bool :=
  b.coves.any fun q => (q.2.seq.st == 1 || q.2.seq.st == 2) && (match b.partOfCove q.1 with | some p => (b.serve p).step.isNone | none => true)
/-- Entry to NEAP or DORMANT accepted: serving halts after its steps (R470). -/
def Blk.enterLow (b : Blk) (c : Cmd) (tgt : Nat) : Blk :=
  let b1 := b.accept c
  ({ b1 with dev := { b1.dev with changing := 1, target := tgt, changer := some (c.ctx, c.seq) } }).haltServing
def Blk.wake (b : Blk) (c : Cmd) : Blk :=
  let b1 := b.accept c
  { b1 with dev := { b1.dev with changing := 2, target := 0, changer := some (c.ctx, c.seq) } }
def Blk.doPower (b : Blk) (c : Cmd) : Blk :=
  let q := c.m.param
  let tgt := fld q 1 0
  let isPart := tbit q 8
  let p := fld q 19 16
  let ps := b.scopeParts c
  let ks := b.scopeKeys c
  if q != tgt + bnat isPart * 256 + p * 65536 || (isPart && 1 < tgt) || c.part != 0xFF && !(isPart && c.part = p) then b.badAt c detParam
  else if isPart && (b.part p).st = 0 then b.badAt c detParam
  else if isPart && (b.part p).st = 3 then b.reject c stSCRUB
  else if b.changing then b.busy c
  else if tgt = 1 then
    if 2 ≤ b.dev.power || ps.any fun p => (b.serve p).engine == 1 then b.busy c
    else if ks.all b.slackAt then b.acceptEnd c stOK 0 []
    else
      let b1 := b.enterSlack c (ks.filter fun k => !b.slackAt k)
      match b1.cmdOf c.ctx c.seq with | some d => b1.pollSlack d | none => b1
  else if tgt = 0 then
    (if 2 ≤ b.dev.power then (if isPart then b.busy c else b.wake c) else (b.wakeParts ks).acceptEnd c stOK 0 [])
  else if b.dev.power = tgt then b.acceptEnd c stOK 0 []
  else if b.dev.power = 3 || b.coveOutside || b.mode.phase != 0 then b.busy c
  else b.enterLow c tgt
/-- Has all that a low-power entry waits for ended (R470)? -/
def Blk.drained (b : Blk) : Bool :=
  b.serves.all (fun q => q.2.step.isNone && !q.2.halting) && b.bays.all (fun q => q.2.descs.isEmpty) && b.chans.all fun q => q.2.op.isNone
/-- What NEAP loses: COVE, BAY, PROGRAMS, ACM, SCATTER, ARRAY (R458). -/
def Blk.loseNeap (b : Blk) : Blk :=
  { b with
    coves := smap (fun _ => {}) (fun _ x => { x.loseAcm.loseProgram with gens := [], spill := {} }) b.coves
    bays := smap (fun _ => {}) (fun _ y => y.loseScatter) b.bays
    barriers := []
    cfg := b.cfg.filter fun q => let w := cfgWhere q.1; !(w.1 == 6 || (w.1 == 7 && !tpWord w.2.2)) }
/-- What DORMANT loses besides: TIDEPOOL, TP_DATA, CHANNELS, WINDOWS; the links go DISABLED and the Tide clock runs in HOLDOVER. -/
def Blk.loseDormant (b : Blk) : Blk :=
  let b1 := (b.chans.map Prod.fst).foldl (fun b ch => if (b.chan ch).opened then b.closeChan ch else b) b
  let b2 := { b1.zeroTidepools (fun _ => true) with
    coves := smap (fun _ => {}) (fun _ x => x.loseTidepool) b1.coves
    bays := smap (fun _ => {}) (fun _ y => { y with creds := [] }) b1.bays
    chans := []
    slice := { b1.slice with windows := [] }
    cfg := b1.cfg.filter fun q => (cfgWhere q.1).1 != 7
    sync := if b1.sync.st = 0 || b1.slice.harbour then b1.sync else { b1.sync with st := 3 } }
  (List.range nLinks).foldl (fun b k => b.linkLeave k 0) b2
/-- The command that changes the power state ends. -/
def Blk.changerEnd (b : Blk) : Blk :=
  let w := b.dev.changer
  let b1 := { b with dev := { b.dev with changing := 0, changer := none } }
  match w with
  | some q => (match b1.cmdOf q.1 q.2 with | some c => b1.finish c stOK 0 [] | none => b1)
  | none => b1
/-- After the drain the device lowers its power and the entry completes (R459, R469, R470). -/
def Blk.entryDrained (b : Blk) : Blk :=
  if b.dev.changing != 1 || !b.drained then b
  else
    let b1 := b.loseNeap
    let b2 := if b.dev.target = 3 then b1.loseDormant else b1
    let b3 := { b2 with
      hbmStacks := (List.range nStacks).foldl (fun m k => sset (fun _ => {}) m k { sget (fun _ => ({} : Stack)) m k with selfref := true }) b2.hbmStacks
      parts := smap (fun _ => {}) (fun _ x => { x with slack := false }) b2.parts
      dev := { b2.dev with power := b.dev.target, slack := false } }
    b3.changerEnd
/-- The wake ends: what was kept is there, WAKE tells what was lost, the command ends, and links may train again (R472). -/
def Blk.wakeDone (b : Blk) : Blk :=
  if b.dev.changing != 2 then b
  else
    let deep := b.dev.power = 3
    let b1 := { b with
      hbmStacks := smap (fun _ => {}) (fun _ k => { k with selfref := false }) b.hbmStacks
      dev := { b.dev with power := 0 } }
    let b2 := if deep then (List.range nLinks).foldl (fun b k => if (b.link k).enabled && (b.link k).st = 0 then b.linkState k 1 else b) b1 else b1
    (b2.wakeEvent (if deep then 0x017E0E00 else 0x003A0A00)).changerEnd

end Sys2Proof.Machine
end

