-- ==== Sys2Proof/Machine/Service.lean ====
section
/-! DEFINITION. Firmware, identity and attestation, bring-up, repairs, Lighthouse cores, throttling, crossings, and the board's
management and test interfaces (R453 to R455, R476, R489 to R494, R502 to R513, R521 to R525, R528, R530). -/
namespace Sys2Proof.Machine

/-- READY (R453): kind (0 port, 1 Lighthouse, 2 stack, 3 link, 4 Headland), index, result; padded to 8 bytes (log entry 22). -/
def readyBytes (kind idx result : Nat) : List Byte := leBytes 1 kind ++ leBytes 1 idx ++ leBytes 1 result ++ zeros 5
def Blk.readyEvent (b : Blk) (kind idx result : Nat) : Blk := b.event0 evREADY (readyBytes kind idx result)
/-- The stall of a repair command in ns, from the Tide value it began at (R506). -/
def stallBytes (since now : Nat) : List Byte := leBytes 8 (now - since)

/-! ### Images (R489) -/

def imageMax : Nat := 64 * 2 ^ 20
/-- Is an image accepted? -/
def imageValid (v : List Byte) : Bool :=
  let n := leAt v 8 4
  let signed := v.take (0x50 + n)
  v.length == 0x50 + n + 29792 && leAt v 0 4 == 0x544D494E && leAt v 0xC 4 == 0 &&
  (Config.shake256 (bytesAt v 0x10 64) 32).take 32 == Config.fusedKeyHash && Config.slhVerify (bytesAt v 0x10 64) signed (v.drop (0x50 + n))
def imageRec (v : List Byte) : Image := { version := leAt v 4 4, meas := Config.shake256 v 64 }
/-- Free bytes drawn from the entropy source (R482, R491). -/
def Blk.draw (b : Blk) (site n : Nat) : List Byte × Blk := (bytesAt (Config.freeBytes site b.free n) 0 n, { b with free := b.free + 1 })
/-- CMD_FW_LOAD once the image has arrived: its verification begins (R453, R454). -/
def Blk.doFwLoad (b : Blk) (c : Cmd) : Blk :=
  if c.m.param = 0 || imageMax < c.m.param then b.badAt c detParam
  else if !b.board.mainOk || b.fw.loader.isSome then b.busy c
  else
    let b1 := b.accept c
    { b1 with fw := { b1.fw with loader := some (c.ctx, c.seq), loading := c.got } }
/-- The boot accept (R491, R493): nonce and keys drawn, measurements from zero, Nimtar runs; training begins (R453 steps 4 and 5). -/
def Blk.bootAccept (b : Blk) (v : List Byte) : Blk :=
  let n := b.draw 0x491 32
  let a := n.2.draw 0x492 64
  let k := a.2.draw 0x482 64
  let im := imageRec v
  let b1 := k.2
  { b1 with
    fw := { running := some im, fwTide := b.tide, bootNonce := n.1, attKey := a.1, kemKey := k.1, bootMeas := im.meas, bootVersion := im.version,
            cfgMeas := zeros 64 }
    dev := { b1.dev with svc := true, reachedSvc := true }
    hbmStacks := (List.range nStacks).foldl (fun m s => sset (fun _ => {}) m s { sget (fun _ => ({} : Stack)) m s with training := true }) b1.hbmStacks }
/-- Verification ends (R57, R453, R489). -/
def Blk.fwVerifyDone (b : Blk) : Blk :=
  match b.fw.loader with
  | none => b
  | some w =>
    let v := b.fw.loading
    let b1 := { b with fw := { b.fw with loader := none, loading := [] } }
    let fin := fun (b : Blk) (st det : Nat) => match b.cmdOf w.1 w.2 with | some c => b.finish c st det [] | none => b
    if b.dev.svc then b1 else if imageValid v then (fin (b1.bootAccept v) stOK 0).readyEvent 1 0 0 else fin b1 stNOPERM 3

/-! ### The certificate and reports (R491, R492, R494) -/

/-- The certificate but for its signature, 0x0000 to 0x06F7. -/
def Blk.certBody (b : Blk) : List Byte :=
  leBytes 8 dvId ++ leBytes 8 Config.serial.toNat ++ bytesAt b.fw.bootNonce 0 32 ++ bytesAt b.fw.bootMeas 0 64 ++ leBytes 4 b.fw.bootVersion ++ zeros 4 ++
  bytesAt (Config.slhPublic (Config.fusedSeed.take 96)) 0 64 ++ bytesAt (Config.attPublic b.fw.attKey) 0 32 ++ bytesAt (Config.kemPublic b.fw.kemKey) 0 1568
/-- The identity key signs the certificate and is erased. -/
def Blk.certSigned (b : Blk) : Blk :=
  if b.fw.running.isNone || b.fw.certReady then b
  else { b with fw := { b.fw with cert := b.certBody ++ bytesAt (Config.slhSignId Config.fusedSeed b.certBody) 0 29792, certReady := true, idErased := true } }
/-- The signed report of a partition, or of the device for 0xFF. -/
def Blk.report (b : Blk) (nonce : List Byte) (p : Nat) : List Byte :=
  let body := bytesAt nonce 0 32 ++ leBytes 8 b.tide ++ leBytes 1 p ++ zeros 7 ++ bytesAt b.fw.cfgMeas 0 64 ++
    (if p < nParts then bytesAt (b.part p).pm 0 64 else zeros 64) ++ bytesAt (match b.fw.running with | some i => i.meas | none => []) 0 64 ++ bytesAt b.fw.cert 0 31576
  body ++ bytesAt (Config.attSign b.fw.attKey body) 0 17088
/-- CMD_ATTEST waits for the certificate. -/
def Blk.pollAttest (b : Blk) (c : Cmd) : Blk := if b.fw.certReady then b.finish c stOK 0 (b.report c.m.payload c.part) else b
def Blk.doAttest (b : Blk) (c : Cmd) : Blk :=
  if c.m.param != 0 then b.badAt c detParam
  else if c.part < nParts && (b.part c.part).st = 0 then b.badAt c 0x11
  else (b.accept c).pollAttest { c with started := true, queued := true }

/-! ### Bring-up (R354, R355, R453, R455) -/

/-- Spare lanes of a channel not yet used. -/
def Blk.laneSpares (b : Blk) (k ch : Nat) : Nat := Config.fusedLaneSpares k ch - sget (fun _ => 0) (b.stack k).spareUsed ch
/-- A lane of a stack found failed in training, numbered channel × 96 + lane, is remapped while its channel has a spare; else it is
reported with a proposal (R354, R500, R505). -/
def Blk.trainLane (b : Blk) (k n : Nat) : Blk :=
  let ch := n / 96
  let path := k + 2 * ch * 16 + n % 96 * 2 ^ 32
  if 0 < b.laneSpares k ch then
    let s := b.stack k
    (b.setStack k { s with spared := s.spared + 1, spareUsed := sset (fun _ => 0) s.spareUsed ch (sget (fun _ => 0) s.spareUsed ch + 1) }).addError
      { cls := 0, kind := 4, code := 0x20, path := path }
  else b.addError { cls := 1, kind := 4, code := 0x20, path := path, proposal := 2 }
/-- A stack ends its training or retrain. It passes when every failed lane found a spare and nothing else failed; READY, then the command
that waits (R354, R455, R461). -/
def Blk.stackTrained (b : Blk) (k : Nat) (failed : Bool) (lanes : List Nat) : Blk :=
  let s := b.stack k
  if !s.training && !s.retrain then b
  else
    let bad := failed || (List.range 16).any fun ch => b.laneSpares k ch < (lanes.filter fun n => n / 96 == ch).length
    let b1 := lanes.foldl (fun b n => b.trainLane k n) b
    let b2 := b1.setStack k { b1.stack k with ready := if bad then 3 else if lanes.isEmpty then 1 else 2, training := false, retrain := false, busyCmd := none }
    let b3 := b2.readyEvent 2 k (if bad then 2 else if lanes.isEmpty then 0 else 1)
    if !s.retrain then b3
    else
      let b4 := match s.busyCmd with
        | some w => (match b3.cmdOf w.1 w.2 with | some c => if bad then b3.reject c stHWERROR else b3.finish c stOK 0 [] | none => b3)
        | none => b3
      b4.resetDone 6 k 0 none
/-- A Headland ends its self-test: failed lists its failing Coves beyond the Bays' spares by place in the Headland; unmasked is a fault
that no Cove's exclusion masks, FAIL (R455). -/
def Blk.selftestDone (b : Blk) (h : Nat) (failed : List Nat) (unmasked : Bool) : Blk :=
  if !b.dev.svc || (b.hl h).ready != 0 then b
  else
    let cs := (failed.filter fun i => i < 256).map fun i => 256 * h + i
    let b1 := b.setHl h { b.hl h with ready := if unmasked then 3 else if cs.isEmpty then 1 else 2 }
    let b2 := b1.readyEvent 4 h (if unmasked then 2 else if cs.isEmpty then 0 else 1)
    if unmasked then b2
    else cs.foldl (fun b v => { b with badCoves := if b.badCoves.contains v then b.badCoves else b.badCoves ++ [v] }
      |>.addError { cls := 1, kind := 1, code := 0x60, path := v + b.coveSlot (bayOf v) (v % 16) * 65536, part := b.partNum v, proposal := 1 }) b2

/-! ### CMD_COVE_SPARE (R508) -/

def Blk.doCoveSpare (b : Blk) (c : Cmd) : Blk :=
  let q := c.m.param
  let v := fld q 11 0
  let slot := fld q 20 16
  let y := bayOf v
  if q != v + slot * 65536 + bnat (tbit q 32) * 2 ^ 32 || 17 ≤ slot || ((List.range 16).any fun i => b.coveSlot y i == slot) || tbit (b.retiredSlots y) slot then
    b.badAt c detParam
  else if !b.covesOk c.part [v] then b.reject c stNOPERM 2
  else if b.coveScrub v || (b.cove v).clearing || b.powerChanging || (b.bay y).sparing.isSome then b.busy c
  else
    let b1 := b.accept c
    let b2 := b1.setBay y { b1.bay y with sparing := some (v, slot, bnat (tbit q 32), b.tide) }
    (List.range 16).foldl (fun b i => b.suspendCove (16 * y + i)) b2
/-- Has a paused Bay drained: no Cove issues and no descriptor runs? -/
def Blk.bayDrained (b : Blk) (y : Nat) : Bool :=
  ((List.range 16).all fun i => (b.seq (16 * y + i)).st != 1) && (b.bay y).descs.all fun d => !d.running
/-- The copy ends: the Cove is mapped to its new slot, the old one retired, the Bay resumes and the command reports its stall. -/
def Blk.spareDone (b : Blk) (y : Nat) : Blk :=
  match (b.bay y).sparing with
  | none => b
  | some (v, slot, fresh, since) =>
    if !b.bayDrained y then b
    else
      let i := v % 16
      let old := b.coveSlot y i
      let x := b.bay y
      let b1 := { (b.setBay y { x with coveMap := sset (fun i => Config.fusedSlot y i) x.coveMap i slot, retired := x.retired ||| 2 ^ old, sparing := none }) with
        badCoves := b.badCoves.filter (· != v) }
      let b2 := if fresh = 1 then (((b1.stopNow v).loseCove v).collCoveLost v).resetDone 4 v 0x2E0600 (b1.partOfCove v) else b1
      let asleep := b2.slackAt (b2.partOfCove v)
      let b3 := if asleep then b2 else (List.range 16).foldl (fun b i => b.resumeCove (16 * y + i)) b2
      (b3.host.cmds.filter fun c => c.m.opcode == 0x901 && c.started && bayOf (fld c.m.param 11 0) == y).foldl
        (fun b c => b.finish c stOK 0 (stallBytes since b.tide)) b3

/-! ### CMD_HBM_REPAIR and CMD_LANE_SPARE of a stack (R361, R362, R506) -/

/-- The units of a row. -/
def Blk.rowUes (b : Blk) (k bank row : Nat) : List Nat :=
  b.ueUnits.filter fun u => let l := b.pcBankRow (64 * u); b.stackOf (64 * u) == k && l.1 * 32 + l.2.1 == bank && l.2.2 == row
def Blk.doHbmRepair (b : Blk) (c : Cmd) : Blk :=
  let q := c.m.param
  let k := fld q 3 0
  let pc := fld q 8 4
  let bank := fld q 13 9
  let row := fld q 30 14
  let s := b.stack k
  if 2 ^ 31 ≤ q || 73728 ≤ row then b.badAt c detParam
  else if !s.usable || s.retrain || s.bankBlocked.isSome || s.busyCmd.isSome then b.busy c
  else if b.pprLeft k pc (Config.bankGroup bank) = 0 then
    (b.addError { cls := 1, kind := 4, code := 0x13, path := k + pc * 16 + bank * 512 + row * 2 ^ 14 + 0xFF * 2 ^ 32, status := stHWERROR, ctx := c.ctx, seq := c.seq }).reject
      c stHWERROR b.errDetail
  else (b.accept { c with vars := [b.tide] }).setStack k
    { s with bankBlocked := some (pc * 32 + bank), busyCmd := some (c.ctx, c.seq), repairs := s.repairs ++ [(pc * 32 + bank, row)] }
/-- The repair ends: the bank serves again. A unit of the row that could not be corrected was copied as it stood. -/
def Blk.repairDone (b : Blk) (k : Nat) : Blk :=
  let s := b.stack k
  match s.bankBlocked with
  | none => b
  | some bank =>
    let row := match s.repairs.getLast? with | some r => r.2 | none => 0
    let b1 := b.setStack k { s with bankBlocked := none, busyCmd := none, pprDone := s.pprDone + 1 }
    let w := s.busyCmd.getD (0, 0)
    let c := s.busyCmd.bind fun w => b1.cmdOf w.1 w.2
    let stall := match c with | some c => stallBytes (c.vars.headD b.tide) b.tide | none => []
    match b.rowUes k bank row with
    | u :: _ =>
      let b2 := b1.hbmUe u (match b.granOwner (64 * u / 2 ^ 30) with | some p => p | none => 0xFF) w.1 w.2
      (match c with | some c => b2.finish c stHWERROR b1.errDetail stall | none => b2)
    | [] => match c with | some c => b1.finish c stOK 0 stall | none => b1
def Blk.doLaneSpareStack (b : Blk) (c : Cmd) : Blk :=
  let q := c.m.param
  let k := fld q 3 0
  let ch := fld q 7 4
  let s := b.stack k
  if 2 ^ 16 ≤ q || 96 ≤ fld q 15 8 then b.badAt c detParam
  else if !s.usable || s.retrain || s.channelHeld.isSome || s.busyCmd.isSome || b.laneSpares k ch = 0 then b.busy c
  else (b.accept { c with vars := [b.tide] }).setStack k
    { s with channelHeld := some ch, busyCmd := some (c.ctx, c.seq), spareUsed := sset (fun _ => 0) s.spareUsed ch (sget (fun _ => 0) s.spareUsed ch + 1) }
def Blk.stackLaneDone (b : Blk) (k : Nat) : Blk :=
  let s := b.stack k
  if s.channelHeld.isNone then b
  else
    let b1 := b.setStack k { s with channelHeld := none, busyCmd := none, spared := s.spared + 1 }
    match s.busyCmd.bind fun w => b1.cmdOf w.1 w.2 with
    | some c => b1.finish c stOK 0 (stallBytes (c.vars.headD b.tide) b.tide)
    | none => b1
/-- CMD_LANE_SPARE by its [16] (R506). -/
def Blk.doLaneSpare (b : Blk) (c : Cmd) : Blk := if tbit c.m.param 16 then b.doLaneSpareLink c else b.doLaneSpareStack c

/-! ### Lighthouse cores and firmware activation (R66, R463, R504, R509, R510) -/

/-- The physical cores that are active. -/
def Cores.active (x : Cores) : List Nat := x.map.filter fun p => !tbit x.stopped p
/-- A core fails: it restarts, once per second; a second time it is held stopped, with a proposal, and fewer than six active cores are
FATAL (R504). -/
def Blk.coreFault (b : Blk) (core code : Nat) : Blk :=
  let x := b.cores
  if !b.dev.svc || b.dev.fatal || !x.active.contains core then b
  else
    let r : ErrRec := { cls := 1, kind := 6, code := code, path := core }
    let again := x.lastRestart.any fun q => q.1 == core && b.tide < q.2 + 1000000000
    if again then
      let b1 := ({ b with cores := { x with stopped := x.stopped ||| 2 ^ core } }).addError { r with proposal := 4 }
      if b1.cores.active.length < 6 then b1.enterFatal 0x63 6 core 0 else b1
    else
      let b1 := ((b.addError r).count (cfgLH + 8) 1)
      let b2 := if b1.host.intakeStopped then b1 else b1.stopIntake
      { b2 with cores := { b2.cores with lastRestart := x.lastRestart.filter (fun q => q.1 != core) ++ [(core, b.tide)] } }
def Blk.doLhSpare (b : Blk) (c : Cmd) : Blk :=
  let x := b.cores
  let spare := (List.range 10).find? fun p => !x.map.contains p && !tbit x.retired p
  if 8 ≤ c.m.param then b.badAt c detParam
  else if spare.isNone || b.fw.activating.isSome || x.sparing.isSome then b.busy c
  else
    let b1 := (b.accept c).stopIntake
    { b1 with cores := { b1.cores with sparing := some (c.ctx, c.seq) } }
/-- CMD_FW_STAGE (R509). -/
def Blk.doFwStage (b : Blk) (c : Cmd) : Blk :=
  if c.m.param = 0 || imageMax < c.m.param then b.badAt c detParam
  else if !imageValid c.got then b.reject c stNOPERM 3
  else ({ b with fw := { b.fw with staged := some (imageRec c.got) } }).acceptEnd c stOK 0 []
def Blk.doFwActivate (b : Blk) (c : Cmd) : Blk :=
  if c.m.param != 0 then b.badAt c detParam
  else if b.fw.staged.isNone || b.fw.activating.isSome || b.cores.sparing.isSome then b.busy c
  else
    let b1 := (b.accept c).stopIntake
    { b1 with fw := { b1.fw with activating := some (c.ctx, c.seq) } }
/-- A waiting command of the Lighthouse ends. -/
def Blk.endOf (b : Blk) (w : Option (Nat × Nat)) (st det : Nat) (pay : List Byte) : Blk :=
  match w.bind fun q => b.cmdOf q.1 q.2 with | some c => b.finish c st det pay | none => b
/-- The staged image runs: its event, the record in CFG, the command (R491, R493, R509). -/
def Blk.activated (b : Blk) : Blk :=
  match b.fw.activating, b.fw.staged with
  | some w, some im =>
    let m : Msg := { opcode := 0x906, ctx := w.1, seq := w.2, plen := 64, payload := bytesAt im.meas 0 64 }
    let b1 := ({ b with fw := { b.fw with running := some im, staged := none, activating := none, fwTide := b.tide } }).event0 evFWACTIVATED
      (bytesAt im.meas 0 64 ++ leBytes 8 ((b.tide - b.cores.stallFrom) / 1000))
    (b1.extendCfg m).endOf (some w) stOK 0 (stallBytes b.cores.stallFrom b.tide)
  | _, _ => b
/-- A substituted core's duties are on the lowest spare (R510). -/
def Blk.coreSpared (b : Blk) : Blk :=
  match b.cores.sparing with
  | none => b
  | some w =>
    let x := b.cores
    let i := match b.cmdOf w.1 w.2 with | some c => c.m.param | none => 0
    let old := nth x.map i 0
    let b1 := match (List.range 10).find? fun p => !x.map.contains p && !tbit x.retired p with
      | some p => { b with cores := { x with map := setNth x.map i p, retired := x.retired ||| 2 ^ old, sparing := none } }
      | none => { b with cores := { x with sparing := none } }
    b1.endOf (some w) stOK 0 (stallBytes x.stallFrom b.tide)
/-- A LIGHTHOUSE restart ends: the measurement of the image it holds agrees, and nothing is lost (R463). -/
def Blk.lhRestarted (b : Blk) : Blk :=
  match b.cores.lhReset with
  | none => b
  | some w => ((({ b with cores := { b.cores with lhReset := none } }).openXing 3 0).endOf (some w) stOK 0 []).resetDone 2 0 0 none
/-- What the Lighthouse was stopped for is over; intake is open and credits are granted again. The messages that wait are taken in by
the caller. -/
def Blk.intakeOpen (b : Blk) : Blk :=
  { b with
    host := { b.host with intakeStopped := false, portA := { b.host.portA with credit := 4194304 }, portB := { b.host.portB with credit := 4194304 } } }
/-- The new image has not resumed intake within 50 ms: the previous one does (R509). -/
def Blk.activateFailed (b : Blk) : Blk :=
  match b.fw.activating with
  | none => b
  | some w =>
    let b1 := ({ b with fw := { b.fw with activating := none } }).addError
      { cls := 1, kind := 0, code := 0x70, status := stHWERROR, ctx := w.1, seq := w.2 }
    b1.endOf (some w) stHWERROR b.errDetail (stallBytes b.cores.stallFrom b.tide)

/-! ### The merging window (R502) -/

/-- The end of a window: one ERROR event with every merged record whose COUNT rose, to context 0; to a partition's contexts those that
name it. -/
def Blk.windowEnd (b : Blk) : Blk :=
  let rs := b.err.recs.filter fun r => b.err.rose.any fun q => q.1 == r.index
  let b1 := { b with err := { b.err with rose := [] } }
  if rs.isEmpty then b1
  else (List.range nParts).foldl (fun b p =>
    let l := rs.filter fun r => r.part == p
    if l.isEmpty || (b.ctxsOf p).isEmpty then b else b.eventTo (b.ctxsOf p) evERROR (l.flatMap fun r => r.bytes))
    (b1.event0 evERROR (rs.flatMap fun r => r.bytes))

/-! ### Clocks, temperature, crossings (R476, R521, R528) -/

/-- The links that a reference clock serves: of each face the two on its I/O die (R21). -/
def refLinks (ref : Nat) : List Nat := (List.range nLinks).filter fun k => k % 4 / 2 == ref
def Blk.lrefSet (b : Blk) (ref : Nat) (ok : Bool) : Blk :=
  if ref = 0 then { b with board := { b.board with lref0 := ok } } else { b with board := { b.board with lref1 := ok } }
def Blk.lrefLoss (b : Blk) (ref : Nat) : Blk :=
  if !b.dev.powered then b
  else (refLinks ref).foldl (fun b k => if 2 ≤ (b.link k).st then b.linkDown k else b) (b.lrefSet ref false)
def Blk.lrefReturn (b : Blk) (ref : Nat) : Blk := if b.dev.powered then b.lrefSet ref true else b
/-- A sensor reading of a die, in 1/16 °C. -/
def Board.read (x : Board) (die temp : Nat) : Board :=
  let l := setNth x.dieTemp die (temp : Int)
  { x with dieTemp := l, tj := l.foldl max (-32768) }
def Board.throttled (x : Board) : Bool := x.steps.any (0 < ·)
/-- THERMAL: 1 for the start of throttling, 0 for its end, and the junction temperature (R61). -/
def Blk.thermalEvent (b : Blk) (start : Bool) : Blk := b.event0 evTHERMAL (leBytes 2 (bnat start) ++ leBytes 2 (toTwos 16 b.board.tj) ++ zeros 4)
/-- A die at 100 °C or more steps down, to 1.0 GHz at step 8. -/
def Blk.stepDown (b : Blk) (die temp : Nat) : Blk :=
  if !b.dev.powered then b
  else
    let x := b.board.read die temp
    if temp < 1600 then { b with board := x }
    else
      let was := x.throttled
      let b1 := { b with board := { x with steps := setNth x.steps die (min 8 (nth x.steps die 0 + 1)), alerts := if was then x.alerts else latch x.alerts 1 } }
      if was then b1 else b1.thermalEvent true
/-- A die below 97 °C steps up again. -/
def Blk.stepUp (b : Blk) (die temp : Nat) : Blk :=
  if !b.dev.powered then b
  else
    let x := b.board.read die temp
    if 1552 ≤ temp || nth x.steps die 0 = 0 then { b with board := x }
    else
      let b1 := { b with board := { x with steps := setNth x.steps die (nth x.steps die 0 - 1) } }
      if b1.board.throttled then b1 else b1.thermalEvent false
/-- A junction at 105 °C for 1 ms (R507). -/
def Blk.thermalTrip (b : Blk) (die temp : Nat) : Blk :=
  if !b.dev.powered then b
  else
    let b1 := { b with board := b.board.read die temp }
    if 1680 ≤ temp then b1.enterFatal 0x61 10 4 0 else b1
/-- A crossing reopens once both sides are out of reset: 0 Cove, 1 HBM controller, 2 link, 3 Lighthouse. -/
def Blk.xingReady (b : Blk) (kind idx : Nat) : Bool :=
  if kind = 0 then !(b.cove idx).clearing else if kind = 1 then !(b.stack idx).retrain else if kind = 3 then b.cores.lhReset.isNone else true
def Blk.xingReopen (b : Blk) (kind idx : Nat) : Blk := if b.xingReady kind idx then b.openXing kind idx else b

/-! ### Board management and boundary scan (R523 to R525) -/

/-- The response of the SMBus target, while it has power. -/
def Blk.smbSay (b : Blk) (v : List Byte) : Blk := if b.dev.powered then { b with board := { b.board with smb := v } } else b
/-- DV_ALERT. -/
def Blk.alertWord (b : Blk) : Nat := (b.dvWord 0xF10).getD 0
/-- ALERT_N is pulled low while FATAL holds, or while a latched source of DV_ALERT is set and enabled by its mask (R523). -/
def Blk.alertLow (b : Blk) : Bool :=
  b.dev.powered && (b.dev.fatal || b.board.alerts % 16 / 2 &&& b.cfgGet 0xF10 / 0x200 % 8 != 0)
def Blk.smbStatus (b : Blk) : List Byte :=
  leBytes 2 ((if b.dev.fatal then 3 else if !b.dev.svc then 0 else if 2 ≤ b.dev.power then 2 else 1) + 4 * bnat b.board.mainOk + 8 * bnat b.board.throttled +
    16 * bnat b.host.portA.up + 32 * bnat b.host.portB.up)
/-- Latched bits [3:1] of DV_ALERT cleared where a write has ones. -/
def alertsClear (alerts v : Nat) : Nat := alerts - (alerts &&& v &&& 0xE)
def Blk.smbClear (b : Blk) (v : Nat) : Blk := if b.dev.powered then { b with board := { b.board with alerts := alertsClear b.board.alerts v } } else b
/-- Bits [3:1] written to the mask, DV_ALERT [11:9]. -/
def Blk.smbMask (b : Blk) (v : Nat) : Blk := if b.dev.powered then b.cfgSet 0xF10 (fld v 3 1 * 0x200) else b
/-- The TAP's instruction register: 0 BYPASS, 1 IDCODE, 2 SAMPLE/PRELOAD, 3 EXTEST, 4 EXTEST_PULSE, 5 EXTEST_TRAIN; the last three act as
BYPASS while MRST_N is high. -/
def Blk.tapLoad (b : Blk) (ir : Nat) (dr : List Byte) : Blk :=
  if !b.dev.powered then b
  else if 3 ≤ ir then
    (if b.dev.mrstLow then { b with board := { b.board with tapIr := ir } }
     else { b with board := { b.board with tapIr := 0, tapDr := [0#8] } })
  else { b with board := { b.board with tapIr := ir, tapDr := dr } }

end Sys2Proof.Machine
end

