-- ==== Sys2Proof/Machine/Beacon.lean ====
section
/-! DEFINITION. The Beacon ports: frames in, acknowledgement, BULK data, loss, failover and training (R36 to R43, R453, R511). -/
namespace Sys2Proof.Machine

/-! ### Frames in (R37 to R40) -/

/-- A port's counter of DV_BEACON_STAT at an offset of its block (R67). -/
def Blk.portCount (b : Blk) (p off n : Nat) : Blk := b.count (0x100 + 64 * p + off) n
/-- The command message a MSG body spells (R43), arrived on a port. -/
def msgOf (port : Nat) (v : List Byte) : Msg :=
  { port := port, major := leAt v 0 1, minor := leAt v 1 1, opcode := leAt v 2 2, ctx := fld (leAt v 4 4) 11 0, flags := fld (leAt v 4 4) 31 12,
    seq := leAt v 8 4, plen := leAt v 12 4, cls := leAt v 0x10 1, partition := leAt v 0x11 1, reserved := leAt v 0x12 2, deadline := leAt v 0x14 4,
    param := leAt v 0x18 8, payload := v.drop 32 }
/-- Bytes of bulk data beyond which a command's transfer is too long (R40, R58). -/
def Cmd.bulkMax (c : Cmd) : Nat := Msg.bulkLen c.m
/-- A command whose bulk data is wrong ends with no effect. -/
def Blk.bulkBad (b : Blk) (c : Cmd) : Blk := if c.started then b else b.reject c stLENGTH
/-- The data of a logged command enters the log with it (R157). -/
def Blk.logBulk (b : Blk) (ctx seq : Nat) (d : List Byte) : Blk :=
  if !b.logged ctx seq then b
  else { b with spans := b.spans.map fun p => (p.1, if p.2.opened then
    { p.2 with log := p.2.log.map fun l => if l.m.ctx = ctx && l.m.seq = seq then { l with m := { l.m with bulk := l.m.bulk ++ d } } else l } else p.2) }
/-- A BULK body with its port: data is attached to the command it names, in rising order without gaps; anything else of a waiting command
ends it (R40). -/
def Blk.bulkRx (b : Blk) (port : Nat) (v : List Byte) : Blk :=
  let w := leAt v 0 2
  let d := v.drop 16
  if v.length < 16 || 1048576 < d.length || 4096 ≤ w || leAt v 2 2 != 0 then b
  else match b.cmdOf w (leAt v 4 4) with
    | none => b
    | some c =>
      if c.started || c.m.port != port || leAt v 8 8 != c.got.length || c.bulkMax < c.got.length + d.length then b.bulkBad c
      else (b.setCmd { c with got := c.got ++ d }).logBulk c.ctx c.seq d
/-- A BULK body that arrives waits while intake is stopped (R66). -/
def Blk.bulkArrive (b : Blk) (port : Nat) (v : List Byte) : Blk :=
  if b.devMode = 0 then b
  else if b.host.intakeStopped then { b with host := { b.host with intake := b.host.intake ++ [(port, none, v)] } }
  else b.bulkRx port v
/-- A command message that arrives on a port that carries frames (R36). -/
def Blk.receive (b : Blk) (m : Msg) : Blk := if (b.port m.port).up then b.arrive m else b

/-- Frames up to an acknowledged sequence leave the transmit replay buffer, and frames that waited for room go out (R38). -/
def Port.acked (x : Port) (ack : Nat) : Port := { x with txBuf := x.txBuf.filter fun q => 2 ^ 31 ≤ (ack + 2 ^ 32 - q.1) % 2 ^ 32 }
def Blk.takeAck (b : Blk) (p ack : Nat) : Blk := (b.setPort p ((b.port p).acked ack)).flushPort p
/-- The longest body of a frame type; none for a reserved type (R37). -/
def bodyMax (type : Nat) : Option Nat :=
  if type = 1 then some (32 + 65536) else if type = 2 then some (16 + 1048576) else if type = 3 || type = 4 then some 0 else none
/-- Is a frame intact: its length that of its header and body, its CRC right? -/
def frameIntact (f : List Byte) : Bool := 20 ≤ f.length && leAt f 8 4 + 20 == f.length && leAt f (f.length - 4) 4 == crc32 (f.take (f.length - 4))
/-- Bytes of receive credit are used up only while intake is stopped: at other times the buffer empties at once. -/
def Blk.useCredit (b : Blk) (p n : Nat) : Blk :=
  if b.host.intakeStopped then b.setPort p { b.port p with credit := (b.port p).credit - n } else b
/-- The body of a frame in order goes to its command or context. A body too short for a header carries no message. -/
def Blk.frameBody (b : Blk) (p type : Nat) (v : List Byte) : Blk :=
  if type = 2 then b.bulkArrive p v else if v.length < 32 then b else b.arrive (msgOf p v)
/-- A frame arrives (R37 to R39). -/
def Blk.frameRx (b : Blk) (p : Nat) (f : List Byte) : Blk :=
  let x := b.port p
  let type := leAt f 0 1
  if !x.up then b
  else if x.credit < f.length then b.portCount p 8 1
  else if !frameIntact f then b.portCount p 0x10 1
  else match bodyMax type with
    | none => b
    | some m =>
      if m < leAt f 8 4 || leAt f 1 3 != 0 then b
      else
        let b1 := b.takeAck p (leAt f 12 4)
        if 3 ≤ type then b1
        else if leAt f 4 4 != x.rxNext then b1.portCount p 0x10 1
        else
          let b2 := b1.setPort p { b1.port p with rxNext := (x.rxNext + 1) % 2 ^ 32 }
          (b2.useCredit p f.length).frameBody p type ((f.drop 16).take (leAt f 8 4))

/-! ### Loss and failover (R36, R38, R41) -/

/-- No progress of acknowledgement for 100 µs: every frame not acknowledged is sent again (R38). -/
def Blk.resendTimeout (b : Blk) (p : Nat) : Blk := if (b.port p).up then b.portCount p 0x18 (b.port p).txBuf.length else b
/-- A lane loses signal: the port carries no further frames (R36). -/
def Blk.laneLoss (b : Blk) (p lane : Nat) : Blk :=
  let x := b.port p
  if tbit x.lanes lane then b.setPort p { x with lanes := x.lanes - 2 ^ lane, up := false } else b
/-- A frame sent or held as it stands, the event limit not counted again. -/
def Blk.sendRaw (b : Blk) (o : Out) : Blk :=
  let x := b.ctx o.ctx
  let p := b.homeOf o.ctx
  if (b.port p).up && x.held.isEmpty && (b.port p).room o then b.setPort p ((b.port p).push o) else b.setCtx o.ctx { x with held := x.held ++ [o] }
/-- The open or closing contexts whose home is a port. -/
def Blk.homed (b : Blk) (p : Nat) : List Nat := (b.host.ctxs.filter fun q => q.2.st != 0 && b.homeOf q.1 == p).map Prod.fst
/-- Contexts with failover enabled move to the other port: PORT_FAILOVER, the frames not acknowledged in their order, then what they
held (R41). -/
def Blk.failover (b : Blk) (p : Nat) (ms : List Nat) (tx : List Out) : Blk :=
  let q := 1 - p
  let b1 := ms.foldl (fun b c => b.setCtx c { b.ctx c with home := q, homeSet := true, held := [] }) b
  let b2 := b1.eventTo (0 :: ms.filter (· != 0)) evPORTFAILOVER (leBytes 4 p ++ leBytes 4 ms.length)
  let b3 := (tx.filter fun o => ms.contains o.ctx).foldl (fun b o => b.sendRaw o) b2
  ms.foldl (fun b2 c => (b.ctx c).held.foldl (fun b o => b.sendRaw o) b2) b3
/-- Frames that stay with their home port are held before those held already (R41). -/
def Blk.holdBack (b : Blk) (tx : List Out) : Blk := tx.reverse.foldl (fun b o => b.setCtx o.ctx { b.ctx o.ctx with held := o :: (b.ctx o.ctx).held }) b
/-- The lowest lane of a port without signal, or 0. -/
def Port.lostLane (x : Port) : Nat := ((List.range 4).find? fun l => !tbit x.lanes l).getD 0
/-- A port is declared down: counted, both down at once latched, its contexts moved or held, and recorded (R41, R500, R530). -/
def Blk.portDown (b : Blk) (p : Nat) : Blk :=
  let x := b.port p
  if !x.trained then b
  else
    let here := b.homed p
    let tx := x.txBuf.map Prod.snd
    let b1 := (b.setPort p { x with trained := false, up := false, txBuf := [] }).portCount p 0x30 1
    let other := (b1.port (1 - p)).up
    let ms := if other then here.filter fun c => (b.ctx c).failover else []
    let b2 := if other then b1 else { b1 with board := { b1.board with alerts := latch b1.board.alerts 2 } }
    let b3 := b2.holdBack (tx.filter fun o => !ms.contains o.ctx)
    let b4 := if other then b3.failover p ms tx else b3
    b4.addError { cls := if here.all ms.contains then 0 else 1, kind := 7, code := 0x22, path := p + x.lostLane * 2 }

/-! ### Training (R51, R453, R511) -/

/-- A port finishes training: both directions from sequence 0, context 0 exists, READY for the port on the port itself, and what its contexts
held leaves. -/
def Blk.portTrained (b : Blk) (p : Nat) : Blk :=
  if !b.dev.powered || (b.port p).trained then b
  else
    let b1 := b.setPort p { up := true, trained := true, lanes := 0xF }
    let b2 := if (b1.ctx 0).st = 0 then b1.setCtx 0 { ctxZero with held := (b1.ctx 0).held } else b1
    let seq := b2.host.evSeq
    let b3 := { b2 with host := { b2.host with evSeq := (seq + 1) % 2 ^ 32 } }
    (b3.sendOn p { kind := 1, ctx := 0, event := true, body := msgBytes evREADY 0 true true seq 0 0 b.tide (readyBytes 0 p 0) }).flushPort p
/-- A port that was declared down tries again: it is up when its training succeeds. -/
def Blk.portRetry (b : Blk) (p : Nat) (trained : Bool) : Blk := if trained then b.portTrained p else b

end Sys2Proof.Machine
end

