-- ==== Sys2Proof/Machine/Pump.lean ====
section
/-! DEFINITION. Commands that wait go on and commands that are ready start; descriptors and channels go on with what has arrived (R40, R44,
R45, R48, R53, R56, R57, R66, R157, R470, R487). -/
namespace Sys2Proof.Machine

/-! ### Starting a command -/

/-- What each opcode does once its command runs (R57). -/
def opRuns : List (Nat × (Blk → Cmd → Blk)) :=
  [(0x0000, fun b c => b.doNopCmd c), (0x0001, fun b c => b.doHello c), (0x0002, fun b c => b.doFwLoad c), (0x0003, fun b c => b.doCtxOpen c),
   (0x0004, fun b c => b.doCtxClose c), (0x0100, fun b c => b.doCfgRead c), (0x0101, fun b c => b.doCfgWrite c), (0x0200, fun b c => b.doProgLoad c),
   (0x0201, fun b c => b.doProgStart c), (0x0202, fun b c => b.doProgStop c), (0x0203, fun b c => b.doSpanOpen c), (0x0204, fun b c => b.doSpanClose c),
   (0x0205, fun b c => b.doWatchSet c), (0x0300, fun b c => b.doMemWrite c), (0x0301, fun b c => b.doMemRead c), (0x0302, fun b c => b.doDmaSubmit c),
   (0x0303, fun b c => b.doTableBuild c), (0x0304, fun b c => b.doCacheInvalidate c)] ++
  [(0x0400, fun b c => b.doReqSubmit c), (0x0401, fun b c => b.doReqCancel c), (0x0402, fun b c => b.doSpecCommit c), (0x0403, fun b c => b.doAccountSet c),
   (0x0404, fun b c => b.doPoolSet c), (0x0500, fun b c => b.doChanOpen c), (0x0501, fun b c => b.doChanClose c), (0x0502, fun b c => b.doSliceBarrier c),
   (0x0600, fun b c => b.doSliceJoin c), (0x0601, fun b c => b.doCablingPlan c), (0x0602, fun b c => b.doLinkSet c), (0x0603, fun b c => b.doRouteShadow c),
   (0x0604, fun b c => b.doModePrepare c), (0x0605, fun b c => b.doWindowOpen c), (0x0606, fun b c => b.doWindowClose c)] ++
  [(0x0700, fun b c => b.doPartCreate c), (0x0701, fun b c => b.doPartKey c), (0x0702, fun b c => b.doPartKill c), (0x0703, fun b c => b.doAttest c),
   (0x0800, fun b c => b.doPower c), (0x0801, fun b c => b.doReset c), (0x0900, fun b c => b.doErrlogRead c), (0x0901, fun b c => b.doCoveSpare c),
   (0x0902, fun b c => b.doHbmRepair c), (0x0903, fun b c => b.doLaneSpare c), (0x0904, fun b c => b.doLhSpare c), (0x0905, fun b c => b.doFwStage c),
   (0x0906, fun b c => b.doFwActivate c), (0x0907, fun b c => b.doPortFailover c)]
def Blk.runOp (b : Blk) (c : Cmd) : Blk :=
  match opRuns.find? fun r => r.1 == c.m.opcode with
  | some r => r.2 b c
  | none => b
/-- Opcodes whose data comes only as BULK frames (R57). -/
def bulkOps : List Nat := [0x002, 0x603, 0x905]
/-- Opcodes that a low-power entry under way refuses (R470). -/
def entryOps : List Nat := [0x200, 0x201, 0x302, 0x300, 0x301, 0x500, 0x604]
/-- Opcodes that a partition awaiting scrub does not refuse as such (R464, R485, R487): they read zeros, close a context, or have a rule of
their own. -/
def scrubOps : List Nat := [0x004, 0x100, 0x301, 0x700, 0x701, 0x702, 0x801, 0x901]
/-- What refuses a command as it starts, before its opcode's own rules. -/
def Blk.startCheck (b : Blk) (c : Cmd) : Option (Nat × Nat) :=
  let op := c.m.opcode
  if c.bulkMax < c.got.length then some (stLENGTH, openDet)
  else if bulkOps.contains op && !c.flag 14 then some (stBADPARAM, 4)
  else if !(match opInfo op with | some o => b.stateOk c.m o | none => true) then some (stBUSY, 2)
  else if b.dev.changing = 1 && entryOps.contains op then some (stBUSY, 2)
  else if c.part < nParts && (b.part c.part).st = 3 && !scrubOps.contains op then some (stSCRUB, openDet)
  else none
/-- May a BOUNDED command with a deadline be promised (R45)? CMD_PROG_START and CMD_REQ_SUBMIT compute it; for the others it is a free
choice (log entry 9). -/
def Blk.admits (b : Blk) (c : Cmd) : Bool × Blk :=
  if !c.queued && c.m.cls = 1 && c.flag 13 && c.m.opcode != 0x201 && c.m.opcode != 0x400 then
    (Config.admitBounded c.m.opcode b.free, { b with free := b.free + 1 })
  else (true, b)
/-- A command whose data has not arrived takes its turn: what its parameter and payload show to be wrong refuses it, else it is accepted
and waits (R40, R48, R58, R454; log entry 79). -/
def Blk.awaitData (b : Blk) (c : Cmd) : Blk :=
  let op := c.m.opcode
  let n := (Msg.declared c.m).getD 0
  let w := leAt c.m.payload 0 8
  let s := if op = 0x300 then b.globalStatus c.part c.m.param n else (stOK, 0)
  if op = 0x300 && leAt c.m.payload 4 4 != 0 then b.badAt c (detPay 4)
  else if s.1 != 0 then b.reject c (cmdStatus s).1 (cmdStatus s).2
  else if op = 0x300 && b.spanInput c.m.param n then b.busy c
  else if (op = 0x002 || op = 0x905) && imageMax < n then b.badAt c detParam
  else if op = 0x002 && (!b.board.mainOk || b.fw.loader.isSome) then b.busy c
  else if op = 0x603 && c.m.param != 0 then b.badAt c detParam
  else if op = 0x603 && (w != fld w 13 0 + fld w 29 16 * 2 ^ 16 + bnat (tbit w 32) * 2 ^ 32 || 16384 < fld w 13 0 + fld w 29 16 + 1) then
    b.badAt c (detPay 0)
  else (b.accept c).setCmd { c with queued := true }
/-- A command takes its turn (R46, R53): it starts, or it waits for its data. One that was accepted before is not checked again. -/
def Blk.runCmd (b : Blk) (c : Cmd) : Blk :=
  match (if c.queued then none else b.startCheck c) with
  | some e => b.reject c e.1 e.2
  | none =>
    let a := b.admits c
    if !a.1 then a.2.reject c stBUSY 3
    else match a.2.logCmd c with
      | .error e => a.2.reject c e.1 e.2
      | .ok b1 => if c.dataIn then b1.runOp c else b1.awaitData c
/-- The command whose turn is next: of the lowest context that has one ready (R53). -/
def Blk.nextReady (b : Blk) : Option Cmd :=
  (b.host.cmds.filter fun c => b.mayRun c && (c.dataIn || !c.queued)).foldl (fun best c => match best with
    | none => some c
    | some d => if c.ctx < d.ctx then some c else some d) none
def Blk.startReady (b : Blk) : Nat → Blk
  | 0 => b
  | n + 1 => match b.nextReady with
    | none => b
    | some c => (b.runCmd c).startReady n

/-! ### Going on -/

/-- A started command that waits is looked at again. -/
def Blk.pollCmd (b : Blk) (c : Cmd) : Blk :=
  let op := c.m.opcode
  if op = 0x202 then b.pollProgStop c
  else if op = 0x300 || op = 0x301 then b.pollMem c
  else if op = 0x402 then b.doSpecCommit c
  else if op = 0x400 && c.vars = [waitHbm] then b.doReqSubmit c
  else if op = 0x100 then b.doCfgRead c
  else if op = 0x101 then b.doCfgWrite c
  else if op = 0x004 then b.pollCtxClose c
  else if op = 0x800 then b.pollSlack c
  else if op = 0x703 then b.pollAttest c
  else b
def Blk.pollCmds (b : Blk) : Blk :=
  (b.host.cmds.filter (·.started)).foldl (fun b c => match b.cmdOf c.ctx c.seq with
    | some d => if d.started then b.pollCmd d else b
    | none => b) b
/-- Commands go on and start, unless Nimtar has stopped taking them (R66). -/
def Blk.pumpCmds (b : Blk) : Blk := if b.host.intakeStopped then b else b.pollCmds.startReady (b.host.cmds.length + 1)
/-- An operation descriptor that waits for remote bytes or for a stack is tried again once it has its answers. -/
def Blk.opRetry (b : Blk) (y serial : Nat) : Blk :=
  match b.descOf y serial with
  | none => b
  | some d =>
    if d.running && d.reading && 0x10 ≤ d.op && d.out.isNone && (b.remotesOf (.desc y serial)).all (·.st.isSome) then
      (if d.op < 0x18 then b.kvGo y d else b.exGo y d)
    else b
def Blk.pumpDescs (b : Blk) : Blk :=
  b.bays.foldl (fun b q => q.2.descs.foldl (fun b d => if d.running then ((b.descRetry q.1 d.serial).opRetry q.1 d.serial).descPump q.1 d.serial else b) b) b
/-- Everything that can go on does. -/
def Blk.pump (b : Blk) : Blk := b.pumpCmds.pumpDescs.collPump.clearMissing
/-- A command message received, and all that can then go on. -/
def Blk.command (b : Blk) (m : Msg) : Blk := (b.receive m).pump

/-! ### Intake resumes (R66, R463, R504, R509, R510) -/

/-- What arrived while intake was stopped is taken in, in order. -/
def Blk.takeWaiting (b : Blk) : Blk :=
  let l := b.host.intake
  l.foldl (fun b q => match q.2.1 with
    | some m => b.takeMsg m
    | none => b.bulkRx q.1 q.2.2) { b with host := { b.host with intake := [] } }
/-- Everything the Lighthouse was stopped for ends, and intake is open. -/
def Blk.resumeIntake (b : Blk) : Blk := if b.host.intakeStopped then b.coreSpared.lhRestarted.intakeOpen.takeWaiting else b
/-- One nanosecond with no command waiting: the clock counts, and everything that can go on does (log entry 1). -/
def Blk.idleStep (b : Blk) : Blk := b.idle.pump

end Sys2Proof.Machine
end

