-- ==== Sys2Proof/Machine/Commands.lean ====
section
/-! DEFINITION. The rows of the opcode table for command messages: a message of that opcode arrives, is checked and queued, and commands
that are ready start (R42 to R60). A message of another row's opcode is no operand of a row. -/
namespace Sys2Proof.Machine

/-- A message of an opcode, on one of the two ports. -/
def isFor (m : Msg) (op : Nat) : Bool := m.port < 2 && m.opcode == op
/-- A CMD_CFG_WRITE whose first word lies in [lo, hi) of a block of a class (R62). -/
def writes (m : Msg) (blk lo hi : Nat) : Bool :=
  let w := cfgWhere (m.param - cfgBase)
  isFor m 0x0101 && cfgBase ≤ m.param && w.1 == blk && lo ≤ w.2.2 && w.2.2 < hi

/-- CMD_NOP (R57). -/
def execCmdNop (m : Msg) (s : State) : Host.Outcome State Fault Refusal :=
  s.updIf (isFor m 0x0000) fun b => b.command m
/-- CMD_HELLO (R42, R58). -/
def execCmdHello (m : Msg) (s : State) : Host.Outcome State Fault Refusal :=
  s.updIf (isFor m 0x0001) fun b => b.command m
/-- CMD_FW_LOAD with its image (R453, R489). -/
def execCmdFwLoad (m : Msg) (s : State) : Host.Outcome State Fault Refusal :=
  s.updIf (isFor m 0x0002) fun b => b.command m
/-- CMD_CTX_OPEN (R52, R55). -/
def execCmdCtxOpen (m : Msg) (s : State) : Host.Outcome State Fault Refusal :=
  s.updIf (isFor m 0x0003) fun b => b.command m
/-- CMD_CTX_CLOSE (R55). -/
def execCmdCtxClose (m : Msg) (s : State) : Host.Outcome State Fault Refusal :=
  s.updIf (isFor m 0x0004) fun b => b.command m
/-- CMD_CFG_READ (R63). -/
def execCmdCfgRead (m : Msg) (s : State) : Host.Outcome State Fault Refusal :=
  s.updIf (isFor m 0x0100) fun b => b.command m
/-- CMD_CFG_WRITE (R63). -/
def execCmdCfgWrite (m : Msg) (s : State) : Host.Outcome State Fault Refusal :=
  s.updIf (isFor m 0x0101) fun b => b.command m
/-- CMD_PROG_LOAD (R167, R168). -/
def execCmdProgLoad (m : Msg) (s : State) : Host.Outcome State Fault Refusal :=
  s.updIf (isFor m 0x0200) fun b => b.command m
/-- CMD_PROG_START (R169, R195). -/
def execCmdProgStart (m : Msg) (s : State) : Host.Outcome State Fault Refusal :=
  s.updIf (isFor m 0x0201) fun b => b.command m
/-- CMD_PROG_STOP (R171). -/
def execCmdProgStop (m : Msg) (s : State) : Host.Outcome State Fault Refusal :=
  s.updIf (isFor m 0x0202) fun b => b.command m
/-- CMD_SPAN_OPEN (R155, R156). -/
def execCmdSpanOpen (m : Msg) (s : State) : Host.Outcome State Fault Refusal :=
  s.updIf (isFor m 0x0203) fun b => b.command m
/-- CMD_SPAN_CLOSE (R160). -/
def execCmdSpanClose (m : Msg) (s : State) : Host.Outcome State Fault Refusal :=
  s.updIf (isFor m 0x0204) fun b => b.command m
/-- CMD_WATCH_SET (R154). -/
def execCmdWatchSet (m : Msg) (s : State) : Host.Outcome State Fault Refusal :=
  s.updIf (isFor m 0x0205) fun b => b.command m
/-- CMD_MEM_WRITE (R58, R348). -/
def execCmdMemWrite (m : Msg) (s : State) : Host.Outcome State Fault Refusal :=
  s.updIf (isFor m 0x0300) fun b => b.command m
/-- CMD_MEM_READ (R58, R348). -/
def execCmdMemRead (m : Msg) (s : State) : Host.Outcome State Fault Refusal :=
  s.updIf (isFor m 0x0301) fun b => b.command m
/-- CMD_DMA_SUBMIT (R370). -/
def execCmdDmaSubmit (m : Msg) (s : State) : Host.Outcome State Fault Refusal :=
  s.updIf (isFor m 0x0302) fun b => b.command m
/-- CMD_TABLE_BUILD (R383). -/
def execCmdTableBuild (m : Msg) (s : State) : Host.Outcome State Fault Refusal :=
  s.updIf (isFor m 0x0303) fun b => b.command m
/-- CMD_CACHE_INVALIDATE (R213). -/
def execCmdCacheInvalidate (m : Msg) (s : State) : Host.Outcome State Fault Refusal :=
  s.updIf (isFor m 0x0304) fun b => b.command m
/-- CMD_REQ_SUBMIT (R325 to R328). -/
def execCmdReqSubmit (m : Msg) (s : State) : Host.Outcome State Fault Refusal :=
  s.updIf (isFor m 0x0400) fun b => b.command m
/-- CMD_REQ_CANCEL (R337). -/
def execCmdReqCancel (m : Msg) (s : State) : Host.Outcome State Fault Refusal :=
  s.updIf (isFor m 0x0401) fun b => b.command m
/-- CMD_SPEC_COMMIT (R284). -/
def execCmdSpecCommit (m : Msg) (s : State) : Host.Outcome State Fault Refusal :=
  s.updIf (isFor m 0x0402) fun b => b.command m
/-- CMD_ACCOUNT_SET (R339, R340). -/
def execCmdAccountSet (m : Msg) (s : State) : Host.Outcome State Fault Refusal :=
  s.updIf (isFor m 0x0403) fun b => b.command m
/-- CMD_POOL_SET (R322 to R324). -/
def execCmdPoolSet (m : Msg) (s : State) : Host.Outcome State Fault Refusal :=
  s.updIf (isFor m 0x0404) fun b => b.command m
/-- CMD_CHAN_OPEN (R420 to R423). -/
def execCmdChanOpen (m : Msg) (s : State) : Host.Outcome State Fault Refusal :=
  s.updIf (isFor m 0x0500) fun b => b.command m
/-- CMD_CHAN_CLOSE (R440). -/
def execCmdChanClose (m : Msg) (s : State) : Host.Outcome State Fault Refusal :=
  s.updIf (isFor m 0x0501) fun b => b.command m
/-- CMD_SLICE_BARRIER (R444). -/
def execCmdSliceBarrier (m : Msg) (s : State) : Host.Outcome State Fault Refusal :=
  s.updIf (isFor m 0x0502) fun b => b.command m
/-- CMD_SLICE_JOIN that joins a slice (R404). -/
def execCmdSliceJoin (m : Msg) (s : State) : Host.Outcome State Fault Refusal :=
  s.updIf (isFor m 0x0600 && !tbit (leAt m.payload 2 1) 2) fun b => b.command m
/-- CMD_CABLING_PLAN (R401). -/
def execCmdCablingPlan (m : Msg) (s : State) : Host.Outcome State Fault Refusal :=
  s.updIf (isFor m 0x0601) fun b => b.command m
/-- CMD_ROUTE_SHADOW with its image (R409). -/
def execCmdRouteShadow (m : Msg) (s : State) : Host.Outcome State Fault Refusal :=
  s.updIf (isFor m 0x0603) fun b => b.command m
/-- CMD_MODE_PREPARE (R445 to R447). -/
def execCmdModePrepare (m : Msg) (s : State) : Host.Outcome State Fault Refusal :=
  s.updIf (isFor m 0x0604) fun b => b.command m
/-- CMD_WINDOW_OPEN (R415). -/
def execCmdWindowOpen (m : Msg) (s : State) : Host.Outcome State Fault Refusal :=
  s.updIf (isFor m 0x0605) fun b => b.command m
/-- CMD_WINDOW_CLOSE (R416). -/
def execCmdWindowClose (m : Msg) (s : State) : Host.Outcome State Fault Refusal :=
  s.updIf (isFor m 0x0606) fun b => b.command m
/-- CMD_PART_CREATE (R479). -/
def execCmdPartCreate (m : Msg) (s : State) : Host.Outcome State Fault Refusal :=
  s.updIf (isFor m 0x0700) fun b => b.command m
/-- CMD_PART_KEY (R482, R483). -/
def execCmdPartKey (m : Msg) (s : State) : Host.Outcome State Fault Refusal :=
  s.updIf (isFor m 0x0701) fun b => b.command m
/-- CMD_PART_KILL (R485). -/
def execCmdPartKill (m : Msg) (s : State) : Host.Outcome State Fault Refusal :=
  s.updIf (isFor m 0x0702) fun b => b.command m
/-- CMD_ATTEST (R494). -/
def execCmdAttest (m : Msg) (s : State) : Host.Outcome State Fault Refusal :=
  s.updIf (isFor m 0x0703) fun b => b.command m
/-- CMD_ERRLOG_READ (R503). -/
def execCmdErrlogRead (m : Msg) (s : State) : Host.Outcome State Fault Refusal :=
  s.updIf (isFor m 0x0900) fun b => b.command m
/-- CMD_COVE_SPARE (R508). -/
def execCmdCoveSpare (m : Msg) (s : State) : Host.Outcome State Fault Refusal :=
  s.updIf (isFor m 0x0901) fun b => b.command m
/-- CMD_HBM_REPAIR (R361). -/
def execCmdHbmRepair (m : Msg) (s : State) : Host.Outcome State Fault Refusal :=
  s.updIf (isFor m 0x0902) fun b => b.command m
/-- CMD_LH_SPARE (R510). -/
def execCmdLhSpare (m : Msg) (s : State) : Host.Outcome State Fault Refusal :=
  s.updIf (isFor m 0x0904) fun b => b.command m
/-- CMD_FW_STAGE with its image (R509). -/
def execCmdFwStage (m : Msg) (s : State) : Host.Outcome State Fault Refusal :=
  s.updIf (isFor m 0x0905) fun b => b.command m
/-- CMD_FW_ACTIVATE (R509). -/
def execCmdFwActivate (m : Msg) (s : State) : Host.Outcome State Fault Refusal :=
  s.updIf (isFor m 0x0906) fun b => b.command m
/-- CMD_PORT_FAILOVER (R41, R58). -/
def execCmdPortFailover (m : Msg) (s : State) : Host.Outcome State Fault Refusal :=
  s.updIf (isFor m 0x0907) fun b => b.command m
/-- CMD_SLICE_JOIN with LEAVE (R404). -/
def execSliceLeave (m : Msg) (s : State) : Host.Outcome State Fault Refusal :=
  s.updIf (isFor m 0x0600 && tbit (leAt m.payload 2 1) 2) fun b => b.command m
/-- CMD_LINK_SET to DISABLED (R403). -/
def execLinkSetDisabled (m : Msg) (s : State) : Host.Outcome State Fault Refusal :=
  s.updIf (isFor m 0x0602 && fld m.param 10 8 == 0) fun b => b.command m
/-- CMD_LINK_SET to ENABLED (R403). -/
def execLinkSetEnabled (m : Msg) (s : State) : Host.Outcome State Fault Refusal :=
  s.updIf (isFor m 0x0602 && fld m.param 10 8 == 1) fun b => b.command m
/-- CMD_LINK_SET to FENCED (R403). -/
def execLinkSetFenced (m : Msg) (s : State) : Host.Outcome State Fault Refusal :=
  s.updIf (isFor m 0x0602 && fld m.param 10 8 == 2) fun b => b.command m
/-- CMD_LINK_SET to ACTIVE (R403). -/
def execLinkSetActive (m : Msg) (s : State) : Host.Outcome State Fault Refusal :=
  s.updIf (isFor m 0x0602 && fld m.param 10 8 == 3) fun b => b.command m
/-- CMD_POWER_STATE to ACTIVE (R472). -/
def execPowerWake (m : Msg) (s : State) : Host.Outcome State Fault Refusal :=
  s.updIf (isFor m 0x0800 && fld m.param 1 0 == 0) fun b => b.command m
/-- CMD_POWER_STATE to SLACK (R469). -/
def execPowerEnterSlack (m : Msg) (s : State) : Host.Outcome State Fault Refusal :=
  s.updIf (isFor m 0x0800 && fld m.param 1 0 == 1) fun b => b.command m
/-- CMD_POWER_STATE to NEAP (R470). -/
def execPowerEnterNeap (m : Msg) (s : State) : Host.Outcome State Fault Refusal :=
  s.updIf (isFor m 0x0800 && fld m.param 1 0 == 2) fun b => b.command m
/-- CMD_POWER_STATE to DORMANT (R470). -/
def execPowerEnterDormant (m : Msg) (s : State) : Host.Outcome State Fault Refusal :=
  s.updIf (isFor m 0x0800 && fld m.param 1 0 == 3) fun b => b.command m
/-- CMD_RESET of kind DEVICE (R462). -/
def execResetDevice (m : Msg) (s : State) : Host.Outcome State Fault Refusal :=
  s.updIf (isFor m 0x0801 && fld m.param 3 0 == 1) fun b => b.command m
/-- CMD_RESET of kind LIGHTHOUSE (R463). -/
def execResetLighthouse (m : Msg) (s : State) : Host.Outcome State Fault Refusal :=
  s.updIf (isFor m 0x0801 && fld m.param 3 0 == 2) fun b => b.command m
/-- CMD_RESET of kind PARTITION (R464). -/
def execResetPartition (m : Msg) (s : State) : Host.Outcome State Fault Refusal :=
  s.updIf (isFor m 0x0801 && fld m.param 3 0 == 3) fun b => b.command m
/-- CMD_RESET of kind COVE (R465). -/
def execResetCove (m : Msg) (s : State) : Host.Outcome State Fault Refusal :=
  s.updIf (isFor m 0x0801 && fld m.param 3 0 == 4) fun b => b.command m
/-- CMD_RESET of kind LINK (R466). -/
def execResetLink (m : Msg) (s : State) : Host.Outcome State Fault Refusal :=
  s.updIf (isFor m 0x0801 && fld m.param 3 0 == 5) fun b => b.command m
/-- CMD_RESET of kind STACK (R466). -/
def execResetStack (m : Msg) (s : State) : Host.Outcome State Fault Refusal :=
  s.updIf (isFor m 0x0801 && fld m.param 3 0 == 6) fun b => b.command m
/-- CMD_LANE_SPARE of a link (R398). -/
def execLaneSpareLink (m : Msg) (s : State) : Host.Outcome State Fault Refusal :=
  s.updIf (isFor m 0x0903 && tbit m.param 16) fun b => b.command m
/-- CMD_LANE_SPARE of an HBM stack (R506). -/
def execLaneSpareStack (m : Msg) (s : State) : Host.Outcome State Fault Refusal :=
  s.updIf (isFor m 0x0903 && !tbit m.param 16) fun b => b.command m
/-- CMD_CFG_WRITE of CV_TP_CTL, for ARB (R201). -/
def execTpArbSet (m : Msg) (s : State) : Host.Outcome State Fault Refusal :=
  s.updIf (writes m 7 0x3800 0x3808) fun b => b.command m
/-- CMD_CFG_WRITE of CV_TP_CTL, for CACHE (R214). -/
def execTpCacheResize (m : Msg) (s : State) : Host.Outcome State Fault Refusal :=
  s.updIf (writes m 7 0x3800 0x3808) fun b => b.command m
/-- CMD_CFG_WRITE of CV_TP_SLOTMAP (R201, R205). -/
def execTpSlotmapWrite (m : Msg) (s : State) : Host.Outcome State Fault Refusal :=
  s.updIf (writes m 7 0x3808 0x3810) fun b => b.command m
/-- CMD_CFG_WRITE of a CV_TP_INBOX (R216). -/
def execTpInboxWrite (m : Msg) (s : State) : Host.Outcome State Fault Refusal :=
  s.updIf (writes m 7 0x3900 0x3A00) fun b => b.command m
/-- CMD_CFG_WRITE of a CV_TP_RING (R220). -/
def execTpRingWrite (m : Msg) (s : State) : Host.Outcome State Fault Refusal :=
  s.updIf (writes m 7 0x3A00 0x3E00) fun b => b.command m
/-- CMD_CFG_WRITE of CV_SR_CTL, for RESEED, alone or behind CV_SR_SEED (R89, R91). -/
def execSrReseed (m : Msg) (s : State) : Host.Outcome State Fault Refusal :=
  s.updIf (writes m 7 0x3000 0x3010) fun b => b.command m
/-- CMD_CFG_WRITE of a CV_SR_STATE (R91). -/
def execSrStateWrite (m : Msg) (s : State) : Host.Outcome State Fault Refusal :=
  s.updIf (writes m 7 0x3100 0x3200) fun b => b.command m
/-- CMD_CFG_WRITE of CV_ARR_CTL (R119). -/
def execArrCtlWrite (m : Msg) (s : State) : Host.Outcome State Fault Refusal :=
  s.updIf (writes m 7 0x1000 0x1008) fun b => b.command m
/-- CMD_CFG_WRITE of a CV_SEQ_SREG (R197). -/
def execSeqSregWrite (m : Msg) (s : State) : Host.Outcome State Fault Refusal :=
  s.updIf (writes m 7 0x100 0x200) fun b => b.command m
/-- CMD_CFG_WRITE of a BY_SP_SPILL (R263). -/
def execSpillCfgWrite (m : Msg) (s : State) : Host.Outcome State Fault Refusal :=
  s.updIf (writes m 6 0x100 0x300) fun b => b.command m
/-- CMD_CFG_WRITE of an HL_TS_SLOT, for HOLD (R381). -/
def execTableHoldWrite (m : Msg) (s : State) : Host.Outcome State Fault Refusal :=
  s.updIf (writes m 2 0x1000 0x1200) fun b => b.command m
/-- CMD_CFG_WRITE of DV_HBM_MAP (R350, R351). -/
def execHbmMapWrite (m : Msg) (s : State) : Host.Outcome State Fault Refusal :=
  s.updIf (writes m 0 0x400 0x408) fun b => b.command m
/-- CMD_CFG_WRITE of DV_ALERT (R530). -/
def execAlertClear (m : Msg) (s : State) : Host.Outcome State Fault Refusal :=
  s.updIf (writes m 0 0xF10 0xF18) fun b => b.command m

end Sys2Proof.Machine
end

