-- ==== Sys2Proof/Machine/Events.lean ====
section
/-! DEFINITION. The rows of the opcode table for events: what happens at the ports, the units, the links, the fabric, the clocks and the
board. An event that finds nothing it applies to changes nothing. -/
namespace Sys2Proof.Machine

/-- A packet for this device acts; one for another is not this row's. -/
def Blk.mine (b : Blk) (p : Pkt) (f : Blk → Blk) : Blk := if p.dst = b.slice.devid then f b else b
/-- A descriptor completes; EX_COMBINE gives up the Bay's BAB engine (R317, R370). -/
def Blk.descEnded (b : Blk) (y serial : Nat) : Blk :=
  match b.descOf y serial with
  | none => b
  | some d =>
    let b1 := b.descComplete y serial
    let e := (b1.bay y).engine 1
    if d.op = 0x1C && d.out.isSome && e.busy = some (4096 + d.cove) then
      (b1.setBay y ((b1.bay y).setEngine 1 { e with busy := none })).kickBay y (d.cove % 16)
    else b1
/-- SMBus SUPPLY: bits [47:0] of DV_SUPPLY (R524). -/
def Blk.smbSupply (b : Blk) : List Byte := leBytes 6 ((b.dvWord 0xF20).getD 0)
/-- An access that lies in HBM, and one that lies in a Tidepool (R198, R347). -/
def accFits (x : HbmAccess) : Bool := x.part < 256 && x.addr + (if x.write then x.data.length else x.len) ≤ hbmEnd
def ingressFits (a : Ingress) : Bool := a.cove < nCoves && a.addr + (match a.kind with | .read => a.len | _ => a.data.length) ≤ tpSize

/-! ### Boot, host ports and firmware -/

/-- Verification of an image ends (R453, R489). -/
def execFwVerifyDone (s : State) : Host.Outcome State Fault Refusal :=
  s.upd fun b => b.fwVerifyDone.pump
/-- The certificate is signed (R492); a CMD_ATTEST that waits goes on. -/
def execCertSigned (s : State) : Host.Outcome State Fault Refusal :=
  s.upd fun b => b.certSigned.pump
/-- A frame arrives on a port (R37 to R39). -/
def execBeaconFrameRx (port : Nat) (frame : List Byte) (s : State) : Host.Outcome State Fault Refusal :=
  s.updIf (port < 2) fun b => (b.frameRx port frame).pump
/-- A BULK body arrives on a port (R40). -/
def execBulkFrameRx (port : Nat) (body : List Byte) (s : State) : Host.Outcome State Fault Refusal :=
  s.updIf (port < 2) fun b => (if (b.port port).up then b.bulkArrive port body else b).pump
/-- 100 µs without progress of acknowledgement (R38). -/
def execBeaconResendTimeout (port : Nat) (s : State) : Host.Outcome State Fault Refusal :=
  s.updIf (port < 2) fun b => b.resendTimeout port
/-- A lane of a port loses signal (R36). -/
def execBeaconLaneLoss (port : Nat) (lane : Nat) (s : State) : Host.Outcome State Fault Refusal :=
  s.updIf (port < 2 && lane < 4) fun b => b.laneLoss port lane
/-- A port is declared down (R41). -/
def execBeaconPortDown (port : Nat) (s : State) : Host.Outcome State Fault Refusal :=
  s.updIf (port < 2) fun b => b.portDown port
/-- A port that is down tries its training again (R511). -/
def execBeaconPortRetry (port : Nat) (trained : Bool) (s : State) : Host.Outcome State Fault Refusal :=
  s.updIf (port < 2) fun b => b.portRetry port trained
/-- A port finishes training (R453). -/
def execBeaconPortTrained (port : Nat) (s : State) : Host.Outcome State Fault Refusal :=
  s.updIf (port < 2) fun b => b.portTrained port
/-- 50 ms pass before a new image takes intake (R509). -/
def execFwActivateTimeout (s : State) : Host.Outcome State Fault Refusal :=
  s.upd fun b => if b.fw.activating.isSome then b.activateFailed.resumeIntake.pump else b
/-- Nimtar takes intake again (R66). -/
def execIntakeResumed (s : State) : Host.Outcome State Fault Refusal :=
  s.upd fun b => if b.host.intakeStopped then b.activated.resumeIntake.pump else b
/-- The merging window ends (R502). -/
def execErrMergeWindowEnd (s : State) : Host.Outcome State Fault Refusal :=
  s.upd fun b => b.windowEnd
/-- A core's watchdog expires (R504). -/
def execLhWatchdogExpiry (core : Nat) (s : State) : Host.Outcome State Fault Refusal :=
  s.updIf (core < 10) fun b => b.coreFault core 0x30
/-- An uncorrectable word in a core's memory (R504). -/
def execLhMemUe (core : Nat) (s : State) : Host.Outcome State Fault Refusal :=
  s.updIf (core < 10) fun b => b.coreFault core 0x31

/-! ### Programs, spans and the watch -/

/-- The start instant of a CMD_PROG_START (R169). -/
def execProgStartInstant (ctx : Nat) (seq : Nat) (s : State) : Host.Outcome State Fault Refusal :=
  s.updIf (ctx < nCtxs) fun b => b.startInstant ctx seq
/-- Every Cove of a start has ended (R170). -/
def execProgStartComplete (ctx : Nat) (seq : Nat) (s : State) : Host.Outcome State Fault Refusal :=
  s.updIf (ctx < nCtxs) fun b => (b.startComplete ctx seq).pump
/-- The commit point of a span (R160). -/
def execSpanCommitPoint (part : Nat) (span : Nat) (s : State) : Host.Outcome State Fault Refusal :=
  s.updIf (part < nParts && span < 16) fun b => (b.commitPoint part span).pump
/-- The staging copies end (R163). -/
def execSpanStagingCopyDone (part : Nat) (span : Nat) (s : State) : Host.Outcome State Fault Refusal :=
  s.updIf (part < nParts && span < 16) fun b => (b.stagingDone part span).pump
/-- A sample of a watch slot closes (R151). -/
def execWatchSampleClose (part : Nat) (slot : Nat) (s : State) : Host.Outcome State Fault Refusal :=
  s.updIf (part < nParts && slot < 256) fun b => b.sampleClose part slot
/-- A span has drained for a replay (R160). -/
def execReplayDrained (part : Nat) (span : Nat) (s : State) : Host.Outcome State Fault Refusal :=
  s.updIf (part < nParts && span < 16) fun b => (b.replayDrained part span).pump

/-! ### Tidepools, DMA and HBM -/

/-- A local write to a grant word (R218). -/
def execGrantWordWrite (cove : Nat) (inbox : Nat) (value : Nat) (s : State) : Host.Outcome State Fault Refusal :=
  s.updIf (cove < nCoves && inbox < 16) fun b => b.grantWrite cove inbox value
/-- A grant reaches its source (R218). -/
def execGrantUpdateArrive (cove : Nat) (inbox : Nat) (s : State) : Host.Outcome State Fault Refusal :=
  s.updIf (cove < nCoves && inbox < 16) fun b => b.grantArrive cove inbox
/-- An access through network ingress (R226). -/
def execTidepoolIngress (acc : Ingress) (s : State) : Host.Outcome State Fault Refusal :=
  s.updIf (ingressFits acc) fun b => b.ingress acc
/-- A change of the cache portion ends (R214). -/
def execCacheChangeDone (cove : Nat) (s : State) : Host.Outcome State Fault Refusal :=
  s.updIf (cove < nCoves) fun b => b.cacheChangeDone cove
/-- The clearing of a Cove ends (R225, R465). -/
def execCoveClearingEnd (cove : Nat) (s : State) : Host.Outcome State Fault Refusal :=
  s.updIf (cove < nCoves) fun b => (b.clearingEnd cove).pump
/-- A descriptor completes (R370). -/
def execDmaDescriptorComplete (bay : Nat) (serial : Nat) (s : State) : Host.Outcome State Fault Refusal :=
  s.updIf (bay < nBays) fun b => (b.descEnded bay serial).pump
/-- A table build ends (R383). -/
def execTableBuildDone (ctx : Nat) (seq : Nat) (s : State) : Host.Outcome State Fault Refusal :=
  s.updIf (ctx < nCtxs) fun b => (b.tableDone ctx seq).pump
/-- The copy of half a ring to HBM begins (R248). -/
def execSpillHalfCopy (cove : Nat) (s : State) : Host.Outcome State Fault Refusal :=
  s.updIf (cove < nCoves) fun b => b.spillStart cove
/-- The copy of half a ring ends (R248). -/
def execSpillHalfCopyDone (cove : Nat) (s : State) : Host.Outcome State Fault Refusal :=
  s.updIf (cove < nCoves) fun b => b.spillEnd cove
/-- A memory controller serves an access (R352, R357, R358). -/
def execHbmAccess (acc : HbmAccess) (s : State) : Host.Outcome State Fault Refusal :=
  s.updIf (accFits acc) fun b => b.hbmServe acc
/-- A parity error and its reissues (R359). -/
def execHbmParityError (stack : Nat) (acc : HbmAccess) (retries : Nat) (s : State) : Host.Outcome State Fault Refusal :=
  s.updIf (stack < nStacks && accFits acc && retries ≤ 4) fun b => b.hbmParity stack acc retries
/-- A refresh (R356). -/
def execHbmRefresh (stack : Nat) (bank : Nat) (s : State) : Host.Outcome State Fault Refusal :=
  s.updIf (stack < nStacks && bank < 1024) fun b => b.hbmRefresh stack
/-- Refresh management that a stack asks for: no state but the cells' (R356). -/
def execHbmRfmRequest (stack : Nat) (bank : Nat) (s : State) : Host.Outcome State Fault Refusal :=
  s.updIf (stack < nStacks && bank < 1024) fun b => b
/-- The temperature of a stack is read (R353). -/
def execHbmTempReadout (stack : Nat) (temp : Nat) (s : State) : Host.Outcome State Fault Refusal :=
  s.updIf (stack < nStacks) fun b => b.hbmTemp stack temp
/-- A stack ends its training (R354). -/
def execHbmStackTrained (stack : Nat) (failed : Bool) (laneFails : List Nat) (s : State) : Host.Outcome State Fault Refusal :=
  s.updIf (stack < nStacks) fun b => (b.stackTrained stack failed laneFails).pump
/-- A Headland ends its self-test (R455). -/
def execHeadlandSelftestDone (headland : Nat) (failed : List Nat) (unmasked : Bool) (s : State) : Host.Outcome State Fault Refusal :=
  s.updIf (headland < nHeadlands) fun b => (b.selftestDone headland failed unmasked).pump
/-- A Cove's state is in its new slot (R508). -/
def execCoveSpareCopyDone (bay : Nat) (s : State) : Host.Outcome State Fault Refusal :=
  s.updIf (bay < nBays) fun b => (b.spareDone bay).pump
/-- A repair of a row ends (R361). -/
def execHbmRepairDone (stack : Nat) (s : State) : Host.Outcome State Fault Refusal :=
  s.updIf (stack < nStacks) fun b => (b.repairDone stack).pump
/-- A lane switch of a stack ends (R362). -/
def execStackLaneSpareDone (stack : Nat) (s : State) : Host.Outcome State Fault Refusal :=
  s.updIf (stack < nStacks) fun b => (b.stackLaneDone stack).pump

/-! ### Links and packets -/

/-- 10 ms without the peer's ask (R403). -/
def execLinkActiveAskTimeout (link : Nat) (s : State) : Host.Outcome State Fault Refusal :=
  s.updIf (link < nLinks) fun b => (b.linkAskTimeout link).pump
/-- Signal on all lanes of a link (R400). -/
def execLinkSignalDetect (link : Nat) (s : State) : Host.Outcome State Fault Refusal :=
  s.updIf (link < nLinks) fun b => b.linkSignal link
/-- Training of a link reaches CHECKING (R400). -/
def execLinkTrainingDone (link : Nat) (s : State) : Host.Outcome State Fault Refusal :=
  s.updIf (link < nLinks) fun b => b.linkTrained link
/-- 150 ms pass without CHECKING (R400). -/
def execLinkTrainingTimeout (link : Nat) (s : State) : Host.Outcome State Fault Refusal :=
  s.updIf (link < nLinks) fun b => (b.linkTrainFail link).pump
/-- The peer's identity arrives (R402). -/
def execLinkctlIdentityRx (link : Nat) (serial : Nat) (devid : Nat) (port : Nat) (slice : Nat) (s : State) : Host.Outcome State Fault Refusal :=
  s.updIf (link < nLinks) fun b => (b.linkIdentity link serial devid port slice).pump
/-- A NAK arrives (R394). -/
def execLinkctlNakRx (link : Nat) (fseq : Nat) (s : State) : Host.Outcome State Fault Refusal :=
  s.updIf (link < nLinks) fun b => b.linkNakRx link fseq
/-- A fence message arrives (R403). -/
def execLinkctlFenceRx (link : Nat) (s : State) : Host.Outcome State Fault Refusal :=
  s.updIf (link < nLinks) fun b => (b.linkFenceRx link).pump
/-- The peer asks for ACTIVE (R403). -/
def execLinkctlActiveRequestRx (link : Nat) (s : State) : Host.Outcome State Fault Refusal :=
  s.updIf (link < nLinks) fun b => (b.linkAskRx link).pump
/-- A sparing or width message arrives (R397). -/
def execLinkctlLaneMsgRx (link : Nat) (kind : Nat) (arg : Nat) (s : State) : Host.Outcome State Fault Refusal :=
  s.updIf (link < nLinks && arg < 9) fun b => b.laneMsg link kind arg
/-- A flit arrives (R390 to R394). -/
def execLinkFlitRx (link : Nat) (flit : List Byte) (s : State) : Host.Outcome State Fault Refusal :=
  s.updIf (link < nLinks) fun b => (b.flitRx link flit fun b k p => b.deliverPkt k p).pump
/-- 2 µs without progress of ACK (R394). -/
def execLinkReplayTimeout (link : Nat) (s : State) : Host.Outcome State Fault Refusal :=
  s.updIf (link < nLinks) fun b => b.replayTimeout link
/-- A lane of a link loses signal (R397). -/
def execLinkLaneSignalLoss (link : Nat) (lane : Nat) (s : State) : Host.Outcome State Fault Refusal :=
  s.updIf (link < nLinks && lane < 9) fun b => b.laneDark link lane
/-- A lane's symbol errors pass its limit (R397). -/
def execLaneSerExceeded (link : Nat) (lane : Nat) (s : State) : Host.Outcome State Fault Refusal :=
  s.updIf (link < nLinks && lane < 9) fun b => b.laneFail link lane
/-- A lane switch or width change of a link ends (R397). -/
def execLinkLaneSwitchDone (link : Nat) (s : State) : Host.Outcome State Fault Refusal :=
  s.updIf (link < nLinks) fun b => (b.switchDone link).pump
/-- A packet on its way to another device (R407, R412). -/
def execPktTransit (p : Pkt) (s : State) : Host.Outcome State Fault Refusal :=
  s.upd fun b => if p.dst = b.slice.devid then b else b.forward p
/-- A WRITE for this device (R406). -/
def execPktWriteRx (p : Pkt) (s : State) : Host.Outcome State Fault Refusal :=
  s.updIf (p.kind == 1) fun b => b.mine p fun b => b.pktWrite p
/-- A READ for this device (R406). -/
def execPktReadRx (p : Pkt) (s : State) : Host.Outcome State Fault Refusal :=
  s.updIf (p.kind == 2) fun b => b.mine p fun b => b.pktRead p
/-- READ_DATA for a read of this device (R406). -/
def execPktReadDataRx (p : Pkt) (s : State) : Host.Outcome State Fault Refusal :=
  s.updIf (p.kind == 3) fun b => (b.mine p fun b => b.pktReply p 2).pump
/-- WRITE_ACK for a write of this device (R406). -/
def execPktWriteAckRx (p : Pkt) (s : State) : Host.Outcome State Fault Refusal :=
  s.updIf (p.kind == 4) fun b => (b.mine p fun b => b.pktReply p 1).pump
/-- A NOTICE for this device (R411). -/
def execPktNoticeRx (p : Pkt) (s : State) : Host.Outcome State Fault Refusal :=
  s.updIf (p.kind == 5) fun b => (b.mine p fun b => b.pktNotice p).pump
/-- A remote request without an answer (R411). -/
def execRemoteRequestTimeout (tag : Nat) (s : State) : Host.Outcome State Fault Refusal :=
  s.updIf (tag < 65536) fun b => (b.remoteTimeout tag).pump
/-- A crossing reopens (R476). -/
def execXingReopen (kind : Nat) (idx : Nat) (s : State) : Host.Outcome State Fault Refusal :=
  s.updIf (kind < 4 && idx < nCoves) fun b => (b.xingReopen kind idx).pump

/-! ### Collectives -/

/-- A participant writes its post word (R424). -/
def execCollPostWordWrite (channel : Nat) (part : Nat) (value : Nat) (s : State) : Host.Outcome State Fault Refusal :=
  s.updIf (channel < 128) fun b => (b.collPost channel part value).pump
/-- A COLL_DATA arrives (R438). -/
def execCollDataRx (p : Pkt) (s : State) : Host.Outcome State Fault Refusal :=
  s.updIf (p.kind == 0x10) fun b => (b.mine p fun b => b.collRx p).pump
/-- A COLL_ACK arrives (R438). -/
def execCollAckRx (p : Pkt) (s : State) : Host.Outcome State Fault Refusal :=
  s.updIf (p.kind == 0x11) fun b => (b.mine p fun b => b.collRx p).pump
/-- A COLL_CREDIT arrives (R423). -/
def execCollCreditRx (p : Pkt) (s : State) : Host.Outcome State Fault Refusal :=
  s.updIf (p.kind == 0x12) fun b => (b.mine p fun b => b.collRx p).pump
/-- A COLL_SIZE arrives (R429). -/
def execCollSizeRx (p : Pkt) (s : State) : Host.Outcome State Fault Refusal :=
  s.updIf (p.kind == 0x13) fun b => (b.mine p fun b => b.collRx p).pump
/-- A COLL_GO arrives (R429). -/
def execCollGoRx (p : Pkt) (s : State) : Host.Outcome State Fault Refusal :=
  s.updIf (p.kind == 0x14) fun b => (b.mine p fun b => b.collRx p).pump
/-- A COLL_FAIL arrives (R439). -/
def execCollFailRx (p : Pkt) (s : State) : Host.Outcome State Fault Refusal :=
  s.updIf (p.kind == 0x15) fun b => (b.mine p fun b => b.collRx p).pump
/-- A COLL_ARRIVE arrives (R428). -/
def execCollArriveRx (p : Pkt) (s : State) : Host.Outcome State Fault Refusal :=
  s.updIf (p.kind == 0x16) fun b => (b.mine p fun b => b.collRx p).pump
/-- 100 µs without COLL_ACK (R438). -/
def execCollResendTimeout (channel : Nat) (s : State) : Host.Outcome State Fault Refusal :=
  s.updIf (channel < 128) fun b => (b.collResend channel).pump
/-- An operation passes its TIMEOUT (R439). -/
def execCollOpTimeout (channel : Nat) (s : State) : Host.Outcome State Fault Refusal :=
  s.updIf (channel < 128) fun b => (b.collTimeout channel).pump

/-! ### The slice, the Tide clock and mode changes -/

/-- A report of a face arrives at the Harbourmaster (R413). -/
def execFaceStateRx (p : Pkt) (s : State) : Host.Outcome State Fault Refusal :=
  s.updIf (p.kind == 0x21) fun b => (b.mine p fun b => b.faceStateRx p).pump
/-- A device has been dark for 1 ms (R413). -/
def execMissingTimer (device : Nat) (s : State) : Host.Outcome State Fault Refusal :=
  s.updIf (device < 16384) fun b => (b.missingTimer device).pump
/-- A missing mark is set or cleared (R413). -/
def execMissingMarkRx (link : Nat) (p : Pkt) (s : State) : Host.Outcome State Fault Refusal :=
  s.updIf (link < nLinks && p.kind == 0x22) fun b => (b.missingRx link p).pump
/-- TIDE_SYNC leaves on every live face (R442). -/
def execTideSyncSend (s : State) : Host.Outcome State Fault Refusal :=
  s.upd fun b => b.tideSend
/-- A TIDE_SYNC arrives (R442). -/
def execTideSyncRx (link : Nat) (p : Pkt) (s : State) : Host.Outcome State Fault Refusal :=
  s.updIf (link < nLinks && p.kind == 0x20) fun b => b.tideRx link p
/-- 1 ms without a sync (R442). -/
def execTideHoldover (s : State) : Host.Outcome State Fault Refusal :=
  s.upd fun b => b.tideHoldover
/-- A pulse-per-second edge (R443). -/
def execPpsEdge (s : State) : Host.Outcome State Fault Refusal :=
  s.upd fun b => if b.dev.powered then b.ppsEdge else b
/-- 2 s without a pulse-per-second edge (R530). -/
def execPpsSeenExpiry (s : State) : Host.Outcome State Fault Refusal :=
  s.upd fun b => if b.dev.powered then b.ppsExpiry else b
/-- The 10 MHz reference is lost (R522). -/
def execTrefLoss (s : State) : Host.Outcome State Fault Refusal :=
  s.upd fun b => if b.dev.powered then b.trefLoss else b
/-- The 10 MHz reference returns (R522). -/
def execTrefReturn (s : State) : Host.Outcome State Fault Refusal :=
  s.upd fun b => if b.dev.powered then b.trefReturn else b
/-- A BARRIER_ARRIVE reaches the Harbourmaster (R444). -/
def execBarrierArriveRx (p : Pkt) (s : State) : Host.Outcome State Fault Refusal :=
  s.updIf (p.kind == 0x23) fun b => (b.mine p fun b => b.barArriveRx p).pump
/-- A BARRIER_RELEASE arrives (R444). -/
def execBarrierReleaseRx (link : Nat) (p : Pkt) (s : State) : Host.Outcome State Fault Refusal :=
  s.updIf (link < nLinks && p.kind == 0x24) fun b => (b.barReleaseRx link p).pump
/-- A MODE_PREPARE arrives (R447). -/
def execModePrepareRx (link : Nat) (p : Pkt) (s : State) : Host.Outcome State Fault Refusal :=
  s.updIf (link < nLinks && p.kind == 0x25) fun b => (b.modePrepareRx link p).pump
/-- A MODE_ACK or NACK arrives (R447, R448). -/
def execModeAckRx (p : Pkt) (s : State) : Host.Outcome State Fault Refusal :=
  s.updIf (p.kind == 0x26) fun b => (b.mine p fun b => b.modeAckRx p).pump
/-- A MODE_COMMIT arrives (R447). -/
def execModeCommitRx (link : Nat) (p : Pkt) (s : State) : Host.Outcome State Fault Refusal :=
  s.updIf (link < nLinks && p.kind == 0x27) fun b => (b.modeCommitRx link p).pump
/-- A COMMIT_ACK arrives (R447). -/
def execCommitAckRx (p : Pkt) (s : State) : Host.Outcome State Fault Refusal :=
  s.updIf (p.kind == 0x29) fun b => (b.mine p fun b => b.commitAckRx p).pump
/-- 100 µs pass with COMMIT_ACK outstanding (R447). -/
def execModeCommitResend (s : State) : Host.Outcome State Fault Refusal :=
  s.upd fun b => b.modeResend
/-- A MODE_ABORT arrives (R448). -/
def execModeAbortRx (link : Nat) (p : Pkt) (s : State) : Host.Outcome State Fault Refusal :=
  s.updIf (link < nLinks && p.kind == 0x28) fun b => (b.modeAbortRx link p).pump
/-- TIMEOUT passes without every acknowledgement (R448). -/
def execModeAckTimeout (s : State) : Host.Outcome State Fault Refusal :=
  s.upd fun b => b.modeAckTimeout.pump
/-- An acknowledged member hears nothing more (R449). -/
def execModeInDoubt (s : State) : Host.Outcome State Fault Refusal :=
  s.upd fun b => b.modeInDoubt.pump
/-- The epoch of a committed change (R447). -/
def execModeEpochSwitch (s : State) : Host.Outcome State Fault Refusal :=
  s.upd fun b => b.modeEpoch.pump

/-! ### Serving and partitions -/

/-- The shadow build of a plan ends (R324). -/
def execPlanBuildDone (part : Nat) (s : State) : Host.Outcome State Fault Refusal :=
  s.updIf (part < nParts) fun b => (b.planDone part).pump
/-- A step boundary (R329). -/
def execStepBoundary (part : Nat) (s : State) : Host.Outcome State Fault Refusal :=
  s.updIf (part < nParts) fun b => (b.stepBoundary part).pump
/-- The start instant of a step (R329). -/
def execStepStartInstant (part : Nat) (s : State) : Host.Outcome State Fault Refusal :=
  s.updIf (part < nParts) fun b => b.stepStart part
/-- Both pools of a step have ended (R332). -/
def execStepPoolsDone (part : Nat) (s : State) : Host.Outcome State Fault Refusal :=
  s.updIf (part < nParts) fun b => (b.poolsDone part).pump
/-- The zeroing on the chip of a killed partition ends (R464, R485). -/
def execKillScrubDone (part : Nat) (s : State) : Host.Outcome State Fault Refusal :=
  s.updIf (part < nParts) fun b => (b.killDone part).pump
/-- The last granule of a background zeroing is written (R488). -/
def execBackgroundZeroDone (part : Nat) (s : State) : Host.Outcome State Fault Refusal :=
  s.updIf (part < nParts) fun b => b.zeroingDone part

/-! ### Resets, power and the board -/

/-- Entry to NEAP or DORMANT has drained (R470). -/
def execPowerEntryDrained (s : State) : Host.Outcome State Fault Refusal :=
  s.upd fun b => b.entryDrained.pump
/-- A wake ends (R472). -/
def execPowerWakeDone (s : State) : Host.Outcome State Fault Refusal :=
  s.upd fun b => b.wakeDone.pump
/-- A DEVICE reset ends in ROM (R462). -/
def execResetDeviceDone (s : State) : Host.Outcome State Fault Refusal :=
  s.upd fun b => b.deviceResetDone
/-- PWR_OK goes high (R517). -/
def execPwrOkAssert (s : State) : Host.Outcome State Fault Refusal :=
  s.upd fun b => b.powerOn
/-- PWR_OK goes low (R517). -/
def execPwrOkDeassert (s : State) : Host.Outcome State Fault Refusal :=
  s.upd fun b => b.powerOff
/-- MRST_N low for 10 µs (R519). -/
def execMrstNAssert (s : State) : Host.Outcome State Fault Refusal :=
  s.upd fun b => b.mrstAssert
/-- The rising edge of MRST_N (R519). -/
def execMrstNRelease (s : State) : Host.Outcome State Fault Refusal :=
  s.upd fun b => b.mrstRelease
/-- The main input in a warning band (R518). -/
def execMainInputWarn (mv : Nat) (s : State) : Host.Outcome State Fault Refusal :=
  s.upd fun b => b.mainWarn mv
/-- The main input out of range (R518). -/
def execMainInputFault (mv : Nat) (s : State) : Host.Outcome State Fault Refusal :=
  s.upd fun b => b.mainFault mv
/-- The main input below 36 V (R518). -/
def execMainInputCollapse (mv : Nat) (s : State) : Host.Outcome State Fault Refusal :=
  s.upd fun b => b.mainCollapse mv
/-- The main input in range (R454). -/
def execMainInputInRange (mv : Nat) (s : State) : Host.Outcome State Fault Refusal :=
  s.upd fun b => b.mainInRange mv
/-- SYSCLK stops (R521). -/
def execSysclkLoss (s : State) : Host.Outcome State Fault Refusal :=
  s.upd fun b => b.sysclkLoss
/-- A link reference is lost (R521). -/
def execLrefLoss (ref : Nat) (s : State) : Host.Outcome State Fault Refusal :=
  s.updIf (ref < 2) fun b => b.lrefLoss ref
/-- A link reference returns (R521). -/
def execLrefReturn (ref : Nat) (s : State) : Host.Outcome State Fault Refusal :=
  s.updIf (ref < 2) fun b => b.lrefReturn ref
/-- 100 µs at or above 100 °C (R528). -/
def execThrottleStepDown (die : Nat) (temp : Nat) (s : State) : Host.Outcome State Fault Refusal :=
  s.updIf (die < 4) fun b => b.stepDown die temp
/-- 1 ms below 97 °C (R528). -/
def execThrottleStepUp (die : Nat) (temp : Nat) (s : State) : Host.Outcome State Fault Refusal :=
  s.updIf (die < 4) fun b => b.stepUp die temp
/-- 1 ms at 105 °C (R507). -/
def execThermalTrip (die : Nat) (temp : Nat) (s : State) : Host.Outcome State Fault Refusal :=
  s.updIf (die < 4) fun b => b.thermalTrip die temp

/-! ### The management bus and boundary scan -/

/-- SMBus ID (R524). -/
def execSmbId (s : State) : Host.Outcome State Fault Refusal :=
  s.upd fun b => b.smbSay (leBytes 8 dvId)
/-- SMBus SERIAL (R524). -/
def execSmbSerial (s : State) : Host.Outcome State Fault Refusal :=
  s.upd fun b => b.smbSay (leBytes 8 Config.serial.toNat)
/-- SMBus STATUS (R524). -/
def execSmbStatus (s : State) : Host.Outcome State Fault Refusal :=
  s.upd fun b => b.smbSay b.smbStatus
/-- SMBus TJ (R524). -/
def execSmbTj (s : State) : Host.Outcome State Fault Refusal :=
  s.upd fun b => b.smbSay (leBytes 2 (toTwos 16 b.board.tj))
/-- SMBus SUPPLY (R524). -/
def execSmbSupply (s : State) : Host.Outcome State Fault Refusal :=
  s.upd fun b => b.smbSay b.smbSupply
/-- SMBus ALERT read (R524). -/
def execSmbAlertRead (s : State) : Host.Outcome State Fault Refusal :=
  s.upd fun b => b.smbSay (leBytes 2 b.alertWord)
/-- SMBus ALERT write (R524). -/
def execSmbAlertClear (data : Nat) (s : State) : Host.Outcome State Fault Refusal :=
  s.upd fun b => b.smbClear data
/-- SMBus ALERT_MASK (R524). -/
def execSmbAlertMask (data : Nat) (s : State) : Host.Outcome State Fault Refusal :=
  s.upd fun b => b.smbMask data
/-- TAP BYPASS (R525). -/
def execTapBypass (s : State) : Host.Outcome State Fault Refusal :=
  s.upd fun b => b.tapLoad 0 [0#8]
/-- TAP IDCODE (R525). -/
def execTapIdcode (s : State) : Host.Outcome State Fault Refusal :=
  s.upd fun b => b.tapLoad 1 (leBytes 4 0x10B3354F)
/-- TAP SAMPLE/PRELOAD (R525). -/
def execTapSamplePreload (pins : List Byte) (s : State) : Host.Outcome State Fault Refusal :=
  s.upd fun b => b.tapLoad 2 pins
/-- TAP EXTEST (R525). -/
def execTapExtest (s : State) : Host.Outcome State Fault Refusal :=
  s.upd fun b => b.tapLoad 3 []
/-- TAP EXTEST_PULSE (R525). -/
def execTapExtestPulse (s : State) : Host.Outcome State Fault Refusal :=
  s.upd fun b => b.tapLoad 4 []
/-- TAP EXTEST_TRAIN (R525). -/
def execTapExtestTrain (s : State) : Host.Outcome State Fault Refusal :=
  s.upd fun b => b.tapLoad 5 []

end Sys2Proof.Machine
end

