-- ==== Sys2Proof/Machine/Tile.lean ====
section
/-! DEFINITION. The meanings of the tile instructions and of the events of a running program: one definition per row of the
opcode table (R165 to R194, R221, R222). -/
namespace Sys2Proof.Machine

/-- NOP (R184). -/
def execNop (cove : Nat) (s : State) : Host.Outcome State Fault Refusal :=
  s.updIf (cove < nCoves) fun b => b.issueIf cove (fun w => wOpcode w == 0x00) fun b _ => b.doNop cove
/-- HALT: no more issue; the program ends once every issued instruction has completed (R184). -/
def execHalt (cove : Nat) (s : State) : Host.Outcome State Fault Refusal :=
  s.updIf (cove < nCoves) fun b => b.issueIf cove (fun w => wOpcode w == 0x01) fun b _ => b.doHalt cove
/-- BR to TARGET; conditional only through its guard (R184). -/
def execBr (cove : Nat) (s : State) : Host.Outcome State Fault Refusal :=
  s.updIf (cove < nCoves) fun b => b.issueIf cove (fun w => wOpcode w == 0x02) fun b w => b.doBr cove w
/-- LOOP (R185). -/
def execLoop (cove : Nat) (s : State) : Host.Outcome State Fault Refusal :=
  s.updIf (cove < nCoves) fun b => b.issueIf cove (fun w => wOpcode w == 0x03) fun b w => b.doLoop cove w
/-- SLI (R184). -/
def execSli (cove : Nat) (s : State) : Host.Outcome State Fault Refusal :=
  s.updIf (cove < nCoves) fun b => b.issueIf cove (fun w => wOpcode w == 0x04) fun b w => b.doSli cove w
/-- SOP (R184). -/
def execSop (cove : Nat) (s : State) : Host.Outcome State Fault Refusal :=
  s.updIf (cove < nCoves) fun b => b.issueIf cove (fun w => wOpcode w == 0x05) fun b w => b.doSop cove w
/-- SCMP (R184). -/
def execScmp (cove : Nat) (s : State) : Host.Outcome State Fault Refusal :=
  s.updIf (cove < nCoves) fun b => b.issueIf cove (fun w => wOpcode w == 0x06) fun b w => b.doScmp cove w
/-- SLD (R184). -/
def execSld (cove : Nat) (s : State) : Host.Outcome State Fault Refusal :=
  s.updIf (cove < nCoves) fun b => b.issueIf cove (fun w => wOpcode w == 0x07) fun b w => b.doSld cove w
/-- SST (R184). -/
def execSst (cove : Nat) (s : State) : Host.Outcome State Fault Refusal :=
  s.updIf (cove < nCoves) fun b => b.issueIf cove (fun w => wOpcode w == 0x08) fun b w => b.doSst cove w
/-- SGET (R184). -/
def execSget (cove : Nat) (s : State) : Host.Outcome State Fault Refusal :=
  s.updIf (cove < nCoves) fun b => b.issueIf cove (fun w => wOpcode w == 0x09) fun b w => b.doSget cove w
/-- DMAW: held until every earlier DMAQ of a named tag has completed (R192). -/
def execDmaw (cove : Nat) (s : State) : Host.Outcome State Fault Refusal :=
  s.updIf (cove < nCoves) fun b => b.issueIf cove (fun w => wOpcode w == 0x61) fun b w => b.doDmaw cove w
/-- BAR (R194). -/
def execBar (cove : Nat) (s : State) : Host.Outcome State Fault Refusal :=
  s.updIf (cove < nCoves) fun b => b.issueIf cove (fun w => wOpcode w == 0x80) fun b w => b.doBar cove w
/-- WAIT (R194). -/
def execWait (cove : Nat) (s : State) : Host.Outcome State Fault Refusal :=
  s.updIf (cove < nCoves) fun b => b.issueIf cove (fun w => wOpcode w == 0x81) fun b w => b.doWait cove w
/-- TWAIT (R194). -/
def execTwait (cove : Nat) (s : State) : Host.Outcome State Fault Refusal :=
  s.updIf (cove < nCoves) fun b => b.issueIf cove (fun w => wOpcode w == 0x82) fun b w => b.doTwait cove w
/-- WLOAD: a slot is filled through the load queue; its checks at issue are those of R99 and R187. -/
def execWload (cove : Nat) (s : State) : Host.Outcome State Fault Refusal :=
  s.updIf (cove < nCoves) fun b => b.unitOp cove 0x10
/-- MACC: the passes of a parallel-mode slot (R103 to R106, R186). -/
def execMacc (cove : Nat) (s : State) : Host.Outcome State Fault Refusal :=
  s.updIf (cove < nCoves) fun b => b.unitOp cove 0x11
/-- RIPPLE: one pass over the four depths of a Ripple slot (R111, R186). -/
def execRipple (cove : Nat) (s : State) : Host.Outcome State Fault Refusal :=
  s.updIf (cove < nCoves) fun b => b.unitOp cove 0x12
/-- BINACC: one pass over the eight depths of a binary slot (R116, R186). -/
def execBinacc (cove : Nat) (s : State) : Host.Outcome State Fault Refusal :=
  s.updIf (cove < nCoves) fun b => b.unitOp cove 0x13
/-- PLANEX: an operand converted into a tile record (R110). -/
def execPlanex (cove : Nat) (s : State) : Host.Outcome State Fault Refusal :=
  s.updIf (cove < nCoves) fun b => b.unitOp cove 0x14
/-- ACLR (R130). -/
def execAclr (cove : Nat) (s : State) : Host.Outcome State Fault Refusal :=
  s.updIf (cove < nCoves) fun b => b.unitOp cove 0x20
/-- ACVT (R131). -/
def execAcvt (cove : Nat) (s : State) : Host.Outcome State Fault Refusal :=
  s.updIf (cove < nCoves) fun b => b.unitOp cove 0x21
/-- AREAD (R133 to R141). -/
def execAread (cove : Nat) (s : State) : Host.Outcome State Fault Refusal :=
  s.updIf (cove < nCoves) fun b => b.unitOp cove 0x22
/-- VEW (R189, R190). -/
def execVew (cove : Nat) (s : State) : Host.Outcome State Fault Refusal :=
  s.updIf (cove < nCoves) fun b => b.unitOp cove 0x30
/-- VFN (R189, R190). -/
def execVfn (cove : Nat) (s : State) : Host.Outcome State Fault Refusal :=
  s.updIf (cove < nCoves) fun b => b.unitOp cove 0x31
/-- VRED (R190). -/
def execVred (cove : Nat) (s : State) : Host.Outcome State Fault Refusal :=
  s.updIf (cove < nCoves) fun b => b.unitOp cove 0x32
/-- VCVT (R84, R190, R535). -/
def execVcvt (cove : Nat) (s : State) : Host.Outcome State Fault Refusal :=
  s.updIf (cove < nCoves) fun b => b.unitOp cove 0x33
/-- VOPT (R190). -/
def execVopt (cove : Nat) (s : State) : Host.Outcome State Fault Refusal :=
  s.updIf (cove < nCoves) fun b => b.unitOp cove 0x34
/-- TMOV (R191). -/
def execTmov (cove : Nat) (s : State) : Host.Outcome State Fault Refusal :=
  s.updIf (cove < nCoves) fun b => b.unitOp cove 0x40
/-- TSTR (R191). -/
def execTstr (cove : Nat) (s : State) : Host.Outcome State Fault Refusal :=
  s.updIf (cove < nCoves) fun b => b.unitOp cove 0x41
/-- TTRN (R191, R210). -/
def execTtrn (cove : Nat) (s : State) : Host.Outcome State Fault Refusal :=
  s.updIf (cove < nCoves) fun b => b.unitOp cove 0x42
/-- TPUT, charged to the target inbox at issue (R191, R217). -/
def execTput (cove : Nat) (s : State) : Host.Outcome State Fault Refusal :=
  s.updIf (cove < nCoves) fun b => b.unitOp cove 0x43
/-- TGET (R191). -/
def execTget (cove : Nat) (s : State) : Host.Outcome State Fault Refusal :=
  s.updIf (cove < nCoves) fun b => b.unitOp cove 0x44
/-- RPUT: the next slot of a ring filled against a credit (R221, R222). -/
def execRput (cove : Nat) (s : State) : Host.Outcome State Fault Refusal :=
  s.updIf (cove < nCoves) fun b => b.unitOp cove 0x50
/-- RGET: the head slot of a ring consumed (R221, R222). -/
def execRget (cove : Nat) (s : State) : Host.Outcome State Fault Refusal :=
  s.updIf (cove < nCoves) fun b => b.unitOp cove 0x51
/-- DMAQ: descriptors to the Cove's queue of the Bay's DMA engine (R192). -/
def execDmaq (cove : Nat) (s : State) : Host.Outcome State Fault Refusal :=
  s.updIf (cove < nCoves) fun b => b.unitOp cove 0x60
/-- CMM on the Bay's shared CMU (R192). -/
def execCmm (cove : Nat) (s : State) : Host.Outcome State Fault Refusal :=
  s.updIf (cove < nCoves) fun b => b.unitOp cove 0x62
/-- META_CHECK (R237). -/
def execMetaCheck (cove : Nat) (s : State) : Host.Outcome State Fault Refusal :=
  s.updIf (cove < nCoves) fun b => b.unitOp cove 0x70
/-- MERGE (R250). -/
def execMerge (cove : Nat) (s : State) : Host.Outcome State Fault Refusal :=
  s.updIf (cove < nCoves) fun b => b.unitOp cove 0x73
/-- SPMATCH with PHASE 0 (R255). -/
def execSpmatchLoad (cove : Nat) (s : State) : Host.Outcome State Fault Refusal :=
  s.updIf (cove < nCoves) fun b => b.issueIf cove (fun w => wOpcode w == 0x71 && !tbit w 68) fun b w => b.issueUnit cove w
/-- SPMATCH with PHASE 1 (R256). -/
def execSpmatchProbe (cove : Nat) (s : State) : Host.Outcome State Fault Refusal :=
  s.updIf (cove < nCoves) fun b => b.issueIf cove (fun w => wOpcode w == 0x71 && tbit w 68) fun b w => b.issueUnit cove w
/-- The KIND of the descriptor that a SCATTER at the program counter names. -/
def Blk.scatterKind (b : Blk) (c w : Nat) : Nat := (b.spDesc c (xaddr w (b.seq c).sregs 90 69)).kind
/-- SCATTER whose descriptor has KIND 2, FLUSH (R251). -/
def execScatterFlush (cove : Nat) (s : State) : Host.Outcome State Fault Refusal :=
  s.updIf (cove < nCoves) fun b =>
    b.issueIf cove (fun w => wOpcode w == 0x72 && b.scatterKind cove w == 2) fun b w => b.issueUnit cove w
/-- SCATTER whose descriptor has KIND 3, CLEAR (R244). -/
def execScatterClear (cove : Nat) (s : State) : Host.Outcome State Fault Refusal :=
  s.updIf (cove < nCoves) fun b =>
    b.issueIf cove (fun w => wOpcode w == 0x72 && b.scatterKind cove w == 3) fun b w => b.issueUnit cove w
/-- SCATTER whose descriptor has KIND 4, EXPAND (R241). -/
def execScatterExpand (cove : Nat) (s : State) : Host.Outcome State Fault Refusal :=
  s.updIf (cove < nCoves) fun b =>
    b.issueIf cove (fun w => wOpcode w == 0x72 && b.scatterKind cove w == 4) fun b w => b.issueUnit cove w
/-- SCATTER whose descriptor has KIND 5, PREDICT (R258). -/
def execPredict (cove : Nat) (s : State) : Host.Outcome State Fault Refusal :=
  s.updIf (cove < nCoves) fun b =>
    b.issueIf cove (fun w => wOpcode w == 0x72 && b.scatterKind cove w == 5) fun b w => b.issueUnit cove w
/-- SCATTER whose descriptor has KIND 6, TALLY (R260). -/
def execTally (cove : Nat) (s : State) : Host.Outcome State Fault Refusal :=
  s.updIf (cove < nCoves) fun b =>
    b.issueIf cove (fun w => wOpcode w == 0x72 && b.scatterKind cove w == 6) fun b w => b.issueUnit cove w
/-- SCATTER whose descriptor has KIND 1, ACCUM (R243), or a KIND the opcode does not accept, which its unit rejects (R230). -/
def execScatterAccum (cove : Nat) (s : State) : Host.Outcome State Fault Refusal :=
  s.updIf (cove < nCoves) fun b =>
    b.issueIf cove (fun w => wOpcode w == 0x72 && (b.scatterKind cove w < 2 || 6 < b.scatterKind cove w)) fun b w => b.issueUnit cove w
/-- The sequencer comes to issue at or beyond the loaded count (R178). -/
def execProgramRunoff (cove : Nat) (s : State) : Host.Outcome State Fault Refusal :=
  s.updIf (cove < nCoves) fun b => b.runoff cove
/-- A fill ends (R100). -/
def execWloadFillDone (cove slot : Nat) (s : State) : Host.Outcome State Fault Refusal :=
  s.updIf (cove < nCoves && slot < 2) fun b => b.fillDone cove slot
/-- A barrier's release (R194). -/
def execBarRelease (scope idx bid : Nat) (s : State) : Host.Outcome State Fault Refusal :=
  s.updIf (scope < 3 && idx < 256 && bid < 16) fun b => b.barRelease scope idx bid
/-- A queued unit instruction completes (R181, R182). -/
def execUnitInstrComplete (cove queue : Nat) (s : State) : Host.Outcome State Fault Refusal :=
  s.updIf (cove < nCoves && queue < 8) fun b => b.unitComplete cove queue
/-- A ring slot becomes FULL (R221). -/
def execRingSlotFull (owner ring : Nat) (s : State) : Host.Outcome State Fault Refusal :=
  s.updIf (owner < nCoves && ring < 64) fun b => b.slotFull owner ring
/-- An EMPTY mark reaches the producer (R221). -/
def execRingCreditReturn (owner ring : Nat) (s : State) : Host.Outcome State Fault Refusal :=
  s.updIf (owner < nCoves && ring < 64) fun b => b.creditReturn owner ring
/-- A waiting RPUT or RGET reaches its ring's timeout (R222). -/
def execRingWaitTimeout (cove : Nat) (s : State) : Host.Outcome State Fault Refusal :=
  s.updIf (cove < nCoves) fun b => b.ringTimeout cove
/-- The Tide clock reaches the value a TWAIT waits for (R194). -/
def execTwaitRelease (cove : Nat) (s : State) : Host.Outcome State Fault Refusal :=
  s.updIf (cove < nCoves) fun b => b.twaitRelease cove

end Sys2Proof.Machine
end

