-- ==== Sys2Proof/Machine/Dispatch.lean ====
section
/-! DEFINITION. One arm per command (one constructor of Instr): its meaning. -/
namespace Sys2Proof.Machine
open Sys2Proof

def exec (i : Instr) (s : State) : Host.Outcome State Fault Refusal :=
  match i with
  | .cmdNop m => Sys2Proof.Machine.execCmdNop m s
  | .cmdHello m => Sys2Proof.Machine.execCmdHello m s
  | .cmdFwLoad m => Sys2Proof.Machine.execCmdFwLoad m s
  | .fwVerifyDone => Sys2Proof.Machine.execFwVerifyDone s
  | .certSigned => Sys2Proof.Machine.execCertSigned s
  | .cmdCtxOpen m => Sys2Proof.Machine.execCmdCtxOpen m s
  | .cmdCtxClose m => Sys2Proof.Machine.execCmdCtxClose m s
  | .cmdCfgRead m => Sys2Proof.Machine.execCmdCfgRead m s
  | .cmdCfgWrite m => Sys2Proof.Machine.execCmdCfgWrite m s
  | .cmdProgLoad m => Sys2Proof.Machine.execCmdProgLoad m s
  | .cmdProgStart m => Sys2Proof.Machine.execCmdProgStart m s
  | .progStartInstant ctx seq => Sys2Proof.Machine.execProgStartInstant ctx seq s
  | .progStartComplete ctx seq => Sys2Proof.Machine.execProgStartComplete ctx seq s
  | .cmdProgStop m => Sys2Proof.Machine.execCmdProgStop m s
  | .cmdSpanOpen m => Sys2Proof.Machine.execCmdSpanOpen m s
  | .cmdSpanClose m => Sys2Proof.Machine.execCmdSpanClose m s
  | .spanCommitPoint part span => Sys2Proof.Machine.execSpanCommitPoint part span s
  | .spanStagingCopyDone part span => Sys2Proof.Machine.execSpanStagingCopyDone part span s
  | .cmdWatchSet m => Sys2Proof.Machine.execCmdWatchSet m s
  | .cmdMemWrite m => Sys2Proof.Machine.execCmdMemWrite m s
  | .cmdMemRead m => Sys2Proof.Machine.execCmdMemRead m s
  | .cmdDmaSubmit m => Sys2Proof.Machine.execCmdDmaSubmit m s
  | .cmdTableBuild m => Sys2Proof.Machine.execCmdTableBuild m s
  | .tableBuildDone ctx seq => Sys2Proof.Machine.execTableBuildDone ctx seq s
  | .cmdCacheInvalidate m => Sys2Proof.Machine.execCmdCacheInvalidate m s
  | .cmdReqSubmit m => Sys2Proof.Machine.execCmdReqSubmit m s
  | .cmdReqCancel m => Sys2Proof.Machine.execCmdReqCancel m s
  | .cmdSpecCommit m => Sys2Proof.Machine.execCmdSpecCommit m s
  | .cmdAccountSet m => Sys2Proof.Machine.execCmdAccountSet m s
  | .cmdPoolSet m => Sys2Proof.Machine.execCmdPoolSet m s
  | .planBuildDone part => Sys2Proof.Machine.execPlanBuildDone part s
  | .cmdChanOpen m => Sys2Proof.Machine.execCmdChanOpen m s
  | .cmdChanClose m => Sys2Proof.Machine.execCmdChanClose m s
  | .cmdSliceBarrier m => Sys2Proof.Machine.execCmdSliceBarrier m s
  | .cmdSliceJoin m => Sys2Proof.Machine.execCmdSliceJoin m s
  | .sliceLeave m => Sys2Proof.Machine.execSliceLeave m s
  | .cmdCablingPlan m => Sys2Proof.Machine.execCmdCablingPlan m s
  | .linkSetDisabled m => Sys2Proof.Machine.execLinkSetDisabled m s
  | .linkSetEnabled m => Sys2Proof.Machine.execLinkSetEnabled m s
  | .linkSetFenced m => Sys2Proof.Machine.execLinkSetFenced m s
  | .linkSetActive m => Sys2Proof.Machine.execLinkSetActive m s
  | .linkActiveAskTimeout link => Sys2Proof.Machine.execLinkActiveAskTimeout link s
  | .cmdRouteShadow m => Sys2Proof.Machine.execCmdRouteShadow m s
  | .cmdModePrepare m => Sys2Proof.Machine.execCmdModePrepare m s
  | .cmdWindowOpen m => Sys2Proof.Machine.execCmdWindowOpen m s
  | .cmdWindowClose m => Sys2Proof.Machine.execCmdWindowClose m s
  | .cmdPartCreate m => Sys2Proof.Machine.execCmdPartCreate m s
  | .cmdPartKey m => Sys2Proof.Machine.execCmdPartKey m s
  | .cmdPartKill m => Sys2Proof.Machine.execCmdPartKill m s
  | .killScrubDone part => Sys2Proof.Machine.execKillScrubDone part s
  | .backgroundZeroDone part => Sys2Proof.Machine.execBackgroundZeroDone part s
  | .cmdAttest m => Sys2Proof.Machine.execCmdAttest m s
  | .powerEnterSlack m => Sys2Proof.Machine.execPowerEnterSlack m s
  | .powerEnterNeap m => Sys2Proof.Machine.execPowerEnterNeap m s
  | .powerEnterDormant m => Sys2Proof.Machine.execPowerEnterDormant m s
  | .powerEntryDrained => Sys2Proof.Machine.execPowerEntryDrained s
  | .powerWake m => Sys2Proof.Machine.execPowerWake m s
  | .powerWakeDone => Sys2Proof.Machine.execPowerWakeDone s
  | .resetDevice m => Sys2Proof.Machine.execResetDevice m s
  | .resetDeviceDone => Sys2Proof.Machine.execResetDeviceDone s
  | .resetLighthouse m => Sys2Proof.Machine.execResetLighthouse m s
  | .resetPartition m => Sys2Proof.Machine.execResetPartition m s
  | .resetCove m => Sys2Proof.Machine.execResetCove m s
  | .resetLink m => Sys2Proof.Machine.execResetLink m s
  | .resetStack m => Sys2Proof.Machine.execResetStack m s
  | .cmdErrlogRead m => Sys2Proof.Machine.execCmdErrlogRead m s
  | .cmdCoveSpare m => Sys2Proof.Machine.execCmdCoveSpare m s
  | .cmdHbmRepair m => Sys2Proof.Machine.execCmdHbmRepair m s
  | .laneSpareLink m => Sys2Proof.Machine.execLaneSpareLink m s
  | .laneSpareStack m => Sys2Proof.Machine.execLaneSpareStack m s
  | .cmdLhSpare m => Sys2Proof.Machine.execCmdLhSpare m s
  | .cmdFwStage m => Sys2Proof.Machine.execCmdFwStage m s
  | .cmdFwActivate m => Sys2Proof.Machine.execCmdFwActivate m s
  | .fwActivateTimeout => Sys2Proof.Machine.execFwActivateTimeout s
  | .cmdPortFailover m => Sys2Proof.Machine.execCmdPortFailover m s
  | .beaconFrameRx port frame => Sys2Proof.Machine.execBeaconFrameRx port frame s
  | .bulkFrameRx port body => Sys2Proof.Machine.execBulkFrameRx port body s
  | .beaconResendTimeout port => Sys2Proof.Machine.execBeaconResendTimeout port s
  | .beaconLaneLoss port lane => Sys2Proof.Machine.execBeaconLaneLoss port lane s
  | .beaconPortDown port => Sys2Proof.Machine.execBeaconPortDown port s
  | .beaconPortRetry port trained => Sys2Proof.Machine.execBeaconPortRetry port trained s
  | .beaconPortTrained port => Sys2Proof.Machine.execBeaconPortTrained port s
  | .nop cove => Sys2Proof.Machine.execNop cove s
  | .halt cove => Sys2Proof.Machine.execHalt cove s
  | .br cove => Sys2Proof.Machine.execBr cove s
  | .loop cove => Sys2Proof.Machine.execLoop cove s
  | .sli cove => Sys2Proof.Machine.execSli cove s
  | .sop cove => Sys2Proof.Machine.execSop cove s
  | .scmp cove => Sys2Proof.Machine.execScmp cove s
  | .sld cove => Sys2Proof.Machine.execSld cove s
  | .sst cove => Sys2Proof.Machine.execSst cove s
  | .sget cove => Sys2Proof.Machine.execSget cove s
  | .programRunoff cove => Sys2Proof.Machine.execProgramRunoff cove s
  | .wload cove => Sys2Proof.Machine.execWload cove s
  | .wloadFillDone cove slot => Sys2Proof.Machine.execWloadFillDone cove slot s
  | .macc cove => Sys2Proof.Machine.execMacc cove s
  | .ripple cove => Sys2Proof.Machine.execRipple cove s
  | .binacc cove => Sys2Proof.Machine.execBinacc cove s
  | .planex cove => Sys2Proof.Machine.execPlanex cove s
  | .aclr cove => Sys2Proof.Machine.execAclr cove s
  | .acvt cove => Sys2Proof.Machine.execAcvt cove s
  | .aread cove => Sys2Proof.Machine.execAread cove s
  | .vew cove => Sys2Proof.Machine.execVew cove s
  | .vfn cove => Sys2Proof.Machine.execVfn cove s
  | .vred cove => Sys2Proof.Machine.execVred cove s
  | .vcvt cove => Sys2Proof.Machine.execVcvt cove s
  | .vopt cove => Sys2Proof.Machine.execVopt cove s
  | .tmov cove => Sys2Proof.Machine.execTmov cove s
  | .tstr cove => Sys2Proof.Machine.execTstr cove s
  | .ttrn cove => Sys2Proof.Machine.execTtrn cove s
  | .tput cove => Sys2Proof.Machine.execTput cove s
  | .tget cove => Sys2Proof.Machine.execTget cove s
  | .rput cove => Sys2Proof.Machine.execRput cove s
  | .rget cove => Sys2Proof.Machine.execRget cove s
  | .dmaq cove => Sys2Proof.Machine.execDmaq cove s
  | .dmaw cove => Sys2Proof.Machine.execDmaw cove s
  | .cmm cove => Sys2Proof.Machine.execCmm cove s
  | .metaCheck cove => Sys2Proof.Machine.execMetaCheck cove s
  | .spmatchLoad cove => Sys2Proof.Machine.execSpmatchLoad cove s
  | .spmatchProbe cove => Sys2Proof.Machine.execSpmatchProbe cove s
  | .scatterAccum cove => Sys2Proof.Machine.execScatterAccum cove s
  | .scatterFlush cove => Sys2Proof.Machine.execScatterFlush cove s
  | .scatterClear cove => Sys2Proof.Machine.execScatterClear cove s
  | .scatterExpand cove => Sys2Proof.Machine.execScatterExpand cove s
  | .predict cove => Sys2Proof.Machine.execPredict cove s
  | .tally cove => Sys2Proof.Machine.execTally cove s
  | .merge cove => Sys2Proof.Machine.execMerge cove s
  | .bar cove => Sys2Proof.Machine.execBar cove s
  | .barRelease scope idx bid => Sys2Proof.Machine.execBarRelease scope idx bid s
  | .wait cove => Sys2Proof.Machine.execWait cove s
  | .twait cove => Sys2Proof.Machine.execTwait cove s
  | .unitInstrComplete cove queue => Sys2Proof.Machine.execUnitInstrComplete cove queue s
  | .ringSlotFull owner ring => Sys2Proof.Machine.execRingSlotFull owner ring s
  | .ringCreditReturn owner ring => Sys2Proof.Machine.execRingCreditReturn owner ring s
  | .ringWaitTimeout cove => Sys2Proof.Machine.execRingWaitTimeout cove s
  | .grantWordWrite cove inbox value => Sys2Proof.Machine.execGrantWordWrite cove inbox value s
  | .grantUpdateArrive cove inbox => Sys2Proof.Machine.execGrantUpdateArrive cove inbox s
  | .tidepoolIngress acc => Sys2Proof.Machine.execTidepoolIngress acc s
  | .tpArbSet m => Sys2Proof.Machine.execTpArbSet m s
  | .tpCacheResize m => Sys2Proof.Machine.execTpCacheResize m s
  | .tpSlotmapWrite m => Sys2Proof.Machine.execTpSlotmapWrite m s
  | .tpInboxWrite m => Sys2Proof.Machine.execTpInboxWrite m s
  | .tpRingWrite m => Sys2Proof.Machine.execTpRingWrite m s
  | .srReseed m => Sys2Proof.Machine.execSrReseed m s
  | .srStateWrite m => Sys2Proof.Machine.execSrStateWrite m s
  | .arrCtlWrite m => Sys2Proof.Machine.execArrCtlWrite m s
  | .seqSregWrite m => Sys2Proof.Machine.execSeqSregWrite m s
  | .spillCfgWrite m => Sys2Proof.Machine.execSpillCfgWrite m s
  | .tableHoldWrite m => Sys2Proof.Machine.execTableHoldWrite m s
  | .hbmMapWrite m => Sys2Proof.Machine.execHbmMapWrite m s
  | .alertClear m => Sys2Proof.Machine.execAlertClear m s
  | .watchSampleClose part slot => Sys2Proof.Machine.execWatchSampleClose part slot s
  | .replayDrained part span => Sys2Proof.Machine.execReplayDrained part span s
  | .dmaCopy bay queue => Sys2Proof.Machine.execDmaCopy bay queue s
  | .dmaGather bay queue => Sys2Proof.Machine.execDmaGather bay queue s
  | .dmaCompress bay queue => Sys2Proof.Machine.execDmaCompress bay queue s
  | .dmaExpand bay queue => Sys2Proof.Machine.execDmaExpand bay queue s
  | .dmaBuild bay queue => Sys2Proof.Machine.execDmaBuild bay queue s
  | .dmaDescriptorComplete bay serial => Sys2Proof.Machine.execDmaDescriptorComplete bay serial s
  | .spillHalfCopy cove => Sys2Proof.Machine.execSpillHalfCopy cove s
  | .spillHalfCopyDone cove => Sys2Proof.Machine.execSpillHalfCopyDone cove s
  | .kvAppend bay queue => Sys2Proof.Machine.execKvAppend bay queue s
  | .kvGather bay queue => Sys2Proof.Machine.execKvGather bay queue s
  | .kvFold bay queue => Sys2Proof.Machine.execKvFold bay queue s
  | .kvCommit bay queue => Sys2Proof.Machine.execKvCommit bay queue s
  | .kvShare bay queue => Sys2Proof.Machine.execKvShare bay queue s
  | .exRoute bay queue => Sys2Proof.Machine.execExRoute bay queue s
  | .exPackForward bay queue => Sys2Proof.Machine.execExPackForward bay queue s
  | .exPackReturn bay queue => Sys2Proof.Machine.execExPackReturn bay queue s
  | .exCollate bay queue => Sys2Proof.Machine.execExCollate bay queue s
  | .exGroup bay queue => Sys2Proof.Machine.execExGroup bay queue s
  | .exCombine bay queue => Sys2Proof.Machine.execExCombine bay queue s
  | .hbmAccess acc => Sys2Proof.Machine.execHbmAccess acc s
  | .hbmParityError stack acc retries => Sys2Proof.Machine.execHbmParityError stack acc retries s
  | .hbmRefresh stack bank => Sys2Proof.Machine.execHbmRefresh stack bank s
  | .hbmRfmRequest stack bank => Sys2Proof.Machine.execHbmRfmRequest stack bank s
  | .hbmTempReadout stack temp => Sys2Proof.Machine.execHbmTempReadout stack temp s
  | .hbmStackTrained stack failed laneFails => Sys2Proof.Machine.execHbmStackTrained stack failed laneFails s
  | .headlandSelftestDone headland failed unmasked => Sys2Proof.Machine.execHeadlandSelftestDone headland failed unmasked s
  | .linkSignalDetect link => Sys2Proof.Machine.execLinkSignalDetect link s
  | .linkTrainingDone link => Sys2Proof.Machine.execLinkTrainingDone link s
  | .linkTrainingTimeout link => Sys2Proof.Machine.execLinkTrainingTimeout link s
  | .linkctlIdentityRx link serial devid port slice => Sys2Proof.Machine.execLinkctlIdentityRx link serial devid port slice s
  | .linkctlNakRx link fseq => Sys2Proof.Machine.execLinkctlNakRx link fseq s
  | .linkctlFenceRx link => Sys2Proof.Machine.execLinkctlFenceRx link s
  | .linkctlLaneMsgRx link kind arg => Sys2Proof.Machine.execLinkctlLaneMsgRx link kind arg s
  | .linkFlitRx link flit => Sys2Proof.Machine.execLinkFlitRx link flit s
  | .linkReplayTimeout link => Sys2Proof.Machine.execLinkReplayTimeout link s
  | .linkLaneSignalLoss link lane => Sys2Proof.Machine.execLinkLaneSignalLoss link lane s
  | .laneSerExceeded link lane => Sys2Proof.Machine.execLaneSerExceeded link lane s
  | .pktTransit p => Sys2Proof.Machine.execPktTransit p s
  | .pktWriteRx p => Sys2Proof.Machine.execPktWriteRx p s
  | .pktReadRx p => Sys2Proof.Machine.execPktReadRx p s
  | .pktReadDataRx p => Sys2Proof.Machine.execPktReadDataRx p s
  | .pktWriteAckRx p => Sys2Proof.Machine.execPktWriteAckRx p s
  | .pktNoticeRx p => Sys2Proof.Machine.execPktNoticeRx p s
  | .remoteRequestTimeout tag => Sys2Proof.Machine.execRemoteRequestTimeout tag s
  | .faceStateRx p => Sys2Proof.Machine.execFaceStateRx p s
  | .missingTimer device => Sys2Proof.Machine.execMissingTimer device s
  | .missingMarkRx link p => Sys2Proof.Machine.execMissingMarkRx link p s
  | .collPostWordWrite channel part value => Sys2Proof.Machine.execCollPostWordWrite channel part value s
  | .collDataRx p => Sys2Proof.Machine.execCollDataRx p s
  | .collAckRx p => Sys2Proof.Machine.execCollAckRx p s
  | .collCreditRx p => Sys2Proof.Machine.execCollCreditRx p s
  | .collSizeRx p => Sys2Proof.Machine.execCollSizeRx p s
  | .collGoRx p => Sys2Proof.Machine.execCollGoRx p s
  | .collFailRx p => Sys2Proof.Machine.execCollFailRx p s
  | .collArriveRx p => Sys2Proof.Machine.execCollArriveRx p s
  | .collResendTimeout channel => Sys2Proof.Machine.execCollResendTimeout channel s
  | .collOpTimeout channel => Sys2Proof.Machine.execCollOpTimeout channel s
  | .tideSyncSend => Sys2Proof.Machine.execTideSyncSend s
  | .tideSyncRx link p => Sys2Proof.Machine.execTideSyncRx link p s
  | .tideHoldover => Sys2Proof.Machine.execTideHoldover s
  | .ppsEdge => Sys2Proof.Machine.execPpsEdge s
  | .trefLoss => Sys2Proof.Machine.execTrefLoss s
  | .barrierArriveRx p => Sys2Proof.Machine.execBarrierArriveRx p s
  | .barrierReleaseRx link p => Sys2Proof.Machine.execBarrierReleaseRx link p s
  | .modePrepareRx link p => Sys2Proof.Machine.execModePrepareRx link p s
  | .modeAckRx p => Sys2Proof.Machine.execModeAckRx p s
  | .modeCommitRx link p => Sys2Proof.Machine.execModeCommitRx link p s
  | .commitAckRx p => Sys2Proof.Machine.execCommitAckRx p s
  | .modeCommitResend => Sys2Proof.Machine.execModeCommitResend s
  | .modeAbortRx link p => Sys2Proof.Machine.execModeAbortRx link p s
  | .modeAckTimeout => Sys2Proof.Machine.execModeAckTimeout s
  | .modeInDoubt => Sys2Proof.Machine.execModeInDoubt s
  | .modeEpochSwitch => Sys2Proof.Machine.execModeEpochSwitch s
  | .stepBoundary part => Sys2Proof.Machine.execStepBoundary part s
  | .stepStartInstant part => Sys2Proof.Machine.execStepStartInstant part s
  | .stepPoolsDone part => Sys2Proof.Machine.execStepPoolsDone part s
  | .errMergeWindowEnd => Sys2Proof.Machine.execErrMergeWindowEnd s
  | .lhWatchdogExpiry core => Sys2Proof.Machine.execLhWatchdogExpiry core s
  | .lhMemUe core => Sys2Proof.Machine.execLhMemUe core s
  | .pwrOkAssert => Sys2Proof.Machine.execPwrOkAssert s
  | .pwrOkDeassert => Sys2Proof.Machine.execPwrOkDeassert s
  | .mrstNAssert => Sys2Proof.Machine.execMrstNAssert s
  | .mrstNRelease => Sys2Proof.Machine.execMrstNRelease s
  | .mainInputWarn mv => Sys2Proof.Machine.execMainInputWarn mv s
  | .mainInputFault mv => Sys2Proof.Machine.execMainInputFault mv s
  | .mainInputCollapse mv => Sys2Proof.Machine.execMainInputCollapse mv s
  | .sysclkLoss => Sys2Proof.Machine.execSysclkLoss s
  | .lrefLoss ref => Sys2Proof.Machine.execLrefLoss ref s
  | .throttleStepDown die temp => Sys2Proof.Machine.execThrottleStepDown die temp s
  | .throttleStepUp die temp => Sys2Proof.Machine.execThrottleStepUp die temp s
  | .thermalTrip die temp => Sys2Proof.Machine.execThermalTrip die temp s
  | .xingReopen kind idx => Sys2Proof.Machine.execXingReopen kind idx s
  | .smbId => Sys2Proof.Machine.execSmbId s
  | .smbSerial => Sys2Proof.Machine.execSmbSerial s
  | .smbStatus => Sys2Proof.Machine.execSmbStatus s
  | .smbTj => Sys2Proof.Machine.execSmbTj s
  | .smbSupply => Sys2Proof.Machine.execSmbSupply s
  | .smbAlertRead => Sys2Proof.Machine.execSmbAlertRead s
  | .smbAlertClear data => Sys2Proof.Machine.execSmbAlertClear data s
  | .smbAlertMask data => Sys2Proof.Machine.execSmbAlertMask data s
  | .tapBypass => Sys2Proof.Machine.execTapBypass s
  | .tapIdcode => Sys2Proof.Machine.execTapIdcode s
  | .tapSamplePreload pins => Sys2Proof.Machine.execTapSamplePreload pins s
  | .tapExtest => Sys2Proof.Machine.execTapExtest s
  | .tapExtestPulse => Sys2Proof.Machine.execTapExtestPulse s
  | .tapExtestTrain => Sys2Proof.Machine.execTapExtestTrain s
  | .coveSpareCopyDone bay => Sys2Proof.Machine.execCoveSpareCopyDone bay s
  | .hbmRepairDone stack => Sys2Proof.Machine.execHbmRepairDone stack s
  | .stackLaneSpareDone stack => Sys2Proof.Machine.execStackLaneSpareDone stack s
  | .linkLaneSwitchDone link => Sys2Proof.Machine.execLinkLaneSwitchDone link s
  | .intakeResumed => Sys2Proof.Machine.execIntakeResumed s
  | .coveClearingEnd cove => Sys2Proof.Machine.execCoveClearingEnd cove s
  | .cacheChangeDone cove => Sys2Proof.Machine.execCacheChangeDone cove s
  | .twaitRelease cove => Sys2Proof.Machine.execTwaitRelease cove s
  | .linkctlActiveRequestRx link => Sys2Proof.Machine.execLinkctlActiveRequestRx link s
  | .mainInputInRange mv => Sys2Proof.Machine.execMainInputInRange mv s
  | .lrefReturn ref => Sys2Proof.Machine.execLrefReturn ref s
  | .trefReturn => Sys2Proof.Machine.execTrefReturn s
  | .ppsSeenExpiry => Sys2Proof.Machine.execPpsSeenExpiry s

end Sys2Proof.Machine
end

