-- ==== Sys2Proof/WellFormed.lean ====
section
/-! DEFINITION. Well-formed commands: every header field of a message or a packet fits its width (R37, R43, R44, R406), and
every unit that an event names exists on the device (R17, R21 to R24, R30). -/
namespace Sys2Proof

/-- The fields of a message fit their places in the header (R43, R44). -/
def Msg.wf (m : Msg) : Bool :=
  m.port < 2 && m.major < 256 && m.minor < 256 && m.opcode < 2 ^ 16 && m.ctx < 2 ^ 12 && m.flags < 2 ^ 20 && m.seq < 2 ^ 32 &&
  m.plen < 2 ^ 32 && m.cls < 256 && m.partition < 256 && m.reserved < 2 ^ 16 && m.deadline < 2 ^ 32 && m.param < 2 ^ 64
/-- The fields of a packet fit their places in the header, and its data is as long as LEN says, up to 4,096 bytes (R406). -/
def Pkt.wf (p : Pkt) : Bool :=
  p.dst < 2 ^ 16 && p.src < 2 ^ 16 && p.via < 2 ^ 16 && p.kind < 256 && p.phase < 2 && p.pseq < 2 ^ 32 && p.tag < 2 ^ 16 && p.hops < 256 &&
  p.part < 256 && p.addr < 2 ^ 64 && p.len < 2 ^ 32 && p.status < 2 ^ 16 && p.cause < 2 ^ 16 && p.data.length ≤ 4096
/-- An access at a Tidepool: 1 to 4,096 bytes within it (R226). -/
def Ingress.wf (a : Ingress) : Bool :=
  let n := match a.kind with | .read => a.len | _ => a.data.length
  a.cove < 4096 && 0 < n && n ≤ 4096 && a.addr + n ≤ 4194304
/-- An access at HBM of this device, made for a partition or for none (R347, R352). -/
def HbmAccess.wf (a : HbmAccess) : Bool :=
  let n := if a.write then a.data.length else a.len
  a.part < 256 && 0 < n && n ≤ 65536 && a.addr + n ≤ 0x012000000000

/-- An access at a Tidepool that lies within it (R198). -/
def Ingress.fits (a : Ingress) : Bool :=
  a.cove < 4096 && a.addr + (match a.kind with | .read => a.len | _ => a.data.length) ≤ 4194304
/-- An access that lies within HBM, for a partition number (R347). -/
def HbmAccess.fits (a : HbmAccess) : Bool :=
  a.part < 256 && a.addr + (if a.write then a.data.length else a.len) ≤ 0x012000000000
/-- A message of an opcode, on one of the two ports (R36, R57). -/
def Msg.isOp (m : Msg) (op : Nat) : Bool := m.port < 2 && m.opcode == op
/-- The block of configuration space (0 DV, 2 HL, 6 BY, 7 CV) and the offset in it that a parameter addresses (R62). -/
def Msg.cfgPlace (m : Msg) : Nat × Nat :=
  let o := m.param - 0x07F000000000
  if o < 0x10000 then (0, o)
  else if 0x100000 ≤ o && o < 0x200000 then (2, o % 0x10000)
  else if 0x1000000 ≤ o && o < 0x2000000 then (6, o % 0x10000)
  else if 0x4000000 ≤ o && o < 0x8000000 then (7, o % 0x4000)
  else (8, 0)
/-- A CMD_CFG_WRITE whose first word lies in [lo, hi) of a block (R62, R63). -/
def Msg.writesReg (m : Msg) (blk lo hi : Nat) : Bool :=
  m.isOp 0x0101 && 0x07F000000000 ≤ m.param && m.cfgPlace.1 == blk && lo ≤ m.cfgPlace.2 && m.cfgPlace.2 < hi

/-- The operands of a command name units that the device has, and a message or a packet is one of its row (R17, R21 to R24, R30, R57,
R406). A command for which this fails is no command of the device, and its meaning is the fault noSuchUnit. -/
def Instr.rowOk : Instr → Bool
  | .cmdNop m => m.isOp 0x0000
  | .cmdHello m => m.isOp 0x0001
  | .cmdFwLoad m => m.isOp 0x0002
  | .fwVerifyDone => true
  | .certSigned => true
  | .cmdCtxOpen m => m.isOp 0x0003
  | .cmdCtxClose m => m.isOp 0x0004
  | .cmdCfgRead m => m.isOp 0x0100
  | .cmdCfgWrite m => m.isOp 0x0101
  | .cmdProgLoad m => m.isOp 0x0200
  | .cmdProgStart m => m.isOp 0x0201
  | .progStartInstant ctx _ => ctx < 4096
  | .progStartComplete ctx _ => ctx < 4096
  | .cmdProgStop m => m.isOp 0x0202
  | .cmdSpanOpen m => m.isOp 0x0203
  | .cmdSpanClose m => m.isOp 0x0204
  | .spanCommitPoint part span => part < 16 && span < 16
  | .spanStagingCopyDone part span => part < 16 && span < 16
  | .cmdWatchSet m => m.isOp 0x0205
  | .cmdMemWrite m => m.isOp 0x0300
  | .cmdMemRead m => m.isOp 0x0301
  | .cmdDmaSubmit m => m.isOp 0x0302
  | .cmdTableBuild m => m.isOp 0x0303
  | .tableBuildDone ctx _ => ctx < 4096
  | .cmdCacheInvalidate m => m.isOp 0x0304
  | .cmdReqSubmit m => m.isOp 0x0400
  | .cmdReqCancel m => m.isOp 0x0401
  | .cmdSpecCommit m => m.isOp 0x0402
  | .cmdAccountSet m => m.isOp 0x0403
  | .cmdPoolSet m => m.isOp 0x0404
  | .planBuildDone part => part < 16
  | .cmdChanOpen m => m.isOp 0x0500
  | .cmdChanClose m => m.isOp 0x0501
  | .cmdSliceBarrier m => m.isOp 0x0502
  | .cmdSliceJoin m => m.isOp 0x0600 && !Machine.tbit (Machine.leAt m.payload 2 1) 2
  | .sliceLeave m => m.isOp 0x0600 && Machine.tbit (Machine.leAt m.payload 2 1) 2
  | .cmdCablingPlan m => m.isOp 0x0601
  | .linkSetDisabled m => m.isOp 0x0602 && Machine.fld m.param 10 8 == 0
  | .linkSetEnabled m => m.isOp 0x0602 && Machine.fld m.param 10 8 == 1
  | .linkSetFenced m => m.isOp 0x0602 && Machine.fld m.param 10 8 == 2
  | .linkSetActive m => m.isOp 0x0602 && Machine.fld m.param 10 8 == 3
  | .linkActiveAskTimeout link => link < 24
  | .cmdRouteShadow m => m.isOp 0x0603
  | .cmdModePrepare m => m.isOp 0x0604
  | .cmdWindowOpen m => m.isOp 0x0605
  | .cmdWindowClose m => m.isOp 0x0606
  | .cmdPartCreate m => m.isOp 0x0700
  | .cmdPartKey m => m.isOp 0x0701
  | .cmdPartKill m => m.isOp 0x0702
  | .killScrubDone part => part < 16
  | .backgroundZeroDone part => part < 16
  | .cmdAttest m => m.isOp 0x0703
  | .powerEnterSlack m => m.isOp 0x0800 && Machine.fld m.param 1 0 == 1
  | .powerEnterNeap m => m.isOp 0x0800 && Machine.fld m.param 1 0 == 2
  | .powerEnterDormant m => m.isOp 0x0800 && Machine.fld m.param 1 0 == 3
  | .powerEntryDrained => true
  | .powerWake m => m.isOp 0x0800 && Machine.fld m.param 1 0 == 0
  | .powerWakeDone => true
  | .resetDevice m => m.isOp 0x0801 && Machine.fld m.param 3 0 == 1
  | .resetDeviceDone => true
  | .resetLighthouse m => m.isOp 0x0801 && Machine.fld m.param 3 0 == 2
  | .resetPartition m => m.isOp 0x0801 && Machine.fld m.param 3 0 == 3
  | .resetCove m => m.isOp 0x0801 && Machine.fld m.param 3 0 == 4
  | .resetLink m => m.isOp 0x0801 && Machine.fld m.param 3 0 == 5
  | .resetStack m => m.isOp 0x0801 && Machine.fld m.param 3 0 == 6
  | .cmdErrlogRead m => m.isOp 0x0900
  | .cmdCoveSpare m => m.isOp 0x0901
  | .cmdHbmRepair m => m.isOp 0x0902
  | .laneSpareLink m => m.isOp 0x0903 && Machine.tbit m.param 16
  | .laneSpareStack m => m.isOp 0x0903 && !Machine.tbit m.param 16
  | .cmdLhSpare m => m.isOp 0x0904
  | .cmdFwStage m => m.isOp 0x0905
  | .cmdFwActivate m => m.isOp 0x0906
  | .fwActivateTimeout => true
  | .cmdPortFailover m => m.isOp 0x0907
  | .beaconFrameRx port _ => port < 2
  | .bulkFrameRx port _ => port < 2
  | .beaconResendTimeout port => port < 2
  | .beaconLaneLoss port lane => port < 2 && lane < 4
  | .beaconPortDown port => port < 2
  | .beaconPortRetry port _ => port < 2
  | .beaconPortTrained port => port < 2
  | .nop cove => cove < 4096
  | .halt cove => cove < 4096
  | .br cove => cove < 4096
  | .loop cove => cove < 4096
  | .sli cove => cove < 4096
  | .sop cove => cove < 4096
  | .scmp cove => cove < 4096
  | .sld cove => cove < 4096
  | .sst cove => cove < 4096
  | .sget cove => cove < 4096
  | .programRunoff cove => cove < 4096
  | .wload cove => cove < 4096
  | .wloadFillDone cove slot => cove < 4096 && slot < 2
  | .macc cove => cove < 4096
  | .ripple cove => cove < 4096
  | .binacc cove => cove < 4096
  | .planex cove => cove < 4096
  | .aclr cove => cove < 4096
  | .acvt cove => cove < 4096
  | .aread cove => cove < 4096
  | .vew cove => cove < 4096
  | .vfn cove => cove < 4096
  | .vred cove => cove < 4096
  | .vcvt cove => cove < 4096
  | .vopt cove => cove < 4096
  | .tmov cove => cove < 4096
  | .tstr cove => cove < 4096
  | .ttrn cove => cove < 4096
  | .tput cove => cove < 4096
  | .tget cove => cove < 4096
  | .rput cove => cove < 4096
  | .rget cove => cove < 4096
  | .dmaq cove => cove < 4096
  | .dmaw cove => cove < 4096
  | .cmm cove => cove < 4096
  | .metaCheck cove => cove < 4096
  | .spmatchLoad cove => cove < 4096
  | .spmatchProbe cove => cove < 4096
  | .scatterAccum cove => cove < 4096
  | .scatterFlush cove => cove < 4096
  | .scatterClear cove => cove < 4096
  | .scatterExpand cove => cove < 4096
  | .predict cove => cove < 4096
  | .tally cove => cove < 4096
  | .merge cove => cove < 4096
  | .bar cove => cove < 4096
  | .barRelease scope idx bid => scope < 3 && idx < 256 && bid < 16
  | .wait cove => cove < 4096
  | .twait cove => cove < 4096
  | .unitInstrComplete cove queue => cove < 4096 && queue < 8
  | .ringSlotFull owner ring => owner < 4096 && ring < 64
  | .ringCreditReturn owner ring => owner < 4096 && ring < 64
  | .ringWaitTimeout cove => cove < 4096
  | .grantWordWrite cove inbox _ => cove < 4096 && inbox < 16
  | .grantUpdateArrive cove inbox => cove < 4096 && inbox < 16
  | .tidepoolIngress acc => acc.fits
  | .tpArbSet m => m.writesReg 7 0x3800 0x3808
  | .tpCacheResize m => m.writesReg 7 0x3800 0x3808
  | .tpSlotmapWrite m => m.writesReg 7 0x3808 0x3810
  | .tpInboxWrite m => m.writesReg 7 0x3900 0x3A00
  | .tpRingWrite m => m.writesReg 7 0x3A00 0x3E00
  | .srReseed m => m.writesReg 7 0x3000 0x3010
  | .srStateWrite m => m.writesReg 7 0x3100 0x3200
  | .arrCtlWrite m => m.writesReg 7 0x1000 0x1008
  | .seqSregWrite m => m.writesReg 7 0x100 0x200
  | .spillCfgWrite m => m.writesReg 6 0x100 0x300
  | .tableHoldWrite m => m.writesReg 2 0x1000 0x1200
  | .hbmMapWrite m => m.writesReg 0 0x400 0x408
  | .alertClear m => m.writesReg 0 0xF10 0xF18
  | .watchSampleClose part slot => part < 16 && slot < 256
  | .replayDrained part span => part < 16 && span < 16
  | .dmaCopy bay queue => bay < 256 && queue < 17
  | .dmaGather bay queue => bay < 256 && queue < 17
  | .dmaCompress bay queue => bay < 256 && queue < 17
  | .dmaExpand bay queue => bay < 256 && queue < 17
  | .dmaBuild bay queue => bay < 256 && queue < 17
  | .dmaDescriptorComplete bay _ => bay < 256
  | .spillHalfCopy cove => cove < 4096
  | .spillHalfCopyDone cove => cove < 4096
  | .kvAppend bay queue => bay < 256 && queue < 17
  | .kvGather bay queue => bay < 256 && queue < 17
  | .kvFold bay queue => bay < 256 && queue < 17
  | .kvCommit bay queue => bay < 256 && queue < 17
  | .kvShare bay queue => bay < 256 && queue < 17
  | .exRoute bay queue => bay < 256 && queue < 17
  | .exPackForward bay queue => bay < 256 && queue < 17
  | .exPackReturn bay queue => bay < 256 && queue < 17
  | .exCollate bay queue => bay < 256 && queue < 17
  | .exGroup bay queue => bay < 256 && queue < 17
  | .exCombine bay queue => bay < 256 && queue < 17
  | .hbmAccess acc => acc.fits
  | .hbmParityError stack acc retries => stack < 16 && acc.fits && retries ≤ 4
  | .hbmRefresh stack bank => stack < 16 && bank < 1024
  | .hbmRfmRequest stack bank => stack < 16 && bank < 1024
  | .hbmTempReadout stack _ => stack < 16
  | .hbmStackTrained stack _ _ => stack < 16
  | .headlandSelftestDone headland _ _ => headland < 16
  | .linkSignalDetect link => link < 24
  | .linkTrainingDone link => link < 24
  | .linkTrainingTimeout link => link < 24
  | .linkctlIdentityRx link _ _ _ _ => link < 24
  | .linkctlNakRx link _ => link < 24
  | .linkctlFenceRx link => link < 24
  | .linkctlLaneMsgRx link _ arg => link < 24 && arg < 9
  | .linkFlitRx link _ => link < 24
  | .linkReplayTimeout link => link < 24
  | .linkLaneSignalLoss link lane => link < 24 && lane < 9
  | .laneSerExceeded link lane => link < 24 && lane < 9
  | .pktTransit _ => true
  | .pktWriteRx p => p.kind == 1
  | .pktReadRx p => p.kind == 2
  | .pktReadDataRx p => p.kind == 3
  | .pktWriteAckRx p => p.kind == 4
  | .pktNoticeRx p => p.kind == 5
  | .remoteRequestTimeout tag => tag < 65536
  | .faceStateRx p => p.kind == 0x21
  | .missingTimer device => device < 16384
  | .missingMarkRx link p => link < 24 && p.kind == 0x22
  | .collPostWordWrite channel _ _ => channel < 128
  | .collDataRx p => p.kind == 0x10
  | .collAckRx p => p.kind == 0x11
  | .collCreditRx p => p.kind == 0x12
  | .collSizeRx p => p.kind == 0x13
  | .collGoRx p => p.kind == 0x14
  | .collFailRx p => p.kind == 0x15
  | .collArriveRx p => p.kind == 0x16
  | .collResendTimeout channel => channel < 128
  | .collOpTimeout channel => channel < 128
  | .tideSyncSend => true
  | .tideSyncRx link p => link < 24 && p.kind == 0x20
  | .tideHoldover => true
  | .ppsEdge => true
  | .trefLoss => true
  | .barrierArriveRx p => p.kind == 0x23
  | .barrierReleaseRx link p => link < 24 && p.kind == 0x24
  | .modePrepareRx link p => link < 24 && p.kind == 0x25
  | .modeAckRx p => p.kind == 0x26
  | .modeCommitRx link p => link < 24 && p.kind == 0x27
  | .commitAckRx p => p.kind == 0x29
  | .modeCommitResend => true
  | .modeAbortRx link p => link < 24 && p.kind == 0x28
  | .modeAckTimeout => true
  | .modeInDoubt => true
  | .modeEpochSwitch => true
  | .stepBoundary part => part < 16
  | .stepStartInstant part => part < 16
  | .stepPoolsDone part => part < 16
  | .errMergeWindowEnd => true
  | .lhWatchdogExpiry core => core < 10
  | .lhMemUe core => core < 10
  | .pwrOkAssert => true
  | .pwrOkDeassert => true
  | .mrstNAssert => true
  | .mrstNRelease => true
  | .mainInputWarn _ => true
  | .mainInputFault _ => true
  | .mainInputCollapse _ => true
  | .sysclkLoss => true
  | .lrefLoss ref => ref < 2
  | .throttleStepDown die _ => die < 4
  | .throttleStepUp die _ => die < 4
  | .thermalTrip die _ => die < 4
  | .xingReopen kind idx => kind < 4 && idx < 4096
  | .smbId => true
  | .smbSerial => true
  | .smbStatus => true
  | .smbTj => true
  | .smbSupply => true
  | .smbAlertRead => true
  | .smbAlertClear _ => true
  | .smbAlertMask _ => true
  | .tapBypass => true
  | .tapIdcode => true
  | .tapSamplePreload _ => true
  | .tapExtest => true
  | .tapExtestPulse => true
  | .tapExtestTrain => true
  | .coveSpareCopyDone bay => bay < 256
  | .hbmRepairDone stack => stack < 16
  | .stackLaneSpareDone stack => stack < 16
  | .linkLaneSwitchDone link => link < 24
  | .intakeResumed => true
  | .coveClearingEnd cove => cove < 4096
  | .cacheChangeDone cove => cove < 4096
  | .twaitRelease cove => cove < 4096
  | .linkctlActiveRequestRx link => link < 24
  | .mainInputInRange _ => true
  | .lrefReturn ref => ref < 2
  | .trefReturn => true
  | .ppsSeenExpiry => true
/-- The fields that an operand packs fit their places. -/
def Instr.fieldsFit : Instr → Bool
  | .cmdNop m => m.wf
  | .cmdHello m => m.wf
  | .cmdFwLoad m => m.wf
  | .fwVerifyDone => true
  | .certSigned => true
  | .cmdCtxOpen m => m.wf
  | .cmdCtxClose m => m.wf
  | .cmdCfgRead m => m.wf
  | .cmdCfgWrite m => m.wf
  | .cmdProgLoad m => m.wf
  | .cmdProgStart m => m.wf
  | .progStartInstant _ _ => true
  | .progStartComplete _ _ => true
  | .cmdProgStop m => m.wf
  | .cmdSpanOpen m => m.wf
  | .cmdSpanClose m => m.wf
  | .spanCommitPoint _ _ => true
  | .spanStagingCopyDone _ _ => true
  | .cmdWatchSet m => m.wf
  | .cmdMemWrite m => m.wf
  | .cmdMemRead m => m.wf
  | .cmdDmaSubmit m => m.wf
  | .cmdTableBuild m => m.wf
  | .tableBuildDone _ _ => true
  | .cmdCacheInvalidate m => m.wf
  | .cmdReqSubmit m => m.wf
  | .cmdReqCancel m => m.wf
  | .cmdSpecCommit m => m.wf
  | .cmdAccountSet m => m.wf
  | .cmdPoolSet m => m.wf
  | .planBuildDone _ => true
  | .cmdChanOpen m => m.wf
  | .cmdChanClose m => m.wf
  | .cmdSliceBarrier m => m.wf
  | .cmdSliceJoin m => m.wf
  | .sliceLeave m => m.wf
  | .cmdCablingPlan m => m.wf
  | .linkSetDisabled m => m.wf
  | .linkSetEnabled m => m.wf
  | .linkSetFenced m => m.wf
  | .linkSetActive m => m.wf
  | .linkActiveAskTimeout _ => true
  | .cmdRouteShadow m => m.wf
  | .cmdModePrepare m => m.wf
  | .cmdWindowOpen m => m.wf
  | .cmdWindowClose m => m.wf
  | .cmdPartCreate m => m.wf
  | .cmdPartKey m => m.wf
  | .cmdPartKill m => m.wf
  | .killScrubDone _ => true
  | .backgroundZeroDone _ => true
  | .cmdAttest m => m.wf
  | .powerEnterSlack m => m.wf
  | .powerEnterNeap m => m.wf
  | .powerEnterDormant m => m.wf
  | .powerEntryDrained => true
  | .powerWake m => m.wf
  | .powerWakeDone => true
  | .resetDevice m => m.wf
  | .resetDeviceDone => true
  | .resetLighthouse m => m.wf
  | .resetPartition m => m.wf
  | .resetCove m => m.wf
  | .resetLink m => m.wf
  | .resetStack m => m.wf
  | .cmdErrlogRead m => m.wf
  | .cmdCoveSpare m => m.wf
  | .cmdHbmRepair m => m.wf
  | .laneSpareLink m => m.wf
  | .laneSpareStack m => m.wf
  | .cmdLhSpare m => m.wf
  | .cmdFwStage m => m.wf
  | .cmdFwActivate m => m.wf
  | .fwActivateTimeout => true
  | .cmdPortFailover m => m.wf
  | .beaconFrameRx _ _ => true
  | .bulkFrameRx _ _ => true
  | .beaconResendTimeout _ => true
  | .beaconLaneLoss _ _ => true
  | .beaconPortDown _ => true
  | .beaconPortRetry _ _ => true
  | .beaconPortTrained _ => true
  | .nop _ => true
  | .halt _ => true
  | .br _ => true
  | .loop _ => true
  | .sli _ => true
  | .sop _ => true
  | .scmp _ => true
  | .sld _ => true
  | .sst _ => true
  | .sget _ => true
  | .programRunoff _ => true
  | .wload _ => true
  | .wloadFillDone _ _ => true
  | .macc _ => true
  | .ripple _ => true
  | .binacc _ => true
  | .planex _ => true
  | .aclr _ => true
  | .acvt _ => true
  | .aread _ => true
  | .vew _ => true
  | .vfn _ => true
  | .vred _ => true
  | .vcvt _ => true
  | .vopt _ => true
  | .tmov _ => true
  | .tstr _ => true
  | .ttrn _ => true
  | .tput _ => true
  | .tget _ => true
  | .rput _ => true
  | .rget _ => true
  | .dmaq _ => true
  | .dmaw _ => true
  | .cmm _ => true
  | .metaCheck _ => true
  | .spmatchLoad _ => true
  | .spmatchProbe _ => true
  | .scatterAccum _ => true
  | .scatterFlush _ => true
  | .scatterClear _ => true
  | .scatterExpand _ => true
  | .predict _ => true
  | .tally _ => true
  | .merge _ => true
  | .bar _ => true
  | .barRelease _ _ _ => true
  | .wait _ => true
  | .twait _ => true
  | .unitInstrComplete _ _ => true
  | .ringSlotFull _ _ => true
  | .ringCreditReturn _ _ => true
  | .ringWaitTimeout _ => true
  | .grantWordWrite _ _ _ => true
  | .grantUpdateArrive _ _ => true
  | .tidepoolIngress acc => acc.wf
  | .tpArbSet m => m.wf
  | .tpCacheResize m => m.wf
  | .tpSlotmapWrite m => m.wf
  | .tpInboxWrite m => m.wf
  | .tpRingWrite m => m.wf
  | .srReseed m => m.wf
  | .srStateWrite m => m.wf
  | .arrCtlWrite m => m.wf
  | .seqSregWrite m => m.wf
  | .spillCfgWrite m => m.wf
  | .tableHoldWrite m => m.wf
  | .hbmMapWrite m => m.wf
  | .alertClear m => m.wf
  | .watchSampleClose _ _ => true
  | .replayDrained _ _ => true
  | .dmaCopy _ _ => true
  | .dmaGather _ _ => true
  | .dmaCompress _ _ => true
  | .dmaExpand _ _ => true
  | .dmaBuild _ _ => true
  | .dmaDescriptorComplete _ _ => true
  | .spillHalfCopy _ => true
  | .spillHalfCopyDone _ => true
  | .kvAppend _ _ => true
  | .kvGather _ _ => true
  | .kvFold _ _ => true
  | .kvCommit _ _ => true
  | .kvShare _ _ => true
  | .exRoute _ _ => true
  | .exPackForward _ _ => true
  | .exPackReturn _ _ => true
  | .exCollate _ _ => true
  | .exGroup _ _ => true
  | .exCombine _ _ => true
  | .hbmAccess acc => acc.wf
  | .hbmParityError _ acc _ => acc.wf
  | .hbmRefresh _ _ => true
  | .hbmRfmRequest _ _ => true
  | .hbmTempReadout _ _ => true
  | .hbmStackTrained _ _ _ => true
  | .headlandSelftestDone _ _ _ => true
  | .linkSignalDetect _ => true
  | .linkTrainingDone _ => true
  | .linkTrainingTimeout _ => true
  | .linkctlIdentityRx _ _ _ _ _ => true
  | .linkctlNakRx _ _ => true
  | .linkctlFenceRx _ => true
  | .linkctlLaneMsgRx _ _ _ => true
  | .linkFlitRx _ _ => true
  | .linkReplayTimeout _ => true
  | .linkLaneSignalLoss _ _ => true
  | .laneSerExceeded _ _ => true
  | .pktTransit p => p.wf
  | .pktWriteRx p => p.wf
  | .pktReadRx p => p.wf
  | .pktReadDataRx p => p.wf
  | .pktWriteAckRx p => p.wf
  | .pktNoticeRx p => p.wf
  | .remoteRequestTimeout _ => true
  | .faceStateRx p => p.wf
  | .missingTimer _ => true
  | .missingMarkRx _ p => p.wf
  | .collPostWordWrite _ _ _ => true
  | .collDataRx p => p.wf
  | .collAckRx p => p.wf
  | .collCreditRx p => p.wf
  | .collSizeRx p => p.wf
  | .collGoRx p => p.wf
  | .collFailRx p => p.wf
  | .collArriveRx p => p.wf
  | .collResendTimeout _ => true
  | .collOpTimeout _ => true
  | .tideSyncSend => true
  | .tideSyncRx _ p => p.wf
  | .tideHoldover => true
  | .ppsEdge => true
  | .trefLoss => true
  | .barrierArriveRx p => p.wf
  | .barrierReleaseRx _ p => p.wf
  | .modePrepareRx _ p => p.wf
  | .modeAckRx p => p.wf
  | .modeCommitRx _ p => p.wf
  | .commitAckRx p => p.wf
  | .modeCommitResend => true
  | .modeAbortRx _ p => p.wf
  | .modeAckTimeout => true
  | .modeInDoubt => true
  | .modeEpochSwitch => true
  | .stepBoundary _ => true
  | .stepStartInstant _ => true
  | .stepPoolsDone _ => true
  | .errMergeWindowEnd => true
  | .lhWatchdogExpiry _ => true
  | .lhMemUe _ => true
  | .pwrOkAssert => true
  | .pwrOkDeassert => true
  | .mrstNAssert => true
  | .mrstNRelease => true
  | .mainInputWarn _ => true
  | .mainInputFault _ => true
  | .mainInputCollapse _ => true
  | .sysclkLoss => true
  | .lrefLoss _ => true
  | .throttleStepDown _ _ => true
  | .throttleStepUp _ _ => true
  | .thermalTrip _ _ => true
  | .xingReopen _ _ => true
  | .smbId => true
  | .smbSerial => true
  | .smbStatus => true
  | .smbTj => true
  | .smbSupply => true
  | .smbAlertRead => true
  | .smbAlertClear _ => true
  | .smbAlertMask _ => true
  | .tapBypass => true
  | .tapIdcode => true
  | .tapSamplePreload _ => true
  | .tapExtest => true
  | .tapExtestPulse => true
  | .tapExtestTrain => true
  | .coveSpareCopyDone _ => true
  | .hbmRepairDone _ => true
  | .stackLaneSpareDone _ => true
  | .linkLaneSwitchDone _ => true
  | .intakeResumed => true
  | .coveClearingEnd _ => true
  | .cacheChangeDone _ => true
  | .twaitRelease _ => true
  | .linkctlActiveRequestRx _ => true
  | .mainInputInRange _ => true
  | .lrefReturn _ => true
  | .trefReturn => true
  | .ppsSeenExpiry => true
/-- A well-formed command. -/
def Instr.wf (i : Instr) : Bool := i.rowOk && i.fieldsFit

end Sys2Proof
end

