-- ==== Sys2Proof/Safety.lean ====
section
/-! DEFINITION. What counts as a safe run, and the conditions on a state in whose terms claims are made. -/
namespace Sys2Proof.Machine

/-! ### The canonical form -/

/-- The memory of a state is in its canonical form. -/
def State.memOk (s : State) : Prop := Memory.wf s.blk.mem
/-- Every sparse map of the machine whose words or units can be set back to their defaults is in its canonical form, so that equal
contents are equal data. -/
abbrev Blk.canon (b : Blk) : Prop :=
  Memory.wf b.mem ∧ swf cfgReset b.cfg = true ∧ swf (fun _ => ({} : Cove)) b.coves = true ∧ swf (fun _ => ({} : Ctx)) b.host.ctxs = true ∧
  swf (fun _ => ({} : Part)) b.parts = true ∧ swf (fun _ => ({} : Link)) b.links = true ∧
  swf (fun _ => ({} : Watch)) b.watches = true ∧
  (b.coves.all fun q => swf (laneSeed q.1) q.2.gens && swf (fun _ => 0) q.2.seq.sregs) = true

/-! ### A device with nothing going on, and a command it takes -/

/-- Nothing goes on by itself: no descriptor runs, no channel is open, no notice and no missing device waits. -/
def Blk.still (b : Blk) : Bool :=
  (b.bays.all fun q => q.2.descs.all fun d => !d.running) && b.chans.isEmpty && b.slice.notices.isEmpty && b.slice.missing.isEmpty
/-- The uncompleted command that a message becomes (R48). -/
def Blk.asCmd (b : Blk) (m : Msg) : Cmd := { m := m, tide := b.tide, got := m.bulk }
/-- A message of minor version 0 and class NONE without a deadline, in which no check of R50 finds a fault. -/
def msgPlain (m : Msg) : Bool :=
  (versionCheck m).isNone && m.minor == 0 && m.cls == 0 && (m.partition < 16 || m.partition == 0xFF) && !tbit m.flags 1
/-- The device takes a message at once: its port carries frames, intake is open, its context is open and expects its sequence, no check
of R46 and R51 to R56 refuses it, its data has arrived, no other command is uncompleted, no span logs, and nothing else goes on. -/
def Blk.takes (b : Blk) (m : Msg) : Bool :=
  msgPlain m && m.port < 2 && (b.port m.port).up && b.dev.powered && !b.host.intakeStopped &&
  (b.ctx m.ctx).st == 1 && (b.ctx m.ctx).homeSet && (m.opcode == 1 || !(b.ctx m.ctx).series || m.seq == (b.ctx m.ctx).expect) &&
  (match opInfo m.opcode with | some o => (b.headerCheck m o).isNone | none => false) &&
  (b.startCheck (b.asCmd m)).isNone && (b.asCmd m).dataIn &&
  b.still && b.host.cmds.isEmpty && !b.logged m.ctx m.seq && (!logOps.contains m.opcode || b.spans.isEmpty)
/-- The machine with the message entered: its context expects the next sequence (R42), and the command is uncompleted. -/
def Blk.entered (b : Blk) (m : Msg) : Blk :=
  let b1 := if m.opcode = 1 then b else b.setCtx m.ctx { b.ctx m.ctx with series := true, expect := (m.seq + 1) % 2 ^ 32 }
  { b1 with host := { b1.host with cmds := [b.asCmd m] } }
/-- The last of the replies that a context keeps (R42) is the final reply of a message, with a status, detail and payload. -/
abbrev Blk.answered (b : Blk) (m : Msg) (st det : Nat) (payload : List Byte) : Prop :=
  ((b.ctx m.ctx).replies.getLast? = some (m.seq, msgBytes m.opcode m.ctx true false m.seq st det b.tide payload))
/-- The command that a message became has started and is uncompleted (R48). -/
abbrev Blk.awaits (b : Blk) (m : Msg) : Prop := (b.host.cmds.any fun c => c.m == m && c.started) = true
/-- Nothing goes on by itself, and no command is uncompleted. -/
def Blk.rests (b : Blk) : Bool := b.still && b.host.cmds.isEmpty
/-- Nothing goes on by itself but one started command, which has an open context, no deadline, and stands in no log of a span. -/
def Blk.onlyWaits (b : Blk) (c : Cmd) : Bool :=
  b.still && decide (b.host.cmds = [c]) && c.started && !c.flag 13 && (b.ctx c.ctx).st == 1 && b.spans.isEmpty && c.m.opcode != 1
/-- A frame leaves on a port: it is the last of the port's replay buffer, under the port's next sequence (R37, R38). -/
abbrev Blk.leftOn (b t : Blk) (p : Nat) (o : Out) : Prop := (t.port p).txBuf = (b.port p).txBuf ++ [((b.port p).txNext, o)]
/-- The frame of a message's final reply (R47). -/
def replyFrame (b : Blk) (m : Msg) (st det : Nat) (payload : List Byte) : Out :=
  { kind := 1, ctx := m.ctx, event := false, body := msgBytes m.opcode m.ctx true false m.seq st det b.tide payload }
/-- The frame of an event to a context (R47, R49). -/
def eventFrame (op ctx seq tide : Nat) (payload : List Byte) : Out :=
  { kind := 1, ctx := ctx, event := true, body := msgBytes op ctx true true seq 0 0 tide payload }
/-- The home port of a context can take a frame at once: it is up, has room for it, and nothing waits before it (R38, R41). -/
def Blk.canSend (b : Blk) (o : Out) : Bool :=
  (b.port (b.homeOf o.ctx)).up && (b.ctx o.ctx).held.isEmpty && (b.port (b.homeOf o.ctx)).room o

/-- A CMD_CFG_WRITE of context 0 that the device takes at once, of the one word w at an offset of configuration space that is mapped, in no
partition awaiting scrub and behind no closed crossing, and with no reserved bit set (R62, R63, R476, R487). -/
def Blk.writesOne (b : Blk) (m : Msg) (off w : Nat) : Bool :=
  b.takes m && m.ctx == 0 && m.opcode == 0x0101 && m.param == cfgBase + off && m.plen == 8 && leAt m.payload 0 8 == w &&
  off % 8 == 0 && cfgMapped off && !b.cfgScrub off && !b.cfgClosed off && (cfgReserved [(off, w)]).isNone

/-- A message's parameter names n Coves from f on, which its context may use, and whose programs it may load and start: ready, not awaiting
scrub, of no partition that serves, running nothing, in no scope that is in SLACK (R52, R56, R321, R455, R469, R487). -/
def Blk.covesFree (b : Blk) (m : Msg) (f n : Nat) : Bool :=
  m.param == f + n * 2 ^ 16 && f + n ≤ 4096 && f < 4096 && 0 < n && b.covesOk m.partition (setCoves (f, n)) && !(setCoves (f, n)).any b.coveScrub &&
  (b.covesReady (setCoves (f, n))).isNone && !b.servingBars (setCoves (f, n)) false && !(setCoves (f, n)).any b.runs &&
  (none :: (List.range nParts).map some).all fun k => !b.slackAt k

/-! ### A Cove that comes to issue -/

/-- A Cove comes to issue an instruction of an opcode: it runs, nothing holds its issue, its program counter stands at such a word whose guard,
if it has one, holds, and none of its instructions is uncompleted (R166, R173, R174, R177). -/
def Blk.comes (b : Blk) (c op : Nat) : Bool :=
  decide (c < nCoves) && b.canIssue c && decide ((b.seq c).pc < (b.seq c).count) && wOpcode (b.seq c).word == op &&
  (b.seq c).guardOk (b.seq c).word && (b.seq c).inflight.isEmpty
/-- A sequencer that has issued an instruction which it executes itself: its effect, and the move past it (R177, R184, R185). -/
def Seq.did (q : Seq) (f : Seq → Seq) : Seq :=
  Seq.next (f { q with nextSerial := q.nextSerial + 1, issuedHere := (q.issuedHere + 1) % 2 ^ 32 })
/-- Nothing changes but the sequencer of one Cove, and its count of issued instructions. -/
def Blk.seqOnly (b t : Blk) (c : Nat) : Prop :=
  { b with coves := t.coves, cfg := t.cfg } = t ∧ (∀ d, d ≠ c → t.cove d = b.cove d) ∧ { b.cove c with seq := t.seq c } = t.cove c ∧
  ∀ q, q ≠ cfgCV c + 0x20 → t.cfgGet q = b.cfgGet q
/-- The entry of the unit instruction at a Cove's program counter (R176, R177, R179). -/
def Blk.unitEntry (b : Blk) (c : Nat) : Entry :=
  let q := b.seq c
  let r := tileRanges c q.word q.sregs
  { serial := q.nextSerial, index := q.pc, queue := (queueOf (wOpcode q.word)).getD 0, word := q.word, regs := q.sregs, rd := hull r.1, wr := hull r.2 }
/-- The machine with that instruction issued: what its check moved, its entry the only one of the Cove, the sequencer past it. -/
def Blk.unitIssued (b : Blk) (c : Nat) : Blk :=
  let b1 := (b.issueCheck c (b.seq c).word (b.seq c).sregs).2.issued c
  (b1.setSeq c { b1.seq c with inflight := [b.unitEntry c] }).advance c
/-- The machine as the instruction begins its work: its shared engine granted, its banks touched (R198, R252). -/
def Blk.unitBegins (b : Blk) (c : Nat) : Blk :=
  let b1 := b.unitIssued c
  let e := b.unitEntry c
  let b2 := match b1.engineOf c e with
    | some k => b1.setBay (bayOf c) ((b1.bay (bayOf c)).setEngine k { busy := some c, last := c % 16 })
    | none => b1
  b2.touch c e
/-- That instruction passes its check at issue and can start at once; no other Cove of its Bay has an uncompleted instruction. -/
def Blk.unitFree (b : Blk) (c : Nat) : Bool :=
  (b.issueCheck c (b.seq c).word (b.seq c).sregs).1.isNone && (b.unitIssued c).mayStart c (b.unitEntry c) &&
  (List.range 16).all fun i => 16 * bayOf c + i == c || (b.seq (16 * bayOf c + i)).inflight.isEmpty

/-! ### Requests and channels under way -/

/-- The device takes a message at once beside one command c that waits, a CMD_REQ_SUBMIT that has started (R53). -/
def Blk.takesBeside (b : Blk) (m : Msg) (c : Cmd) : Bool :=
  ({ b with host := { b.host with cmds := [] } } : Blk).takes m && decide (b.host.cmds = [c]) && c.started && c.m.opcode == 0x400 && c.vars.isEmpty &&
  !(c.ctx == m.ctx && c.seq == m.seq) && !tbit m.flags 0 && (m.ctx == 0 || decide (2 ≤ (b.ctx m.ctx).depth)) && (b.ctx c.ctx).st == 1 && !c.flag 13 &&
  b.spans.isEmpty
/-- Nothing goes on but one open channel that has not failed. -/
def Blk.onlyChan (b : Blk) (ch : Nat) : Bool :=
  ({ b with chans := [] } : Blk).rests && decide (b.chans = [(ch, b.chan ch)]) && (b.chan ch).opened && !(b.chan ch).failed && !(b.chan ch).parts.isEmpty &&
  decide (ch < 128) && decide ((b.chan ch).done < 2 ^ 31) && (b.chan ch).posted.all (fun q => q.2.1 == (b.chan ch).done)
/-- A packet comes from member m of a channel for the operation that runs there (R426, R438). -/
def Blk.collFrom (b : Blk) (p : Pkt) (ch m : Nat) (o : CollOp) : Bool :=
  p.dst == b.slice.devid && p.tag == ch && (b.chan ch).memberIdx p.src == some m && pktGen p == (b.chan ch).gen && decide ((b.chan ch).op = some o) &&
  o.seq == (b.chan ch).done && pktOpseq p == o.seq && pktSig p == o.sig && m != (b.chan ch).self

/-! ### Nothing runs on the chip -/

/-- No program runs, is suspended or is to start, no Cove has an instruction uncompleted or produces into a ring, no Bay has a descriptor or a
held match table, no partition serves, no span logs and nothing waits in intake. -/
def Blk.quiet (b : Blk) : Bool :=
  (b.coves.all fun q => !(q.2.seq.st == 1 || q.2.seq.st == 2) && q.2.seq.inflight.isEmpty && q.2.seq.hold == .none && q.2.prods.isEmpty) &&
  (b.bays.all fun q => q.2.descs.isEmpty && q.2.matchHolder.isNone) && b.serves.isEmpty && b.spans.isEmpty && b.host.intake.isEmpty
/-- No command of a change is under way: of power, of a partition, of the Lighthouse or of a stack (R467). -/
def Blk.settled (b : Blk) : Bool := !b.changing && b.dev.changing == 0

/-! ### What stays -/

/-- Every context but those listed is as it was. -/
def Blk.ctxsBut (b t : Blk) (l : List Nat) : Prop := ∀ n, n ∉ l → t.ctx n = b.ctx n
/-- On the host side nothing changes but the sender's context, the frames that the ports carry and the uncompleted commands: every other
context, the event sequence and intake are as they were. -/
def Blk.hostFor (b t : Blk) (m : Msg) : Prop :=
  b.ctxsBut t [m.ctx] ∧ t.host.evSeq = b.host.evSeq ∧ t.host.intake = b.host.intake ∧ t.host.intakeStopped = b.host.intakeStopped
/-- Every configuration word and counter but those listed reads as before. -/
def Blk.cfgBut (b t : Blk) (l : List Nat) : Prop := ∀ q, q ∉ l → t.cfgGet q = b.cfgGet q
/-- Every Cove but those listed is as it was. -/
def Blk.covesBut (b t : Blk) (l : List Nat) : Prop := ∀ d, d ∉ l → t.cove d = b.cove d
/-- Every Bay but those listed is as it was. -/
def Blk.baysBut (b t : Blk) (l : List Nat) : Prop := ∀ d, d ∉ l → t.bay d = b.bay d
/-- Every link but those listed is as it was. -/
def Blk.linksBut (b t : Blk) (l : List Nat) : Prop := ∀ d, d ∉ l → t.link d = b.link d
/-- Every stack but those listed is as it was. -/
def Blk.stacksBut (b t : Blk) (l : List Nat) : Prop := ∀ d, d ∉ l → t.stack d = b.stack d
/-- Every partition but those listed is as it was. -/
def Blk.partsBut (b t : Blk) (l : List Nat) : Prop := ∀ d, d ∉ l → t.part d = b.part d

/-- Nothing changes within the chip, its Lighthouse or its board: what may change is the clock, counters, what the host sees, the error log,
the links, channels and packets, and what the slice agrees on. -/
def Blk.chipSame (b t : Blk) : Prop :=
  { b with free := t.free, tide := t.tide, cfg := t.cfg, host := t.host, err := t.err, links := t.links, chans := t.chans, slice := t.slice,
           sync := t.sync, mode := t.mode, bars := t.bars } = t

/-! ### What a command does -/

/-- The command is executed to a next state, the queue as it was, and what the machine is then holds. -/
def State.does (s : State) (i : Instr) (P : Blk → Prop) : Prop := ∃ t, exec i s = .next { s with blk := t } ∧ P t

end Sys2Proof.Machine
end

