-- ==== Sys2Proof/Certificates/Slice0/Obligations.lean ====
section
/-! DEFINITION. The statements about the model, each from the rules of the manual that its docstring cites. -/
open Sys2Proof Sys2Proof.Machine

/-! ### Commands of contexts and ports -/

/-- R57, R47, R42: CMD_NOP does nothing but complete: its final reply is ST_OK without payload, sent on the home port of its context
and kept among the context's last replies. Nothing beside the host side changes. CMD_HELLO, which is not part of its context's series,
answers DV_ID, DV_SERIAL, the arrival port and the sequence expected, and leaves the series as it was (R42, R58). -/
def Obligations.NopAndHelloComplete : Prop :=
  (∀ (s : State) (m : Msg), s.blk.takes m = true → m.opcode = 0x0000 → m.param = 0 →
    s.does (.cmdNop m) fun t => t.answered m stOK 0 [] ∧ { s.blk with host := t.host } = t ∧ s.blk.hostFor t m ∧ t.host.cmds = [] ∧
      (t.ctx m.ctx).expect = (m.seq + 1) % 2 ^ 32 ∧
      (s.blk.canSend (replyFrame s.blk m stOK 0 []) = true →
        s.blk.leftOn t (s.blk.homeOf m.ctx) (replyFrame s.blk m stOK 0 []))) ∧
  (∀ (s : State) (m : Msg), s.blk.takes m = true → m.opcode = 0x0001 → m.param = 0 →
    let x := s.blk.ctx m.ctx
    let pay := leBytes 8 dvId ++ leBytes 8 Config.serial.toNat ++ leBytes 4 (m.port + 2 * bnat x.series) ++
      leBytes 4 (if x.series then x.expect else 0)
    s.does (.cmdHello m) fun t => (t.ctx m.ctx).expect = x.expect ∧ { s.blk with host := t.host } = t ∧ s.blk.hostFor t m ∧
      (s.blk.canSend (replyFrame s.blk m stOK 0 pay) = true → s.blk.leftOn t (s.blk.homeOf m.ctx) (replyFrame s.blk m stOK 0 pay)))

/-- R51, R52, R55, R478: CMD_CTX_OPEN opens the context that its parameter names with its partition, queue depth, home port, failover
enable and privileges, expecting no sequence yet. R55: CMD_CTX_CLOSE of a context without commands closes it: its event queue is discarded,
frames that are no events stay. R41, R58: CMD_PORT_FAILOVER with ALL moves every open context to the port that its parameter names. R503: CMD_ERRLOG_READ returns the
oldest held index, the next index, and the held records whose indexes lie within the count asked from the first asked. -/
def Obligations.ContextCommandsAndErrlogRead : Prop :=
  (∀ (s : State) (m : Msg) (n part depth home fo privs : Nat), s.blk.takes m = true → m.opcode = 0x0003 →
    m.param = n + part * 2 ^ 16 + depth * 2 ^ 20 + home * 2 ^ 32 + fo * 2 ^ 33 + privs * 2 ^ 40 →
    0 < n → n < 4096 → part < 16 → 0 < depth → depth ≤ 256 → home < 2 → fo < 2 → privs < 32 → n ≠ m.ctx →
    ((s.blk.part part).st = 1 ∨ (s.blk.part part).st = 2) → (s.blk.ctx n).st = 0 →
    s.does (.cmdCtxOpen m) fun t => t.answered m stOK 0 [] ∧ (t.ctx n).st = 1 ∧ (t.ctx n).part = part ∧ (t.ctx n).depth = depth ∧
      (t.ctx n).home = home ∧ (t.ctx n).homeSet = true ∧ (t.ctx n).failover = (fo == 1) ∧ (t.ctx n).privs = privs ∧
      (t.ctx n).series = false ∧ (t.ctx n).replies = [] ∧
      { s.blk.measureCmd m with host := t.host } = t ∧ s.blk.ctxsBut t [n, m.ctx]) ∧
  (∀ (s : State) (m : Msg) (n : Nat), s.blk.takes m = true → m.opcode = 0x0004 → m.ctx = 0 → m.param = n → 0 < n → n < 4096 →
    (s.blk.ctx n).st = 1 → s.blk.spans = [] → s.blk.serves = [] → s.blk.canon →
    s.does (.cmdCtxClose m) fun t => t.answered m stOK 0 [] ∧ (t.ctx n).st = 0 ∧
      (t.ctx n).held = (s.blk.ctx n).held.filter (fun o => !o.event) ∧ { s.blk.measureCmd m with host := t.host } = t ∧ s.blk.ctxsBut t [n, 0]) ∧
  (∀ (s : State) (m : Msg), s.blk.takes m = true → m.opcode = 0x0907 → (m.param = 2 ∨ m.param = 3) → s.blk.canon →
    s.does (.cmdPortFailover m) fun t => t.answered m stOK 0 [] ∧
      (∀ n, (s.blk.ctx n).st = 1 → (t.ctx n).home = m.param - 2 ∧ (t.ctx n).st = 1) ∧ { s.blk.measureCmd m with host := t.host } = t) ∧
  (∀ (s : State) (m : Msg), s.blk.takes m = true → m.opcode = 0x0900 → m.param < 2 ^ 32 → leAt m.payload 0 8 ≤ 1023 →
    let oldest := match s.blk.err.recs with | r :: _ => r.index | [] => s.blk.err.next
    let recs := s.blk.err.recs.filter fun r => (r.index + 2 ^ 32 - m.param) % 2 ^ 32 < leAt m.payload 0 8
    s.does (.cmdErrlogRead m) fun t =>
      t.answered m stOK 0 (leBytes 4 oldest ++ leBytes 4 s.blk.err.next ++ recs.flatMap fun r => r.bytes) ∧ { s.blk.measureCmd m with host := t.host } = t ∧ s.blk.hostFor t m)

/-! ### Configuration space -/

/-- R63: CMD_CFG_READ of one word that belongs to no partition, as DV_ERR_CTL does, returns its value. R63, R513: CMD_CFG_WRITE of DV_ERR_CTL
with both fields in range writes it. R351: a write to DV_HBM_MAP while no partition exists sets the interleave mode. R530: writing 1 to a latched bit of DV_ALERT clears it, and MASK takes the value written. R381: a write to a table slot that holds a
current table sets or clears HOLD. -/
def Obligations.ConfigWordsReadAndWrite : Prop :=
  (∀ (s : State) (m : Msg), s.blk.takes m = true → m.opcode = 0x0100 → m.ctx = 0 → m.param = cfgBase + 0xE00 → leAt m.payload 0 8 = 1 →
    s.does (.cmdCfgRead m) fun t => t.answered m stOK 0 (leBytes 8 (s.blk.cfgGet 0xE00)) ∧ { s.blk with host := t.host } = t ∧ s.blk.hostFor t m) ∧
  (∀ (s : State) (m : Msg) (w : Nat), s.blk.writesOne m 0xE00 w = true → fld w 15 0 ≠ 0 → fld w 31 16 ≠ 0 → s.blk.canon →
    s.does (.cmdCfgWrite m) fun t => t.answered m stOK 0 [] ∧ t.cfgGet 0xE00 = w ∧ s.blk.cfgBut t [0xE00] ∧
      { s.blk.measureWrite m [0xE00] with host := t.host, cfg := t.cfg } = t ∧ s.blk.hostFor t m) ∧
  (∀ (s : State) (m : Msg) (w : Nat), s.blk.writesOne m 0x400 w = true → s.blk.parts = [] → s.blk.canon →
    s.does (.hbmMapWrite m) fun t => t.answered m stOK 0 [] ∧ t.cfgGet 0x400 = w ∧ s.blk.cfgBut t [0x400] ∧
      { s.blk.measureWrite m [0x400] with host := t.host, cfg := t.cfg } = t ∧ s.blk.hostFor t m) ∧
  (∀ (s : State) (m : Msg) (w : Nat), s.blk.writesOne m 0xF10 w = true → s.blk.canon →
    s.does (.alertClear m) fun t => t.answered m stOK 0 [] ∧
      t.board.alerts = s.blk.board.alerts - Nat.land s.blk.board.alerts (w % 16 / 2 * 2) ∧ t.cfgGet 0xF10 = fld w 11 9 * 0x200 ∧
      s.blk.cfgBut t [0xF10] ∧ { s.blk.measureWrite m [0xF10] with host := t.host, cfg := t.cfg, board := t.board } = t ∧
      { s.blk.board with alerts := t.board.alerts } = t.board ∧ s.blk.hostFor t m) ∧
  (∀ (s : State) (m : Msg) (h i w : Nat), s.blk.writesOne m (cfgHL h + 0x1000 + 8 * i) w = true → h < 16 → i < 64 →
    (s.blk.tab h i).st = 2 →
    s.does (.tableHoldWrite m) fun t => t.answered m stOK 0 [] ∧ (t.tab h i).hold = tbit w 12 ∧ (t.tab h i).st = 2 ∧
      (∀ g j, (g, j) ≠ (h, i) → t.tab g j = s.blk.tab g j) ∧ { s.blk.measureWrite m [cfgHL h + 0x1000 + 8 * i] with host := t.host, hls := t.hls } = t ∧ s.blk.hostFor t m)

/-- R201, R205, R214, R119: a word of CV_TP_CTL that keeps CACHE, of a valid CV_TP_SLOTMAP or of CV_ARR_CTL is written while the Cove runs no
program. R214: a CV_TP_CTL that changes CACHE empties the cache portion: its lines are invalid, and every byte that moves into or out of it reads zero. -/
def Obligations.TidepoolControlWrites : Prop :=
  (∀ (s : State) (m : Msg) (c w : Nat), s.blk.writesOne m (cfgCV c + 0x3800) w = true → c < 4096 → s.blk.runs c = false → fld w 1 0 ≠ 3 →
    fld w 3 2 = fld (s.blk.cfgGet (cfgCV c + 0x3800)) 3 2 → s.blk.canon →
    s.does (.tpArbSet m) fun t => t.answered m stOK 0 [] ∧ t.cfgGet (cfgCV c + 0x3800) = w ∧ s.blk.cfgBut t [cfgCV c + 0x3800] ∧
      { s.blk.measureWrite m [cfgCV c + 0x3800] with host := t.host, cfg := t.cfg } = t ∧ s.blk.hostFor t m) ∧
  (∀ (s : State) (m : Msg) (c w a : Nat), s.blk.writesOne m (cfgCV c + 0x3800) w = true → c < 4096 → s.blk.runs c = false → fld w 1 0 ≠ 3 →
    let c0 := s.blk.cachePortion c
    let c1 := cacheBytes (fld w 3 2)
    c0 ≠ c1 → ((s.blk.cove c).taken 16 64).all (fun r => r.1 + r.2 ≤ tpSize - c1) = true →
    s.blk.windowMeets (tpAddr c (tpSize - c1)) c1 = false → ((s.blk.bay (bayOf c)).descs.any fun d => d.cove == c && d.cached) = false → tpSize - max c0 c1 ≤ a → a < tpSize - min c0 c1 → s.blk.canon →
    s.does (.tpCacheResize m) fun t => t.answered m stOK 0 [] ∧ t.cachePortion c = c1 ∧ (t.cove c).lines = [] ∧
      (t.cove c).cacheChanging = true ∧ t.peek (tpAddr c a) = 0#8 ∧
      (∀ x, x < tpAddr c (tpSize - max c0 c1) ∨ tpAddr c (tpSize - min c0 c1) ≤ x → t.peek x = s.blk.peek x) ∧ s.blk.covesBut t [c] ∧
      { s.blk.cove c with lines := [], cacheChanging := true } = t.cove c ∧ s.blk.cfgBut t [cfgCV c + 0x3800] ∧
      { s.blk.measureWrite m [cfgCV c + 0x3800] with host := t.host, cfg := t.cfg, mem := t.mem, coves := t.coves } = t ∧ s.blk.hostFor t m) ∧
  (∀ (s : State) (m : Msg) (c w : Nat), s.blk.writesOne m (cfgCV c + 0x3808) w = true → c < 4096 → s.blk.runs c = false →
    mapCode w 0 = 0 → mapCode w 4 = 0 → (∀ g ∈ [1, 2, 3, 5, 6, 7], mapCode w g ≠ 0 ∧ (mapCode w g ≤ 10 ∨ mapCode w g = 15)) →
    (∃ g ∈ [1, 2, 3, 5, 6, 7], mapCode w g = 1) → (∃ g ∈ [1, 2, 3, 5, 6, 7], mapCode w g = 15 ∨ mapCode w g = 6) → s.blk.canon →
    s.does (.tpSlotmapWrite m) fun t => t.answered m stOK 0 [] ∧ t.cfgGet (cfgCV c + 0x3808) = w ∧ s.blk.cfgBut t [cfgCV c + 0x3808] ∧
      { s.blk.measureWrite m [cfgCV c + 0x3808] with host := t.host, cfg := t.cfg } = t ∧ s.blk.hostFor t m) ∧
  (∀ (s : State) (m : Msg) (c w : Nat), s.blk.writesOne m (cfgCV c + 0x1000) w = true → c < 4096 → s.blk.canon →
    s.does (.arrCtlWrite m) fun t => t.answered m stOK 0 [] ∧ t.cfgGet (cfgCV c + 0x1000) = w ∧ s.blk.cfgBut t [cfgCV c + 0x1000] ∧
      { s.blk.measureWrite m [cfgCV c + 0x1000] with host := t.host, cfg := t.cfg } = t ∧ s.blk.hostFor t m)

/-- R216, R217: enabling an inbox of an idle Cove for a source that can be charged sets its grant to its capacity and gives the source a
credit entry of that grant with nothing consumed. R220: enabling a ring empties its slots and gives its producer an entry with COUNT credits. -/
def Obligations.InboxAndRingWrites : Prop :=
  (∀ (s : State) (m : Msg) (c i w : Nat) (b1 : Blk), s.blk.writesOne m (cfgCV c + 0x3900 + 16 * i) w = true → c < 4096 → i < 16 →
    let n : Inbox := { word := w }
    ((s.blk.cove c).inbox i).en = false → n.en = true → n.srck = 0 → s.blk.canon →
    (s.blk.entered m).inboxPut c i w = .ok b1 →
    s.does (.tpInboxWrite m) fun t => t.answered m stOK 0 [] ∧ ((t.cove c).inbox i) = { n with grant := n.units } ∧
      ∃ j, j < 64 ∧ (t.cove n.src).cred j = { valid := true, target := c, inbox := i, grant := n.units, consumed := 0 } ∧
      s.blk.covesBut t [c, n.src] ∧ { s.blk.measureWrite m [cfgCV c + 0x3900 + 16 * i] with host := t.host, coves := t.coves } = t ∧ s.blk.hostFor t m) ∧
  (∀ (s : State) (m : Msg) (c r w : Nat) (b1 : Blk), s.blk.writesOne m (cfgCV c + 0x3A00 + 16 * r) w = true → c < 4096 → r < 64 →
    let old := (s.blk.cove c).ring r
    let n : Ring := { word := w, timeout := old.timeout % 2 ^ 32 }
    old.en = false → n.en = true → s.blk.canon → (s.blk.entered m).ringPut c r w old.timeout = .ok b1 →
    s.does (.tpRingWrite m) fun t => t.answered m stOK 0 [] ∧ ((t.cove c).ring r) = n ∧
      ∃ j, j < 64 ∧ (t.cove n.producer).prodEnt j = { valid := true, owner := c, ring := r, tail := 0, credits := n.count } ∧
      s.blk.covesBut t [c, n.producer] ∧ { s.blk.measureWrite m [cfgCV c + 0x3A00 + 16 * r] with host := t.host, coves := t.coves } = t ∧ s.blk.hostFor t m)

/-- R89: lane_seed is the function that the rule spells in C, and each generator stands at it after reset. R91: writing RESEED sets generator g of a Cove to
lane_seed(SEED, g), SEED being CV_SR_SEED; a write of CV_SR_STATE w with two states
that are not zero sets generators 2w and 2w + 1. R197: a write to a scalar register of a Cove that runs no program sets it. -/
def Obligations.GeneratorAndRegisterWrites : Prop :=
  (∀ (S g : Nat), S < 2 ^ 64 → g < 64 →
    let z0 := BitVec.ofNat 64 S + BitVec.ofNat 64 (g + 1) * 0x9E3779B97F4A7C15#64
    let z1 := (z0 ^^^ z0 >>> 30) * 0xBF58476D1CE4E5B9#64
    let z2 := (z1 ^^^ z1 >>> 27) * 0x94D049BB133111EB#64
    let z3 := z2 ^^^ z2 >>> 31
    let x := (z3 ^^^ z3 >>> 32).setWidth 32
    laneSeed S g = if x = 0#32 then 1 else x.toNat) ∧
  (∀ c g, c < 4096 → g < 64 → State.reset.blk.gen c g = laneSeed c g) ∧
  (∀ (s : State) (m : Msg) (c w g : Nat), s.blk.writesOne m (cfgCV c + 0x3008) w = true → c < 4096 → tbit w 0 = true → g < 64 → s.blk.canon →
    s.does (.srReseed m) fun t => t.answered m stOK 0 [] ∧ t.gen c g = laneSeed (s.blk.cfgGet (cfgCV c + 0x3000)) g ∧
      s.blk.covesBut t [c] ∧ { s.blk.cove c with gens := (t.cove c).gens } = t.cove c ∧ { s.blk.measureWrite m [cfgCV c + 0x3008] with host := t.host, coves := t.coves } = t ∧ s.blk.hostFor t m) ∧
  (∀ (s : State) (m : Msg) (c w k : Nat), s.blk.writesOne m (cfgCV c + 0x3100 + 8 * k) w = true → c < 4096 → k < 32 → w % 2 ^ 32 ≠ 0 →
    w / 2 ^ 32 ≠ 0 → s.blk.canon →
    s.does (.srStateWrite m) fun t => t.answered m stOK 0 [] ∧ t.gen c (2 * k) = w % 2 ^ 32 ∧ t.gen c (2 * k + 1) = w / 2 ^ 32 ∧
      (∀ g, g < 64 → g ≠ 2 * k → g ≠ 2 * k + 1 → t.gen c g = s.blk.gen c g) ∧
      s.blk.covesBut t [c] ∧ { s.blk.cove c with gens := (t.cove c).gens } = t.cove c ∧ { s.blk.measureWrite m [cfgCV c + 0x3100 + 8 * k] with host := t.host, coves := t.coves } = t ∧ s.blk.hostFor t m) ∧
  (∀ (s : State) (m : Msg) (c w k : Nat), s.blk.writesOne m (cfgCV c + 0x100 + 8 * k) w = true → c < 4096 → 0 < k → k < 32 →
    s.blk.runs c = false → s.blk.canon →
    s.does (.seqSregWrite m) fun t => t.answered m stOK 0 [] ∧ sreg (t.seq c).sregs k = w ∧
      (∀ j, j ≠ k → sreg (t.seq c).sregs j = sreg (s.blk.seq c).sregs j) ∧
      s.blk.covesBut t [c] ∧ { s.blk.cove c with seq := { s.blk.seq c with sregs := (t.seq c).sregs } } = t.cove c ∧ { s.blk.measureWrite m [cfgCV c + 0x100 + 8 * k] with host := t.host, coves := t.coves } = t ∧ s.blk.hostFor t m)

/-! ### Boot, firmware and attestation -/

/-- R453, R489: CMD_FW_LOAD in ROM begins the verification of the image that came with it. When that ends, an image that is accepted runs: the
device is in SVC, the certificate is not signed yet and every stack trains, and the command is answered ST_OK; any other is answered
ST_NO_PERMISSION and leaves the device in ROM. R492: once the identity key has signed, the certificate is its body and the signature, and the
private part is erased. R494: CMD_ATTEST, once there is a certificate, returns the report of the partition it names, signed over its nonce. -/
def Obligations.FirmwareLoadsAndReports : Prop :=
  (∀ (s : State) (m : Msg), s.blk.takes m = true → m.opcode = 0x0002 → 0 < m.param → m.param ≤ imageMax → s.blk.board.mainOk = true →
    s.blk.fw.loader = none →
    s.does (.cmdFwLoad m) fun t => t.awaits m ∧ t.fw.loader = some (m.ctx, m.seq) ∧ t.fw.loading = m.bulk ∧
      { s.blk.fw with loader := t.fw.loader, loading := t.fw.loading } = t.fw ∧ { s.blk with host := t.host, fw := t.fw } = t ∧ s.blk.hostFor t m) ∧
  (∀ (s : State) (c : Cmd), s.blk.onlyWaits c = true → c.m.opcode = 0x0002 → s.blk.dev.svc = false → s.blk.fw.loader = some (c.ctx, c.seq) →
    let ok := imageValid s.blk.fw.loading
    s.does .fwVerifyDone fun t => t.answered c.m (if ok then stOK else stNOPERM) (if ok then 0 else 3) [] ∧ t.host.cmds = [] ∧
      t.fw.loader = none ∧ t.dev.svc = ok ∧
      (ok = true → t.fw.running = some (imageRec s.blk.fw.loading) ∧ t.fw.certReady = false ∧ ∀ k, k < 16 → (t.stack k).training = true) ∧
      { s.blk.dev with svc := t.dev.svc, reachedSvc := t.dev.reachedSvc } = t.dev ∧
      { s.blk with free := t.free, fw := t.fw, dev := t.dev, hbmStacks := t.hbmStacks, host := t.host } = t) ∧
  (∀ (s : State), s.blk.rests = true → s.blk.fw.running.isSome = true → s.blk.fw.certReady = false →
    s.does .certSigned fun t => t.fw.certReady = true ∧ t.fw.idErased = true ∧
      t.fw.cert = s.blk.certBody ++ bytesAt (Config.slhSignId Config.fusedSeed s.blk.certBody) 0 29792 ∧
      { s.blk.fw with cert := t.fw.cert, certReady := true, idErased := true } = t.fw ∧ { s.blk with fw := t.fw } = t) ∧
  (∀ (s : State) (m : Msg), s.blk.takes m = true → m.opcode = 0x0703 → m.param = 0 →
    (m.partition = 0xFF ∨ (s.blk.part m.partition).st ≠ 0) → s.blk.fw.certReady = true →
    s.does (.cmdAttest m) fun t => t.answered m stOK 0 (s.blk.report m.payload m.partition) ∧ t.host.cmds = [] ∧
      { s.blk with host := t.host } = t ∧ s.blk.hostFor t m)

/-- R509: CMD_FW_STAGE holds an image that is accepted as the staged one, and refuses any other; CMD_FW_ACTIVATE of a staged image stops
intake. When Nimtar takes intake again the staged image runs and the command reports the stall; when 50 ms pass first, the previous one
runs on and the command ends with ST_HW_ERROR. R504, R510: a core of the Lighthouse that fails for the first time in a
second restarts, counted, while intake is stopped; CMD_LH_SPARE puts a logical core's duties on the lowest spare, with intake stopped meanwhile.
The bytes of the events and the unit of the stall are the model's layout (log entry 22). -/
def Obligations.FirmwareActivatesAndCoresRestart : Prop :=
  (∀ (s : State) (m : Msg), s.blk.takes m = true → m.opcode = 0x0905 → 0 < m.param → m.param ≤ imageMax →
    let ok := imageValid m.bulk
    s.does (.cmdFwStage m) fun t => t.answered m (if ok then stOK else stNOPERM) (if ok then 0 else 3) [] ∧
      t.fw.staged = (if ok then some (imageRec m.bulk) else s.blk.fw.staged) ∧
      { s.blk.fw with staged := t.fw.staged, cfgMeas := t.fw.cfgMeas } = t.fw ∧ { s.blk with host := t.host, fw := t.fw } = t ∧ s.blk.hostFor t m) ∧
  (∀ (s : State) (m : Msg), s.blk.takes m = true → m.opcode = 0x0906 → m.param = 0 → s.blk.fw.staged.isSome = true →
    s.blk.fw.activating = none → s.blk.cores.sparing = none →
    s.does (.cmdFwActivate m) fun t => t.awaits m ∧ t.host.intakeStopped = true ∧ t.fw.activating = some (m.ctx, m.seq) ∧
      t.fw.running = s.blk.fw.running ∧ { s.blk.fw with activating := t.fw.activating, cfgMeas := t.fw.cfgMeas } = t.fw ∧
      { s.blk.cores with stallFrom := s.blk.tide } = t.cores ∧ { s.blk with host := t.host, fw := t.fw, cores := t.cores } = t ∧ s.blk.ctxsBut t [m.ctx]) ∧
  (∀ (s : State) (c : Cmd) (im : Image), s.blk.onlyWaits c = true → s.blk.host.intakeStopped = true → s.blk.host.intake = [] →
    s.blk.fw.activating = some (c.ctx, c.seq) → s.blk.fw.staged = some im → s.blk.cores.sparing = none → s.blk.cores.lhReset = none →
    s.does .intakeResumed fun t => t.answered c.m stOK 0 (stallBytes s.blk.cores.stallFrom s.blk.tide) ∧ t.host.intakeStopped = false ∧
      t.fw.running = some im ∧ t.fw.staged = none ∧ t.fw.activating = none ∧ { s.blk with host := t.host, fw := t.fw, parts := t.parts } = t) ∧
  (∀ (s : State) (c : Cmd), s.blk.onlyWaits c = true → s.blk.host.intakeStopped = true → s.blk.host.intake = [] →
    s.blk.fw.activating = some (c.ctx, c.seq) → s.blk.cores.sparing = none → s.blk.cores.lhReset = none →
    s.does .fwActivateTimeout fun t => (∃ det, t.answered c.m stHWERROR det (stallBytes s.blk.cores.stallFrom s.blk.tide)) ∧
      t.host.intakeStopped = false ∧ t.fw.running = s.blk.fw.running ∧ t.fw.staged = s.blk.fw.staged ∧
      { s.blk.fw with activating := none } = t.fw ∧ t.err.next = (s.blk.err.next + 1) % 2 ^ 32 ∧
      { s.blk with free := t.free, cfg := t.cfg, host := t.host, fw := t.fw, err := t.err } = t) ∧
  (∀ (s : State) (core : Nat), core < 10 → s.blk.dev.svc = true → s.blk.dev.fatal = false → s.blk.cores.active.contains core = true →
    (s.blk.cores.lastRestart.any fun q => q.1 == core) = false → s.blk.canon →
    (∀ i ∈ [Instr.lhWatchdogExpiry core, Instr.lhMemUe core], s.does i fun t => t.host.intakeStopped = true ∧
      t.cfgGet (cfgLH + 8) = (s.blk.cfgGet (cfgLH + 8) + 1) % 2 ^ 64 ∧ t.cores.lastRestart = s.blk.cores.lastRestart ++ [(core, s.blk.tide)] ∧
      t.err.next = (s.blk.err.next + 1) % 2 ^ 32 ∧
      { s.blk with cfg := t.cfg, host := t.host, cores := t.cores, err := t.err } = t)) ∧
  (∀ (s : State) (m : Msg), s.blk.takes m = true → m.opcode = 0x0904 → m.param < 8 → s.blk.fw.activating = none → s.blk.cores.sparing = none →
    (∃ p, p < 10 ∧ s.blk.cores.map.contains p = false ∧ tbit s.blk.cores.retired p = false) →
    s.does (.cmdLhSpare m) fun t => t.awaits m ∧ t.host.intakeStopped = true ∧ t.cores.sparing = some (m.ctx, m.seq) ∧
      { s.blk.cores with stallFrom := s.blk.tide, sparing := t.cores.sparing } = t.cores ∧ { s.blk.measureCmd m with host := t.host, cores := t.cores } = t ∧
      s.blk.ctxsBut t [m.ctx])

/-! ### Beacon ports -/

/-- R37 to R39: an intact MSG frame that is next in order on a port acts as its message, and the port then expects the next sequence; R40: a
BULK body is attached to the waiting command it names, at the offset reached. -/
def Obligations.FramesArrive : Prop :=
  (∀ (s : State) (p : Nat) (f : List Byte), p < 2 → (s.blk.port p).up = true → f.length ≤ (s.blk.port p).credit → frameIntact f = true →
    leAt f 0 1 = 1 → leAt f 1 3 = 0 → 32 ≤ leAt f 8 4 → leAt f 8 4 ≤ 32 + 65536 → leAt f 4 4 = (s.blk.port p).rxNext → s.blk.host.intakeStopped = false →
    (s.blk.port p).txBuf = [] → (s.blk.host.ctxs.all fun q => q.2.held.isEmpty && q.2.lost == 0) = true → s.blk.canon →
    let b := s.blk.setPort p { s.blk.port p with rxNext := ((s.blk.port p).rxNext + 1) % 2 ^ 32 }
    s.does (.beaconFrameRx p f) fun t => t = (b.arrive (msgOf p ((f.drop 16).take (leAt f 8 4)))).pump) ∧
  (∀ (s : State) (p : Nat) (v : List Byte) (c : Cmd), p < 2 → (s.blk.port p).up = true → s.blk.dev.powered = true →
    s.blk.host.intakeStopped = false → s.blk.still = true → s.blk.host.cmds = [c] → c.started = false → c.queued = true → s.blk.logged c.ctx c.seq = false → c.m.port = p → c.ctx < 4096 →
    16 ≤ v.length → v.length ≤ 16 + 1048576 → leAt v 0 2 = c.ctx → leAt v 2 2 = 0 → leAt v 4 4 = c.seq → leAt v 8 8 = c.got.length →
    c.got.length + (v.length - 16) ≤ c.bulkMax → ({ c with got := c.got ++ v.drop 16 } : Cmd).dataIn = false →
    s.does (.bulkFrameRx p v) fun t => t.host.cmds = [{ c with got := c.got ++ v.drop 16 }] ∧ { s.blk with host := t.host } = t)

/-- R38: without progress of acknowledgement every frame not acknowledged is sent again, and counted. R36: a port that loses signal on a lane
carries no more frames. R41: a port declared down drops out, and each of its contexts with failover enabled moves to the other port when
that is up. R453: a port that trains carries frames, in both directions from sequence 0, and sends READY.
That the payload of READY is padded to 8 bytes is the model's reading (log entry 22). -/
def Obligations.PortsFailAndTrain : Prop :=
  (∀ (s : State) (p : Nat), p < 2 → (s.blk.port p).up = true → s.blk.canon →
    s.does (.beaconResendTimeout p) fun t => t.host = s.blk.host ∧
      t.cfgGet (0x118 + 64 * p) % 2 ^ 64 = (s.blk.cfgGet (0x118 + 64 * p) + (s.blk.port p).txBuf.length) % 2 ^ 64 ∧
      s.blk.cfgBut t [0x118 + 64 * p] ∧ { s.blk with cfg := t.cfg } = t) ∧
  (∀ (s : State) (p lane : Nat), p < 2 → lane < 4 → tbit (s.blk.port p).lanes lane = true →
    s.does (.beaconLaneLoss p lane) fun t => (t.port p).up = false ∧ (t.port p).lanes = (s.blk.port p).lanes - 2 ^ lane ∧
      (t.port p).txBuf = (s.blk.port p).txBuf ∧ t.port (1 - p) = s.blk.port (1 - p) ∧
      t.host.ctxs = s.blk.host.ctxs ∧ { s.blk with host := t.host } = t) ∧
  (∀ (s : State) (p : Nat), p < 2 → (s.blk.port p).trained = true → (s.blk.port (1 - p)).up = true → s.blk.canon →
    s.does (.beaconPortDown p) fun t => (t.port p).up = false ∧ (t.port p).trained = false ∧ (t.port p).txBuf = [] ∧
      (∀ n, (s.blk.ctx n).st = 1 → s.blk.homeOf n = p → (s.blk.ctx n).failover = true → t.homeOf n = 1 - p ∧ (t.ctx n).st = 1) ∧
      { s.blk with cfg := t.cfg, host := t.host, err := t.err } = t) ∧
  (∀ (s : State) (p : Nat), p < 2 → s.blk.dev.powered = true → (s.blk.port p).trained = false →
    ∀ i ∈ [Instr.beaconPortTrained p, Instr.beaconPortRetry p true], s.does i fun t =>
      (t.port p).up = true ∧ (t.port p).trained = true ∧ (t.port p).lanes = 0xF ∧ (t.port p).rxNext = 0 ∧ (t.ctx 0).st ≠ 0 ∧
      (t.port p).txBuf.head? = some (0, eventFrame evREADY 0 s.blk.host.evSeq s.blk.tide (readyBytes 0 p 0)) ∧ { s.blk with host := t.host } = t)

/-! ### Programs, spans and the watch -/

/-- R167, R168: CMD_PROG_LOAD of a valid image puts it into the program buffer of every Cove of its set, which is IDLE then. R169: CMD_PROG_START
of such Coves is accepted with a start instant at most 5 µs ahead, and starts nothing before it.
Which instant within the 5 µs is a free value (log entry 4). -/
def Obligations.ProgramsLoadAndStart : Prop :=
  (∀ (s : State) (m : Msg) (f n : Nat), s.blk.takes m = true → m.opcode = 0x0200 → s.blk.covesFree m f n = true →
    let addr := leAt m.payload 0 8
    let k := leAt m.payload 8 8
    addr % 16 = 0 → 0 < k → k ≤ 1024 → addr + 16 * k ≤ tpSize → addr < 2 ^ 22 →
    (∀ v, f ≤ v → v < f + n → imageFault (s.blk.imageOf v addr k) = none) →
    s.does (.cmdProgLoad m) fun t => t.answered m stOK 0 [] ∧ (∀ v, f ≤ v → v < f + n →
      (t.seq v).prog = ssetRun (fun _ => 0) (s.blk.seq v).prog 0 (s.blk.imageOf v addr k) ∧ (t.seq v).count = k ∧ (t.seq v).st = 0 ∧
      { s.blk.cove v with seq := { s.blk.seq v with prog := (t.seq v).prog, count := k, st := 0 } } = t.cove v) ∧
      (∀ v, v < f ∨ f + n ≤ v → t.cove v = s.blk.cove v) ∧ (∀ q, { s.blk.part q with pm := (t.part q).pm } = t.part q) ∧
      { s.blk with host := t.host, coves := t.coves, parts := t.parts } = t ∧ s.blk.hostFor t m) ∧
  (∀ (s : State) (m : Msg) (f n : Nat), s.blk.takes m = true → m.opcode = 0x0201 → s.blk.covesFree m f n = true →
    leAt m.payload 0 8 < 1024 → tbit (leAt m.payload 8 8) 0 = false → leAt m.payload 8 8 < 2 ^ 32 →
    (∀ v, f ≤ v → v < f + n → leAt m.payload 0 8 < (s.blk.seq v).count) →
    s.does (.cmdProgStart m) fun t => t.awaits m ∧ { s.blk with free := t.free, host := t.host } = t ∧ s.blk.hostFor t m ∧
      ∃ c t0, t.host.cmds = [c] ∧ c.m = m ∧ c.vars = [t0] ∧ s.blk.tide ≤ t0 ∧ t0 ≤ s.blk.tide + 5000)

/-- R169: at the start instant every Cove of the set begins at the entry: predicates, loop counters and CONT clear, the registers that the image
names set from it and the others kept, the Tide clock at the instant or later. R170: when all have ended, the command is answered with one exit record a Cove,
in rising order. R171: a stop ends the program of a Cove with nothing in flight at once, STOPPED at its next index. -/
def Obligations.ProgramsRunAndEnd : Prop :=
  (∀ (s : State) (c : Cmd) (f n t0 v : Nat), s.blk.host.cmds = [c] → c.started = true → c.m.opcode = 0x0201 → c.vars = [t0] →
    c.m.param = f + n * 2 ^ 16 → f + n ≤ 4096 → c.ctx < 4096 → (none :: (List.range nParts).map some).all (fun k => !s.blk.slackAt k) = true →
    f ≤ v → v < f + n → f < 4096 → leAt c.m.payload 0 8 < (s.blk.seq v).count → (s.blk.cove v).clearing = false → s.blk.canon →
    s.does (.progStartInstant c.ctx c.seq) fun t => t.tide = max s.blk.tide t0 ∧ (t.seq v).st = 1 ∧ (t.seq v).pc = leAt c.m.payload 0 8 ∧
      (t.seq v).preds = 0 ∧ (t.seq v).lregs = [] ∧ (t.seq v).cont = 0 ∧ (t.seq v).inflight = [] ∧
      (∀ r, 0 < r → r < 32 → sreg (t.seq v).sregs r =
        if tbit (leAt c.m.payload 8 8) r then leAt c.m.payload (8 + 8 * r) 8 else sreg (s.blk.seq v).sregs r) ∧
      (∀ u, u < f ∨ f + n ≤ u → t.cove u = s.blk.cove u) ∧ { s.blk.cove v with seq := t.seq v } = t.cove v ∧
      t.host.ctxs = s.blk.host.ctxs ∧ { s.blk with tide := t.tide, coves := t.coves, host := t.host } = t) ∧
  (∀ (s : State) (c : Cmd) (f n t0 : Nat), s.blk.onlyWaits c = true → c.m.opcode = 0x0201 → c.m.cls = 0 → c.vars = [t0, 1] →
    c.m.param = f + n * 2 ^ 16 → f + n ≤ 4096 → f < 4096 → c.ctx < 4096 →
    (∀ v, f ≤ v → v < f + n → s.blk.runs v = false ∧ (s.blk.seq v).exit.st ≠ stHWERROR ∧ (s.blk.seq v).exit.st ≠ stUNCONTAINED) →
    s.does (.progStartComplete c.ctx c.seq) fun t => t.host.cmds = [] ∧
      t.answered c.m stOK 0 ((List.range n).flatMap fun i => (s.blk.seq (f + i)).exit.bytes (f + i) false) ∧
      { s.blk with host := t.host } = t ∧ s.blk.hostFor t c.m) ∧
  (∀ (s : State) (m : Msg) (v : Nat), s.blk.takes m = true → m.opcode = 0x0202 → m.param = v + 2 ^ 16 → v < 4096 →
    s.blk.covesOk m.partition [v] = true → s.blk.coveScrub v = false → s.blk.covesReady [v] = none → s.blk.servingBars [v] false = false →
    (none :: (List.range nParts).map some).all (fun k => !s.blk.slackAt k) = true →
    (s.blk.seq v).st = 1 → (s.blk.seq v).inflight = [] → (s.blk.seq v).hold = .none → (s.blk.seq v).fault = none → (s.blk.seq v).stopping = 0 →
    (s.blk.bay (bayOf v)).matchHolder = none →
    s.does (.cmdProgStop m) fun t => t.answered m stOK 0 [] ∧ (t.seq v).st = 5 ∧ (t.seq v).exit.state = 5 ∧
      (t.seq v).exit.index = (s.blk.seq v).pc ∧ (t.seq v).exit.st = 0 ∧ s.blk.covesBut t [v] ∧
      { s.blk with coves := t.coves, bays := t.bays, host := t.host } = t ∧ s.blk.hostFor t m)

/-- R155, R156: CMD_SPAN_OPEN opens a span with its Coves, its cap and its ranges, and takes the checkpoint of each Cove's generators. R160:
CMD_SPAN_CLOSE of the context that opened it waits for the commit point. R154: CMD_WATCH_SET writes the four words of a slot, empties its sample and restarts
its warm-up. -/
def Obligations.SpansOpenAndClose : Prop :=
  (∀ (s : State) (m : Msg) (f n v : Nat), s.blk.takes m = true → m.opcode = 0x0203 → m.partition < 16 →
    ((s.blk.part m.partition).st = 1 ∨ (s.blk.part m.partition).st = 2) → m.param < 16 → (s.blk.span m.partition m.param).opened = false →
    s.blk.spanFault m.partition m.payload = none → coveSet (leAt m.payload 0 8) = some (f, n) → f ≤ v → v < f + n →
    s.does (.cmdSpanOpen m) fun t => t.answered m stOK 0 [] ∧
      (let x := t.span m.partition m.param
       x.opened = true ∧ x.ctx = m.ctx ∧ x.first = f ∧ x.count = n ∧ x.cap = fld (leAt m.payload 8 8) 1 0 ∧ x.phase = 0 ∧ x.log = []) ∧
      { s.blk.cove v with checkpoint := s.blk.gens v } = t.cove v ∧
      (∀ d, d < f ∨ f + n ≤ d → t.cove d = s.blk.cove d) ∧ (∀ k, k < 16 → k ≠ m.param → t.span m.partition k = s.blk.span m.partition k) ∧
      { s.blk with coves := t.coves, spans := t.spans, host := t.host } = t ∧ s.blk.hostFor t m) ∧
  (∀ (s : State) (m : Msg), s.blk.takes m = true → m.opcode = 0x0204 → m.partition < 16 →
    ((s.blk.part m.partition).st = 1 ∨ (s.blk.part m.partition).st = 2) → m.param < 16 →
    let x := s.blk.span m.partition m.param
    x.opened = true → x.ctx = m.ctx → x.closing = none →
    s.does (.cmdSpanClose m) fun t => t.awaits m ∧ t.span m.partition m.param = { x with closing := some m.seq } ∧
      (∀ k, k < 16 → k ≠ m.param → t.span m.partition k = s.blk.span m.partition k) ∧ { s.blk with spans := t.spans, host := t.host } = t ∧ s.blk.hostFor t m) ∧
  (∀ (s : State) (m : Msg), s.blk.takes m = true → m.opcode = 0x0205 → m.partition < 16 →
    ((s.blk.part m.partition).st = 1 ∨ (s.blk.part m.partition).st = 2) → m.param < 256 →
    let w := fun i => leAt m.payload (8 * i) 8
    s.blk.watchFault m.partition (w 0) (w 1) (w 2) (w 3) = none → s.blk.canon →
    s.does (.cmdWatchSet m) fun t => t.answered m stOK 0 [] ∧
      (let k := t.watch m.partition m.param
       k.ctl = w 0 ∧ k.policy = w 1 ∧ k.tsaddr = w 2 ∧ k.bsaddr = w 3 ∧ k.init = false ∧ k.warmLeft = fld (w 0) 31 24 ∧ k.count = 0 ∧ k.sumsq = 0 ∧
       k.closed = 0 ∧ k.surges = 0 ∧ k.ema = (s.blk.watch m.partition m.param).ema) ∧
      (∀ i, i < 256 → i ≠ m.param → t.watch m.partition i = s.blk.watch m.partition i) ∧
      { s.blk.measureCmd m with watches := t.watches, host := t.host } = t ∧ s.blk.hostFor t m)

/-- R160: the commit point of a span whose logged commands have all completed fixes the Tide value of the close and begins the copies of its staging ranges; R163: at
their end each destination holds what its staging range held, the span is free and CMD_SPAN_CLOSE completes, stamped with the commit point. R160:
a drained span replays: its Coves' generators return to the checkpoint, and the replay is counted. -/
def Obligations.SpansCommitAndReplay : Prop :=
  (∀ (s : State) (p n : Nat) (c : Cmd), p < 16 → n < 16 → s.blk.still = true → s.blk.host.cmds = [c] → c.started = true → c.m.opcode = 0x0204 →
    let x := s.blk.span p n
    x.opened = true → x.phase = 0 → x.capped = false → x.ctx = c.ctx → x.closing = some c.seq → (x.log.all fun l => l.done.isSome) = true →
    s.does (.spanCommitPoint p n) fun t => (t.span p n).phase = 2 ∧ t.host.cmds = [{ c with vars := [s.blk.tide] }] ∧
      t.host.ctxs = s.blk.host.ctxs ∧ { s.blk with spans := t.spans, host := t.host } = t) ∧
  (∀ (s : State) (p n t0 src dst len : Nat) (c : Cmd), p < 16 → n < 16 → s.blk.still = true → s.blk.host.cmds = [c] → c.started = true →
    c.m.opcode = 0x0204 → c.flag 13 = false → (s.blk.ctx c.ctx).st = 1 → c.vars = [t0] →
    let x := s.blk.span p n
    x.opened = true → x.phase = 2 → x.ctx = c.ctx → x.closing = some c.seq → x.log = [] → x.outputs = [(src, dst, len)] →
    s.blk.rangeUe src len = none → s.blk.spans = [(p * 16 + n, x)] →
    s.does (.spanStagingCopyDone p n) fun t => t.mem = (s.blk.memWrite p none dst (s.blk.memRead p src len)).mem ∧ t.spans = [] ∧ t.host.cmds = [] ∧
      (t.ctx c.ctx).replies.getLast? = some (c.seq, msgBytes 0x0204 c.ctx true false c.seq stOK 0 t0 []) ∧
      { s.blk.memWrite p none dst (s.blk.memRead p src len) with spans := t.spans, host := t.host } = t) ∧
  (∀ (s : State) (p n v g : Nat), p < 16 → n < 16 → s.blk.rests = true →
    let x := s.blk.span p n
    x.opened = true → x.phase = 1 → s.blk.spanDrained x = true → x.log = [] → x.surging = [] → x.first ≤ v → v < x.first + x.count → g < 64 →
    (s.blk.cove v).checkpoint.length = 64 → s.blk.canon →
    s.does (.replayDrained p n) fun t => (t.span p n).replays = x.replays + 1 ∧ (t.span p n).phase = 0 ∧
      t.gen v g = nth (s.blk.cove v).checkpoint g 0 ∧ (∀ d, d < x.first ∨ x.first + x.count ≤ d → t.cove d = s.blk.cove d) ∧
      { s.blk.cove v with gens := (t.cove v).gens } = t.cove v ∧
      s.blk.baysBut t [] ∧ { s.blk with coves := t.coves, spans := t.spans, bays := t.bays } = t)

/-- R150: the norm of a sample is S + 16 SL, S the largest integer with 2^S ≤ SUMSQ^8, and -32,768 for SUMSQ zero. R151: a closed sample initialises the slot,
warms it up, raises a surge as an up-crossing or a down-crossing whose direction is enabled, with EMA as it was, or moves EMA. The slot whose sample closes takes INIT,
WARM_LEFT, EMA and RESULT from that, holds the norm, maximum and indications of the sample and an empty open sample, and counts a surge that it raises. -/
def Obligations.SampleCloses : Prop :=
  (∀ (sumsq : Nat) (sl : Int), sampleNorm 0 sl = -32768 ∧ (sumsq ≠ 0 → ∃ S : Int, sampleNorm sumsq sl = S + 16 * sl ∧
    (2 : Rat) ^ S ≤ (sumsq : Rat) ^ 8 ∧ ∀ T : Int, (2 : Rat) ^ T ≤ (sumsq : Rat) ^ 8 → T ≤ S)) ∧
  (∀ (k : Watch) (n : Int) (ind : Nat),
    let v := k.judge n ind
    let infSat := tbit ind 0 = true ∨ tbit ind 3 = true
    let zero := tbit ind 2 = true
    let ema16 := k.ema >>> 8
    let moved := k.ema + (n * 256 - k.ema) >>> fld k.ctl 7 4
    let up := tbit k.ctl 2 = true ∧ (ema16 + (fld k.ctl 15 8 : Nat) < n ∨ infSat)
    let down := tbit k.ctl 3 = true ∧ (n < ema16 - (fld k.ctl 23 16 : Nat) ∨ zero)
    (k.init = false → infSat ∨ zero → v.init = false ∧ v.warm = k.warmLeft ∧ v.ema = k.ema ∧ v.surge = 0) ∧
    (k.init = false → ¬ (infSat ∨ zero) → v.init = true ∧ v.warm = k.warmLeft ∧ v.ema = n * 256 ∧ v.surge = 0) ∧
    (k.init = true → k.warmLeft ≠ 0 → v.init = true ∧ v.warm = k.warmLeft - 1 ∧ v.ema = moved ∧ v.surge = 0) ∧
    (k.init = true → k.warmLeft = 0 → v.init = true ∧ v.warm = 0 ∧ (up → v.ema = k.ema ∧ v.surge = 1) ∧ (¬ up → down → v.ema = k.ema ∧ v.surge = 2) ∧
      (¬ up → ¬ down → v.ema = moved ∧ v.surge = 0))) ∧
  (∀ (s : State) (p slot : Nat), p < 16 → slot < 256 →
    let k := s.blk.watch p slot
    let v := k.judge (sampleNorm k.sumsq k.sl) k.closeInd
    fld k.ctl 1 0 ≠ 0 → 0 < k.samples → k.samples ≤ k.count → k.late = [] → (v.surge = 0 ∨ fld k.ctl 1 0 = 1) →
    s.does (.watchSampleClose p slot) fun t =>
      (let k1 := t.watch p slot
       k1.init = v.init ∧ k1.warmLeft = v.warm ∧ k1.ema = v.ema ∧ k1.lastN = sampleNorm k.sumsq k.sl ∧ k1.lastMax = k.maxlog ∧
       k1.lastInd = k.closeInd ∧ k1.lastResult = v.result ∧ k1.closed = (k.closed + 1) % 2 ^ 32 ∧ k1.count = 0 ∧ k1.sumsq = 0 ∧
       k1.surges = if v.surge = 0 then k.surges else min (k.surges + 1) 65535) ∧
      (∀ i, i < 256 → i ≠ slot → t.watch p i = s.blk.watch p i) ∧ { s.blk with watches := t.watches, host := t.host } = t ∧ (v.surge = 0 → t.host = s.blk.host))

/-! ### Memory commands -/

/-- R58, R348, R219: CMD_MEM_WRITE of data in its payload to a local range that its partition reaches, with nothing in its way, writes those bytes;
CMD_MEM_READ of such a range returns its bytes as a BULK frame before the final reply, which counts them. R352, R363, R364: bytes written to HBM for a partition read back for it, and every other byte of HBM reads for it as before, when no unit
written in part is uncorrectable. -/
def Obligations.MemoryWritesAndReads : Prop :=
  (∀ (s : State) (m : Msg), s.blk.takes m = true → m.opcode = 0x0300 → tbit m.flags 2 = false → m.payload ≠ [] →
    s.blk.globalStatus m.partition m.param m.payload.length = (0, 0) → s.blk.isLocal m.param = true →
    s.blk.spanInput m.param m.payload.length = false →
    let a := gLocal m.param
    (regionOf a = 0 → s.blk.hbmHeld a m.payload.length = none ∧ s.blk.partialUe a m.payload.length = none) →
    s.blk.rangeLost a m.payload.length = false →
    s.does (.cmdMemWrite m) fun t => t.answered m stOK 0 [] ∧ { s.blk.memWrite m.partition none a m.payload with host := t.host } = t ∧ s.blk.hostFor t m) ∧
  (∀ (s : State) (m : Msg), s.blk.takes m = true → m.opcode = 0x0301 → leAt m.payload 4 4 = 0 →
    let a := gLocal m.param
    let n := leAt m.payload 0 4
    let h := s.blk.homeOf m.ctx
    0 < n → n ≤ 1048576 → s.blk.globalStatus m.partition m.param n = (0, 0) → s.blk.isLocal m.param = true →
    (regionOf a = 0 → s.blk.hbmHeld a n = none) → s.blk.rangeUe a n = none → s.blk.rangeLost a n = false →
    (s.blk.port h).up = true → (s.blk.port h).txBuf = [] → (s.blk.ctx m.ctx).held = [] →
    s.does (.cmdMemRead m) fun t => t.answered m stOK 0 (leBytes 4 n ++ zeros 4) ∧
      { s.blk with cfg := t.cfg, coves := t.coves, host := t.host } = t ∧ (regionOf a = 0 → { s.blk with host := t.host } = t) ∧ s.blk.hostFor t m ∧
      ∃ q, (q, { kind := 2, ctx := m.ctx, event := false, body := leBytes 2 (m.ctx % 4096) ++ zeros 2 ++ leBytes 4 m.seq ++ leBytes 8 0 ++
        s.blk.memRead m.partition a n : Out }) ∈ (t.port h).txBuf) ∧
  (∀ (b : Blk) (p a : Nat) (v : List Byte), Memory.wf b.mem → b.keyMark p ≠ [] → b.partialUe a v.length = none →
    (∀ i (h : i < v.length), (b.hbmWrite p a v).hbmByte p (a + i) = v[i]) ∧
    (∀ x, x < a ∨ a + v.length ≤ x → (b.hbmWrite p a v).hbmByte p x = b.hbmByte p x))

/-- R370, R365: CMD_DMA_SUBMIT queues the 64-byte descriptors of its payload on queue 16 of the Bay, in order, none running yet. R370: the last descriptor of a CMD_DMA_SUBMIT completes once its work is done: it leaves its queue, is counted, and the command ends ST_OK with its result, the status, detail and PROGRESS of
the descriptor. -/
def Obligations.DescriptorsQueueAndComplete : Prop :=
  (∀ (s : State) (m : Msg), s.blk.takes m = true → m.opcode = 0x0302 → m.param < 256 →
    let y := m.param
    let n := m.plen / 64
    s.blk.covesOk m.partition [16 * y] = true → s.blk.coveScrub (16 * y) = false → s.blk.hlReady (hlOf (16 * y)) = none →
    0 < n → n ≤ 1024 → (s.blk.bay y).descs = [] →
    s.does (.cmdDmaSubmit m) fun t => t.awaits m ∧
      ((t.bay y).descs.map (fun d => (d.queue, d.raw, d.part, d.running)) =
        (List.range n).map fun i => (16, bytesAt m.payload (64 * i) 64, m.partition, false)) ∧
      s.blk.baysBut t [y] ∧ { s.blk with hls := t.hls, bays := t.bays, host := t.host } = t ∧ s.blk.hostFor t m) ∧
  (∀ (s : State) (y : Nat) (d : Desc) (c : Cmd) (prog : Nat), y < nBays → ({ s.blk with bays := [] } : Blk).onlyWaits c = true → s.blk.bays = [(y, s.blk.bay y)] →
    c.m.opcode = 0x302 → c.m.plen = 64 → c.vars = [1] → c.bytes = zeros 8 → (s.blk.bay y).descs = [d] → d.origin = .cmd c.ctx c.seq 0 → d.bound = [] →
    d.out = some (0, 0, prog) → prog < 2 ^ 31 → d.validates = false → d.op = 1 → s.blk.canon →
    s.does (.dmaDescriptorComplete y d.serial) fun t => t.answered c.m stOK 0 (leBytes 4 0 ++ leBytes 4 prog) ∧ t.host.cmds = [] ∧ (t.bay y).descs = [] ∧
      t.cfgGet (cfgBY y + 0xA08) = (s.blk.cfgGet (cfgBY y + 0xA08) + 1) % 2 ^ 64 ∧
      s.blk.cfgBut t [cfgBY y + 0xA08] ∧ { s.blk with cfg := t.cfg, bays := t.bays, host := t.host } = t ∧ s.blk.hostFor t c.m)

/-- R383: CMD_TABLE_BUILD reserves the lowest FREE slot of its Headland as BUILDING; when the build ends from a histogram source, the slot is CURRENT with the
lengths computed from the histogram, and the reply names table, generation and slot. -/
def Obligations.TablesBuild : Prop :=
  (∀ (s : State) (m : Msg) (h tn : Nat), s.blk.takes m = true → m.opcode = 0x0303 → h < 16 → tn < 64 → m.param = h + tn * 256 →
    let w := leAt m.payload 8 8
    (m.partition = 0xFF ∨ s.blk.partOfHl h = some m.partition) → s.blk.coveScrub (256 * h) = false → s.blk.hlReady h = none →
    w < 2 ^ 34 → fld w 31 0 ≠ 0 → (tbit w 32 = true → fld w 31 0 = 128) →
    s.blk.accessStatus m.partition (leAt m.payload 0 8) (fld w 31 0) = (0, 0) → (s.blk.reserveTab h tn).isSome = true →
    s.does (.cmdTableBuild m) fun t => t.awaits m ∧ ∃ i, i < 64 ∧ (s.blk.tab h i).st = 0 ∧ (∀ j, j < i → (s.blk.tab h j).st ≠ 0) ∧
      t.tab h i = { st := 1, table := tn, gen := s.blk.nextGen h tn } ∧
      (∀ g j, (g, j) ≠ (h, i) → t.tab g j = s.blk.tab g j) ∧ { s.blk with hls := t.hls, host := t.host } = t ∧ s.blk.hostFor t m) ∧
  (∀ (s : State) (c : Cmd) (h i : Nat), s.blk.onlyWaits c = true → c.m.opcode = 0x0303 → c.vars = [i] → c.ctx < 4096 → fld c.m.param 3 0 = h →
    let src := leAt c.m.payload 0 8
    let w := leAt c.m.payload 8 8
    let n := fld w 31 0
    let x := s.blk.tab h i
    x.st = 1 → x.table < 64 → x.gen < 16 → s.blk.hbmHeld src n = none → s.blk.rangeUe src n = none → tbit w 32 = false → s.blk.curTab h x.table = none →
    s.does (.tableBuildDone c.ctx c.seq) fun t => t.answered c.m stOK 0 (leBytes 8 (x.table + x.gen * 2 ^ 8 + i * 2 ^ 16)) ∧
      t.tab h i = { x with st := 2, lens := codeLengths (histogram (s.blk.memRead c.m.partition src n)), hold := tbit w 33 } ∧
      (∀ g j, (g, j) ≠ (h, i) → t.tab g j = s.blk.tab g j) ∧ { s.blk with hls := t.hls, host := t.host } = t ∧ s.blk.hostFor t c.m)

/-- R213: CMD_CACHE_INVALIDATE leaves no valid line in the cache portions of its Coves, and their memory as it was. R284: CMD_SPEC_COMMIT of the epoch
that is open, with at most the tentative tokens, adds the accepted ones to LEN and opens the next epoch, in the state word in memory. -/
def Obligations.CacheAndSpeculationCommands : Prop :=
  (∀ (s : State) (m : Msg) (f n v : Nat), s.blk.takes m = true → m.opcode = 0x0304 → s.blk.covesFree m f n = true → f ≤ v → v < f + n → s.blk.canon →
    s.does (.cmdCacheInvalidate m) fun t => t.answered m stOK 0 [] ∧ { s.blk.cove v with lines := [] } = t.cove v ∧
      (∀ d, d < f ∨ f + n ≤ d → t.cove d = s.blk.cove d) ∧ { s.blk with coves := t.coves, host := t.host } = t ∧ s.blk.hostFor t m) ∧
  (∀ (s : State) (m : Msg) (q : KvSeq) (k : Kx), s.blk.takes m = true → m.opcode = 0x0402 → leAt m.payload 0 8 < 2 ^ 27 →
    let n := fld (leAt m.payload 0 8) 22 0
    let e := fld (leAt m.payload 0 8) 26 23
    s.blk.hbmHeld m.param 128 = none → s.blk.canon → s.blk.keyMark m.partition ≠ [] →
    kvOpen m.param { b := s.blk.entered m, y := 0, d := { serial := 0, queue := 0, raw := [], cove := 0, part := m.partition, origin := .cmd 0 0 0 } } =
      .ok (q, k) →
    n ≤ q.tent → e = q.epoch → ((s.blk.entered m).specCommit m.partition m.param n e).1 = stOK →
    s.does (.cmdSpecCommit m) fun t => t.answered m stOK 0 [] ∧ t.hbmRead m.partition q.addr 8 =
      leBytes 8 { q with len := q.len + n, prev := min n 8, tent := 0, epoch := (q.epoch + 1) % 16 }.stateWord ∧
      { ((s.blk.entered m).specCommit m.partition m.param n e).2.2 with host := t.host } = t ∧ s.blk.hostFor t m)

/-! ### Tile instructions -/

/-- R184, R174: NOP changes no register; SLI, SOP and SGET write the register they name, which stays 0 when it is s0; SCMP sets the predicate it names. Issue
goes on at the next instruction, no other Cove changes, and memory does not. -/
def Obligations.RegisterInstructions : Prop :=
  ∀ (s : State) (c : Nat), s.blk.canon →
    let q := s.blk.seq c
    let w := q.word
    (s.blk.comes c 0x00 = true → s.does (.nop c) fun t => t.seq c = q.did id ∧ s.blk.seqOnly t c) ∧
    (s.blk.comes c 0x04 = true → s.does (.sli c) fun t => s.blk.seqOnly t c ∧ (t.seq c).pc = q.next.pc ∧ (t.seq c).preds = q.preds ∧
      ∀ r, sreg (t.seq c).sregs r = if r = fld w 95 91 ∧ r ≠ 0 then fld w 63 0 else sreg q.sregs r) ∧
    (s.blk.comes c 0x05 = true → s.does (.sop c) fun t => s.blk.seqOnly t c ∧ (t.seq c).pc = q.next.pc ∧ (t.seq c).preds = q.preds ∧
      ∀ r, sreg (t.seq c).sregs r = if r = fld w 95 91 ∧ r ≠ 0 then
        sopFn (fld w 80 77) (sreg q.sregs (fld w 90 86)) (operandB q (tbit w 76) (fld w 85 81) (fld w 75 44)) else sreg q.sregs r) ∧
    (s.blk.comes c 0x06 = true → s.does (.scmp c) fun t => s.blk.seqOnly t c ∧ (t.seq c).pc = q.next.pc ∧ (t.seq c).sregs = q.sregs ∧
      ∀ i, i < 8 → tbit (t.seq c).preds i = if i = fld w 95 93 then
        (ccFn (fld w 82 80) (sreg q.sregs (fld w 92 88)) (operandB q (tbit w 79) (fld w 87 83) (fld w 78 47)) &&
          (!tbit w 46 || (tbit q.preds (fld w 45 43) != tbit w 42))) else tbit q.preds i) ∧
    (s.blk.comes c 0x09 = true → fld w 90 87 < 5 → s.does (.sget c) fun t => s.blk.seqOnly t c ∧ (t.seq c).pc = q.next.pc ∧ (t.seq c).preds = q.preds ∧
      ∀ r, sreg (t.seq c).sregs r = if r = fld w 95 91 ∧ r ≠ 0 then
        (nth [c, s.blk.slice.devid, s.blk.tide, q.cont, s.blk.partNum c] (fld w 90 87) 0) % 2 ^ 64 else sreg q.sregs r)

/-- R174, R184, R185, R178, R166, R170: BR goes on at its target; LOOP sets its counter and enters its body, or with a count of zero goes on after
its end; at the end of a body the counter falls and issue goes back to its start, or past it after the last pass; a false guard skips an instruction; HALT with nothing uncompleted ends the program HALTED with an exit record that names its index; and issue
at the loaded count ends it FAULTED with the FORMAT detail. -/
def Obligations.ControlInstructions : Prop :=
  ∀ (s : State) (c : Nat),
    let q := s.blk.seq c
    let w := q.word
    (s.blk.comes c 0x02 = true → s.does (.br c) fun t => s.blk.seqOnly t c ∧ (t.seq c).pc = fld w 95 86 ∧ (t.seq c).sregs = q.sregs ∧ (t.seq c).preds = q.preds) ∧
    (s.blk.comes c 0x03 = true → tbit w 93 = false → fld w 92 77 ≠ 0 → s.does (.loop c) fun t => s.blk.seqOnly t c ∧ (t.seq c).pc = q.pc + 1 ∧
      (t.seq c).lreg (fld w 95 94) = fld w 92 77 ∧ (t.seq c).loops = (fld w 95 94, q.pc + 1, fld w 76 67) :: q.loops ∧
      (t.seq c).sregs = q.sregs ∧ (t.seq c).preds = q.preds) ∧
    (s.blk.comes c 0x03 = true → tbit w 93 = true → sreg q.sregs (fld w 81 77) = 0 → q.loops = [] → s.does (.loop c) fun t =>
      s.blk.seqOnly t c ∧ (t.seq c).pc = fld w 76 67 + 1 ∧ (t.seq c).loops = [] ∧ (t.seq c).sregs = q.sregs ∧ (t.seq c).preds = q.preds) ∧
    (∀ k start rest, s.blk.comes c 0x00 = true → q.loops = (k, start, q.pc) :: rest → 1 < q.lreg k → s.does (.nop c) fun t => s.blk.seqOnly t c ∧ (t.seq c).pc = start ∧
      (t.seq c).lreg k = q.lreg k - 1 ∧ (t.seq c).loops = q.loops ∧ (t.seq c).sregs = q.sregs ∧ (t.seq c).preds = q.preds) ∧
    (∀ k start, s.blk.comes c 0x00 = true → q.loops = [(k, start, q.pc)] → q.lreg k = 1 → swf (fun _ => 0) q.lregs = true → s.does (.nop c) fun t =>
      s.blk.seqOnly t c ∧ (t.seq c).pc = q.pc + 1 ∧ (t.seq c).lreg k = 0 ∧ (t.seq c).loops = [] ∧ (t.seq c).sregs = q.sregs ∧ (t.seq c).preds = q.preds) ∧
    (c < nCoves → s.blk.canIssue c = true → q.pc < q.count → wOpcode w = 0x00 → q.guardOk w = false → q.inflight = [] → s.does (.nop c) fun t =>
      t.seq c = q.next ∧ s.blk.seqOnly t c) ∧
    (s.blk.comes c 0x01 = true → (s.blk.bay (bayOf c)).matchHolder ≠ some c → s.does (.halt c) fun t =>
      s.blk.seqOnly t c ∧ (t.seq c).st = 3 ∧ (t.seq c).exit.state = 3 ∧ (t.seq c).exit.index = q.pc ∧ (t.seq c).exit.st = stOK ∧
      (t.seq c).exit.issued = (q.issuedHere + 1) % 2 ^ 32 ∧ (t.seq c).exit.tide = s.blk.tide ∧ (t.seq c).sregs = q.sregs ∧ (t.seq c).preds = q.preds) ∧
    (c < nCoves → s.blk.canIssue c = true → q.count ≤ q.pc → q.count ≤ 1024 → q.inflight = [] → (s.blk.bay (bayOf c)).matchHolder ≠ some c →
      s.does (.programRunoff c) fun t => s.blk.seqOnly t c ∧ (t.seq c).st = 4 ∧ (t.seq c).exit.state = 4 ∧ (t.seq c).exit.st = stFORMAT ∧
        (t.seq c).exit.det = 0xD * 4096 + q.count ∧ (t.seq c).exit.index = q.pc ∧
        (t.seq c).sregs = q.sregs ∧ (t.seq c).preds = q.preds)

/-- R184, R175: SLD reads the 8 bytes at its address, which is aligned and within the program's region, into the register it names, and SST writes a
register there; every other byte of memory and every other register is unchanged. -/
def Obligations.TidepoolWordInstructions : Prop :=
  ∀ (s : State) (c : Nat), s.blk.canon →
    let q := s.blk.seq c
    let w := q.word
    let a := xaddr w q.sregs 85 64
    a % 8 = 0 → a + 8 ≤ s.blk.progEnd c →
    (s.blk.comes c 0x07 = true → s.does (.sld c) fun t => { s.blk with cfg := t.cfg, coves := t.coves } = t ∧ (t.seq c).pc = q.next.pc ∧ (t.seq c).preds = q.preds ∧
      (∀ r, sreg (t.seq c).sregs r = if r = fld w 90 86 ∧ r ≠ 0 then leNat (s.blk.tpRead c a 8) else sreg q.sregs r) ∧
      ∀ d, d ≠ c → t.cove d = s.blk.cove d) ∧
    (s.blk.comes c 0x08 = true → s.does (.sst c) fun t => t.tpRead c a 8 = leBytes 8 (sreg q.sregs (fld w 90 86)) ∧
      (∀ x, x < tpAddr c a ∨ tpAddr c a + 8 ≤ x → t.peek x = s.blk.peek x) ∧ t.seq c = q.did id ∧ { s.blk with cfg := t.cfg, mem := t.mem, coves := t.coves } = t ∧
      ∀ d, d ≠ c → t.cove d = s.blk.cove d)

/-- R194, R192: WAIT and DMAW with nothing uncompleted issue at once; TWAIT issues once the Tide clock has reached its value and holds until then; BAR holds the
Cove in its scope's barrier until the release, which is due when as many Coves as it names have arrived and starts the next generation. -/
def Obligations.WaitingInstructions : Prop :=
  (∀ (s : State) (c : Nat),
    let q := s.blk.seq c
    let w := q.word
    (s.blk.comes c 0x81 = true → s.does (.wait c) fun t => t.seq c = q.did id ∧ s.blk.seqOnly t c) ∧
    (s.blk.comes c 0x61 = true → s.does (.dmaw c) fun t => t.seq c = q.did id ∧ s.blk.seqOnly t c) ∧
    (s.blk.comes c 0x82 = true → s.does (.twait c) fun t => s.blk.seqOnly t c ∧
      t.seq c = if sreg q.sregs (fld w 95 91) ≤ s.blk.tide then q.did id else { q with hold := .twait (sreg q.sregs (fld w 95 91)) }) ∧
    (∀ v, c < nCoves → q.st = 1 → q.hold = .twait v → s.does (.twaitRelease c) fun t => t.tide = max s.blk.tide v ∧
      t.seq c = ({ q with hold := .none } : Seq).did id ∧ s.blk.covesBut t [c] ∧ { s.blk with tide := t.tide, cfg := t.cfg, coves := t.coves } = t) ∧
    (s.blk.comes c 0x80 = true →
      let i := (s.blk.scopeOf c (fld w 95 94)).1
      let x := s.blk.barrier (barKey (fld w 95 94) i (fld w 93 90))
      fld w 89 77 ≤ (s.blk.scopeOf c (fld w 95 94)).2 → x.due = false → (x.k = 0 ∨ x.k = fld w 89 77) →
      s.does (.bar c) fun t => t.seq c = { q with hold := .bar (fld w 95 94) i (fld w 93 90) } ∧
        t.barrier (barKey (fld w 95 94) i (fld w 93 90)) =
          { x with k := fld w 89 77, arrived := x.arrived ++ [c], due := (x.arrived ++ [c]).length == fld w 89 77 } ∧
        (∀ k, k ≠ barKey (fld w 95 94) i (fld w 93 90) → t.barrier k = s.blk.barrier k) ∧ s.blk.covesBut t [c] ∧ { s.blk with coves := t.coves, barriers := t.barriers } = t)) ∧
  (∀ (s : State) (scope i bid : Nat), scope < 3 → i < 256 → bid < 16 →
    let x := s.blk.barrier (barKey scope i bid)
    x.due = true → x.arrived.Nodup → (∀ c ∈ x.arrived, (s.blk.seq c).hold = .bar scope i bid) →
    s.does (.barRelease scope i bid) fun t => t.barrier (barKey scope i bid) = { gen := x.gen + 1 } ∧
      (∀ k, k ≠ barKey scope i bid → t.barrier k = s.blk.barrier k) ∧ { s.blk with cfg := t.cfg, coves := t.coves, barriers := t.barriers } = t ∧
      (∀ c ∈ x.arrived, t.seq c = ({ s.blk.seq c with hold := .none } : Seq).did id) ∧
      ∀ c, c ∉ x.arrived → t.cove c = s.blk.cove c)

/-- R73, R74, R69: five trits share a byte of T5, digit j mod 5 of byte j / 5, bytes from 243 up are a fault, and padding is written as digit 1; T2 and packed elements read back
as written. R76: the digits of an integer are balanced ternary. R86, R87: RNE rounds a magnitude to the nearest step, a tie to an even one, RTZ down, SR up when fraction and draw reach
2^32. R88: a draw is the C function of the rule; no nonzero state leads to zero, and whitening is one to one. -/
def Obligations.NumbersPackAndRound : Prop :=
  (∀ (b : List Byte) (off n : Nat), t5Len n = (n + 4) / 5 ∧
    (let r := bytesAt b off (t5Len n)
     ((∀ i, i < t5Len n → (nth r i 0).toNat < 243) → t5Read b off n = .ok ((List.range n).map fun j => (((nth r (j / 5) 0).toNat / 3 ^ (j % 5) % 3 : Nat) : Int) - 1)) ∧
     ∀ i, i < t5Len n → 243 ≤ (nth r i 0).toNat → (∀ j, j < i → (nth r j 0).toNat < 243) → t5Read b off n = .error (off + i))) ∧
  (∀ l : List Int, (∀ t ∈ l, t = -1 ∨ t = 0 ∨ t = 1) → (t5Pack l).length = t5Len l.length ∧ t5Unpack l.length (t5Pack l) = l ∧ t2Unpack l.length (t2Pack l) = l ∧
    ∀ i, i < t5Len l.length → ((nth (t5Pack l) i 0).toNat : Int) = ((List.range 5).map fun k => (nth l (5 * i + k) 0 + 1) * 3 ^ k).sum) ∧
  (∀ (f : Nat) (l : List Nat), (∀ x ∈ l, x < 2 ^ elBits f) → unpackEls f l.length (packEls f l) = l) ∧
  (∀ (k : Nat) (x : Int), (btDigits k x).length = k ∧ (∀ d ∈ btDigits k x, d = -1 ∨ d = 0 ∨ d = 1) ∧ (2 * |x| < 3 ^ k → btVal (btDigits k x) = x)) ∧
  (∀ (draw num den : Nat) (e g : Int), 0 < den →
    let x : Rat := num / den * (2 : Rat) ^ (e - g)
    ((roundMag 1 draw num den e g : Nat) : Int) = ⌊x⌋ ∧
    (let q : Rat := roundMag 0 draw num den e g
     |x - q| ≤ 1 / 2 ∧ (|x - q| = 1 / 2 → roundMag 0 draw num den e g % 2 = 0)) ∧
    ((roundMag 2 draw num den e g : Nat) : Int) = if 2 ^ 32 ≤ ⌊(x - ⌊x⌋) * 2 ^ 32⌋ + (draw : Int) then ⌊x⌋ + 1 else ⌊x⌋) ∧
  (∀ s : BitVec 32,
    let shift := fun (x : BitVec 32) => x >>> 1 ^^^ (if x.getLsbD 0 then 0x80200003#32 else 0#32)
    let x := shift^[32] s
    let y := (x ^^^ x >>> 16) * 0x2C1B3C6D#32
    drawNext s.toNat = x.toNat ∧ drawVal s.toNat = (y ^^^ y >>> 15).toNat ∧ (s ≠ 0#32 → x ≠ 0#32)) ∧
  (∀ x y, x < 2 ^ 32 → y < 2 ^ 32 → whiten x = whiten y → x = y)

/-- R124: a contribution P × 2^X lands in an entry in the order of the rule's tests: INF stays; one beyond the window makes INF; else what is truncated toward zero is added, inexact
when that loses something, and a sum beyond the range makes INF. R125: contributions whose magnitudes, with the entry's, stay within the range add up in whatever order they come, and one
beyond the window makes INF wherever it comes. -/
def Obligations.ContributionsLand : Prop :=
  (∀ (dom : Nat) (l p x : Int) (s : Landed),
    let big : Int := 2 ^ (domBits dom - 1)
    let exact : Rat := p * (2 : Rat) ^ (x - l)
    let c : Int := if exact < 0 then ⌈exact⌉ else ⌊exact⌋
    (s.v = infVal dom → land dom l p x s = s) ∧
    (s.v ≠ infVal dom → (big : Rat) ≤ |exact| → land dom l p x s = { s with v := infVal dom, inf := s.inf + 1 }) ∧
    (s.v ≠ infVal dom → |exact| < (big : Rat) →
      let k := if (c : Rat) = exact then s.inexact else s.inexact + 1
      land dom l p x s = if -big < s.v + c ∧ s.v + c < big then { s with v := s.v + c, inexact := k } else { v := infVal dom, inexact := k, inf := s.inf + 1 })) ∧
  (∀ (dom : Nat) (l : Int) (cs : List (Int × Int)) (s : Landed),
    let big : Int := 2 ^ (domBits dom - 1)
    let exact := fun (q : Int × Int) => (q.1 : Rat) * (2 : Rat) ^ (q.2 - l)
    let c := fun (q : Int × Int) => if exact q < 0 then ⌈exact q⌉ else ⌊exact q⌋
    s.v ≠ infVal dom →
    (|s.v| + (cs.map fun q => |c q|).sum < big → (landAll dom l cs s).v = s.v + (cs.map c).sum) ∧
    ((∃ q ∈ cs, (big : Rat) ≤ |exact q|) → (landAll dom l cs s).v = infVal dom)) ∧
  (∀ (b : Blk) (c dom anchor r : Nat) (cols : List (List (Int × Int))), swf (fun _ => ({} : Cove)) b.coves = true →
    let y := b.cove c
    swf cfgReset b.cfg = true → swf (fun _ => List.replicate 32 0) y.acm = true → (y.accRow r).length = 32 → (y.accRow (r + 1)).length = 32 → cols.length = 32 →
    let z := b.landRow c dom anchor r cols
    let out := ((y.logical dom r).zip cols).map fun q => landAll dom (unitL dom anchor) q.2 { v := q.1 }
    (z.cove c).logical dom r = out.map (·.v) ∧ (∀ q, q < r ∨ r + (physRows dom r 1).length ≤ q → (z.cove c).accRow q = y.accRow q) ∧
    z.cfgGet (cfgCV c + 0x1800) % 2 ^ 64 = (b.cfgGet (cfgCV c + 0x1800) + (out.map (·.inexact)).sum) % 2 ^ 64 ∧
    z.cfgGet (cfgCV c + 0x1808) % 2 ^ 64 = (b.cfgGet (cfgCV c + 0x1808) + (out.map (·.inf)).sum) % 2 ^ 64 ∧
    b.covesBut z [c] ∧ b.cfgBut z [cfgCV c + 0x1800, cfgCV c + 0x1808] ∧ { b with coves := z.coves, cfg := z.cfg } = z)

/-- R94, R95, R103, R105: MACC of a slot of trits adds, for every token and column, the products of its plane's 32 trits of each block with the block's elements to the entry of the token's row
and the column, at the exponent of the block (R96, R124); other rows, other Coves and memory stay. -/
def Obligations.ArrayAccumulates : Prop :=
  ∀ (b : Blk) (c w : Nat) (regs : List (Nat × Nat)), swf (fun _ => ({} : Cove)) b.coves = true → wOpcode w = 0x11 →
    let y := b.cove c
    let s := y.slot (arrSlot w)
    let m := arrM w regs
    let toks := b.streamTokens c w regs m 0
    let dom := arrDom w
    swf (fun _ => List.replicate 32 0) y.acm = true → (∀ r, (y.accRow r).length = 32) →
    s.st = 2 → s.layout = 0 → wFmtB w = 0 → 0 < m → toks.2 = none → (b.cfgGet (cfgCV c + 0x1000) % 2 = 0 ∨ tbit s.zero (arrDepth w) = false) →
    let z := b.runUnit c w regs
    let plane := nth s.planes (arrDepth w) []
    z.2 = okDone ∧ { b with coves := z.1.coves, cfg := z.1.cfg } = z.1 ∧ b.covesBut z.1 [c] ∧
    (∀ k col, k < m → col < 32 →
      nth ((z.1.cove c).logical dom (physOf dom (arrRow w) k)) col 0 =
        (landAll dom (unitL dom (arrAnchor w)) ((nth toks.1 k []).zipIdx.map fun q =>
          (((List.range 32).map fun i => nth plane (64 * col + 32 * q.2 + i) 0 * nth q.1.1 i 0).sum, q.1.2))
          { v := nth (y.logical dom (physOf dom (arrRow w) k)) col 0 }).v) ∧
    ∀ r, r < arrRow w ∨ arrRow w + (physRows dom (arrRow w) m).length ≤ r → (z.1.cove c).accRow r = y.accRow r

/-- R177, R181, R183, R230: a unit instruction that passes its check at issue, whose unit and shared engine are free, starts at once: the machine is that of its own work, and
its entry holds how it ends until it completes. SPMATCH does so in both phases, and SCATTER for each KIND of descriptor.
That the work is done at the start and its end is an event of its own is the model's choice (log entry 67). -/
def Obligations.UnitInstructionsRun : Prop :=
  ∀ (s : State) (c op : Nat) (i : Instr),
    let w := (s.blk.seq c).word
    let k := s.blk.scatterKind c w
    s.blk.comes c op = true → s.blk.unitFree c = true →
    ((i, op) ∈ [(Instr.macc c, 0x11), (.ripple c, 0x12), (.binacc c, 0x13), (.planex c, 0x14), (.aclr c, 0x20), (.acvt c, 0x21), (.aread c, 0x22),
        (.vew c, 0x30), (.vfn c, 0x31), (.vred c, 0x32), (.vcvt c, 0x33), (.vopt c, 0x34), (.tmov c, 0x40), (.tstr c, 0x41), (.ttrn c, 0x42),
        (.tput c, 0x43), (.tget c, 0x44), (.cmm c, 0x62), (.metaCheck c, 0x70), (.merge c, 0x73)] ∨
      (op = 0x71 ∧ i = if tbit w 68 then .spmatchProbe c else .spmatchLoad c) ∨
      (op = 0x72 ∧ (i, k) ∈ [(Instr.scatterAccum c, 1), (.scatterFlush c, 2), (.scatterClear c, 3), (.scatterExpand c, 4), (.predict c, 5), (.tally c, 6)])) →
    s.does i fun t =>
      let r := (s.blk.unitBegins c).runUnit c w (s.blk.seq c).sregs
      t = r.1.begun c (s.blk.unitEntry c) (some r.2)

/-- R100, R192, R181, R182, R166: WLOAD makes its slot LOADING, and the end of the fill makes it READY, or EMPTY with ST_FORMAT; DMAQ gives its descriptors, in order, to the queue of
its Cove at the Bay's DMA engine; a queued instruction that completes leaves its queue, and with a status that is no success sets CONT and clears p7 when it has
CONT, else ends the program FAULTED. -/
def Obligations.LoadsAndCompletions : Prop :=
  (∀ (s : State) (c : Nat), s.blk.comes c 0x10 = true → s.blk.unitFree c = true →
    let w := (s.blk.seq c).word
    0 < wlN w →
    s.does (.wload c) fun t => ((t.cove c).slot (wlSlot w)).st = 1 ∧ ((t.cove c).slot (wlSlot w)).layout = wlLayout w ∧ (t.seq c).inflight = [{ s.blk.unitEntry c with started := true }] ∧
      s.blk.covesBut t [c] ∧ { s.blk with cfg := t.cfg, coves := t.coves } = t) ∧
  (∀ (s : State) (c k : Nat) (e : Entry), c < nCoves → k < 2 → (s.blk.seq c).inflight = [e] → wOpcode e.word = 0x10 → e.started = true → e.done = none → wlSlot e.word = k →
    (s.blk.seq c).stopping = 0 →
    let x := (s.blk.cove c).slot k
    s.does (.wloadFillDone c k) fun t => (t.cove c).slot k = { x with st := if x.bad.isNone then 2 else 0, bad := none } ∧
      (t.seq c).inflight = [{ e with done := some (match x.bad with | none => okDone | some d => fault stFORMAT d) }] ∧
      s.blk.covesBut t [c] ∧ { s.blk with coves := t.coves } = t) ∧
  (∀ (s : State) (c : Nat), s.blk.comes c 0x60 = true → s.blk.unitFree c = true →
    let w := (s.blk.seq c).word
    let n := fld w 68 58
    0 < n → n ≤ s.blk.dmaRoom c →
    s.does (.dmaq c) fun t => (t.bay (bayOf c)).descs.map Desc.raw = (s.blk.bay (bayOf c)).descs.map Desc.raw ++
        ((List.range n).map fun i => s.blk.tpRead c (xaddr w (s.blk.seq c).sregs 90 69 + 64 * i) 64) ∧
      (t.seq c).inflight = [{ s.blk.unitEntry c with started := true, fed := n }] ∧ s.blk.covesBut t [c] ∧ s.blk.baysBut t [bayOf c] ∧
      { s.blk with cfg := t.cfg, hls := t.hls, coves := t.coves, bays := t.bays } = t) ∧
  (∀ (s : State) (c k : Nat) (e : Entry) (d : Done), c < nCoves → k < 5 → (s.blk.seq c).inflight = [e] → e.queue = k → e.done = some d → (s.blk.seq c).st = 1 →
    (s.blk.seq c).stopping = 0 → (s.blk.seq c).fault = none → (s.blk.bay (bayOf c)).matchHolder ≠ some c → d.det < 2 ^ 16 → d.det ≠ openDet →
    s.does (.unitInstrComplete c k) fun t => (t.seq c).inflight = [] ∧ s.blk.covesBut t [c] ∧ { s.blk with coves := t.coves } = t ∧ (t.seq c).sregs = (s.blk.seq c).sregs ∧
      (wCont e.word = true → d.st ≠ stHWERROR → d.st ≠ stUNCONTAINED →
        (t.seq c).st = 1 ∧ (t.seq c).cont = contWord d.st d.det e.index d.rows ∧ tbit (t.seq c).preds 7 = benign d.st) ∧
      (wCont e.word = false → benign d.st = true → (t.seq c).st = 1 ∧ (t.seq c).cont = (s.blk.seq c).cont ∧ (t.seq c).preds = (s.blk.seq c).preds) ∧
      (wCont e.word = false → benign d.st = false → (t.seq c).st = 4 ∧ (t.seq c).exit.state = 4 ∧ (t.seq c).exit.st = d.st ∧ (t.seq c).exit.det = d.det ∧
        (t.seq c).exit.index = e.index ∧ (t.seq c).exit.rows = d.rows))

/-- R220 to R222: RPUT with a credit takes it and sends its bytes towards slot TAIL, which then moves on; the slot is FULL once they have landed; RGET
of the slot at HEAD, once FULL, copies it, and when it completes the slot is EMPTY, HEAD moves on and an EMPTY mark returns, which gives the producer its
credit back. One that still waits at the ring's timeout ends with ST_RING_TIMEOUT. -/
def Obligations.RingInstructions : Prop :=
  (∀ (s : State) (c : Nat), s.blk.comes c 0x50 = true → s.blk.unitFree c = true →
    let w := (s.blk.seq c).word
    let n := fld w 50 31
    let d := rputOwner w
    let r := (s.blk.cove d).ring (rgRing w)
    ∀ j, s.blk.prodIdx c d (rgRing w) = some j → ((s.blk.cove c).prodEnt j).valid = true → 0 < ((s.blk.cove c).prodEnt j).credits → n ≤ r.slot →
    s.does (.rput c) fun t =>
      (t.cove c).prodEnt j = { (s.blk.cove c).prodEnt j with credits := ((s.blk.cove c).prodEnt j).credits - 1, tail := (((s.blk.cove c).prodEnt j).tail + 1) % r.count } ∧
      (t.cove d).ring (rgRing w) = { r with landing := r.landing ++ [(((s.blk.cove c).prodEnt j).tail, s.blk.tpRead c (xaddr w (s.blk.seq c).sregs 72 51) n)] } ∧
      s.blk.covesBut t [c, d] ∧ { s.blk with cfg := t.cfg, coves := t.coves } = t) ∧
  (∀ (s : State) (owner ring k : Nat) (v : List Byte), owner < nCoves → ring < 64 →
    let r := (s.blk.cove owner).ring ring
    r.landing = [(k, v)] → s.blk.tpLost owner = false → r.en = true → Memory.wf s.blk.mem → (s.blk.seq owner).inflight = [] → (s.blk.seq owner).stopping = 0 →
    (s.blk.seq owner).fault = none → (s.blk.seq r.producer).inflight = [] → (s.blk.seq r.producer).stopping = 0 → (s.blk.seq r.producer).fault = none →
    s.does (.ringSlotFull owner ring) fun t => (t.cove owner).ring ring = { r with landing := [], full := r.full ++ [k] } ∧
      t.tpRead owner (r.base + k * r.slot) v.length = v ∧
      (∀ x, x < tpAddr owner (r.base + k * r.slot) ∨ tpAddr owner (r.base + k * r.slot) + v.length ≤ x → t.peek x = s.blk.peek x) ∧
      s.blk.covesBut t [owner, r.producer] ∧ { s.blk with cfg := t.cfg, mem := t.mem, coves := t.coves } = t) ∧
  (∀ (s : State) (c : Nat), s.blk.comes c 0x51 = true → s.blk.unitFree c = true → Memory.wf s.blk.mem →
    let w := (s.blk.seq c).word
    let n := fld w 62 43
    let r := (s.blk.cove c).ring (rgRing w)
    r.full.contains r.head = true → n ≤ r.slot →
    s.does (.rget c) fun t => (t.seq c).inflight = [{ s.blk.unitEntry c with started := true, done := some okDone }] ∧
      t.tpRead c (xaddr w (s.blk.seq c).sregs 84 63) n = s.blk.tpRead c (r.base + r.head * r.slot) n ∧
      (∀ x, x < tpAddr c (xaddr w (s.blk.seq c).sregs 84 63) ∨ tpAddr c (xaddr w (s.blk.seq c).sregs 84 63) + n ≤ x → t.peek x = s.blk.peek x) ∧
      s.blk.covesBut t [c] ∧ { s.blk with cfg := t.cfg, mem := t.mem, coves := t.coves } = t) ∧
  (∀ (s : State) (c : Nat) (e : Entry), c < nCoves → (s.blk.seq c).inflight = [e] → e.queue = 5 → wOpcode e.word = 0x51 → e.done = some okDone → (s.blk.seq c).st = 1 →
    (s.blk.seq c).stopping = 0 → (s.blk.seq c).fault = none → wCont e.word = false →
    let r := (s.blk.cove c).ring (rgRing e.word)
    r.en = true → r.full.contains r.head = true →
    s.does (.unitInstrComplete c 5) fun t => (t.seq c).inflight = [] ∧
      (t.cove c).ring (rgRing e.word) = { r with full := r.full.filter (· != r.head), head := (r.head + 1) % r.count, returning := r.returning + 1 } ∧ s.blk.covesBut t [c] ∧ { s.blk with coves := t.coves } = t) ∧
  (∀ (s : State) (owner ring j : Nat), owner < nCoves → ring < 64 →
    let r := (s.blk.cove owner).ring ring
    let p := (s.blk.cove r.producer).prodEnt j
    r.en = true → 0 < r.returning → s.blk.prodIdx r.producer owner ring = some j → p.valid = true → (s.blk.seq r.producer).inflight = [] →
    (s.blk.seq r.producer).stopping = 0 → (s.blk.seq r.producer).fault = none →
    s.does (.ringCreditReturn owner ring) fun t => (t.cove owner).ring ring = { r with returning := r.returning - 1 } ∧
      (t.cove r.producer).prodEnt j = { p with credits := p.credits + 1 } ∧
      s.blk.covesBut t [owner, r.producer] ∧ { s.blk with coves := t.coves } = t) ∧
  (∀ (s : State) (c : Nat) (e : Entry), c < nCoves → (s.blk.seq c).inflight = [e] → e.queue = 5 → wOpcode e.word = 0x51 → e.started = false → (s.blk.seq c).stopping = 0 →
    let r := (s.blk.cove c).ring (rgRing e.word)
    r.en = true → fld e.word 62 43 ≤ r.slot → r.full.contains r.head = false →
    s.does (.ringWaitTimeout c) fun t => (t.seq c).inflight = [{ e with started := true, done := some (fault stRINGTIMEOUT) }] ∧
      s.blk.covesBut t [c] ∧ { s.blk with coves := t.coves } = t)

/-! ### Tidepools, descriptors and HBM -/

/-- R218, R226, R214, R225, R465: bytes that arrive through network ingress are stored where they are addressed, and a read leaves memory as it was; a local write of a grant word sets
the grant of its inbox, which then reaches its source; the change of a cache portion and the clearing of a Cove end, and the end of a clearing completes the CMD_RESET that waits. -/
def Obligations.TidepoolEvents : Prop :=
  (∀ (s : State) (a : Ingress), ingressFits a = true → s.blk.tpLost a.cove = false → Memory.wf s.blk.mem →
    s.does (.tidepoolIngress a) fun t => s.blk.covesBut t [a.cove] ∧ { s.blk with cfg := t.cfg, mem := t.mem, coves := t.coves } = t ∧ (a.kind = .read → t.mem = s.blk.mem) ∧
      (a.kind ≠ .read → t.tpRead a.cove a.addr a.data.length = a.data ∧
        ∀ x, x < tpAddr a.cove a.addr ∨ tpAddr a.cove a.addr + a.data.length ≤ x → t.peek x = s.blk.peek x)) ∧
  (∀ (s : State) (c i v : Nat), c < nCoves → i < 16 → v < 2 ^ 64 → Memory.wf s.blk.mem →
    let x := (s.blk.cove c).inbox i
    x.en = true → (s.blk.cove c).inboxes = [(i, x)] → x.gaddr + 8 ≤ x.base →
    s.does (.grantWordWrite c i v) fun t => ((t.cove c).inbox i) = { x with grant := v % 2 ^ 32 } ∧ t.tpNat c x.gaddr 8 = v ∧
      (∀ j, j < tpAddr c x.gaddr ∨ tpAddr c x.gaddr + 8 ≤ j → t.peek j = s.blk.peek j) ∧ s.blk.covesBut t [c] ∧ { s.blk with cfg := t.cfg, mem := t.mem, coves := t.coves } = t) ∧
  (∀ (s : State) (c i j : Nat), c < nCoves → i < 16 →
    let x := (s.blk.cove c).inbox i
    x.en = true → x.srck = 0 → s.blk.credIdx 0 x.src c i = some j → (s.blk.credAt 0 x.src j).valid = true →
    s.does (.grantUpdateArrive c i) fun t => t.credAt 0 x.src j = { s.blk.credAt 0 x.src j with grant := x.grant } ∧ s.blk.covesBut t [x.src] ∧ { s.blk with coves := t.coves } = t) ∧
  (∀ (s : State) (c : Nat), c < nCoves → swf (fun _ => ({} : Cove)) s.blk.coves = true →
    s.does (.cacheChangeDone c) fun t => t.cove c = { s.blk.cove c with cacheChanging := false } ∧ s.blk.covesBut t [c] ∧ { s.blk with coves := t.coves } = t) ∧
  (∀ (s : State) (v : Nat) (c : Cmd), v < nCoves → (s.blk.cove v).clearing = true → s.blk.onlyWaits c = true → c.m.opcode = 0x801 → c.m.param = 4 + v * 2 ^ 16 →
    swf (fun _ => ({} : Cove)) s.blk.coves = true →
    s.does (.coveClearingEnd v) fun t => t.answered c.m stOK 0 [] ∧ t.host.cmds = [] ∧ t.cove v = { s.blk.cove v with clearing := false } ∧ s.blk.covesBut t [v] ∧
      { s.blk with coves := t.coves, host := t.host, dev := t.dev } = t)

/-- R263, R248: the words of a spill configuration are written while the Cove has no scatter instruction that accumulates or merges under way; the copy of the oldest half of a ring that is full begins, and when it ends
the bytes stand in the spill buffer, HUSED has risen by the half and the half is free. -/
def Obligations.SpillRings : Prop :=
  (∀ (s : State) (m : Msg) (c w : Nat), s.blk.writesOne m (spWord c 0) w = true → c < nCoves → (s.blk.seq c).inflight = [] → fld w 25 22 ≤ 8 →
    (fld w 21 12 * 4096) % 2 ^ (12 + fld w 25 22) = 0 → fld w 21 12 * 4096 + 2 ^ (12 + fld w 25 22) ≤ s.blk.progEnd c → s.blk.cfgGet (spWord c 1) % 256 = 0 →
    s.blk.cfgGet (spWord c 2) = 0 → w < 2 ^ 32 → s.blk.canon →
    s.does (.spillCfgWrite m) fun t => t.answered m stOK 0 [] ∧ t.cfgGet (spWord c 0) = w ∧
      s.blk.cfgBut t [spWord c 0, spWord c 1, spWord c 2, spWord c 3] ∧ { s.blk.measureWrite m [spWord c 0] with host := t.host, cfg := t.cfg } = t ∧ s.blk.hostFor t m) ∧
  (∀ (s : State) (c : Nat), c < nCoves → s.blk.spillCanCopy c = true →
    s.does (.spillHalfCopy c) fun t => (t.cove c).spill = { (s.blk.cove c).spill with copying := true } ∧ s.blk.covesBut t [c] ∧
      { s.blk with coves := t.coves } = t) ∧
  (∀ (s : State) (c : Nat), c < nCoves → (s.blk.cove c).spill.copying = true → s.blk.spillCanCopy c = true → s.blk.canon →
    let x := (s.blk.cove c).spill
    let half := s.blk.spRsize c / 2
    s.does (.spillHalfCopyDone c) fun t =>
      t.mem = (s.blk.hbmWrite (s.blk.partNum c) (s.blk.spHbase c + s.blk.spHused c) (s.blk.tpRead c (s.blk.spRbase c + x.rhead) half)).mem ∧
      (t.cove c).spill = { rhead := (x.rhead + half) % s.blk.spRsize c, rfill := x.rfill - half, copying := false } ∧
      t.cfgGet (spWord c 3) = s.blk.spHused c + half ∧ s.blk.covesBut t [c] ∧
      { s.blk with cfg := t.cfg, mem := t.mem, unitKeys := t.unitKeys, ueUnits := t.ueUnits, coves := t.coves } = t)

/-- R352, R357, R358, R359, R353, R356, R354, R455: an HBM access that nothing holds and whose units are all sound writes what it carries or, as a read, changes nothing; a parity error that its first reissue mends is counted and
recorded; a readout sets a stack's temperature, by which the next refresh goes; a stack that ends its training READY, and a Headland its self-test, say so in an event.
The bytes of the events are the model's layout (log entry 22). -/
def Obligations.HbmAndBootEvents : Prop :=
  (∀ (s : State) (x : HbmAccess), accFits x = true → x.corrected = [] → x.uncorrectable = [] → s.blk.ueUnits = [] →
    let n := if x.write then x.data.length else x.len
    s.blk.hbmStopped x n = false → s.blk.hbmHeld x.addr n = none →
    s.does (.hbmAccess x) fun t => t = if x.write then s.blk.hbmWrite x.part x.addr x.data else s.blk) ∧
  (∀ (s : State) (k : Nat) (x : HbmAccess), k < nStacks → accFits x = true → x.write = false → x.corrected = [] → x.uncorrectable = [] →
    s.blk.ueUnits = [] → s.blk.hbmStopped x x.len = false → s.blk.hbmHeld x.addr x.len = none → s.blk.err.recs = [] → s.blk.canon →
    s.does (.hbmParityError k x 0) fun t => t.cfgGet (cfgMC k + 0x18) = (s.blk.cfgGet (cfgMC k + 0x18) + 1) % 2 ^ 64 ∧ { s.blk with cfg := t.cfg, host := t.host, err := t.err } = t ∧
      t.err.next = (s.blk.err.next + 1) % 2 ^ 32 ∧ t.err.recs.map (fun r => (r.cls, r.kind, r.code, r.addr, r.detail)) = [(0, 4, 0x12, x.addr, 1)]) ∧
  (∀ (s : State) (k bank n : Nat), k < nStacks → bank < 1024 → swf (fun _ => ({} : Stack)) s.blk.hbmStacks = true →
    (s.does (.hbmTempReadout k n) fun t => t.stack k = { s.blk.stack k with temp := n % 256 } ∧ s.blk.stacksBut t [k] ∧ { s.blk with hbmStacks := t.hbmStacks } = t) ∧
    (s.does (.hbmRefresh k bank) fun t => t.stack k = { s.blk.stack k with hotRefresh := decide (85 ≤ (s.blk.stack k).temp) } ∧ s.blk.stacksBut t [k] ∧ { s.blk with hbmStacks := t.hbmStacks } = t) ∧
    (s.does (.hbmRfmRequest k bank) fun t => t = s.blk)) ∧
  (∀ (s : State) (k : Nat), k < nStacks → s.blk.rests = true → (s.blk.stack k).training = true → (s.blk.stack k).retrain = false →
    let o := eventFrame evREADY 0 s.blk.host.evSeq s.blk.tide (readyBytes 2 k 0)
    s.does (.hbmStackTrained k false []) fun t => t.stack k = { s.blk.stack k with ready := 1, training := false, retrain := false, busyCmd := none } ∧
      (s.blk.canSend o = true → (s.blk.ctx 0).st = 1 → s.blk.leftOn t (s.blk.homeOf 0) o) ∧ s.blk.stacksBut t [k] ∧ { s.blk with hbmStacks := t.hbmStacks, host := t.host } = t) ∧
  (∀ (s : State) (h : Nat), h < nHeadlands → s.blk.rests = true → s.blk.dev.svc = true → (s.blk.hl h).ready = 0 →
    let o := eventFrame evREADY 0 s.blk.host.evSeq s.blk.tide (readyBytes 4 h 0)
    s.does (.headlandSelftestDone h [] false) fun t => (t.hl h).ready = 1 ∧ (t.hl h).slots = (s.blk.hl h).slots ∧
      (s.blk.canSend o = true → (s.blk.ctx 0).st = 1 → s.blk.leftOn t (s.blk.homeOf 0) o) ∧ (∀ g, g ≠ h → t.hl g = s.blk.hl g) ∧ { s.blk with hls := t.hls, host := t.host } = t)

/-- R365, R368, R371, R373, R377: the descriptor whose turn it is on a queue starts, and its work is that of its operation. A COPY of one local run into HBM that nothing refuses has then copied its bytes
and ends with its length as PROGRESS; one of no bytes ends at once, coded or not.
That the work is done at the start is the model's choice (log entry 67). -/
def Obligations.TransfersRun : Prop :=
  ∀ (s : State) (y q : Nat) (d : Desc), y < nBays → q < 17 → s.blk.startable y q = some d →
    let x := s.blk.bay y
    let d1 := { d with running := true }
    let b1 := (s.blk.setBay y { x with lastQueue := q }).setDesc y d1
    (d.fieldFault = none → (d.op = 1 ∨ d.op = 2) →
      ∀ i, (i = if d.compresses then (if d.builds then .dmaBuild y q else .dmaCompress y q) else if d.expands then .dmaExpand y q
        else if d.op = 1 then .dmaCopy y q else .dmaGather y q) →
      s.does i fun t => t = (b1.startMove y d1).descPump y d.serial) ∧
    (d.fieldFault = none → d.op = 1 → d.flags = 0 → d.n1 = 1 → d.n2 = 1 → 0 < d.len → d.moveFault = none → d.addrFault = none →
      s.blk.globalStatus d.part d.src d.len = (0, 0) → s.blk.globalStatus d.part d.dst d.len = (0, 0) → s.blk.isLocal d.src = true → s.blk.isLocal d.dst = true →
      d.src < 2 ^ 57 → d.dst < 2 ^ 57 → s.blk.heldBy d = none → s.blk.spanInput d.dst d.len = false → regionOf (gLocal d.src) = 0 → regionOf (gLocal d.dst) = 0 →
      s.blk.ueUnits = [] → x.descs = [d] → s.blk.slice.remotes = [] → (gLocal d.src + d.len ≤ gLocal d.dst ∨ gLocal d.dst + d.len ≤ gLocal d.src) →
      s.does (.dmaCopy y q) fun t => t.mem = (s.blk.memWrite d.part (some d.cove) (gLocal d.dst) (s.blk.memRead d.part (gLocal d.src) d.len)).mem ∧
        (t.bay y).descs.map Desc.out = [some (0, 0, d.len)] ∧ s.blk.baysBut t [y] ∧ { s.blk with cfg := t.cfg, mem := t.mem, unitKeys := t.unitKeys, bays := t.bays } = t) ∧
    (d.fieldFault = none → d.op = 1 → d.moveFault = none → d.addrFault = none → s.blk.validateFault d = none → d.len = 0 → (d.compresses = true → d.builds = true) → x.descs = [d] → s.blk.slice.remotes = [] →
      ∀ i, (i = if d.compresses then .dmaBuild y q else if d.expands then .dmaExpand y q else .dmaCopy y q) →
      s.does i fun t => (t.bay y).descs.map Desc.out = [some (0, 0, 0)] ∧ s.blk.baysBut t [y] ∧ { s.blk with bays := t.bays } = t)

/-- R273, R294, R368, R374: a key-value or expert descriptor whose turn it is starts; when its operation passes every check and everything it touches is local HBM, memory is what the operation leaves and the descriptor ends with its outcome.
That the work is done at the start is the model's choice (log entry 67). -/
def Obligations.ServingOperationsRun : Prop :=
  ∀ (s : State) (y q : Nat) (d : Desc), y < nBays → q < 17 → s.blk.startable y q = some d → d.fieldFault = none →
    let d1 := { d with running := true }
    let b1 := (s.blk.setBay y { s.blk.bay y with lastQueue := q }).setDesc y d1
    let k0 : Kx := { b := b1, y := y, d := d1 }
    ∀ (i : Instr) (p : K DescOut),
      ((d.op, i, p) ∈ [(0x10, Instr.kvAppend y q, kvAppend), (0x11, .kvGather y q, kvGather), (0x12, .kvFold y q, kvFold), (0x13, .kvCommit y q, kvCommit),
        (0x14, .kvShare y q, kvShare), (0x18, .exRoute y q, exRoute), (0x1A, .exCollate y q, exCollate), (0x1B, .exGroup y q, exGroup)] ∨
       (d.op = 0x19 ∧ s.blk.packDir d = 0 ∧ i = .exPackForward y q ∧ p = exPackForward) ∨ (d.op = 0x19 ∧ s.blk.packDir d = 1 ∧ i = .exPackReturn y q ∧ p = exPackReturn) ∨
       (d.op = 0x1C ∧ ((s.blk.bay y).engine 1).busy = none ∧ i = .exCombine y q ∧ p = exCombine)) →
      ∀ (o : DescOut) (k : Kx), p k0 = .ok (o, k) → k.wr = [] → k.far = [] → k.lost = false →
      s.does i fun t => { k.b with cfg := t.cfg, slice := t.slice, bays := t.bays } = t ∧ (∀ e ∈ (t.bay y).descs, e.serial = d.serial → e.out = some o) ∧ (t.bay y).bab = (k.b.bay y).bab

/-! ### Serving -/

/-- R325, R326, R328, R337, R339, R322: CMD_REQ_SUBMIT of a request that its partition's engine takes makes it live and waits; CMD_REQ_CANCEL of a live request outside a step ends it with ST_CANCELLED and answers its tokens;
CMD_ACCOUNT_SET answers the balance and sets what the account changes to at the next boundary; CMD_POOL_SET with a plan begins its build, BUILDING in the plan's PSTATUS. -/
def Obligations.ServingCommands : Prop :=
  (∀ (s : State) (m : Msg), s.blk.takes m = true → m.opcode = 0x0400 → m.param = 0 → m.partition < 16 → ((s.blk.part m.partition).st = 1 ∨ (s.blk.part m.partition).st = 2) →
    let p := m.partition
    let x := s.blk.serve p
    let r := reqOf (s.blk.asCmd m) x.order
    x.engine = 1 → x.reqs.length < 65536 → (s.blk.entered m).reqFault p x (s.blk.asCmd m) = none → s.blk.hbmHeld 0 hbmEnd = none → (s.blk.entered m).seqdOk p r = true →
    (s.blk.account r.acct).part = some p → (s.blk.account r.acct).cap ≠ 0 → r.maxnew ≠ 0 →
    s.does (.cmdReqSubmit m) fun t => t.awaits m ∧ (t.serve p).reqs = x.reqs ++ [r] ∧ (t.serve p).order = x.order + 1 ∧
      (∀ q, q ≠ p → t.serve q = s.blk.serve q) ∧ { s.blk with serves := t.serves, host := t.host } = t ∧ s.blk.hostFor t m) ∧
  (∀ (s : State) (m : Msg) (c : Cmd) (r : Req), s.blk.takesBeside m c = true → m.opcode = 0x0401 → m.partition < 16 → ((s.blk.part m.partition).st = 1 ∨ (s.blk.part m.partition).st = 2) →
    let p := m.partition
    let x := s.blk.serve p
    x.reqs = [r] → r.id = m.param → x.step = none → r.ctx = c.ctx → r.seq = c.seq →
    s.does (.cmdReqCancel m) fun t => t.host.cmds = [] ∧ t.answered m stOK 0 (leBytes 4 r.out ++ zeros 4) ∧ (t.serve p).reqs = [] ∧
      (c.seq, msgBytes 0x0400 c.ctx true false c.seq stCANCELLED 0 s.blk.tide
        (leBytes 4 r.out ++ leBytes 4 r.lastStep ++ leBytes 4 r.late ++ leBytes 2 r.reason ++ zeros 2)) ∈ (t.ctx c.ctx).replies ∧
      (∀ q, q ≠ p → t.serve q = s.blk.serve q) ∧ s.blk.ctxsBut t [m.ctx, c.ctx] ∧ { s.blk with serves := t.serves, host := t.host } = t) ∧
  (∀ (s : State) (m : Msg), s.blk.takes m = true → m.opcode = 0x0403 → m.partition < 16 → ((s.blk.part m.partition).st = 1 ∨ (s.blk.part m.partition).st = 2) → m.param < 4096 →
    let w := fun off n => leAt m.payload off n
    let a := s.blk.account m.param
    (a.part = none ∨ a.part = some m.partition) → w 3 1 = 0 → w 0xA 1 ≠ 0 → w 0xB 1 < 4 → tbit (w 0xB 1) 0 = false → w 0xC 4 = 0 →
    s.does (.cmdAccountSet m) fun t => t.answered m stOK 0 (leBytes 8 (toTwos 64 (if a.part.isNone then 0 else a.refill s.blk.tide))) ∧
      (t.account m.param).part = some m.partition ∧ (t.account m.param).next = some (w 0 3, w 4 4, w 8 2, w 0xA 1) ∧
      (∀ k, k ≠ m.param → t.account k = s.blk.account k) ∧ { s.blk.measureCmd m with accounts := t.accounts, host := t.host } = t ∧ s.blk.hostFor t m) ∧
  (∀ (s : State) (m : Msg), s.blk.takes m = true → m.opcode = 0x0404 → m.partition < 16 → ((s.blk.part m.partition).st = 1 ∨ (s.blk.part m.partition).st = 2) → m.param = 0 →
    let w := fun i => leAt m.payload (2 * i) 2
    let a := leAt m.payload 8 8
    w 0 ≤ w 1 → w 2 ≤ w 3 → w 1 ≤ 256 → w 3 ≤ 256 → a ≠ 0 → a % 64 = 0 → (s.blk.entered m).inHbm m.partition a planBytes = true →
    s.does (.cmdPoolSet m) fun t => t.answered m stOK 0 [] ∧ (t.serve m.partition).building = some { addr := a, lims := (w 0, w 1, w 2, w 3) } ∧
      (∀ q, q ≠ m.partition → t.serve q = s.blk.serve q) ∧
      { (s.blk.measureCmd m).hbmWrite m.partition a (zeros 4) with serves := t.serves, host := t.host } = t ∧ s.blk.hostFor t m)

/-- R324, R329, R322, R330, R334: the build of a plan ends with the plan next in force, or REFUSED with its reason. A step boundary brings that plan into force, and opens the next step of an engine without requests: its number, its split and a
start instant at most 5 µs ahead. At that instant the Coves of both pools run their programs from the plan's entries; when all have HALTED the step is sealed, and the engine goes on.
Which instant within the 5 µs is a free value (log entry 4). -/
def Obligations.ServingSteps : Prop :=
  (∀ (s : State) (p : Nat) (q0 : Plan), p < 16 → s.blk.rests = true → (s.blk.serve p).building = some q0 → s.blk.rangeUe q0.addr 0x140 = none →
    s.does (.planBuildDone p) fun t =>
      match s.blk.buildPlan p { q0 with raw := s.blk.hbmRead p q0.addr 0x140 } (s.blk.serve p).bounded with
      | .ok q1 => (t.serve p).next = some q1 ∧ (t.serve p).building = none ∧ { s.blk.putTs p q1 with serves := t.serves } = t
      | .error e => (t.serve p).next = (s.blk.serve p).next ∧ (t.serve p).building = none ∧ { s.blk.putPstatus p q0.addr 2 e.1 e.2 with serves := t.serves } = t) ∧
  (∀ (s : State) (p : Nat) (q : Plan), p < 16 → s.blk.rests = true → s.blk.serveWaits = false →
    let x := s.blk.serve p
    x.step = none → x.halting = false → x.offNext = false → x.reqs = [] → (x.next = some q ∨ (x.next = none ∧ x.plan = some q ∧ x.engine = 1)) →
    (q.splits (s.blk.partBays p).length).isEmpty = false →
    s.does (.stepBoundary p) fun t => t.tide = max s.blk.tide x.nextBnd ∧ (t.serve p).plan = some q ∧ (t.serve p).next = none ∧ (t.serve p).engine = 1 ∧
      ∃ z, (t.serve p).step = some z ∧ z.started = false ∧ z.ents = [] ∧ z.cls = q.cls 0 ∧ z.split ∈ q.splits (s.blk.partBays p).length ∧ t.tide ≤ z.start ∧ z.start ≤ t.tide + 5000 ∧ (∀ r, r ≠ p → t.serve r = s.blk.serve r) ∧ s.blk.covesBut t [] ∧
        z.num = if x.next.isSome && !x.ran then q.at 8 4 else (x.lastStep + 1) % 2 ^ 32) ∧
  (∀ (s : State) (p v : Nat) (q : Plan) (z : Step), p < 16 → (s.blk.serve p).plan = some q → (s.blk.serve p).step = some z → z.started = false → (s.blk.partCoves p).any s.blk.runs = false →
    (s.blk.part p).slack = false → s.blk.slackAt none = false →
    s.does (.stepStartInstant p) fun t => t.tide = max s.blk.tide z.start ∧ (t.serve p).step = some { z with started := true } ∧
      (∀ b, (b = true ∨ b = false) → v ∈ poolCoves (q.pool (s.blk.partBays p) z.split b) → v ∉ poolCoves (q.pool (s.blk.partBays p) z.split (!b)) →
        (t.seq v).st = 1 ∧ (t.seq v).pc = q.entry b ∧ sreg (t.seq v).sregs 2 = z.num % 2 ^ 64) ∧
      { s.blk with tide := t.tide, coves := t.coves, serves := t.serves } = t) ∧
  (∀ (s : State) (p : Nat) (q : Plan) (z : Step), p < 16 → s.blk.rests = true → s.blk.serveWaits = false →
    let x := s.blk.serve p
    x.plan = some q → x.step = some z → z.started = true → z.ents = [] → x.reqs = [] → x.halting = false → x.engine = 1 →
    (poolCoves (s.blk.partBays p)).any s.blk.runs = false → (poolCoves (s.blk.partBays p)).all (fun v => (s.blk.seq v).exit.state == 3) = true →
    s.does (.stepPoolsDone p) fun t => (t.serve p).step = none ∧ (t.serve p).engine = 1 ∧
      t.mem = (s.blk.putLedger p q z 2 (ledgerRest z s.blk.tide 0 0 0 0 0)).mem ∧ s.blk.covesBut t [] ∧ t.parts = s.blk.parts ∧ t.accounts = s.blk.accounts)

/-- R334, R341: the seal of a step commits a decode entry of a live request: the account pays 2^32 units a token, the request has its tokens, and each token is an entry of its context's STEP_OUTPUT. -/
def Obligations.SealedTokensArePaid : Prop :=
  ∀ (z : SealAcc) (p : Nat) (q : Plan) (s : Step) (coves : List Nat) (e : StepEnt) (r : Req), p < 16 → e.prefill = false → (z.b.serve p).reqs = [r] → r.order = e.req → r.cancelled = false →
    let v := z.b.resultOf p q e
    let n := leAt v 5 1
    n ≤ r.maxnew - r.out → (z.b.account r.acct).part = some p →
    let w := z.entry p q s coves e
    (w.b.account r.acct).bal = max (-(2 ^ 63)) ((z.b.account r.acct).bal - ((n * 2 ^ 32 : Nat) : Int)) ∧
    (w.b.serve p).reqs.map (fun y => (y.out, y.run)) = [(r.out + n, r.run)] ∧ w.outs.length = z.outs.length + n ∧ w.ptok = z.ptok

/-! ### Collective channels -/

/-- R420, R423, R424, R440: CMD_CHAN_OPEN opens a channel with its kind, window, members and participants, of which nothing is posted yet, and CMD_CHAN_CLOSE closes it. A participant that writes its post word adds the record it names to those
posted.
The data bytes of control and collective packets are the model's coding (log entry 24). -/
def Obligations.ChannelsOpenAndPost : Prop :=
  (∀ (s : State) (m : Msg), s.blk.takes m = true → m.opcode = 0x0500 → m.partition < 16 → ((s.blk.part m.partition).st = 1 ∨ (s.blk.part m.partition).st = 2) → m.param < 128 → m.ctx = 0 →
    let v := m.payload
    (s.blk.entered m).chanFault m.param m.partition v = none → leAt v 4 4 = 1 →
    s.does (.cmdChanOpen m) fun t => t.answered m stOK 0 [] ∧
      (let x := t.chan m.param
       x.opened = true ∧ x.failed = false ∧ x.kind = leAt v 0 1 ∧ x.window = leAt v 1 1 ∧ x.gen = leAt v 2 2 ∧ x.members = [leAt v 0x20 2] ∧ x.parts.length = leAt v 8 4 ∧
       x.timeout = leAt v 0xC 4 ∧ x.part = m.partition ∧ x.posted = [] ∧ x.op = none ∧ x.counts = List.replicate (leAt v 8 4) 0) ∧
      (∀ k, k ≠ m.param → t.chan k = s.blk.chan k) ∧ { s.blk.measureCmd m with chans := t.chans, host := t.host } = t ∧ s.blk.hostFor t m) ∧
  (∀ (s : State) (m : Msg) (ch : Nat), ({ s.blk with chans := [] } : Blk).takes m = true → m.opcode = 0x0501 → m.param = ch → ch < 128 → s.blk.chans = [(ch, s.blk.chan ch)] → (s.blk.chan ch).opened = true →
    (s.blk.chan ch).op = none → (s.blk.chan ch).posted = [] → (s.blk.chan ch).owed = [] → (m.partition = 0xFF ∨ (s.blk.chan ch).part = m.partition) →
    s.does (.cmdChanClose m) fun t => t.answered m stOK 0 [] ∧ t.chan ch = {} ∧ { s.blk with chans := t.chans, host := t.host } = t ∧ s.blk.hostFor t m) ∧
  (∀ (s : State) (ch i was : Nat), s.blk.onlyChan ch = true →
    let x := s.blk.chan ch
    let w := nth x.parts i (0, 0, 0, 0)
    i < x.parts.length → x.counts[i]? = some was → was ≤ x.done + 7 → x.op = none → x.owed = [] → (∃ j, j < x.parts.length ∧ j ≠ i ∧ x.posted.all (fun q => q.1 != j) = true) → s.blk.tpLost w.1 = false → was < 2 ^ 32 - 1 →
    Memory.wf s.blk.mem → (w.2.2.2 + 8 ≤ w.2.2.1 ∨ w.2.2.1 + 512 ≤ w.2.2.2) →
    s.does (.collPostWordWrite ch i (was + 1)) fun t => (t.chan ch).counts = x.counts.set i (was + 1) ∧
      (t.chan ch).posted = x.posted ++ [(i, was, s.blk.tpRead w.1 (w.2.2.1 + 64 * (was % 8)) 64)] ∧ t.tpNat w.1 w.2.2.2 8 = was + 1 ∧
      (∀ k, k < tpAddr w.1 w.2.2.2 ∨ tpAddr w.1 w.2.2.2 + 8 ≤ k → t.peek k = s.blk.peek k) ∧ s.blk.covesBut t [w.1] ∧ { s.blk with cfg := t.cfg, mem := t.mem, coves := t.coves, chans := t.chans } = t)

/-- R423, R438, R429, R428: what arrives for the running operation of a channel: credits from a member; a chunk of a broadcast, written at its place in DST; an acknowledgement, after which the chunk is no longer kept; the size another member sends, and its answer; and the arrival
that a barrier waits for, with which the operation completes. R438, R439: 100 µs without an acknowledgement send the oldest chunk once more, counted; COLL_FAIL
from a member, and the operation's TIMEOUT, make the channel FAILED with nothing left running or posted.
The data bytes of collective packets are the model's coding (log entry 24). -/
def Obligations.CollectivePacketsArriveOrFail : Prop :=
  (∀ (s : State) (p : Pkt) (ch m : Nat), s.blk.onlyChan ch = true → p.dst = s.blk.slice.devid → p.kind = 0x12 → p.tag = ch → (s.blk.chan ch).memberIdx p.src = some m → pktGen p = (s.blk.chan ch).gen →
    (s.blk.chan ch).op = none → (s.blk.chan ch).posted = [] → (s.blk.chan ch).owed = [] →
    s.does (.collCreditRx p) fun t => t.chan ch = { s.blk.chan ch with credit := sset (fun _ => 0) (s.blk.chan ch).credit m (sget (fun _ => 0) (s.blk.chan ch).credit m + pktChunk p) } ∧
      { s.blk with chans := t.chans } = t) ∧
  (∀ (s : State) (p : Pkt) (ch m : Nat) (o : CollOp) (v : List Byte), s.blk.onlyChan ch = true → p.kind = 0x10 → s.blk.collFrom p ch m o = true → o.recs = [v] → rOp v = 3 → m = rRoot v → isEmptyOp v = false → rDst v ≠ 0 →
    o.got.contains (m, pktChunk p) = false → (s.blk.chan ch).posted.length = 1 → (s.blk.chan ch).parts.length = 1 →
    s.does (.collDataRx p) fun t => t.mem = (s.blk.memWrite (s.blk.chan ch).part none (rDst v + 4096 * pktChunk p) p.data).mem ∧
      t.parts = s.blk.parts ∧ t.bays = s.blk.bays ∧ t.fw = s.blk.fw ∧ t.dev = s.blk.dev) ∧
  (∀ (s : State) (p : Pkt) (ch m : Nat) (o : CollOp) (v : List Byte), s.blk.onlyChan ch = true → p.kind = 0x11 → s.blk.collFrom p ch m o = true → o.recs = [v] → rOp v = 3 → o.sums = [] → (s.blk.chan ch).owed = [] →
    let l := o.sent.filter fun s => !(s.1 == m && s.2.1 == pktChunk p)
    l ≠ [] →
    s.does (.collAckRx p) fun t => t.chan ch = { s.blk.chan ch with op := some { o with sent := l } } ∧ { s.blk with chans := t.chans } = t) ∧
  (∀ (s : State) (p : Pkt) (ch m : Nat) (o : CollOp) (v : List Byte), s.blk.onlyChan ch = true → p.kind = 0x13 → s.blk.collFrom p ch m o = true → o.recs = [v] → rOp v = 4 → o.sums = [] → (s.blk.chan ch).owed = [] → o.formed = [] →
    o.arrived.contains m = false → (o.arrived ++ [m]).length ≠ (s.blk.chan ch).n →
    s.does (.collSizeRx p) fun t => t.chan ch = { s.blk.chan ch with op := some { o with sizes := sset (fun _ => 0) o.sizes m (leAt p.data 0 4), arrived := o.arrived ++ [m] } } ∧ { s.blk with chans := t.chans } = t) ∧
  (∀ (s : State) (p : Pkt) (ch m : Nat) (o : CollOp) (v : List Byte), s.blk.onlyChan ch = true → p.kind = 0x14 → s.blk.collFrom p ch m o = true → o.recs = [v] → rOp v = 4 → o.sums = [] → (s.blk.chan ch).owed = [] → o.formed = [] →
    o.arrived.length ≠ (s.blk.chan ch).n → sget (fun _ => (none : Option Nat)) o.gos m = none → (leAt p.data 0 4 = 1 ∨ rSizes v = 0) →
    s.does (.collGoRx p) fun t => t.chan ch = { s.blk.chan ch with op := some { o with gos := sset (fun _ => none) o.gos m (some (if leAt p.data 0 4 = 1 then 2 ^ 32 else leAt p.data 4 4)) } } ∧ { s.blk with chans := t.chans } = t) ∧
  (∀ (s : State) (p : Pkt) (ch m : Nat) (o : CollOp) (v : List Byte), s.blk.onlyChan ch = true → p.kind = 0x16 → s.blk.collFrom p ch m o = true → o.recs = [v] → rOp v = 5 → rFmt v = 0 → o.sums = [] → o.sent = [] → o.arrived = [] → o.infs = 0 →
    (s.blk.chan ch).n = 2 → (s.blk.chan ch).self < 2 →
    s.does (.collArriveRx p) fun t => (t.chan ch).op = none ∧ (t.chan ch).done = (s.blk.chan ch).done + 1 ∧ (t.chan ch).failed = false ∧ t.mem = s.blk.mem ∧ s.blk.covesBut t [] ∧ t.parts = s.blk.parts) ∧
  (∀ (s : State) (ch m c k : Nat) (o : CollOp) (p : Pkt) (rest : List (Nat × Nat × Nat × Pkt)), s.blk.onlyChan ch = true → (s.blk.chan ch).op = some o → o.sent = (m, c, k, p) :: rest → k < 3 → isRed (o.recs.headD []) = false →
    rOp (o.recs.headD []) ≠ 4 → o.sums = [] → (s.blk.chan ch).owed = [] → s.blk.canon →
    let b1 := (s.blk.setChan ch { s.blk.chan ch with op := some { o with sent := rest ++ [(m, c, k + 1, p)] } }).count 0xA48 1
    (b1.originate p).2 = none → p.dst ≠ s.blk.slice.devid →
    s.does (.collResendTimeout ch) fun t => t.chan ch = b1.chan ch ∧ t = (b1.originate p).1 ∧ b1.cfgGet 0xA48 = (s.blk.cfgGet 0xA48 + 1) % 2 ^ 64) ∧
  (∀ (s : State) (p : Pkt) (ch m : Nat) (o : CollOp), s.blk.onlyChan ch = true → s.blk.collFrom p ch m o = true →
    (p.kind = 0x15 → s.does (.collFailRx p) fun t => (t.chan ch).failed = true ∧ (t.chan ch).op = none ∧ (t.chan ch).posted = [] ∧ s.blk.chipSame t) ∧
    (s.does (.collOpTimeout ch) fun t => (t.chan ch).failed = true ∧ (t.chan ch).op = none ∧ (t.chan ch).posted = [] ∧ s.blk.chipSame t))

/-! ### The slice and its links -/

/-- R404, R401, R409, R415, R416: CMD_SLICE_JOIN gives the device its identity, and with LEAVE it has none and its trained links are QUARANTINED; CMD_CABLING_PLAN replaces the plan, and a link without a peer in it is DISABLED; CMD_ROUTE_SHADOW
writes entries of the shadow table only; CMD_WINDOW_OPEN opens the lowest closed window, and CMD_WINDOW_CLOSE closes one. -/
def Obligations.SliceCommands : Prop :=
  (∀ (s : State) (m : Msg), s.blk.takes m = true → m.opcode = 0x0600 → m.param = 0 → tbit (leAt m.payload 2 1) 2 = false → joinFault m.payload = none → s.blk.slice.joined = false →
    let v := m.payload
    s.does (.cmdSliceJoin m) fun t => t.answered m stOK 0 [] ∧ t.slice.joined = true ∧ t.slice.devid = leAt v 0 2 ∧ t.slice.sliceid = leAt v 4 4 ∧ t.slice.dims = leAt v 8 4 ∧
      t.slice.hmid = leAt v 0xC 2 ∧ t.slice.harbour = tbit (leAt v 2 1) 0 ∧ (s.blk.measureCmd m).chipSame t) ∧
  (∀ (s : State) (m : Msg), s.blk.takes m = true → m.opcode = 0x0600 → m.param = 0 → m.plen = 16 → leNat m.payload = 4 * 2 ^ 16 →
    s.does (.sliceLeave m) fun t => t.answered m stOK 0 [] ∧ t.slice.joined = false ∧ t.slice.devid = 0 ∧
      (∀ k, k < nLinks → (s.blk.link k).trained = true → (t.link k).st = 4 ∧ (t.link k).cause = 6) ∧ (s.blk.measureCmd m).chipSame t) ∧
  (∀ (s : State) (m : Msg), s.blk.takes m = true → m.opcode = 0x0601 → m.param = 0 → planFault m.payload = none →
    s.does (.cmdCablingPlan m) fun t => t.slice.plan = some ((List.range nLinks).map (planEntOf m.payload)) ∧
      (∀ k, k < nLinks → (planEntOf m.payload k).unused = true → (t.link k).st = 0 ∧ (t.link k).enabled = false) ∧ (s.blk.measureCmd m).chipSame t) ∧
  (∀ (s : State) (m : Msg) (first n : Nat), s.blk.takes m = true → m.opcode = 0x0603 → m.param = 0 → tbit m.flags 2 = true → 0 < n → first + n ≤ 16384 → leAt m.payload 0 8 = first + (n - 1) * 2 ^ 16 →
    let es := (List.range n).map fun i => leAt m.bulk (4 * i) 4
    (es.zipIdx.all fun q => routeOk s.blk.slice.devid (first + q.2) q.1 (putRoutes s.blk.slice.shadow first es)) = true →
    s.does (.cmdRouteShadow m) fun t => t.answered m stOK 0 [] ∧ { s.blk.slice with shadow := putRoutes s.blk.slice.shadow first es } = t.slice ∧
      { s.blk.measureCmd m with slice := t.slice, host := t.host } = t ∧ s.blk.hostFor t m) ∧
  (∀ (s : State) (m : Msg) (i peer : Nat) (wr rd : Bool), s.blk.takes m = true → m.opcode = 0x0605 → m.param = 0 → m.partition = 0xFF →
    let base := leAt m.payload 0 8
    let len := leAt m.payload 8 8
    base % 4096 = 0 → regionOf base = 1 → len % 4096 = 0 → 0 < len → len ≤ 2 ^ 34 → base + len ≤ tpEnd → peer < 2 ^ 14 → leAt m.payload 0x10 8 = peer + bnat wr * 2 ^ 16 + bnat rd * 2 ^ 17 →
    s.blk.touchesCache base len = false → (covesOf base len).any s.blk.coveScrub = false → s.blk.slice.fmode ≠ 1 → i < 16 → (s.blk.slice.window i).opened = false →
    (∀ j, j < i → (s.blk.slice.window j).opened = true) →
    s.does (.cmdWindowOpen m) fun t => t.answered m stOK 0 (leBytes 8 i) ∧
      t.slice.window i = { opened := true, base := base, len := len, peer := peer, writes := wr, reads := rd, part := 0xFF } ∧ (∀ j, j ≠ i → t.slice.window j = s.blk.slice.window j) ∧
      { s.blk.slice with windows := t.slice.windows } = t.slice ∧ { s.blk.measureCmd m with slice := t.slice, host := t.host } = t ∧ s.blk.hostFor t m) ∧
  (∀ (s : State) (m : Msg), s.blk.takes m = true → m.opcode = 0x0606 → m.param < 16 → (s.blk.slice.window m.param).opened = true → (m.partition = 0xFF ∨ (s.blk.slice.window m.param).part = m.partition) →
    swf (fun _ => ({} : Window)) s.blk.slice.windows = true →
    s.does (.cmdWindowClose m) fun t => t.answered m stOK 0 [] ∧ t.slice.window m.param = {} ∧ (∀ j, j ≠ m.param → t.slice.window j = s.blk.slice.window j) ∧
      { s.blk.slice with windows := t.slice.windows } = t.slice ∧ { s.blk.measureCmd m with slice := t.slice, host := t.host } = t ∧ s.blk.hostFor t m)

/-- R403, R398: CMD_LINK_SET DISABLED takes the link down; ENABLED lets an untrained one train, and waits; FENCED fences a trained one, tells the peer and waits; ACTIVE of a fenced one that passes its check carries traffic when
the peer has asked too, and else waits for it. CMD_LANE_SPARE of a link stops its DATA flits to put the spare in the place of the lane.
The data bytes of LINKCTL messages are the model's coding (log entry 25). -/
def Obligations.LinkCommands : Prop :=
  ∀ (s : State) (m : Msg) (k : Nat), s.blk.takes m = true → k < nLinks → (s.blk.link k).cmd = none →
    let l := s.blk.link k
    (m.opcode = 0x0602 → m.param = k → s.does (.linkSetDisabled m) fun t => t.answered m stOK 0 [] ∧ (t.link k).st = 0 ∧ (t.link k).enabled = false ∧ (s.blk.measureCmd m).chipSame t) ∧
    (m.opcode = 0x0602 → m.param = k + 0x100 → l.trained = false → s.does (.linkSetEnabled m) fun t => t.awaits m ∧ (t.link k).enabled = true ∧ (t.link k).trainFails = 0 ∧
      (t.link k).st = max l.st 1 ∧ (t.link k).cmd = some (m.ctx, m.seq) ∧ (s.blk.measureCmd m).chipSame t) ∧
    (m.opcode = 0x0602 → m.param = k + 0x200 → l.trained = true → l.st ≠ 5 → s.does (.linkSetFenced m) fun t => (t.link k).st = 5 ∧ (t.link k).ctlOut = l.ctlOut ++ [ctlFence] ∧
      (t.link k).cmd = some (m.ctx, m.seq) ∧ t.awaits m ∧ (s.blk.measureCmd m).chipSame t) ∧
    (m.opcode = 0x0602 → m.param = k + 0x300 → l.st = 5 → l.reported = true → (s.blk.checkLink k).1 = 6 →
      (l.askedPeer = true → s.does (.linkSetActive m) fun t => t.answered m stOK 0 [] ∧ (t.link k).st = (if l.four then 7 else 6) ∧ (s.blk.measureCmd m).chipSame t) ∧
      (l.askedPeer = false → s.does (.linkSetActive m) fun t => t.awaits m ∧ t.link k = { l with ctlOut := l.ctlOut ++ [ctlActive], askedSelf := true, cause := 0, cmd := some (m.ctx, m.seq), cmdKind := 3 } ∧
        s.blk.linksBut t [k] ∧ { s.blk.measureCmd m with links := t.links, host := t.host } = t)) ∧
    (∀ lane, m.opcode = 0x0903 → m.param = k + lane * 256 + 65536 → l.st = 6 → l.spare < 9 → lane < 9 → lane ≠ l.spare → l.switching = none → l.lanes.contains lane = true →
      s.does (.laneSpareLink m) fun t => t.awaits m ∧ t.link k = { l with switching := some (0, lane), ctlOut := l.ctlOut ++ [ctlLane lane], cmd := some (m.ctx, m.seq), cmdKind := 4 } ∧
        s.blk.linksBut t [k] ∧ { s.blk.measureCmd m with links := t.links, host := t.host } = t)

/-- R400, R402, R403: signal on a link that is DOWN and enabled starts its training; at the end of that identities are exchanged, and without an end in time the link is DOWN again. The peer's report puts it in the state that the cabling check gives. A
fence of the peer fences this end, which answers; its ask for ACTIVE is kept; and 10 ms without it end the waiting command with ST_FENCED.
The data bytes of LINKCTL messages are the model's coding (log entry 25). -/
def Obligations.LinksTrainAndFence : Prop :=
  (∀ (s : State) (k : Nat), k < nLinks →
    let l := s.blk.link k
    (s.blk.dev.svc = true → s.blk.dev.fatal = false → l.enabled = true → l.st = 1 → s.does (.linkSignalDetect k) fun t => (t.link k).st = 2 ∧ s.blk.chipSame t) ∧
    (l.st = 2 → s.does (.linkTrainingDone k) fun t => (t.link k).st = 3 ∧ (t.link k).ctlOut = l.ctlOut ++ [s.blk.ctlIdentity k] ∧ (t.link k).lanes.length = 8 ∧ (t.link k).spare < 9 ∧ (t.link k).reported = false ∧ s.blk.chipSame t) ∧
    (l.st = 2 → s.blk.rests = true → l.cmd = none → s.does (.linkTrainingTimeout k) fun t => (t.link k).st = 1 ∧ (t.link k).trainFails = l.trainFails + 1 ∧ s.blk.chipSame t)) ∧
  (∀ (s : State) (k serial devid port slice : Nat), k < nLinks → (s.blk.link k).trained = true → (s.blk.link k).cmd = none → s.blk.rests = true →
    let l := s.blk.link k
    let b1 := s.blk.setLink k { l with reported := true, peerSerial := serial % 2 ^ 64, peerDev := devid % 2 ^ 14, peerPort := port % 32, peerSlice := slice % 2 ^ 32 }
    (b1.checkLink k).2.1 ≠ 2 →
    s.does (.linkctlIdentityRx k serial devid port slice) fun t => (t.link k).reported = true ∧ (t.link k).peerSerial = serial % 2 ^ 64 ∧ (t.link k).cause = (b1.checkLink k).2.1 ∧
      (t.link k).st = (if (b1.checkLink k).1 = 6 then l.passed else (b1.checkLink k).1) ∧ s.blk.chipSame t) ∧
  (∀ (s : State) (k : Nat), k < nLinks → s.blk.rests = true →
    let l := s.blk.link k
    (l.trained = true → l.st ≠ 5 → s.does (.linkctlFenceRx k) fun t => (t.link k).st = 5 ∧ (t.link k).fencedPeer = true ∧ (t.link k).ctlOut = l.ctlOut ++ [ctlFence] ∧ s.blk.chipSame t) ∧
    (l.trained = true → l.askedSelf = false → s.does (.linkctlActiveRequestRx k) fun t => t.link k = { l with askedPeer := true } ∧ s.blk.linksBut t [k] ∧ { s.blk with links := t.links } = t)) ∧
  (∀ (s : State) (k : Nat) (c : Cmd), k < nLinks → s.blk.onlyWaits c = true → (s.blk.link k).askedSelf = true → (s.blk.link k).cmdKind = 3 → (s.blk.link k).cmd = some (c.ctx, c.seq) → (s.blk.link k).st = 5 →
    s.does (.linkActiveAskTimeout k) fun t => t.answered c.m stFENCED 0 [] ∧ t.host.cmds = [] ∧ t.link k = { s.blk.link k with askedSelf := false, cmd := none } ∧ s.blk.linksBut t [k] ∧
      { s.blk with links := t.links, host := t.host } = t ∧ s.blk.hostFor t c.m)

/-- R394, R397: a NAK, and 2 µs without progress, send the unacknowledged flits from the one it names on, or all, once more, counted. A lane that loses signal or exceeds its errors is failed; with AUTO_SPARE and a spare the link stops its DATA flits to
put the spare in its place, as it does at the peer's message; when that ends the spare carries the lane. An intact flit in order is taken.
The data bytes of LINKCTL messages are the model's coding (log entry 25). -/
def Obligations.LanesAndFlits : Prop :=
  (∀ (s : State) (k i fseq : Nat), k < nLinks → s.blk.canon →
    let l := s.blk.link k
    l.carries = true → l.resends < 15 →
    (firstIdx (fun (q : Nat × Nat × Nat × Pkt) => q.1 == fseq) l.sent 0 = some i → s.does (.linkctlNakRx k fseq) fun t => t.link k = { l with resends := l.resends + 1 } ∧
      t.cfgGet (cfgLK k + 0x58) = (s.blk.cfgGet (cfgLK k + 0x58) + (l.sent.length - i)) % 2 ^ 64 ∧ s.blk.linksBut t [k] ∧ s.blk.cfgBut t [cfgLK k + 0x58] ∧ { s.blk with cfg := t.cfg, links := t.links } = t) ∧
    (l.sent ≠ [] → s.does (.linkReplayTimeout k) fun t => t.link k = { l with resends := l.resends + 1 } ∧
      t.cfgGet (cfgLK k + 0x58) = (s.blk.cfgGet (cfgLK k + 0x58) + l.sent.length) % 2 ^ 64 ∧ s.blk.linksBut t [k] ∧ s.blk.cfgBut t [cfgLK k + 0x58] ∧ { s.blk with cfg := t.cfg, links := t.links } = t)) ∧
  (∀ (s : State) (k lane : Nat), k < nLinks → lane < 9 →
    let l := s.blk.link k
    l.carries = true → l.switching = none → tbit l.failed lane = false → lane ≠ l.spare →
    (l.failed = 0 → l.spare < 9 → tbit (s.blk.cfgGet (cfgLK k)) 0 = true → l.active.contains lane = true → s.blk.err.recs = [] → s.does (.laneSerExceeded k lane) fun t =>
      t.link k = { l with failed := 2 ^ lane, switching := some (0, lane), ctlOut := l.ctlOut ++ [ctlLane lane] } ∧ t.err.next = (s.blk.err.next + 1) % 2 ^ 32 ∧ s.blk.linksBut t [k] ∧
      { s.blk with cfg := t.cfg, host := t.host, err := t.err, links := t.links } = t) ∧
    (l.failed = 0 → l.darkLanes = 0 → l.spare < 9 → tbit (s.blk.cfgGet (cfgLK k)) 0 = true → l.active.contains lane = true → s.does (.linkLaneSignalLoss k lane) fun t =>
      t.link k = { l with failed := 2 ^ lane, darkLanes := 2 ^ lane, switching := some (0, lane), ctlOut := l.ctlOut ++ [ctlLane lane] } ∧
      s.blk.linksBut t [k] ∧ { s.blk with cfg := t.cfg, host := t.host, err := t.err, links := t.links } = t) ∧
    (l.spare < 9 → l.lanes.contains lane = true → s.does (.linkctlLaneMsgRx k 0 lane) fun t => t.link k = { l with switching := some (0, lane) } ∧ s.blk.linksBut t [k] ∧ { s.blk with links := t.links } = t)) ∧
  (∀ (s : State) (k lane : Nat), k < nLinks → s.blk.rests = true → s.blk.canon →
    let l := s.blk.link k
    l.st = 6 → l.four = false → l.switching = some (0, lane) → l.cmd = none → l.failed = 2 ^ lane → l.spare < 9 → l.spare ≠ lane → l.txq = [] →
    s.does (.linkLaneSwitchDone k) fun t => t.link k = { l with lanes := l.lanes.map (fun x => if x = lane then l.spare else x), spare := 0xF, switching := none } ∧
      t.cfgGet (cfgLK k + 0x80) = (s.blk.cfgGet (cfgLK k + 0x80) + 1) % 2 ^ 64 ∧
      s.blk.linksBut t [k] ∧ s.blk.cfgBut t [cfgLK k + 0x80] ∧ { s.blk with cfg := t.cfg, links := t.links } = t) ∧
  (∀ (s : State) (k : Nat) (f : List Byte), k < nLinks → s.blk.rests = true →
    let l := s.blk.link k
    let vc := fld (leAt f 0 1) 7 4
    l.carries = true → f.length = 256 → crc32c (f.take 252) = leAt f 252 4 → leAt f 0 1 % 8 = 1 → leAt f 1 2 = l.rxNext → 0 < leAt f 7 1 →
    s.does (.linkFlitRx k f) fun t => (t.link k).rxNext = (l.rxNext + 1) % 65536 ∧ (t.link k).nakSent = false ∧
      sget (fun _ => ([] : List Byte)) (t.link k).asm vc = sget (fun _ => []) l.asm vc ++ bytesAt f 0xC (min (leAt f 7 1) 240))

/-- R406, R407, R411: a packet for another device goes on over a live face of its path; a WRITE that is permitted is stored and acknowledged; a READ is answered with its bytes; READ_DATA and WRITE_ACK answer the request with their tag; a NOTICE that reports too many hops, and the end of
the time for an answer, end the request with ST_ROUTE_LOST.
The data bytes of a NOTICE are the model's coding (log entry 22). -/
def Obligations.PacketsAct : Prop :=
  (∀ (s : State) (p : Pkt) (f : Nat), p.dst ≠ s.blk.slice.devid → p.hops < 96 → s.blk.faceLive f = true →
    let q := if p.phase = 0 && p.via = s.blk.slice.devid then { p with phase := 1, dateline := false } else p
    s.blk.slice.hopFace s.blk.slice.devid (if q.phase = 0 then q.via else q.dst) = some f →
    s.does (.pktTransit p) fun t => t = s.blk.sendHop q f) ∧
  (∀ (s : State) (p : Pkt), p.dst = s.blk.slice.devid → p.kind = 1 → s.blk.pktStatus p true = 0 → p.data.length = pktLen p →
    (regionOf p.addr = 0 → s.blk.hbmHeld p.addr (pktLen p) = none ∧ s.blk.partialUe p.addr p.data.length = none) → s.blk.rangeLost p.addr (pktLen p) = false →
    s.does (.pktWriteRx p) fun t => t.mem = (s.blk.memWrite p.part none p.addr p.data).mem ∧
      t = (s.blk.memWrite p.part none p.addr p.data).sendReply { dst := p.src, kind := 4, part := p.part, tag := p.tag, addr := p.addr, status := 0 }) ∧
  (∀ (s : State) (p : Pkt), p.dst = s.blk.slice.devid → p.kind = 2 → s.blk.pktStatus p false = 0 → regionOf p.addr = 0 → s.blk.hbmHeld p.addr (pktLen p) = none → s.blk.rangeUe p.addr (pktLen p) = none →
    s.blk.rangeLost p.addr (pktLen p) = false → s.does (.pktReadRx p) fun t => t.mem = s.blk.mem ∧
      t = s.blk.sendReply { dst := p.src, kind := 3, part := p.part, tag := p.tag, addr := p.addr, len := (s.blk.memRead p.part p.addr (pktLen p)).length, status := 0, data := s.blk.memRead p.part p.addr (pktLen p) }) ∧
  (∀ (s : State) (p : Pkt) (r : Remote), s.blk.rests = true → s.blk.slice.remotes = [r] → r.st = none → r.pkt.tag = p.tag → p.dst = s.blk.slice.devid →
    (p.kind = 3 → r.pkt.kind = 2 → r.pkt.dst = p.src → s.does (.pktReadDataRx p) fun t => t = { s.blk with slice := { s.blk.slice with remotes := [{ r with st := some p.status, data := p.data }] } }) ∧
    (p.kind = 4 → r.pkt.kind = 1 → r.pkt.dst = p.src → s.does (.pktWriteAckRx p) fun t => t = { s.blk with slice := { s.blk.slice with remotes := [{ r with st := some p.status, data := p.data }] } }) ∧
    (p.kind = 5 → p.cause % 256 = 3 → s.blk.canon → (pktParse (bytesAt p.data 0 32)).kind < 0x10 → (pktParse p.data).kind < 0x10 →
      s.does (.pktNoticeRx p) fun t => { s.blk.slice with remotes := [{ r with st := some stROUTELOST }] } = t.slice ∧ t.cfgGet 0x820 = (s.blk.cfgGet 0x820 + 1) % 2 ^ 64 ∧
      s.blk.cfgBut t [0x820] ∧ { s.blk with cfg := t.cfg, slice := t.slice } = t) ∧
    (p.tag < 65536 → s.does (.remoteRequestTimeout p.tag) fun t => t = { s.blk with slice := { s.blk.slice with remotes := [{ r with st := some stROUTELOST }] } }))

/-! ### Barriers, missing devices and the Tide clock -/

/-- R444: CMD_SLICE_BARRIER at a member waits for its number; at the Harbourmaster it ends once every member has arrived. An arrival there is
counted, the last one releases, and the release ends the command that waits with the release instant.
The data bytes of the packets are the model's coding (log entry 24). -/
def Obligations.SliceBarriers : Prop :=
  (∀ (s : State) (m : Msg), s.blk.takes m = true → m.opcode = 0x0502 → m.param < 256 → s.blk.slice.joined = true → s.blk.bars.waiting = [] → swf (fun _ => ([] : List Nat)) s.blk.bars.arrived = true →
    let l := sget (fun _ => ([] : List Nat)) s.blk.bars.arrived m.param
    let l1 := if l.contains s.blk.slice.devid then l else l ++ [s.blk.slice.devid]
    (s.blk.slice.harbour = false → s.does (.cmdSliceBarrier m) fun t => t.awaits m ∧ t.bars.waiting = [(m.param, m.ctx, m.seq)] ∧ t.bars.arrived = s.blk.bars.arrived ∧ s.blk.chipSame t) ∧
    (s.blk.slice.harbour = true → s.blk.members.all l1.contains = false → s.does (.cmdSliceBarrier m) fun t => t.awaits m ∧ t.bars.waiting = [(m.param, m.ctx, m.seq)] ∧
      sget (fun _ => []) t.bars.arrived m.param = l1 ∧ s.blk.chipSame t) ∧
    (s.blk.slice.harbour = true → s.blk.members.all l1.contains = true → s.does (.cmdSliceBarrier m) fun t => t.answered m stOK 0 (leBytes 8 s.blk.tide) ∧ t.host.cmds = [] ∧
      t.bars.waiting = [] ∧ sget (fun _ => []) t.bars.arrived m.param = [] ∧ s.blk.chipSame t)) ∧
  (∀ (s : State) (p : Pkt), p.kind = 0x23 → p.dst = s.blk.slice.devid → s.blk.slice.harbour = true →
    let n := pktOpseq p % 256
    let l := sget (fun _ => ([] : List Nat)) s.blk.bars.arrived n
    let l1 := if l.contains p.src then l else l ++ [p.src]
    (s.blk.rests = true → s.blk.members.all l1.contains = false → s.does (.barrierArriveRx p) fun t => { s.blk with bars := t.bars } = t ∧ t.bars.waiting = s.blk.bars.waiting ∧
      sget (fun _ => []) t.bars.arrived n = l1 ∧ ∀ k, k ≠ n → sget (fun _ => []) t.bars.arrived k = sget (fun _ => []) s.blk.bars.arrived k) ∧
    (∀ c, s.blk.onlyWaits c = true → s.blk.members.all l1.contains = true → s.blk.bars.waiting = [(n, c.ctx, c.seq)] → s.does (.barrierArriveRx p) fun t =>
      t.answered c.m stOK 0 (leBytes 8 s.blk.tide) ∧ t.host.cmds = [] ∧ t.bars.waiting = [] ∧ t.mem = s.blk.mem ∧ t.coves = s.blk.coves)) ∧
  (∀ (s : State) (p : Pkt) (k : Nat), p.kind = 0x24 → k < nLinks →
    (∀ c, s.blk.onlyWaits c = true → s.blk.firstCopy p = true → s.blk.bars.waiting = [(pktOpseq p % 256, c.ctx, c.seq)] → s.does (.barrierReleaseRx k p) fun t =>
      t.answered c.m stOK 0 (bytesAt p.data 0 8) ∧ t.host.cmds = [] ∧ t.bars.waiting = [] ∧ t.mem = s.blk.mem ∧ t.coves = s.blk.coves) ∧
    (s.blk.rests = true → s.blk.firstCopy p = false → s.does (.barrierReleaseRx k p) fun t => t = s.blk))

/-- R413, R476: the Harbourmaster notes a report of a face; a device that every face shows dark for 1 ms is marked missing, and a mark that arrives
is set or cleared at a member. A closed crossing reopens once its sides are out of reset, and not before.
The data bytes of the packets and the signature of a report are the model's coding (log entries 23 and 24). -/
def Obligations.MissingDevices : Prop :=
  (∀ (s : State) (p : Pkt), s.blk.rests = true → p.kind = 0x21 → p.dst = s.blk.slice.devid → s.blk.slice.joined = true → s.blk.slice.harbour = true →
    let g := pktSig p
    s.does (.faceStateRx p) fun t => { s.blk with slice := t.slice } = t ∧ { s.blk.slice with darkFaces := t.slice.darkFaces } = t.slice ∧
      sget (fun _ => 0) t.slice.darkFaces (p.src * 8 + g % 8) = 4 * fld g 29 16 + (if tbit g 4 then 3 else if tbit g 3 then 2 else 1)) ∧
  (∀ (s : State) (d : Nat), s.blk.rests = true → d < 16384 → s.blk.mode.phase = 0 → s.blk.slice.joined = true → s.blk.slice.harbour = true → d ≠ s.blk.slice.devid →
    (s.blk.allDark d = true → s.does (.missingTimer d) fun t => t.slice.missing = [d] ∧ t.isMissing d = true ∧ s.blk.chipSame t) ∧
    (s.blk.allDark d = false → s.does (.missingTimer d) fun t => t = s.blk)) ∧
  (∀ (s : State) (p : Pkt) (k d : Nat), k < nLinks → p.kind = 0x22 → s.blk.firstCopy p = true → s.blk.slice.harbour = false → s.blk.mode.phase = 0 → d = pktSig p % 2 ^ 14 →
    (tbit (pktSig p) 16 = true → s.blk.rests = true → s.does (.missingMarkRx k p) fun t => t.slice.missing = [d] ∧ s.blk.chipSame t) ∧
    (tbit (pktSig p) 16 = false → s.blk.slice.missing = [d] → ({ s.blk with slice := { s.blk.slice with missing := [] } } : Blk).rests = true →
      s.does (.missingMarkRx k p) fun t => t.slice.missing = [] ∧ s.blk.chipSame t)) ∧
  (∀ (s : State) (kind i : Nat), kind < 4 → i < nCoves → s.blk.rests = true →
    (s.blk.xingReady kind i = true → s.does (.xingReopen kind i) fun t => t = { s.blk with dev := { s.blk.dev with closed := s.blk.dev.closed.filter (· != (kind, i)) } }) ∧
    (s.blk.xingReady kind i = false → s.does (.xingReopen kind i) fun t => t = s.blk))

/-- R442, R443, R522: TIDE_SYNC leaves on every live face with its send instant. At a member, the first sync from its parent sets the count and makes it SYNCING; later ones give the offset measured
from both directions, corrected by rate, and 16 in a row within 2 ns make it LOCKED; 1 ms without one is HOLDOVER. A Harbourmaster with EXTREF captures the pulse-per-second edge and sees its 10 MHz reference.
The data bytes of the packets are the model's coding (log entry 24). -/
def Obligations.TideClock : Prop :=
  (∀ (s : State), s.does .tideSyncSend fun t => t.tide = s.blk.tide ∧ s.blk.chipSame t ∧ t.host = s.blk.host ∧ (s.blk.slice.joined = false → t = s.blk) ∧
    ∀ f d, f < 6 → s.blk.slice.joined = true → s.blk.slice.leads s.blk.slice.devid f = some d → s.blk.faceLive f = true → s.blk.tide ≠ 0 →
      sget (fun _ => 0) t.sync.faces (2 * f) = s.blk.tide) ∧
  (∀ (s : State) (k : Nat) (p : Pkt), k < nLinks → p.kind = 0x20 → s.blk.canon →
    let f := k / 4
    let y := s.blk.sync
    let sent := leAt p.data 0 8
    let mine := sget (fun _ => 0) y.faces (2 * f)
    let off := ((s.blk.tide : Int) - sent - ((leAt p.data 8 8 : Int) - mine)) * 8
    let run := if off.natAbs ≤ 32 then min 16 (y.run + 1) else 0
    s.blk.slice.joined = true → s.blk.slice.harbour = false → s.blk.parentFace = some f →
    (y.st = 0 → s.does (.tideSyncRx k p) fun t => t.sync.st = 1 ∧ t.sync.parent = f ∧ t.tide = (if y.synced then s.blk.tide else sent) ∧
      t.cfgGet 0x918 = (s.blk.cfgGet 0x918 + 1) % 2 ^ 64 ∧ s.blk.cfgBut t [0x918] ∧ { s.blk with tide := t.tide, cfg := t.cfg, sync := t.sync } = t) ∧
    (y.st ≠ 0 → mine ≠ 0 → leAt p.data 8 8 ≠ 0 → s.does (.tideSyncRx k p) fun t => t.sync.st = (if 16 ≤ run then 2 else 1) ∧ t.sync.run = run ∧ t.sync.parent = f ∧
      t.sync.offset = toTwos 16 (max (-32768) (min 32767 off)) ∧ t.sync.slew = -(off / 16) ∧ s.blk.cfgBut t [0x918] ∧ { s.blk with cfg := t.cfg, sync := t.sync } = t)) ∧
  (∀ (s : State), s.blk.slice.harbour = false → (s.blk.sync.st = 1 ∨ s.blk.sync.st = 2) →
    s.does .tideHoldover fun t => t = { s.blk with sync := { s.blk.sync with st := 3, run := 0 } }) ∧
  (∀ (s : State), s.blk.dev.powered = true →
    let ext := s.blk.slice.joined && s.blk.slice.harbour && s.blk.slice.extref
    (s.does .ppsEdge fun t => t = if ext then { s.blk with sync := { s.blk.sync with pps := s.blk.tide }, board := { s.blk.board with ppsSeen := true } } else s.blk) ∧
    (s.does .ppsSeenExpiry fun t => t = { s.blk with board := { s.blk.board with ppsSeen := false } }) ∧
    (s.does .trefLoss fun t => t = { s.blk with board := { s.blk.board with trefOk := false } }) ∧
    (s.does .trefReturn fun t => t = if ext then { s.blk with board := { s.blk.board with trefOk := true } } else s.blk))

/-! ### Mode changes -/

/-- R445, R447, R450: CMD_MODE_PREPARE in slice scope, at the Harbourmaster, stages the change and waits for every member's acknowledgement; in device scope it waits for the device's own units, of which it takes as a free choice that all or
not all acknowledge. A member that is LOCKED and has nothing staged stages what MODE_PREPARE carries. The last acknowledgement commits at the first epoch an epoch or more ahead; a refusal ends the change with ST_BUSY.
The data bytes of the packets are the model's coding, and the free choice stands for what the spec leaves open (log entries 24 and 3). -/
def Obligations.ModeChangesBegin : Prop :=
  (∀ (s : State) (m : Msg), s.blk.takes m = true → m.opcode = 0x0604 → m.param = 0 → modeFault m.payload = none → s.blk.mode.phase = 0 →
    let e := (s.blk.tide + 2 ^ 20 + (2 ^ 20 - 1)) / 2 ^ 20 * 2 ^ 20
    let staged := fun (t : Blk) => t.awaits m ∧ t.mode.phase = 1 ∧ t.mode.change = leAt m.payload 0 4 ∧ t.mode.staged = some m.payload ∧ t.mode.coord = true ∧ t.mode.cmd = some (m.ctx, m.seq) ∧
      (s.blk.measureCmd m).chipSame t
    (tbit (mcBits m.payload) 0 = true → s.blk.slice.joined = true → s.blk.slice.harbour = true → s.does (.cmdModePrepare m) fun t => staged t ∧ t.mode.acks = [s.blk.slice.devid] ∧
      t.mode.commit = if s.blk.members.all (· == s.blk.slice.devid) then some e else none) ∧
    (tbit (mcBits m.payload) 0 = false → (tbit (mcBits m.payload) 2 = true → s.blk.slice.joined = false) → s.does (.cmdModePrepare m) fun t => staged t ∧
      (t.mode.commit = some e ∨ (t.mode.commit = none ∧ ∃ u, u < 3 ∧ t.mode.acks = [u])))) ∧
  (∀ (s : State) (k : Nat) (p : Pkt), k < nLinks → p.kind = 0x25 → s.blk.rests = true → s.blk.firstCopy p = true →
    (s.blk.sync.st = 2 → s.blk.mode.staged = none → s.does (.modePrepareRx k p) fun t => t.mode.phase = 1 ∧ t.mode.change = pktOpseq p ∧ t.mode.staged = some (bytesAt p.data 0 16) ∧
      t.mode.coord = false ∧ t.mode.commit = none ∧ s.blk.chipSame t) ∧
    (s.blk.sync.st ≠ 2 ∨ s.blk.mode.staged.isSome = true → s.does (.modePrepareRx k p) fun t => t.mode.staged = s.blk.mode.staged ∧ t.mode.phase = s.blk.mode.phase ∧ s.blk.chipSame t)) ∧
  (∀ (s : State) (p : Pkt) (c : Cmd), s.blk.onlyWaits c = true → c.m.opcode = 0x0604 → p.kind = 0x26 → p.dst = s.blk.slice.devid → s.blk.mode.coord = true → s.blk.mode.change = pktOpseq p →
    s.blk.mode.commit = none → s.blk.mode.phase = 1 → s.blk.mode.cmd = some (c.ctx, c.seq) → s.blk.mode.held = [] →
    let l := if s.blk.mode.acks.contains p.src then s.blk.mode.acks else s.blk.mode.acks ++ [p.src]
    (tbit (pktSig p) 0 = true → s.does (.modeAckRx p) fun t => t.answered c.m stBUSY 2 [] ∧ t.host.cmds = [] ∧ t.mode.phase = 0 ∧ t.mode.staged = none ∧ s.blk.chipSame t) ∧
    (tbit (pktSig p) 0 = false → s.does (.modeAckRx p) fun t => t.mode.acks = l ∧ t.mode.phase = 1 ∧
      t.mode.commit = (if s.blk.members.all l.contains then some ((s.blk.tide + 2 ^ 20 + (2 ^ 20 - 1)) / 2 ^ 20 * 2 ^ 20) else none) ∧ s.blk.chipSame t)) ∧
  (∀ (s : State) (c : Cmd), s.blk.onlyWaits c = true → s.blk.mode.coord = true → s.blk.mode.commit = none → s.blk.mode.phase = 1 → s.blk.mode.cmd = some (c.ctx, c.seq) → s.blk.mode.held = [] →
    s.does .modeAckTimeout fun t => t.answered c.m stHWERROR s.blk.errDetail [] ∧ t.host.cmds = [] ∧ t.mode.phase = 0 ∧ t.mode.staged = none ∧ t.err.next = (s.blk.err.next + 1) % 2 ^ 32 ∧ s.blk.chipSame t)

/-- R447, R448, R449: MODE_COMMIT sets the epoch of a staged change, and takes effect at once when that has passed; COMMIT_ACK ends the resending to its sender, which otherwise repeats; MODE_ABORT drops the change; a member that hears neither is in doubt; at the
epoch the change takes effect in the route table, the fabric mode and the rate ceiling, and the command ends with the epoch.
The data bytes of the packets are the model's coding (log entry 24). -/
def Obligations.ModeChangesEnd : Prop :=
  (∀ (s : State) (k : Nat) (p : Pkt) (v : List Byte), k < nLinks → s.blk.rests = true → s.blk.mode.coord = false → s.blk.mode.change = pktOpseq p → s.blk.mode.staged = some v → s.blk.mode.held = [] →
    let e := leAt p.data 0 8
    (p.kind = 0x27 → s.blk.tide < e → s.does (.modeCommitRx k p) fun t => t.mode.commit = some e ∧ t.mode.phase = 1 ∧ t.mode.staged = some v ∧ s.blk.chipSame t) ∧
    (p.kind = 0x27 → e ≤ s.blk.tide → s.does (.modeCommitRx k p) fun t => t.mode.staged = none ∧ t.mode.phase = 0 ∧ t.mode.epoch = e ∧
      (tbit (mcBits v) 1 = true → t.slice.routes = s.blk.slice.shadow ∧ t.slice.shadow = s.blk.slice.routes) ∧ s.blk.chipSame t) ∧
    (p.kind = 0x28 → s.blk.mode.commit = none → s.does (.modeAbortRx k p) fun t => t.mode.staged = none ∧ t.mode.phase = 0 ∧ t.slice.routes = s.blk.slice.routes ∧ s.blk.chipSame t)) ∧
  (∀ (s : State) (p : Pkt), s.blk.rests = true → p.kind = 0x29 → p.dst = s.blk.slice.devid → s.blk.mode.change = pktOpseq p →
    s.does (.commitAckRx p) fun t => t = { s.blk with mode := { s.blk.mode with uncommitted := s.blk.mode.uncommitted.filter fun d => d != p.src } }) ∧
  (∀ (s : State), s.does .modeCommitResend fun t => s.blk.chipSame t ∧ t.mode = s.blk.mode ∧ t.host = s.blk.host ∧
    ∀ d, s.blk.mode.uncommitted = [d] → t = s.blk.sendCtl (ctlPkt d 0x27 s.blk.mode.change 0 (leBytes 8 (s.blk.mode.commit.getD s.blk.mode.epoch)))) ∧
  (∀ (s : State), s.blk.rests = true → s.blk.mode.coord = false → s.blk.mode.phase = 1 → s.blk.mode.commit = none →
    s.does .modeInDoubt fun t => t.mode = { s.blk.mode with phase := 2 } ∧ t.err.next = (s.blk.err.next + 1) % 2 ^ 32 ∧ { s.blk with cfg := t.cfg, host := t.host, err := t.err, mode := t.mode } = t) ∧
  (∀ (s : State) (c : Cmd) (e : Nat) (v : List Byte), s.blk.onlyWaits c = true → s.blk.mode.cmd = some (c.ctx, c.seq) → s.blk.mode.commit = some e → s.blk.mode.staged = some v → s.blk.mode.held = [] → s.blk.canon →
    s.does .modeEpochSwitch fun t => t.answered c.m stOK 0 (leBytes 8 e) ∧ t.host.cmds = [] ∧ t.tide = max s.blk.tide e ∧ t.mode.phase = 0 ∧ t.mode.staged = none ∧ t.mode.epoch = e ∧
      (tbit (mcBits v) 1 = true → t.slice.routes = s.blk.slice.shadow ∧ t.slice.shadow = s.blk.slice.routes) ∧
      (tbit (mcBits v) 2 = true → t.slice.fmode = leAt v 5 1 % 4) ∧
      t.mem = s.blk.mem ∧ t.coves = s.blk.coves ∧ (tbit (mcBits v) 3 = true → t.cfgGet 0x810 = setFld (s.blk.cfgGet 0x810) 23 16 (leAt v 6 1) % 2 ^ 64))

/-! ### Partitions -/

/-- R479, R482, R485, R488: CMD_PART_CREATE of free Headlands and granules makes the partition; CMD_PART_KEY gives it the key that its payload wraps, or refuses it; CMD_PART_KILL makes it scrub-pending with its key gone, its granules ZEROING where that is
asked; the end of the zeroing on the chip empties its Tidepools and ends the command; the end of background zeroing leaves no byte of its granules.
The bytes of the events are the model's layout (log entry 22). -/
def Obligations.PartitionCommands : Prop :=
  (∀ (s : State) (m : Msg) (p : Nat), s.blk.takes m = true → m.opcode = 0x0700 → m.param = p → p < 16 →
    let mask := leAt m.payload 0 8
    let g := leAt m.payload 8 144
    (s.blk.part p).st = 0 → 0 < mask → mask < 2 ^ 16 → g &&& s.blk.zeroing = 0 → (∀ q, q < 16 → ((s.blk.part q).st ≠ 0 → g &&& (s.blk.part q).grans = 0) ∧ g &&& (s.blk.part q).leaving = 0) →
    (∀ h, h < 16 → tbit mask h = true → s.blk.partOfHl h = none ∧ (s.blk.hl h).ready ≠ 0 ∧ (s.blk.hl h).ready ≠ 3) →
    s.does (.cmdPartCreate m) fun t => t.answered m stOK 0 [] ∧ (t.part p).st = 1 ∧ (t.part p).hlmask = mask ∧ (t.part p).grans = g ∧ (t.part p).key = [] ∧ (t.part p).pm = zeros 64 ∧
      s.blk.partsBut t [p] ∧ { s.blk.measureCmd m with parts := t.parts, host := t.host } = t ∧ s.blk.hostFor t m) ∧
  (∀ (s : State) (m : Msg), s.blk.takes m = true → m.opcode = 0x0701 → m.param < 16 → (s.blk.part m.param).st = 1 →
    let kek := (Config.shake256 (Config.kemDecap s.blk.fw.kemKey (bytesAt m.payload 0 1568) ++ [0x50#8] ++ leBytes 1 m.param ++ s.blk.fw.bootNonce) 32).take 32
    s.does (.cmdPartKey m) fun t => match Config.aesUnwrap kek (bytesAt m.payload 0x620 72) with
      | none => t.answered m stNOPERM 3 [] ∧ t.part m.param = s.blk.part m.param
      | some k =>
        let key := bytesAt k 0 64
        if key.take 32 = key.drop 32 then t.answered m stBADPARAM 0x640 [] ∧ t.part m.param = s.blk.part m.param
        else t.answered m stOK 0 [] ∧ t.part m.param = { s.blk.part m.param with st := 2, key := key } ∧ s.blk.partsBut t [m.param] ∧
          { s.blk.measureCmd m with parts := t.parts, host := t.host } = t) ∧
  (∀ (s : State) (m : Msg) (p : Nat) (zero dissolve : Bool), s.blk.takes m = true → m.opcode = 0x0702 → p < 16 → m.param = p + bnat zero * 2 ^ 32 + bnat dissolve * 2 ^ 33 → s.blk.quiet = true →
    let x := s.blk.part p
    (x.st = 1 ∨ x.st = 2) → s.blk.dev.changing = 0 → (x.grans ||| x.leaving) &&& s.blk.zeroing = 0 →
    s.does (.cmdPartKill m) fun t => t.awaits m ∧ (t.part p).st = 3 ∧ (t.part p).key = [] ∧ (t.part p).pm = zeros 64 ∧ (t.part p).dissolving = dissolve ∧
      t.zeroing = (if zero then s.blk.zeroing ||| x.grans else s.blk.zeroing) ∧ t.mem = s.blk.mem ∧
      s.blk.partsBut t [p] ∧ (∀ v, v < nCoves → s.blk.partOfCove v ≠ some p → t.cove v = s.blk.cove v)) ∧
  (∀ (s : State) (c : Cmd) (p : Nat), s.blk.onlyWaits c = true → c.m.opcode = 0x0702 → p < 16 → s.blk.quiet = true →
    let x := s.blk.part p
    x.st = 3 → x.killer = some (c.ctx, c.seq) → x.isReset = false → (x.dissolving = true → c.ctx = 0) →
    s.does (.killScrubDone p) fun t => t.answered c.m stOK 0 [] ∧ t.host.cmds = [] ∧ (t.part p).st = (if x.dissolving then 0 else 1) ∧
      t.mem = s.blk.mem.filter (fun q => !(regionOf q.1 == 1 && s.blk.partOfCove ((q.1 - tpBase) / tpSize) == some p)) ∧
      (∀ v, v < nCoves → s.blk.partOfCove v = some p → (t.seq v).st = 0 ∧ (t.seq v).prog = [] ∧ (t.cove v).acm = []) ∧
      s.blk.partsBut t [p]) ∧
  (∀ (s : State) (p : Nat), p < 16 →
    let z := ((s.blk.part p).grans ||| (s.blk.part p).leaving) &&& s.blk.zeroing
    z ≠ 0 → (s.blk.part p).st ≠ 3 →
    s.does (.backgroundZeroDone p) fun t => t.zeroing = s.blk.zeroing - z ∧ t.mem = s.blk.mem.filter (fun q => !(regionOf q.1 == 0 && tbit z (q.1 / 2 ^ 30))) ∧
      s.blk.partsBut t [p] ∧ { s.blk with mem := t.mem, unitKeys := t.unitKeys, ueUnits := t.ueUnits, zeroed := t.zeroed, zeroing := t.zeroing, parts := t.parts, host := t.host } = t)

/-! ### Power states and resets -/

/-- R469, R470, R472, R458: CMD_POWER_STATE to SLACK of a device whose Coves run nothing ends with every scope in SLACK; to NEAP or DORMANT it begins the entry, which ends once all has drained: programs are lost, and in DORMANT the Tidepools, while HBM is kept. To ACTIVE
it ends SLACK at once, or begins the wake from NEAP or DORMANT, which ends with the bitmap of what was lost.
The bytes of the events are the model's layout (log entry 22). -/
def Obligations.PowerStates : Prop :=
  (∀ (s : State) (m : Msg), s.blk.takes m = true → m.opcode = 0x0800 → m.partition = 0xFF → s.blk.settled = true →
    (m.param = 1 → s.blk.dev.power = 0 → s.blk.quiet = true → s.does (.powerEnterSlack m) fun t => t.answered m stOK 0 [] ∧ t.dev.slack = true ∧
      (∀ p, p < 16 → (s.blk.part p).st ≠ 0 → (t.part p).slack = true) ∧ { s.blk.dev with slack := true } = t.dev ∧ t.mem = s.blk.mem) ∧
    (m.param = 2 → s.blk.dev.power = 0 → s.blk.coveOutside = false → s.blk.mode.phase = 0 → s.does (.powerEnterNeap m) fun t => t.awaits m ∧
      t.dev = { s.blk.dev with changing := 1, target := 2, changer := some (m.ctx, m.seq) } ∧ { s.blk with dev := t.dev, fw := t.fw, serves := t.serves, host := t.host } = t) ∧
    (m.param = 3 → s.blk.dev.power < 3 → s.blk.coveOutside = false → s.blk.mode.phase = 0 → s.does (.powerEnterDormant m) fun t => t.awaits m ∧
      t.dev = { s.blk.dev with changing := 1, target := 3, changer := some (m.ctx, m.seq) } ∧ { s.blk with dev := t.dev, fw := t.fw, serves := t.serves, host := t.host } = t) ∧
    (m.param = 0 → 2 ≤ s.blk.dev.power → s.does (.powerWake m) fun t => t.awaits m ∧ t.dev = { s.blk.dev with changing := 2, target := 0, changer := some (m.ctx, m.seq) } ∧ { s.blk with dev := t.dev, fw := t.fw, host := t.host } = t ∧ s.blk.hostFor t m) ∧
    (m.param = 0 → s.blk.dev.power = 0 → s.blk.quiet = true → s.does (.powerWake m) fun t => t.answered m stOK 0 [] ∧ t.dev.slack = false ∧
      (∀ p, p < 16 → (s.blk.part p).st ≠ 0 → (t.part p).slack = false) ∧ t.mem = s.blk.mem)) ∧
  (∀ (s : State) (c : Cmd), s.blk.onlyWaits c = true → s.blk.dev.changer = some (c.ctx, c.seq) →
    (s.blk.dev.changing = 1 → s.blk.drained = true → (s.blk.dev.target = 2 ∨ s.blk.dev.target = 3) → s.does .powerEntryDrained fun t => t.answered c.m stOK 0 [] ∧ t.host.cmds = [] ∧
      t.dev.power = s.blk.dev.target ∧ t.dev.changing = 0 ∧ (∀ v, (t.seq v).prog = [] ∧ (t.seq v).st = 0 ∧ (t.cove v).acm = []) ∧
      t.mem = (if s.blk.dev.target = 3 then s.blk.mem.filter (fun q => !(regionOf q.1 == 1)) else s.blk.mem) ∧
      t.unitKeys = s.blk.unitKeys ∧ t.cores = s.blk.cores ∧ t.board = s.blk.board ∧ t.accounts = s.blk.accounts ∧ t.hls = s.blk.hls) ∧
    (s.blk.dev.changing = 2 → s.does .powerWakeDone fun t => t.answered c.m stOK 0 [] ∧ t.host.cmds = [] ∧ t.dev.power = 0 ∧ t.dev.changing = 0 ∧
      t.dev.lost = (if s.blk.dev.power = 3 then 0x017E0E00 else 0x003A0A00) ∧ t.mem = s.blk.mem ∧ t.coves = s.blk.coves ∧ t.bays = s.blk.bays ∧ t.board = s.blk.board))

/-- R462, R463, R464, R465, R466, R519: CMD_RESET of kind DEVICE answers, then leaves nothing but HBM, the ports and context 0, until the reset ends in ROM; of kind LIGHTHOUSE it stops intake; of kind PARTITION it stops the partition as a kill does; of kind COVE the Cove
loses its program and Tidepool; of kind LINK the link trains anew, and of kind STACK the stack retrains; the crossings of what is in reset are closed.
The bytes of the events are the model's layout (log entry 22). -/
def Obligations.Resets : Prop :=
  (∀ (s : State) (m : Msg), s.blk.takes m = true → m.opcode = 0x0801 → m.partition = 0xFF →
    (m.param = 1 → s.does (.resetDevice m) fun t => t.dev.changing = 3 ∧ t.dev.svc = false ∧ t.host.cmds = [] ∧ t.coves = [] ∧ t.parts = [] ∧ t.fw = {} ∧ t.err.recs = s.blk.err.recs ∧
      t.mem = s.blk.mem.filter (fun q => regionOf q.1 == 0) ∧ (t.ctx 0).st = 1 ∧ (∀ n, n ≠ 0 → (t.ctx n).st = 0) ∧
      (s.blk.spans = [] → s.blk.host.intake = [] → (s.blk.asCmd m).flag 15 = true → s.blk.canSend (replyFrame s.blk m stOK 0 []) = true →
        s.blk.leftOn t (s.blk.homeOf m.ctx) (replyFrame s.blk m stOK 0 []))) ∧
    (m.param = 2 → s.blk.devMode = 4 → s.blk.powerChanging = false → s.blk.cores.lhReset = none → s.does (.resetLighthouse m) fun t => t.awaits m ∧ t.host.intakeStopped = true ∧
      t.cores.lhReset = some (m.ctx, m.seq) ∧ t.dev.closed.contains (3, 0) = true ∧ t.mem = s.blk.mem) ∧
    (∀ p, m.param = 3 + p * 65536 → p < 16 → s.blk.quiet = true → s.blk.devMode = 4 → s.blk.powerChanging = false → ((s.blk.part p).st = 1 ∨ (s.blk.part p).st = 2) →
      s.does (.resetPartition m) fun t => t.awaits m ∧ (t.part p).st = 3 ∧ (t.part p).isReset = true ∧ (t.part p).key = [] ∧ t.zeroing = s.blk.zeroing ∧ t.mem = s.blk.mem) ∧
    (∀ v, m.param = 4 + v * 65536 → v < 4096 → s.blk.quiet = true → s.blk.devMode = 4 → s.blk.powerChanging = false → (s.blk.cove v).clearing = false → s.blk.coveScrub v = false →
      s.does (.resetCove m) fun t => t.awaits m ∧ (t.cove v).clearing = true ∧ (t.seq v).prog = [] ∧ (t.seq v).st = 0 ∧ (t.cove v).acm = [] ∧ t.dev.closed.contains (0, v) = true ∧
        t.mem = s.blk.mem.filter (fun q => !(regionOf q.1 == 1 && (q.1 - tpBase) / tpSize == v)) ∧ ∀ u, u ≠ v → t.cove u = s.blk.cove u) ∧
    (∀ k, m.param = 5 + k * 65536 → k < nLinks → s.blk.devMode = 4 → s.blk.powerChanging = false → (s.blk.link k).cmd = none →
      s.does (.resetLink m) fun t => t.awaits m ∧ (t.link k).enabled = true ∧ (t.link k).cmd = some (m.ctx, m.seq) ∧ (t.link k).cmdKind = 5 ∧
        (t.link k).st = (if (s.blk.link k).trained then 2 else max (s.blk.link k).st 1) ∧ t.dev.closed.contains (2, k) = true) ∧
    (∀ k, m.param = 6 + k * 65536 → k < nStacks → s.blk.devMode = 4 → s.blk.powerChanging = false → (s.blk.stack k).retrain = false → (s.blk.stack k).training = false → (s.blk.stack k).busyCmd = none →
      s.does (.resetStack m) fun t => t.awaits m ∧ t.stack k = { s.blk.stack k with retrain := true, busyCmd := some (m.ctx, m.seq) } ∧ t.dev.closed.contains (1, k) = true ∧ t.mem = s.blk.mem)) ∧
  (∀ (s : State), s.blk.dev.powered = true → s.blk.dev.changing = 3 →
    (s.blk.dev.mrstLow = false → s.does .resetDeviceDone fun t => t.dev = { s.blk.dev with changing := 0, lost := 0x01FF0FFF, lostKind := 1 } ∧ t.mem = s.blk.mem) ∧
    (s.blk.dev.mrstLow = true → s.does .mrstNRelease fun t => t.dev = { s.blk.dev with changing := 0, mrstLow := false, lost := 0x01FF0FFF, lostKind := 1 } ∧ t.mem = s.blk.mem)) ∧
  (∀ (s : State), s.blk.dev.powered = true → s.blk.dev.mrstLow = false → s.does .mrstNAssert fun t => t.dev.mrstLow = true ∧ t.dev.changing = 3 ∧ t.devMode = 1 ∧
    (s.blk.dev.changing ≠ 3 → t.host.cmds = [] ∧ t.coves = [] ∧ t.mem = s.blk.mem.filter (fun q => regionOf q.1 == 0)))

/-! ### Repairs -/

/-- R361, R506, R508: CMD_COVE_SPARE of a free slot begins the copy, and its end maps the Cove to the slot, retires the old one and reports the stall; CMD_HBM_REPAIR blocks the bank of the row while a repair row is left, and is refused with a record when none is; CMD_LANE_SPARE of a
stack holds the channel while a spare lane is left; the ends of both report their stall.
The bytes of the stall reports are the model's layout (log entry 22), and which spare lane is taken is a free choice (log entry 78). -/
def Obligations.Repairs : Prop :=
  (∀ (s : State) (m : Msg) (v slot : Nat) (fresh : Bool), s.blk.takes m = true → m.opcode = 0x0901 → m.param = v + slot * 65536 + bnat fresh * 2 ^ 32 → v < 4096 → slot < 17 → s.blk.quiet = true →
    s.blk.covesOk m.partition [v] = true → s.blk.coveScrub v = false → (s.blk.cove v).clearing = false → s.blk.powerChanging = false → (s.blk.bay (bayOf v)).sparing = none →
    s.does (.cmdCoveSpare m) fun t =>
      if ((List.range 16).any fun i => s.blk.coveSlot (bayOf v) i == slot) || tbit (s.blk.retiredSlots (bayOf v)) slot then t.answered m stBADPARAM 0x18 [] ∧ { s.blk with host := t.host } = t
      else t.awaits m ∧ (t.bay (bayOf v)).sparing = some (v, slot, bnat fresh, s.blk.tide) ∧ s.blk.baysBut t [bayOf v] ∧ { s.blk with bays := t.bays, fw := t.fw, host := t.host } = t ∧ s.blk.hostFor t m) ∧
  (∀ (s : State) (c : Cmd) (v slot since : Nat), s.blk.onlyWaits c = true → c.m.opcode = 0x0901 → c.m.param = v + slot * 65536 → v < 4096 → slot < 17 → s.blk.quiet = true →
    let y := bayOf v
    (s.blk.bay y).sparing = some (v, slot, 0, since) → swf (fun i => Config.fusedSlot y i) (s.blk.bay y).coveMap = true →
    s.does (.coveSpareCopyDone y) fun t => t.answered c.m stOK 0 (leBytes 8 (s.blk.tide - since)) ∧ t.host.cmds = [] ∧ t.coveSlot y (v % 16) = slot ∧ (t.bay y).sparing = none ∧
      (t.bay y).retired = (s.blk.bay y).retired ||| 2 ^ s.blk.coveSlot y (v % 16) ∧ s.blk.baysBut t [y] ∧
      { s.blk with bays := t.bays, badCoves := t.badCoves, host := t.host } = t) ∧
  (∀ (s : State) (m : Msg) (k pc bank row : Nat), s.blk.takes m = true → m.opcode = 0x0902 → m.param = k + pc * 16 + bank * 512 + row * 2 ^ 14 → k < 16 → pc < 32 → bank < 32 → row < 73728 →
    let x := s.blk.stack k
    x.usable = true → x.retrain = false → x.bankBlocked = none → x.busyCmd = none →
    s.does (.cmdHbmRepair m) fun t =>
      if s.blk.pprLeft k pc (Config.bankGroup bank) = 0 then t.answered m stHWERROR s.blk.errDetail [] ∧ t.err.next = (s.blk.err.next + 1) % 2 ^ 32 ∧ { s.blk with cfg := t.cfg, host := t.host, err := t.err } = t
      else t.awaits m ∧ t.stack k = { x with bankBlocked := some (pc * 32 + bank), busyCmd := some (m.ctx, m.seq), repairs := x.repairs ++ [(pc * 32 + bank, row)] } ∧ s.blk.stacksBut t [k] ∧
        { s.blk.measureCmd m with hbmStacks := t.hbmStacks, host := t.host } = t) ∧
  (∀ (s : State) (c : Cmd) (k bank row : Nat) (l : List (Nat × Nat)), s.blk.onlyWaits c = true → k < 16 →
    let x := s.blk.stack k
    x.bankBlocked = some bank → x.busyCmd = some (c.ctx, c.seq) → x.repairs = l ++ [(bank, row)] → s.blk.rowUes k bank row = [] →
    s.does (.hbmRepairDone k) fun t => t.answered c.m stOK 0 (leBytes 8 (s.blk.tide - c.vars.headD s.blk.tide)) ∧ t.host.cmds = [] ∧
      t.stack k = { x with bankBlocked := none, busyCmd := none, pprDone := x.pprDone + 1 } ∧ s.blk.stacksBut t [k] ∧ { s.blk with hbmStacks := t.hbmStacks, fw := t.fw, parts := t.parts, host := t.host } = t) ∧
  (∀ (s : State) (m : Msg) (k ch lane : Nat), s.blk.takes m = true → m.opcode = 0x0903 → m.param = k + ch * 16 + lane * 256 → k < 16 → ch < 16 → lane < 96 →
    let x := s.blk.stack k
    x.usable = true → x.retrain = false → x.channelHeld = none → x.busyCmd = none →
    s.does (.laneSpareStack m) fun t =>
      if s.blk.laneSpares k ch = 0 then t.answered m stBUSY 2 [] ∧ { s.blk with host := t.host } = t
      else t.awaits m ∧ (t.stack k).channelHeld = some ch ∧ (t.stack k).busyCmd = some (m.ctx, m.seq) ∧
        sget (fun _ => 0) (t.stack k).spareUsed ch = sget (fun _ => 0) x.spareUsed ch + 1 ∧ s.blk.stacksBut t [k] ∧
        { s.blk.measureCmd m with hbmStacks := t.hbmStacks, host := t.host } = t) ∧
  (∀ (s : State) (c : Cmd) (k ch : Nat), s.blk.onlyWaits c = true → k < 16 →
    let x := s.blk.stack k
    x.channelHeld = some ch → x.busyCmd = some (c.ctx, c.seq) →
    s.does (.stackLaneSpareDone k) fun t => t.answered c.m stOK 0 (leBytes 8 (s.blk.tide - c.vars.headD s.blk.tide)) ∧ t.host.cmds = [] ∧
      t.stack k = { x with channelHeld := none, busyCmd := none, spared := x.spared + 1 } ∧ s.blk.stacksBut t [k] ∧ { s.blk with hbmStacks := t.hbmStacks, fw := t.fw, parts := t.parts, host := t.host } = t)

/-! ### The board -/

/-- R517, R518, R521, R528, R507, R502: PWR_OK high starts the machine of reset, and low leaves nothing; the main input is noted, and out of range, or collapsed, it is FATAL, as the loss of SYSCLK and a junction at 105 °C are: no command is left. A link reference lost or returned is noted;
a die at 100 °C steps down and one below 97 °C steps up; a merging window ends with nothing left to report. -/
def Obligations.BoardPins : Prop :=
  (∀ (s : State), (s.blk.dev.powered = false → s.does .pwrOkAssert fun t => t = { Blk.reset with free := s.blk.free, hbmStacks := s.blk.hbmStacks }) ∧
    (s.does .pwrOkDeassert fun t => t.dev = { powered := false } ∧ t.mem = [] ∧ t.host.cmds = [] ∧ t.coves = [] ∧ t.parts = []) ∧
    (s.does .errMergeWindowEnd fun t => t.err = { s.blk.err with rose := [] } ∧ { s.blk with err := t.err, host := t.host } = t)) ∧
  (∀ (s : State) (mv : Nat), s.blk.dev.powered = true →
    (s.does (.mainInputWarn mv) fun t => t.board.mainMv = mv ∧ tbit t.board.alerts 3 = true ∧ { s.blk with board := t.board } = t) ∧
    (s.does (.mainInputInRange mv) fun t => t = { s.blk with board := { s.blk.board with mainMv := mv, mainOk := true } }) ∧
    (s.blk.board.mainOk = true → s.blk.dev.fatal = false → s.does (.mainInputFault mv) fun t => t.dev.fatal = true ∧ t.board.mainOk = false ∧ t.host.cmds = [] ∧ t.err.next = (s.blk.err.next + 1) % 2 ^ 32) ∧
    (s.blk.board.mainOk = true → s.does (.mainInputCollapse mv) fun t => t.dev.fatal = true ∧ t.board.mainOk = false ∧ t.mem = [] ∧ t.coves = [] ∧ t.host.cmds = []) ∧
    (s.blk.dev.fatal = false → s.does .sysclkLoss fun t => t.dev.fatal = true ∧ t.board.sysclk = false ∧ t.host.cmds = [] ∧ t.err.next = (s.blk.err.next + 1) % 2 ^ 32)) ∧
  (∀ (s : State) (r : Nat), s.blk.dev.powered = true → r < 2 →
    (s.does (.lrefLoss r) fun t => (if r = 0 then t.board.lref0 else t.board.lref1) = false ∧ t.mem = s.blk.mem ∧ ∀ k, k < nLinks → k % 4 / 2 = r → (t.link k).st < 2) ∧
    (s.does (.lrefReturn r) fun t => (if r = 0 then t.board.lref0 else t.board.lref1) = true ∧ { s.blk with board := t.board } = t)) ∧
  (∀ (s : State) (die temp : Nat), s.blk.dev.powered = true → die < 4 →
    let x := s.blk.board.read die temp
    (1600 ≤ temp → s.does (.throttleStepDown die temp) fun t => t.board.dieTemp = x.dieTemp ∧ t.board.steps = setNth s.blk.board.steps die (min 8 (nth s.blk.board.steps die 0 + 1)) ∧ { s.blk with board := t.board, host := t.host } = t) ∧
    (temp < 1552 → nth s.blk.board.steps die 0 ≠ 0 → s.does (.throttleStepUp die temp) fun t => t.board.dieTemp = x.dieTemp ∧
      t.board.steps = setNth s.blk.board.steps die (nth s.blk.board.steps die 0 - 1) ∧ { s.blk with board := t.board, host := t.host } = t) ∧
    (1680 ≤ temp → s.blk.dev.fatal = false → s.does (.thermalTrip die temp) fun t => t.dev.fatal = true ∧ t.host.cmds = [] ∧ t.board.tj = x.tj) ∧
    (temp < 1680 → s.does (.thermalTrip die temp) fun t => t = { s.blk with board := x }))

/-- R524, R525, R530: the SMBus target answers ID, SERIAL, STATUS, TJ, SUPPLY and ALERT with their bytes, clears the latched bits of ALERT that are written as ones and sets the mask; the boundary-scan instructions load their registers, and the three that drive pins act as BYPASS while
MRST_N is high. -/
def Obligations.BoardBus : Prop :=
  ∀ (s : State), s.blk.dev.powered = true →
    let tells := fun (i : Instr) (v : List Byte) => s.does i fun t => t = { s.blk with board := { s.blk.board with smb := v } }
    let loads := fun (i : Instr) (ir : Nat) (dr : List Byte) => s.does i fun t => t = { s.blk with board := { s.blk.board with tapIr := ir, tapDr := dr } }
    tells .smbId (leBytes 8 dvId) ∧ tells .smbSerial (leBytes 8 Config.serial.toNat) ∧ tells .smbTj (leBytes 2 (toTwos 16 s.blk.board.tj)) ∧ tells .smbAlertRead (leBytes 2 s.blk.alertWord) ∧
    tells .smbSupply s.blk.smbSupply ∧ tells .smbStatus (leBytes 2 ((if s.blk.dev.fatal then 3 else if !s.blk.dev.svc then 0 else if 2 ≤ s.blk.dev.power then 2 else 1) + 4 * bnat s.blk.board.mainOk +
      8 * bnat s.blk.board.throttled + 16 * bnat s.blk.host.portA.up + 32 * bnat s.blk.host.portB.up)) ∧
    (∀ v, s.does (.smbAlertClear v) fun t => { s.blk with board := t.board } = t ∧ t.board.alerts = s.blk.board.alerts - (s.blk.board.alerts &&& v &&& 0xE)) ∧
    (∀ v, s.blk.canon → s.does (.smbAlertMask v) fun t => { s.blk with cfg := t.cfg } = t ∧ t.cfgGet 0xF10 = fld v 3 1 * 0x200) ∧
    loads .tapBypass 0 [0#8] ∧ loads .tapIdcode 1 (leBytes 4 0x10B3354F) ∧ (∀ pins, loads (.tapSamplePreload pins) 2 pins) ∧
    ∀ ir, ir < 3 → let i := if ir = 0 then Instr.tapExtest else if ir = 1 then .tapExtestPulse else .tapExtestTrain
      if s.blk.dev.mrstLow then loads i (3 + ir) s.blk.board.tapDr else loads i 0 [0#8]

/-! ### The machine as a whole -/

/-- A step with a command at the front of the queue executes exactly it, with the queue's rest; with none waiting the clock counts and what can go on does (the model's choice, log entry 1). -/
def Obligations.StepRunsTheFront : Prop :=
  (∀ (c : Instr) (l : List Instr) (b : Blk), step { pending := c :: l, blk := b } = exec c { pending := l, blk := b }) ∧
  (∀ (b : Blk), step { pending := [], blk := b } = .next { pending := [], blk := b.idleStep })

/-- R51, R453, R462: after reset the device is in ROM with no command, no partition, no program and no byte of memory listed, its ports down, Tide 0, and every map of it in canonical form.
Registers to which the spec gives no reset value hold the model's (log entry 7), and unlisted memory reads zero by the model's choice (log entry 5). -/
def Obligations.ResetState : Prop :=
  State.reset.pending = [] ∧ State.reset.blk.devMode = 3 ∧ State.reset.blk.tide = 0 ∧ State.reset.blk.host.cmds = [] ∧ State.reset.blk.mem = [] ∧ State.reset.blk.parts = [] ∧
  State.reset.blk.coves = [] ∧ State.reset.blk.host.portA.up = false ∧ State.reset.blk.host.portB.up = false ∧ State.reset.blk.fw.running = none ∧ State.reset.blk.slice.joined = false ∧
  State.reset.blk.canon ∧ State.reset.blk.rests = true

/-- R17, R30, R57: a command whose operands name units of the device, and a message or packet of its row, completes and leaves the queue as it is; any other is the fault noSuchUnit, and nothing else faults or is refused.
That a command whose operands name no unit is a fault is the model's choice (log entry 68). -/
def Obligations.EveryCommandCompletes : Prop :=
  ∀ (i : Instr) (s : State), (i.rowOk = true → ∃ b, exec i s = .next { s with blk := b }) ∧ (i.rowOk = false → exec i s = .fault .noSuchUnit)

/-- R352, R198, R485: every step keeps memory in its canonical form: addresses rise, and no byte listed is what an unlisted one reads as.
That an unlisted byte reads zero is the model's choice (log entry 5). -/
def Obligations.EveryStepKeepsMemory : Prop :=
  ∀ (s t : State), s.memOk → step s = .next t → t.memOk

/-- R406: the 32-byte header of a packet whose fields fit their places reads back as that packet, followed by its data; and a header whose reserved flags are zero is the one spelt by the packet that it reads as. -/
def Obligations.PacketHeadersReadBack : Prop :=
  (∀ (p : Pkt), p.wf = true → pktParse (pktHeader p ++ p.data) = p) ∧
  (∀ (v : List Byte), v.length = 32 → leAt v 7 1 < 16 → pktHeader (pktParse v) = v)
end

