-- ==== Sys2Proof/Laws/Maps.lean ====
section
/-! SUPPORT. The laws of sparse maps: reading after writing, and the canonical form that every operation keeps. -/
namespace Sys2Proof.Machine

variable {α : Type} {d : Nat → α} {m : List (Nat × α)} {k j n : Nat} {v : α}

@[simp] theorem sget_nil : sget d [] k = d k := rfl

/-- A key above every listed key, or below, is not listed. -/
theorem sget_above (h : sabove j m = true) (hk : k ≤ j) : sget d m k = d k := by
  induction m with
  | nil => rfl
  | cons p r ih =>
    simp only [sabove, Bool.and_eq_true, decide_eq_true_eq] at h
    have : p.1 ≠ k := by omega
    simp [sget, this, ih h.2]

theorem sabove_mono (h : sabove j m = true) (hk : k ≤ j) : sabove k m = true := by
  induction m with
  | nil => rfl
  | cons p r ih =>
    simp only [sabove, Bool.and_eq_true, decide_eq_true_eq] at h ⊢
    exact ⟨by omega, ih h.2⟩

theorem sget_pos {x : α} (h : sget d m k = x) (hx : x ≠ d k) : ∃ p ∈ m, p.1 = k := by
  induction m with
  | nil => exact absurd h.symm hx
  | cons p r ih =>
    by_cases e : p.1 = k
    · exact ⟨p, by simp, e⟩
    · obtain ⟨q, hq, he⟩ := ih (by simpa [sget, e] using h)
      exact ⟨q, by simp [hq], he⟩

variable [DecidableEq α]

/-- Another key reads as before. -/
theorem sget_sset_ne (h : j ≠ k) : sget d (sset d m k v) j = sget d m j := by
  induction m with
  | nil => by_cases e : v = d k <;> simp [sset, sget, e, h.symm]
  | cons p r ih =>
    obtain ⟨a, x⟩ := p
    unfold sset
    split
    · split
      · rfl
      · simp [sget, h.symm]
    · split
      · next e => subst e; split <;> simp [sget, h.symm]
      · simp [sget, ih]

/-- The written key reads as the value written, when that is no default. -/
theorem sget_sset_new (h : v ≠ d k) : sget d (sset d m k v) k = v := by
  induction m with
  | nil => simp [sset, sget, h]
  | cons p r ih =>
    obtain ⟨a, x⟩ := p
    unfold sset
    split
    · simp [sget]
    · split
      · simp [sget]
      · next e => simp [sget, Ne.symm e, ih]

/-- In canonical form the written key reads as the value written. -/
theorem sget_sset_same (h : swf d m = true) : sget d (sset d m k v) k = v := by
  by_cases e : v = d k
  · induction m with
    | nil => simp [sset, e]
    | cons p r ih =>
      obtain ⟨a, x⟩ := p
      simp only [swf, Bool.and_eq_true, bne_iff_ne, ne_eq] at h
      unfold sset
      split
      · next hk => simp only [e]; exact (sget_above (j := k) (by simp [sabove, hk, sabove_mono h.1.2 (Nat.le_of_lt hk)]) (Nat.le_refl _))
      · split
        · next hk => subst hk; simp only [e]; exact sget_above h.1.2 (Nat.le_refl _)
        · next e2 => simp only [sget, Ne.symm e2, if_false]; exact ih h.2
  · exact sget_sset_new e

theorem sabove_sset (h : sabove j m = true) (hk : j < k) : sabove j (sset d m k v) = true := by
  induction m with
  | nil => by_cases e : v = d k <;> simp [sset, sabove, e, hk]
  | cons p r ih =>
    obtain ⟨a, x⟩ := p
    simp only [sabove, Bool.and_eq_true, decide_eq_true_eq] at h
    unfold sset
    split
    · split <;> simp [sabove, h.1, h.2, hk]
    · split
      · split <;> simp [sabove, h.2, hk]
      · simp [sabove, h.1, ih h.2]

/-- Writing a key keeps the canonical form. -/
@[simp] theorem swf_sset (h : swf d m = true) : swf d (sset d m k v) = true := by
  induction m with
  | nil => by_cases e : v = d k <;> simp [sset, swf, sabove, e]
  | cons p r ih =>
    obtain ⟨a, x⟩ := p
    simp only [swf, Bool.and_eq_true, bne_iff_ne, ne_eq] at h
    unfold sset
    split
    · next hk =>
      split
      · simp [swf, h.1.1, h.1.2, h.2]
      · next e => simp [swf, e, sabove, hk, sabove_mono h.1.2 (Nat.le_of_lt hk), h.1.1, h.1.2, h.2]
    · split
      · next hk => subst hk; split
                   · exact h.2
                   · next e => simp [swf, e, h.1.2, h.2]
      · next h1 h2 => simp [swf, h.1.1, sabove_sset h.1.2 (by omega : a < k), ih h.2]

@[simp] theorem swf_ssetRun (l : List α) (h : swf d m = true) : swf d (ssetRun d m k l) = true := by
  induction l generalizing m k with
  | nil => exact h
  | cons x r ih => exact ih (swf_sset h)

omit [DecidableEq α] in
theorem sabove_filter {p : Nat × α → Bool} (h : sabove j m = true) : sabove j (m.filter p) = true := by
  induction m with
  | nil => rfl
  | cons q r ih =>
    simp only [sabove, Bool.and_eq_true] at h
    by_cases e : p q <;> simp [e, sabove, h.1, ih h.2]

/-- Leaving entries out keeps the canonical form. -/
@[simp] theorem swf_filter {p : Nat × α → Bool} (h : swf d m = true) : swf d (m.filter p) = true := by
  induction m with
  | nil => rfl
  | cons q r ih =>
    simp only [swf, Bool.and_eq_true] at h
    by_cases e : p q
    · simp [e, swf, h.1.1, sabove_filter h.1.2, ih h.2]
    · simp [e, ih h.2]

@[simp] theorem swf_sclear {hi : Nat} (h : swf d m = true) : swf d (sclear m k hi) = true := swf_filter h

theorem sabove_smap {f : Nat → α → α} (h : sabove j m = true) : sabove j (smap d f m) = true := by
  induction m with
  | nil => rfl
  | cons q r ih =>
    simp only [sabove, Bool.and_eq_true] at h
    have := ih h.2
    unfold smap at this ⊢
    by_cases e : f q.1 q.2 = d q.1 <;> simp [e, sabove, this]
    simpa using h.1

/-- Changing every value keeps the canonical form. -/
@[simp] theorem swf_smap {f : Nat → α → α} (h : swf d m = true) : swf d (smap d f m) = true := by
  induction m with
  | nil => rfl
  | cons q r ih =>
    simp only [swf, Bool.and_eq_true] at h
    have h1 := ih h.2
    have h2 := sabove_smap (d := d) (f := f) h.1.2
    unfold smap at h1 h2 ⊢
    by_cases e : f q.1 q.2 = d q.1 <;> simp [e, swf, h1, h2]

/-- Outside a run of writes every key reads as before. -/
theorem sget_ssetRun_out (l : List α) (h : j < k ∨ k + l.length ≤ j) : sget d (ssetRun d m k l) j = sget d m j := by
  induction l generalizing m k with
  | nil => rfl
  | cons x r ih =>
    simp only [List.length_cons] at h
    rw [ssetRun, ih (by omega), sget_sset_ne (by omega)]

/-- Inside a run of writes a key reads as the value written there. -/
theorem sget_ssetRun_in (l : List α) (h : swf d m = true) (hj : k ≤ j) (hn : j - k < l.length) :
    sget d (ssetRun d m k l) j = l[j - k] := by
  induction l generalizing m k with
  | nil => simp at hn
  | cons x r ih =>
    by_cases e : j = k
    · subst e
      rw [ssetRun, sget_ssetRun_out r (by omega), sget_sset_same h]; simp
    · have h1 : j - k = (j - (k + 1)) + 1 := by omega
      rw [ssetRun, ih (swf_sset h) (by omega) (by simp only [List.length_cons] at hn; omega)]
      simp [h1]

omit [DecidableEq α] in
theorem sget_filter {p : Nat × α → Bool} (h : ∀ x, p (k, x) = true) : sget d (m.filter p) k = sget d m k := by
  induction m with
  | nil => rfl
  | cons q r ih =>
    obtain ⟨a, x⟩ := q
    by_cases e : p (a, x)
    · by_cases ek : a = k
      · subst ek; simp [e, sget]
      · simp [e, sget, ek, ih]
    · have : a ≠ k := by rintro rfl; exact e (h x)
      simp [e, sget, this, ih]

end Sys2Proof.Machine
end

