-- ==== Sys2Proof/Laws/State.lean ====
section
/-! SUPPORT. What each update of the machine leaves as it was, and what a unit reads as after it is set: no later proof unfolds a record
update. -/
namespace Sys2Proof.Machine

variable (b : Blk)

@[simp] theorem setCove_frame (c : Nat) (x : Cove) :
    (b.setCove c x).free = b.free ∧ (b.setCove c x).tide = b.tide ∧ (b.setCove c x).cfg = b.cfg ∧ (b.setCove c x).mem = b.mem ∧
    (b.setCove c x).unitKeys = b.unitKeys ∧ (b.setCove c x).zeroed = b.zeroed ∧ (b.setCove c x).ueUnits = b.ueUnits ∧
    (b.setCove c x).bays = b.bays ∧ (b.setCove c x).hls = b.hls ∧ (b.setCove c x).badCoves = b.badCoves ∧
    (b.setCove c x).barriers = b.barriers ∧ (b.setCove c x).watches = b.watches ∧ (b.setCove c x).spans = b.spans ∧
    (b.setCove c x).parts = b.parts ∧ (b.setCove c x).zeroing = b.zeroing ∧ (b.setCove c x).host = b.host ∧ (b.setCove c x).dev = b.dev ∧
    (b.setCove c x).fw = b.fw ∧ (b.setCove c x).cores = b.cores ∧ (b.setCove c x).board = b.board ∧ (b.setCove c x).hbmStacks = b.hbmStacks ∧
    (b.setCove c x).err = b.err ∧ (b.setCove c x).links = b.links ∧ (b.setCove c x).slice = b.slice ∧ (b.setCove c x).serves = b.serves ∧
    (b.setCove c x).accounts = b.accounts ∧ (b.setCove c x).chans = b.chans ∧ (b.setCove c x).sync = b.sync ∧ (b.setCove c x).mode = b.mode ∧
    (b.setCove c x).bars = b.bars :=
  ⟨rfl, rfl, rfl, rfl, rfl, rfl, rfl, rfl, rfl, rfl, rfl, rfl, rfl, rfl, rfl, rfl, rfl, rfl, rfl, rfl, rfl, rfl, rfl, rfl, rfl, rfl, rfl, rfl, rfl, rfl⟩
@[simp] theorem setSeq_frame (c : Nat) (x : Seq) :
    (b.setSeq c x).free = b.free ∧ (b.setSeq c x).tide = b.tide ∧ (b.setSeq c x).cfg = b.cfg ∧ (b.setSeq c x).mem = b.mem ∧
    (b.setSeq c x).unitKeys = b.unitKeys ∧ (b.setSeq c x).zeroed = b.zeroed ∧ (b.setSeq c x).ueUnits = b.ueUnits ∧
    (b.setSeq c x).bays = b.bays ∧ (b.setSeq c x).hls = b.hls ∧ (b.setSeq c x).badCoves = b.badCoves ∧ (b.setSeq c x).barriers = b.barriers ∧
    (b.setSeq c x).watches = b.watches ∧ (b.setSeq c x).spans = b.spans ∧ (b.setSeq c x).parts = b.parts ∧ (b.setSeq c x).zeroing = b.zeroing ∧
    (b.setSeq c x).host = b.host ∧ (b.setSeq c x).dev = b.dev ∧ (b.setSeq c x).fw = b.fw ∧ (b.setSeq c x).cores = b.cores ∧
    (b.setSeq c x).board = b.board ∧ (b.setSeq c x).hbmStacks = b.hbmStacks ∧ (b.setSeq c x).err = b.err ∧ (b.setSeq c x).links = b.links ∧
    (b.setSeq c x).slice = b.slice ∧ (b.setSeq c x).serves = b.serves ∧ (b.setSeq c x).accounts = b.accounts ∧ (b.setSeq c x).chans = b.chans ∧
    (b.setSeq c x).sync = b.sync ∧ (b.setSeq c x).mode = b.mode ∧ (b.setSeq c x).bars = b.bars :=
  setCove_frame b c _
@[simp] theorem setBay_frame (y : Nat) (x : Bay) :
    (b.setBay y x).free = b.free ∧ (b.setBay y x).tide = b.tide ∧ (b.setBay y x).cfg = b.cfg ∧ (b.setBay y x).mem = b.mem ∧
    (b.setBay y x).unitKeys = b.unitKeys ∧ (b.setBay y x).zeroed = b.zeroed ∧ (b.setBay y x).ueUnits = b.ueUnits ∧
    (b.setBay y x).coves = b.coves ∧ (b.setBay y x).hls = b.hls ∧ (b.setBay y x).badCoves = b.badCoves ∧ (b.setBay y x).barriers = b.barriers ∧
    (b.setBay y x).watches = b.watches ∧ (b.setBay y x).spans = b.spans ∧ (b.setBay y x).parts = b.parts ∧ (b.setBay y x).zeroing = b.zeroing ∧
    (b.setBay y x).host = b.host ∧ (b.setBay y x).dev = b.dev ∧ (b.setBay y x).fw = b.fw ∧ (b.setBay y x).cores = b.cores ∧
    (b.setBay y x).board = b.board ∧ (b.setBay y x).hbmStacks = b.hbmStacks ∧ (b.setBay y x).err = b.err ∧ (b.setBay y x).links = b.links ∧
    (b.setBay y x).slice = b.slice ∧ (b.setBay y x).serves = b.serves ∧ (b.setBay y x).accounts = b.accounts ∧ (b.setBay y x).chans = b.chans ∧
    (b.setBay y x).sync = b.sync ∧ (b.setBay y x).mode = b.mode ∧ (b.setBay y x).bars = b.bars :=
  ⟨rfl, rfl, rfl, rfl, rfl, rfl, rfl, rfl, rfl, rfl, rfl, rfl, rfl, rfl, rfl, rfl, rfl, rfl, rfl, rfl, rfl, rfl, rfl, rfl, rfl, rfl, rfl, rfl, rfl, rfl⟩
@[simp] theorem setHl_frame (h : Nat) (x : Headland) :
    (b.setHl h x).free = b.free ∧ (b.setHl h x).tide = b.tide ∧ (b.setHl h x).cfg = b.cfg ∧ (b.setHl h x).mem = b.mem ∧
    (b.setHl h x).unitKeys = b.unitKeys ∧ (b.setHl h x).zeroed = b.zeroed ∧ (b.setHl h x).ueUnits = b.ueUnits ∧ (b.setHl h x).coves = b.coves ∧
    (b.setHl h x).bays = b.bays ∧ (b.setHl h x).badCoves = b.badCoves ∧ (b.setHl h x).barriers = b.barriers ∧
    (b.setHl h x).watches = b.watches ∧ (b.setHl h x).spans = b.spans ∧ (b.setHl h x).parts = b.parts ∧ (b.setHl h x).zeroing = b.zeroing ∧
    (b.setHl h x).host = b.host ∧ (b.setHl h x).dev = b.dev ∧ (b.setHl h x).fw = b.fw ∧ (b.setHl h x).cores = b.cores ∧
    (b.setHl h x).board = b.board ∧ (b.setHl h x).hbmStacks = b.hbmStacks ∧ (b.setHl h x).err = b.err ∧ (b.setHl h x).links = b.links ∧
    (b.setHl h x).slice = b.slice ∧ (b.setHl h x).serves = b.serves ∧ (b.setHl h x).accounts = b.accounts ∧ (b.setHl h x).chans = b.chans ∧
    (b.setHl h x).sync = b.sync ∧ (b.setHl h x).mode = b.mode ∧ (b.setHl h x).bars = b.bars :=
  ⟨rfl, rfl, rfl, rfl, rfl, rfl, rfl, rfl, rfl, rfl, rfl, rfl, rfl, rfl, rfl, rfl, rfl, rfl, rfl, rfl, rfl, rfl, rfl, rfl, rfl, rfl, rfl, rfl, rfl, rfl⟩
@[simp] theorem setStack_frame (k : Nat) (x : Stack) :
    (b.setStack k x).free = b.free ∧ (b.setStack k x).tide = b.tide ∧ (b.setStack k x).cfg = b.cfg ∧ (b.setStack k x).mem = b.mem ∧
    (b.setStack k x).unitKeys = b.unitKeys ∧ (b.setStack k x).zeroed = b.zeroed ∧ (b.setStack k x).ueUnits = b.ueUnits ∧
    (b.setStack k x).coves = b.coves ∧ (b.setStack k x).bays = b.bays ∧ (b.setStack k x).hls = b.hls ∧ (b.setStack k x).badCoves = b.badCoves ∧
    (b.setStack k x).barriers = b.barriers ∧ (b.setStack k x).watches = b.watches ∧ (b.setStack k x).spans = b.spans ∧
    (b.setStack k x).parts = b.parts ∧ (b.setStack k x).zeroing = b.zeroing ∧ (b.setStack k x).host = b.host ∧ (b.setStack k x).dev = b.dev ∧
    (b.setStack k x).fw = b.fw ∧ (b.setStack k x).cores = b.cores ∧ (b.setStack k x).board = b.board ∧ (b.setStack k x).err = b.err ∧
    (b.setStack k x).links = b.links ∧ (b.setStack k x).slice = b.slice ∧ (b.setStack k x).serves = b.serves ∧
    (b.setStack k x).accounts = b.accounts ∧ (b.setStack k x).chans = b.chans ∧ (b.setStack k x).sync = b.sync ∧
    (b.setStack k x).mode = b.mode ∧ (b.setStack k x).bars = b.bars :=
  ⟨rfl, rfl, rfl, rfl, rfl, rfl, rfl, rfl, rfl, rfl, rfl, rfl, rfl, rfl, rfl, rfl, rfl, rfl, rfl, rfl, rfl, rfl, rfl, rfl, rfl, rfl, rfl, rfl, rfl, rfl⟩
@[simp] theorem setLink_frame (k : Nat) (x : Link) :
    (b.setLink k x).free = b.free ∧ (b.setLink k x).tide = b.tide ∧ (b.setLink k x).cfg = b.cfg ∧ (b.setLink k x).mem = b.mem ∧
    (b.setLink k x).unitKeys = b.unitKeys ∧ (b.setLink k x).zeroed = b.zeroed ∧ (b.setLink k x).ueUnits = b.ueUnits ∧
    (b.setLink k x).coves = b.coves ∧ (b.setLink k x).bays = b.bays ∧ (b.setLink k x).hls = b.hls ∧ (b.setLink k x).badCoves = b.badCoves ∧
    (b.setLink k x).barriers = b.barriers ∧ (b.setLink k x).watches = b.watches ∧ (b.setLink k x).spans = b.spans ∧
    (b.setLink k x).parts = b.parts ∧ (b.setLink k x).zeroing = b.zeroing ∧ (b.setLink k x).host = b.host ∧ (b.setLink k x).dev = b.dev ∧
    (b.setLink k x).fw = b.fw ∧ (b.setLink k x).cores = b.cores ∧ (b.setLink k x).board = b.board ∧ (b.setLink k x).hbmStacks = b.hbmStacks ∧
    (b.setLink k x).err = b.err ∧ (b.setLink k x).slice = b.slice ∧ (b.setLink k x).serves = b.serves ∧ (b.setLink k x).accounts = b.accounts ∧
    (b.setLink k x).chans = b.chans ∧ (b.setLink k x).sync = b.sync ∧ (b.setLink k x).mode = b.mode ∧ (b.setLink k x).bars = b.bars :=
  ⟨rfl, rfl, rfl, rfl, rfl, rfl, rfl, rfl, rfl, rfl, rfl, rfl, rfl, rfl, rfl, rfl, rfl, rfl, rfl, rfl, rfl, rfl, rfl, rfl, rfl, rfl, rfl, rfl, rfl, rfl⟩
@[simp] theorem setPart_frame (p : Nat) (x : Part) :
    (b.setPart p x).free = b.free ∧ (b.setPart p x).tide = b.tide ∧ (b.setPart p x).cfg = b.cfg ∧ (b.setPart p x).mem = b.mem ∧
    (b.setPart p x).unitKeys = b.unitKeys ∧ (b.setPart p x).zeroed = b.zeroed ∧ (b.setPart p x).ueUnits = b.ueUnits ∧
    (b.setPart p x).coves = b.coves ∧ (b.setPart p x).bays = b.bays ∧ (b.setPart p x).hls = b.hls ∧ (b.setPart p x).badCoves = b.badCoves ∧
    (b.setPart p x).barriers = b.barriers ∧ (b.setPart p x).watches = b.watches ∧ (b.setPart p x).spans = b.spans ∧
    (b.setPart p x).zeroing = b.zeroing ∧ (b.setPart p x).host = b.host ∧ (b.setPart p x).dev = b.dev ∧ (b.setPart p x).fw = b.fw ∧
    (b.setPart p x).cores = b.cores ∧ (b.setPart p x).board = b.board ∧ (b.setPart p x).hbmStacks = b.hbmStacks ∧ (b.setPart p x).err = b.err ∧
    (b.setPart p x).links = b.links ∧ (b.setPart p x).slice = b.slice ∧ (b.setPart p x).serves = b.serves ∧
    (b.setPart p x).accounts = b.accounts ∧ (b.setPart p x).chans = b.chans ∧ (b.setPart p x).sync = b.sync ∧ (b.setPart p x).mode = b.mode ∧
    (b.setPart p x).bars = b.bars :=
  ⟨rfl, rfl, rfl, rfl, rfl, rfl, rfl, rfl, rfl, rfl, rfl, rfl, rfl, rfl, rfl, rfl, rfl, rfl, rfl, rfl, rfl, rfl, rfl, rfl, rfl, rfl, rfl, rfl, rfl, rfl⟩
@[simp] theorem setWatch_frame (p s : Nat) (x : Watch) :
    (b.setWatch p s x).free = b.free ∧ (b.setWatch p s x).tide = b.tide ∧ (b.setWatch p s x).cfg = b.cfg ∧ (b.setWatch p s x).mem = b.mem ∧
    (b.setWatch p s x).unitKeys = b.unitKeys ∧ (b.setWatch p s x).zeroed = b.zeroed ∧ (b.setWatch p s x).ueUnits = b.ueUnits ∧
    (b.setWatch p s x).coves = b.coves ∧ (b.setWatch p s x).bays = b.bays ∧ (b.setWatch p s x).hls = b.hls ∧
    (b.setWatch p s x).badCoves = b.badCoves ∧ (b.setWatch p s x).barriers = b.barriers ∧ (b.setWatch p s x).spans = b.spans ∧
    (b.setWatch p s x).parts = b.parts ∧ (b.setWatch p s x).zeroing = b.zeroing ∧ (b.setWatch p s x).host = b.host ∧
    (b.setWatch p s x).dev = b.dev ∧ (b.setWatch p s x).fw = b.fw ∧ (b.setWatch p s x).cores = b.cores ∧ (b.setWatch p s x).board = b.board ∧
    (b.setWatch p s x).hbmStacks = b.hbmStacks ∧ (b.setWatch p s x).err = b.err ∧ (b.setWatch p s x).links = b.links ∧
    (b.setWatch p s x).slice = b.slice ∧ (b.setWatch p s x).serves = b.serves ∧ (b.setWatch p s x).accounts = b.accounts ∧
    (b.setWatch p s x).chans = b.chans ∧ (b.setWatch p s x).sync = b.sync ∧ (b.setWatch p s x).mode = b.mode ∧ (b.setWatch p s x).bars = b.bars :=
  ⟨rfl, rfl, rfl, rfl, rfl, rfl, rfl, rfl, rfl, rfl, rfl, rfl, rfl, rfl, rfl, rfl, rfl, rfl, rfl, rfl, rfl, rfl, rfl, rfl, rfl, rfl, rfl, rfl, rfl, rfl⟩
@[simp] theorem setSpan_frame (p n : Nat) (x : Span) :
    (b.setSpan p n x).free = b.free ∧ (b.setSpan p n x).tide = b.tide ∧ (b.setSpan p n x).cfg = b.cfg ∧ (b.setSpan p n x).mem = b.mem ∧
    (b.setSpan p n x).unitKeys = b.unitKeys ∧ (b.setSpan p n x).zeroed = b.zeroed ∧ (b.setSpan p n x).ueUnits = b.ueUnits ∧
    (b.setSpan p n x).coves = b.coves ∧ (b.setSpan p n x).bays = b.bays ∧ (b.setSpan p n x).hls = b.hls ∧
    (b.setSpan p n x).badCoves = b.badCoves ∧ (b.setSpan p n x).barriers = b.barriers ∧ (b.setSpan p n x).watches = b.watches ∧
    (b.setSpan p n x).parts = b.parts ∧ (b.setSpan p n x).zeroing = b.zeroing ∧ (b.setSpan p n x).host = b.host ∧
    (b.setSpan p n x).dev = b.dev ∧ (b.setSpan p n x).fw = b.fw ∧ (b.setSpan p n x).cores = b.cores ∧ (b.setSpan p n x).board = b.board ∧
    (b.setSpan p n x).hbmStacks = b.hbmStacks ∧ (b.setSpan p n x).err = b.err ∧ (b.setSpan p n x).links = b.links ∧
    (b.setSpan p n x).slice = b.slice ∧ (b.setSpan p n x).serves = b.serves ∧ (b.setSpan p n x).accounts = b.accounts ∧
    (b.setSpan p n x).chans = b.chans ∧ (b.setSpan p n x).sync = b.sync ∧ (b.setSpan p n x).mode = b.mode ∧ (b.setSpan p n x).bars = b.bars :=
  ⟨rfl, rfl, rfl, rfl, rfl, rfl, rfl, rfl, rfl, rfl, rfl, rfl, rfl, rfl, rfl, rfl, rfl, rfl, rfl, rfl, rfl, rfl, rfl, rfl, rfl, rfl, rfl, rfl, rfl, rfl⟩
@[simp] theorem setCtx_frame (c : Nat) (x : Ctx) :
    (b.setCtx c x).free = b.free ∧ (b.setCtx c x).tide = b.tide ∧ (b.setCtx c x).cfg = b.cfg ∧ (b.setCtx c x).mem = b.mem ∧
    (b.setCtx c x).unitKeys = b.unitKeys ∧ (b.setCtx c x).zeroed = b.zeroed ∧ (b.setCtx c x).ueUnits = b.ueUnits ∧
    (b.setCtx c x).coves = b.coves ∧ (b.setCtx c x).bays = b.bays ∧ (b.setCtx c x).hls = b.hls ∧ (b.setCtx c x).badCoves = b.badCoves ∧
    (b.setCtx c x).barriers = b.barriers ∧ (b.setCtx c x).watches = b.watches ∧ (b.setCtx c x).spans = b.spans ∧
    (b.setCtx c x).parts = b.parts ∧ (b.setCtx c x).zeroing = b.zeroing ∧ (b.setCtx c x).dev = b.dev ∧ (b.setCtx c x).fw = b.fw ∧
    (b.setCtx c x).cores = b.cores ∧ (b.setCtx c x).board = b.board ∧ (b.setCtx c x).hbmStacks = b.hbmStacks ∧ (b.setCtx c x).err = b.err ∧
    (b.setCtx c x).links = b.links ∧ (b.setCtx c x).slice = b.slice ∧ (b.setCtx c x).serves = b.serves ∧ (b.setCtx c x).accounts = b.accounts ∧
    (b.setCtx c x).chans = b.chans ∧ (b.setCtx c x).sync = b.sync ∧ (b.setCtx c x).mode = b.mode ∧ (b.setCtx c x).bars = b.bars :=
  ⟨rfl, rfl, rfl, rfl, rfl, rfl, rfl, rfl, rfl, rfl, rfl, rfl, rfl, rfl, rfl, rfl, rfl, rfl, rfl, rfl, rfl, rfl, rfl, rfl, rfl, rfl, rfl, rfl, rfl, rfl⟩
@[simp] theorem setPort_frame (p : Nat) (x : Port) :
    (b.setPort p x).free = b.free ∧ (b.setPort p x).tide = b.tide ∧ (b.setPort p x).cfg = b.cfg ∧ (b.setPort p x).mem = b.mem ∧
    (b.setPort p x).unitKeys = b.unitKeys ∧ (b.setPort p x).zeroed = b.zeroed ∧ (b.setPort p x).ueUnits = b.ueUnits ∧
    (b.setPort p x).coves = b.coves ∧ (b.setPort p x).bays = b.bays ∧ (b.setPort p x).hls = b.hls ∧ (b.setPort p x).badCoves = b.badCoves ∧
    (b.setPort p x).barriers = b.barriers ∧ (b.setPort p x).watches = b.watches ∧ (b.setPort p x).spans = b.spans ∧
    (b.setPort p x).parts = b.parts ∧ (b.setPort p x).zeroing = b.zeroing ∧ (b.setPort p x).dev = b.dev ∧ (b.setPort p x).fw = b.fw ∧
    (b.setPort p x).cores = b.cores ∧ (b.setPort p x).board = b.board ∧ (b.setPort p x).hbmStacks = b.hbmStacks ∧ (b.setPort p x).err = b.err ∧
    (b.setPort p x).links = b.links ∧ (b.setPort p x).slice = b.slice ∧ (b.setPort p x).serves = b.serves ∧
    (b.setPort p x).accounts = b.accounts ∧ (b.setPort p x).chans = b.chans ∧ (b.setPort p x).sync = b.sync ∧ (b.setPort p x).mode = b.mode ∧
    (b.setPort p x).bars = b.bars :=
  ⟨rfl, rfl, rfl, rfl, rfl, rfl, rfl, rfl, rfl, rfl, rfl, rfl, rfl, rfl, rfl, rfl, rfl, rfl, rfl, rfl, rfl, rfl, rfl, rfl, rfl, rfl, rfl, rfl, rfl, rfl⟩
@[simp] theorem setServe_frame (p : Nat) (x : Serve) :
    (b.setServe p x).free = b.free ∧ (b.setServe p x).tide = b.tide ∧ (b.setServe p x).cfg = b.cfg ∧ (b.setServe p x).mem = b.mem ∧
    (b.setServe p x).unitKeys = b.unitKeys ∧ (b.setServe p x).zeroed = b.zeroed ∧ (b.setServe p x).ueUnits = b.ueUnits ∧
    (b.setServe p x).coves = b.coves ∧ (b.setServe p x).bays = b.bays ∧ (b.setServe p x).hls = b.hls ∧ (b.setServe p x).badCoves = b.badCoves ∧
    (b.setServe p x).barriers = b.barriers ∧ (b.setServe p x).watches = b.watches ∧ (b.setServe p x).spans = b.spans ∧
    (b.setServe p x).parts = b.parts ∧ (b.setServe p x).zeroing = b.zeroing ∧ (b.setServe p x).host = b.host ∧ (b.setServe p x).dev = b.dev ∧
    (b.setServe p x).fw = b.fw ∧ (b.setServe p x).cores = b.cores ∧ (b.setServe p x).board = b.board ∧ (b.setServe p x).hbmStacks = b.hbmStacks ∧
    (b.setServe p x).err = b.err ∧ (b.setServe p x).links = b.links ∧ (b.setServe p x).slice = b.slice ∧
    (b.setServe p x).accounts = b.accounts ∧ (b.setServe p x).chans = b.chans ∧ (b.setServe p x).sync = b.sync ∧
    (b.setServe p x).mode = b.mode ∧ (b.setServe p x).bars = b.bars :=
  ⟨rfl, rfl, rfl, rfl, rfl, rfl, rfl, rfl, rfl, rfl, rfl, rfl, rfl, rfl, rfl, rfl, rfl, rfl, rfl, rfl, rfl, rfl, rfl, rfl, rfl, rfl, rfl, rfl, rfl, rfl⟩
@[simp] theorem setAccount_frame (a : Nat) (x : Account) :
    (b.setAccount a x).free = b.free ∧ (b.setAccount a x).tide = b.tide ∧ (b.setAccount a x).cfg = b.cfg ∧ (b.setAccount a x).mem = b.mem ∧
    (b.setAccount a x).unitKeys = b.unitKeys ∧ (b.setAccount a x).zeroed = b.zeroed ∧ (b.setAccount a x).ueUnits = b.ueUnits ∧
    (b.setAccount a x).coves = b.coves ∧ (b.setAccount a x).bays = b.bays ∧ (b.setAccount a x).hls = b.hls ∧
    (b.setAccount a x).badCoves = b.badCoves ∧ (b.setAccount a x).barriers = b.barriers ∧ (b.setAccount a x).watches = b.watches ∧
    (b.setAccount a x).spans = b.spans ∧ (b.setAccount a x).parts = b.parts ∧ (b.setAccount a x).zeroing = b.zeroing ∧
    (b.setAccount a x).host = b.host ∧ (b.setAccount a x).dev = b.dev ∧ (b.setAccount a x).fw = b.fw ∧ (b.setAccount a x).cores = b.cores ∧
    (b.setAccount a x).board = b.board ∧ (b.setAccount a x).hbmStacks = b.hbmStacks ∧ (b.setAccount a x).err = b.err ∧
    (b.setAccount a x).links = b.links ∧ (b.setAccount a x).slice = b.slice ∧ (b.setAccount a x).serves = b.serves ∧
    (b.setAccount a x).chans = b.chans ∧ (b.setAccount a x).sync = b.sync ∧ (b.setAccount a x).mode = b.mode ∧ (b.setAccount a x).bars = b.bars :=
  ⟨rfl, rfl, rfl, rfl, rfl, rfl, rfl, rfl, rfl, rfl, rfl, rfl, rfl, rfl, rfl, rfl, rfl, rfl, rfl, rfl, rfl, rfl, rfl, rfl, rfl, rfl, rfl, rfl, rfl, rfl⟩
@[simp] theorem setChan_frame (c : Nat) (x : Chan) :
    (b.setChan c x).free = b.free ∧ (b.setChan c x).tide = b.tide ∧ (b.setChan c x).cfg = b.cfg ∧ (b.setChan c x).mem = b.mem ∧
    (b.setChan c x).unitKeys = b.unitKeys ∧ (b.setChan c x).zeroed = b.zeroed ∧ (b.setChan c x).ueUnits = b.ueUnits ∧
    (b.setChan c x).coves = b.coves ∧ (b.setChan c x).bays = b.bays ∧ (b.setChan c x).hls = b.hls ∧ (b.setChan c x).badCoves = b.badCoves ∧
    (b.setChan c x).barriers = b.barriers ∧ (b.setChan c x).watches = b.watches ∧ (b.setChan c x).spans = b.spans ∧
    (b.setChan c x).parts = b.parts ∧ (b.setChan c x).zeroing = b.zeroing ∧ (b.setChan c x).host = b.host ∧ (b.setChan c x).dev = b.dev ∧
    (b.setChan c x).fw = b.fw ∧ (b.setChan c x).cores = b.cores ∧ (b.setChan c x).board = b.board ∧ (b.setChan c x).hbmStacks = b.hbmStacks ∧
    (b.setChan c x).err = b.err ∧ (b.setChan c x).links = b.links ∧ (b.setChan c x).slice = b.slice ∧ (b.setChan c x).serves = b.serves ∧
    (b.setChan c x).accounts = b.accounts ∧ (b.setChan c x).sync = b.sync ∧ (b.setChan c x).mode = b.mode ∧ (b.setChan c x).bars = b.bars :=
  ⟨rfl, rfl, rfl, rfl, rfl, rfl, rfl, rfl, rfl, rfl, rfl, rfl, rfl, rfl, rfl, rfl, rfl, rfl, rfl, rfl, rfl, rfl, rfl, rfl, rfl, rfl, rfl, rfl, rfl, rfl⟩
@[simp] theorem setBarrier_frame (k : Nat) (x : Barrier) :
    (b.setBarrier k x).free = b.free ∧ (b.setBarrier k x).tide = b.tide ∧ (b.setBarrier k x).cfg = b.cfg ∧ (b.setBarrier k x).mem = b.mem ∧
    (b.setBarrier k x).unitKeys = b.unitKeys ∧ (b.setBarrier k x).zeroed = b.zeroed ∧ (b.setBarrier k x).ueUnits = b.ueUnits ∧
    (b.setBarrier k x).coves = b.coves ∧ (b.setBarrier k x).bays = b.bays ∧ (b.setBarrier k x).hls = b.hls ∧
    (b.setBarrier k x).badCoves = b.badCoves ∧ (b.setBarrier k x).watches = b.watches ∧ (b.setBarrier k x).spans = b.spans ∧
    (b.setBarrier k x).parts = b.parts ∧ (b.setBarrier k x).zeroing = b.zeroing ∧ (b.setBarrier k x).host = b.host ∧
    (b.setBarrier k x).dev = b.dev ∧ (b.setBarrier k x).fw = b.fw ∧ (b.setBarrier k x).cores = b.cores ∧ (b.setBarrier k x).board = b.board ∧
    (b.setBarrier k x).hbmStacks = b.hbmStacks ∧ (b.setBarrier k x).err = b.err ∧ (b.setBarrier k x).links = b.links ∧
    (b.setBarrier k x).slice = b.slice ∧ (b.setBarrier k x).serves = b.serves ∧ (b.setBarrier k x).accounts = b.accounts ∧
    (b.setBarrier k x).chans = b.chans ∧ (b.setBarrier k x).sync = b.sync ∧ (b.setBarrier k x).mode = b.mode ∧ (b.setBarrier k x).bars = b.bars :=
  ⟨rfl, rfl, rfl, rfl, rfl, rfl, rfl, rfl, rfl, rfl, rfl, rfl, rfl, rfl, rfl, rfl, rfl, rfl, rfl, rfl, rfl, rfl, rfl, rfl, rfl, rfl, rfl, rfl, rfl, rfl⟩
@[simp] theorem cfgSet_frame (o v : Nat) :
    (b.cfgSet o v).free = b.free ∧ (b.cfgSet o v).tide = b.tide ∧ (b.cfgSet o v).mem = b.mem ∧ (b.cfgSet o v).unitKeys = b.unitKeys ∧
    (b.cfgSet o v).zeroed = b.zeroed ∧ (b.cfgSet o v).ueUnits = b.ueUnits ∧ (b.cfgSet o v).coves = b.coves ∧ (b.cfgSet o v).bays = b.bays ∧
    (b.cfgSet o v).hls = b.hls ∧ (b.cfgSet o v).badCoves = b.badCoves ∧ (b.cfgSet o v).barriers = b.barriers ∧
    (b.cfgSet o v).watches = b.watches ∧ (b.cfgSet o v).spans = b.spans ∧ (b.cfgSet o v).parts = b.parts ∧ (b.cfgSet o v).zeroing = b.zeroing ∧
    (b.cfgSet o v).host = b.host ∧ (b.cfgSet o v).dev = b.dev ∧ (b.cfgSet o v).fw = b.fw ∧ (b.cfgSet o v).cores = b.cores ∧
    (b.cfgSet o v).board = b.board ∧ (b.cfgSet o v).hbmStacks = b.hbmStacks ∧ (b.cfgSet o v).err = b.err ∧ (b.cfgSet o v).links = b.links ∧
    (b.cfgSet o v).slice = b.slice ∧ (b.cfgSet o v).serves = b.serves ∧ (b.cfgSet o v).accounts = b.accounts ∧ (b.cfgSet o v).chans = b.chans ∧
    (b.cfgSet o v).sync = b.sync ∧ (b.cfgSet o v).mode = b.mode ∧ (b.cfgSet o v).bars = b.bars :=
  ⟨rfl, rfl, rfl, rfl, rfl, rfl, rfl, rfl, rfl, rfl, rfl, rfl, rfl, rfl, rfl, rfl, rfl, rfl, rfl, rfl, rfl, rfl, rfl, rfl, rfl, rfl, rfl, rfl, rfl, rfl⟩
@[simp] theorem count_frame (o n : Nat) :
    (b.count o n).free = b.free ∧ (b.count o n).tide = b.tide ∧ (b.count o n).mem = b.mem ∧ (b.count o n).unitKeys = b.unitKeys ∧
    (b.count o n).zeroed = b.zeroed ∧ (b.count o n).ueUnits = b.ueUnits ∧ (b.count o n).coves = b.coves ∧ (b.count o n).bays = b.bays ∧
    (b.count o n).hls = b.hls ∧ (b.count o n).badCoves = b.badCoves ∧ (b.count o n).barriers = b.barriers ∧ (b.count o n).watches = b.watches ∧
    (b.count o n).spans = b.spans ∧ (b.count o n).parts = b.parts ∧ (b.count o n).zeroing = b.zeroing ∧ (b.count o n).host = b.host ∧
    (b.count o n).dev = b.dev ∧ (b.count o n).fw = b.fw ∧ (b.count o n).cores = b.cores ∧ (b.count o n).board = b.board ∧
    (b.count o n).hbmStacks = b.hbmStacks ∧ (b.count o n).err = b.err ∧ (b.count o n).links = b.links ∧ (b.count o n).slice = b.slice ∧
    (b.count o n).serves = b.serves ∧ (b.count o n).accounts = b.accounts ∧ (b.count o n).chans = b.chans ∧ (b.count o n).sync = b.sync ∧
    (b.count o n).mode = b.mode ∧ (b.count o n).bars = b.bars := by
  unfold Blk.count; split <;> simp
@[simp] theorem cvCount_frame (c o n : Nat) :
    (b.cvCount c o n).free = b.free ∧ (b.cvCount c o n).tide = b.tide ∧ (b.cvCount c o n).mem = b.mem ∧
    (b.cvCount c o n).unitKeys = b.unitKeys ∧ (b.cvCount c o n).zeroed = b.zeroed ∧ (b.cvCount c o n).ueUnits = b.ueUnits ∧
    (b.cvCount c o n).coves = b.coves ∧ (b.cvCount c o n).bays = b.bays ∧ (b.cvCount c o n).hls = b.hls ∧
    (b.cvCount c o n).badCoves = b.badCoves ∧ (b.cvCount c o n).barriers = b.barriers ∧ (b.cvCount c o n).watches = b.watches ∧
    (b.cvCount c o n).spans = b.spans ∧ (b.cvCount c o n).parts = b.parts ∧ (b.cvCount c o n).zeroing = b.zeroing ∧
    (b.cvCount c o n).host = b.host ∧ (b.cvCount c o n).dev = b.dev ∧ (b.cvCount c o n).fw = b.fw ∧ (b.cvCount c o n).cores = b.cores ∧
    (b.cvCount c o n).board = b.board ∧ (b.cvCount c o n).hbmStacks = b.hbmStacks ∧ (b.cvCount c o n).err = b.err ∧
    (b.cvCount c o n).links = b.links ∧ (b.cvCount c o n).slice = b.slice ∧ (b.cvCount c o n).serves = b.serves ∧
    (b.cvCount c o n).accounts = b.accounts ∧ (b.cvCount c o n).chans = b.chans ∧ (b.cvCount c o n).sync = b.sync ∧
    (b.cvCount c o n).mode = b.mode ∧ (b.cvCount c o n).bars = b.bars := by
  unfold Blk.cvCount Blk.count; split <;> simp
@[simp] theorem byCount_frame (y o n : Nat) :
    (b.byCount y o n).free = b.free ∧ (b.byCount y o n).tide = b.tide ∧ (b.byCount y o n).mem = b.mem ∧
    (b.byCount y o n).unitKeys = b.unitKeys ∧ (b.byCount y o n).zeroed = b.zeroed ∧ (b.byCount y o n).ueUnits = b.ueUnits ∧
    (b.byCount y o n).coves = b.coves ∧ (b.byCount y o n).bays = b.bays ∧ (b.byCount y o n).hls = b.hls ∧
    (b.byCount y o n).badCoves = b.badCoves ∧ (b.byCount y o n).barriers = b.barriers ∧ (b.byCount y o n).watches = b.watches ∧
    (b.byCount y o n).spans = b.spans ∧ (b.byCount y o n).parts = b.parts ∧ (b.byCount y o n).zeroing = b.zeroing ∧
    (b.byCount y o n).host = b.host ∧ (b.byCount y o n).dev = b.dev ∧ (b.byCount y o n).fw = b.fw ∧ (b.byCount y o n).cores = b.cores ∧
    (b.byCount y o n).board = b.board ∧ (b.byCount y o n).hbmStacks = b.hbmStacks ∧ (b.byCount y o n).err = b.err ∧
    (b.byCount y o n).links = b.links ∧ (b.byCount y o n).slice = b.slice ∧ (b.byCount y o n).serves = b.serves ∧
    (b.byCount y o n).accounts = b.accounts ∧ (b.byCount y o n).chans = b.chans ∧ (b.byCount y o n).sync = b.sync ∧
    (b.byCount y o n).mode = b.mode ∧ (b.byCount y o n).bars = b.bars := by
  unfold Blk.byCount Blk.count; split <;> simp
@[simp] theorem cfgClear_frame (lo hi : Nat) :
    (b.cfgClear lo hi).free = b.free ∧ (b.cfgClear lo hi).tide = b.tide ∧ (b.cfgClear lo hi).mem = b.mem ∧
    (b.cfgClear lo hi).unitKeys = b.unitKeys ∧ (b.cfgClear lo hi).zeroed = b.zeroed ∧ (b.cfgClear lo hi).ueUnits = b.ueUnits ∧
    (b.cfgClear lo hi).coves = b.coves ∧ (b.cfgClear lo hi).bays = b.bays ∧ (b.cfgClear lo hi).hls = b.hls ∧
    (b.cfgClear lo hi).badCoves = b.badCoves ∧ (b.cfgClear lo hi).barriers = b.barriers ∧ (b.cfgClear lo hi).watches = b.watches ∧
    (b.cfgClear lo hi).spans = b.spans ∧ (b.cfgClear lo hi).parts = b.parts ∧ (b.cfgClear lo hi).zeroing = b.zeroing ∧
    (b.cfgClear lo hi).host = b.host ∧ (b.cfgClear lo hi).dev = b.dev ∧ (b.cfgClear lo hi).fw = b.fw ∧ (b.cfgClear lo hi).cores = b.cores ∧
    (b.cfgClear lo hi).board = b.board ∧ (b.cfgClear lo hi).hbmStacks = b.hbmStacks ∧ (b.cfgClear lo hi).err = b.err ∧
    (b.cfgClear lo hi).links = b.links ∧ (b.cfgClear lo hi).slice = b.slice ∧ (b.cfgClear lo hi).serves = b.serves ∧
    (b.cfgClear lo hi).accounts = b.accounts ∧ (b.cfgClear lo hi).chans = b.chans ∧ (b.cfgClear lo hi).sync = b.sync ∧
    (b.cfgClear lo hi).mode = b.mode ∧ (b.cfgClear lo hi).bars = b.bars :=
  ⟨rfl, rfl, rfl, rfl, rfl, rfl, rfl, rfl, rfl, rfl, rfl, rfl, rfl, rfl, rfl, rfl, rfl, rfl, rfl, rfl, rfl, rfl, rfl, rfl, rfl, rfl, rfl, rfl, rfl, rfl⟩
@[simp] theorem pokeN_frame (a : Nat) (v : List Byte) :
    (b.pokeN a v).free = b.free ∧ (b.pokeN a v).tide = b.tide ∧ (b.pokeN a v).cfg = b.cfg ∧ (b.pokeN a v).unitKeys = b.unitKeys ∧
    (b.pokeN a v).zeroed = b.zeroed ∧ (b.pokeN a v).ueUnits = b.ueUnits ∧ (b.pokeN a v).coves = b.coves ∧ (b.pokeN a v).bays = b.bays ∧
    (b.pokeN a v).hls = b.hls ∧ (b.pokeN a v).badCoves = b.badCoves ∧ (b.pokeN a v).barriers = b.barriers ∧ (b.pokeN a v).watches = b.watches ∧
    (b.pokeN a v).spans = b.spans ∧ (b.pokeN a v).parts = b.parts ∧ (b.pokeN a v).zeroing = b.zeroing ∧ (b.pokeN a v).host = b.host ∧
    (b.pokeN a v).dev = b.dev ∧ (b.pokeN a v).fw = b.fw ∧ (b.pokeN a v).cores = b.cores ∧ (b.pokeN a v).board = b.board ∧
    (b.pokeN a v).hbmStacks = b.hbmStacks ∧ (b.pokeN a v).err = b.err ∧ (b.pokeN a v).links = b.links ∧ (b.pokeN a v).slice = b.slice ∧
    (b.pokeN a v).serves = b.serves ∧ (b.pokeN a v).accounts = b.accounts ∧ (b.pokeN a v).chans = b.chans ∧ (b.pokeN a v).sync = b.sync ∧
    (b.pokeN a v).mode = b.mode ∧ (b.pokeN a v).bars = b.bars :=
  ⟨rfl, rfl, rfl, rfl, rfl, rfl, rfl, rfl, rfl, rfl, rfl, rfl, rfl, rfl, rfl, rfl, rfl, rfl, rfl, rfl, rfl, rfl, rfl, rfl, rfl, rfl, rfl, rfl, rfl, rfl⟩

@[simp] theorem setCtx_host (c : Nat) (x : Ctx) :
    (b.setCtx c x).host.cmds = b.host.cmds ∧ (b.setCtx c x).host.evSeq = b.host.evSeq ∧ (b.setCtx c x).host.intake = b.host.intake ∧
    (b.setCtx c x).host.intakeStopped = b.host.intakeStopped ∧ (b.setCtx c x).host.portA = b.host.portA ∧ (b.setCtx c x).host.portB = b.host.portB :=
  ⟨rfl, rfl, rfl, rfl, rfl, rfl⟩
@[simp] theorem setPort_host (p : Nat) (x : Port) :
    (b.setPort p x).host.cmds = b.host.cmds ∧ (b.setPort p x).host.evSeq = b.host.evSeq ∧ (b.setPort p x).host.intake = b.host.intake ∧
    (b.setPort p x).host.intakeStopped = b.host.intakeStopped ∧ (b.setPort p x).host.ctxs = b.host.ctxs := by
  unfold Blk.setPort; split <;> exact ⟨rfl, rfl, rfl, rfl, rfl⟩

/-! Reading a unit after it, or another of its kind, is set. -/

theorem cove_setCove_ne {c e : Nat} (x : Cove) (h : e ≠ c) : (b.setCove c x).cove e = b.cove e := sget_sset_ne h
theorem cove_setCove_new (c : Nat) (x : Cove) (h : x ≠ {}) : (b.setCove c x).cove c = x := sget_sset_new h
theorem cove_setCove (c : Nat) (x : Cove) (h : swf (fun _ => ({} : Cove)) b.coves = true) : (b.setCove c x).cove c = x := sget_sset_same h
theorem bay_setBay_ne {c e : Nat} (x : Bay) (h : e ≠ c) : (b.setBay c x).bay e = b.bay e := sget_sset_ne h
theorem bay_setBay_new (c : Nat) (x : Bay) (h : x ≠ {}) : (b.setBay c x).bay c = x := sget_sset_new h
theorem bay_setBay (c : Nat) (x : Bay) (h : swf (fun _ => ({} : Bay)) b.bays = true) : (b.setBay c x).bay c = x := sget_sset_same h
theorem hl_setHl_ne {c e : Nat} (x : Headland) (h : e ≠ c) : (b.setHl c x).hl e = b.hl e := sget_sset_ne h
theorem hl_setHl_new (c : Nat) (x : Headland) (h : x ≠ {}) : (b.setHl c x).hl c = x := sget_sset_new h
theorem hl_setHl (c : Nat) (x : Headland) (h : swf (fun _ => ({} : Headland)) b.hls = true) : (b.setHl c x).hl c = x := sget_sset_same h
theorem stack_setStack_ne {c e : Nat} (x : Stack) (h : e ≠ c) : (b.setStack c x).stack e = b.stack e := sget_sset_ne h
theorem stack_setStack_new (c : Nat) (x : Stack) (h : x ≠ {}) : (b.setStack c x).stack c = x := sget_sset_new h
theorem stack_setStack (c : Nat) (x : Stack) (h : swf (fun _ => ({} : Stack)) b.hbmStacks = true) : (b.setStack c x).stack c = x := sget_sset_same h
theorem link_setLink_ne {c e : Nat} (x : Link) (h : e ≠ c) : (b.setLink c x).link e = b.link e := sget_sset_ne h
theorem link_setLink_new (c : Nat) (x : Link) (h : x ≠ {}) : (b.setLink c x).link c = x := sget_sset_new h
theorem link_setLink (c : Nat) (x : Link) (h : swf (fun _ => ({} : Link)) b.links = true) : (b.setLink c x).link c = x := sget_sset_same h
theorem part_setPart_ne {c e : Nat} (x : Part) (h : e ≠ c) : (b.setPart c x).part e = b.part e := sget_sset_ne h
theorem part_setPart_new (c : Nat) (x : Part) (h : x ≠ {}) : (b.setPart c x).part c = x := sget_sset_new h
theorem part_setPart (c : Nat) (x : Part) (h : swf (fun _ => ({} : Part)) b.parts = true) : (b.setPart c x).part c = x := sget_sset_same h
theorem serve_setServe_ne {c e : Nat} (x : Serve) (h : e ≠ c) : (b.setServe c x).serve e = b.serve e := sget_sset_ne h
theorem serve_setServe_new (c : Nat) (x : Serve) (h : x ≠ {}) : (b.setServe c x).serve c = x := sget_sset_new h
theorem serve_setServe (c : Nat) (x : Serve) (h : swf (fun _ => ({} : Serve)) b.serves = true) : (b.setServe c x).serve c = x := sget_sset_same h
theorem account_setAccount_ne {c e : Nat} (x : Account) (h : e ≠ c) : (b.setAccount c x).account e = b.account e := sget_sset_ne h
theorem account_setAccount_new (c : Nat) (x : Account) (h : x ≠ {}) : (b.setAccount c x).account c = x := sget_sset_new h
theorem account_setAccount (c : Nat) (x : Account) (h : swf (fun _ => ({} : Account)) b.accounts = true) : (b.setAccount c x).account c = x := sget_sset_same h
theorem chan_setChan_ne {c e : Nat} (x : Chan) (h : e ≠ c) : (b.setChan c x).chan e = b.chan e := sget_sset_ne h
theorem chan_setChan_new (c : Nat) (x : Chan) (h : x ≠ {}) : (b.setChan c x).chan c = x := sget_sset_new h
theorem chan_setChan (c : Nat) (x : Chan) (h : swf (fun _ => ({} : Chan)) b.chans = true) : (b.setChan c x).chan c = x := sget_sset_same h
theorem ctx_setCtx_ne {c e : Nat} (x : Ctx) (h : e ≠ c) : (b.setCtx c x).ctx e = b.ctx e := sget_sset_ne h
theorem ctx_setCtx_new (c : Nat) (x : Ctx) (h : x ≠ {}) : (b.setCtx c x).ctx c = x := sget_sset_new h
theorem ctx_setCtx (c : Nat) (x : Ctx) (h : swf (fun _ => ({} : Ctx)) b.host.ctxs = true) : (b.setCtx c x).ctx c = x := sget_sset_same h

/-- A seq set reads back when it differs from an idle one. -/
theorem seq_setSeq_new (c : Nat) (x : Seq) (h : x ≠ {}) : (b.setSeq c x).seq c = x := by
  unfold Blk.setSeq Blk.seq
  rw [cove_setCove_new]
  intro e
  exact h (by simpa using congrArg Cove.seq e)
theorem seq_setSeq_ne {c e : Nat} (x : Seq) (h : e ≠ c) : (b.setSeq c x).seq e = b.seq e := by
  unfold Blk.setSeq Blk.seq; rw [cove_setCove_ne b _ h]
theorem cfgGet_cfgSet_ne {o q : Nat} (v : Nat) (h : q ≠ o) : (b.cfgSet o v).cfgGet q = b.cfgGet q := sget_sset_ne h
theorem cfgGet_cfgSet (o v : Nat) (h : swf cfgReset b.cfg = true) : (b.cfgSet o v).cfgGet o = v % 2 ^ 64 := sget_sset_same h
@[simp] theorem port_setPort (p : Nat) (x : Port) : (b.setPort p x).port p = x := by
  unfold Blk.setPort Blk.port; by_cases h : p = 0 <;> simp [h]
@[simp] theorem port_setCtx (p c : Nat) (x : Ctx) : (b.setCtx c x).port p = b.port p := rfl
@[simp] theorem ctx_setPort (p c : Nat) (x : Port) : (b.setPort p x).ctx c = b.ctx c := by
  unfold Blk.ctx; simp

end Sys2Proof.Machine
end

