-- ==== Sys2Proof/Laws/Command.lean ====
section
/-! SUPPORT. What receiving a command does on a device that takes it at once: the message is entered and its opcode's own rules run. -/
namespace Sys2Proof.Machine

variable {b : Blk} {m : Msg}

/-! ### Nothing goes on -/

theorem collNotices_none (n : Nat) (h : b.slice.notices = []) : b.collNotices n = b := by
  cases n <;> simp [Blk.collNotices, h]

theorem foldl_same {α β : Type} (f : β → α → β) (l : List α) (x : β) (h : ∀ a ∈ l, f x a = x) : l.foldl f x = x := by
  induction l with
  | nil => rfl
  | cons a r ih => simp [h a (by simp), ih fun c hc => h c (by simp [hc])]

theorem still_tail (h : b.still = true) : b.pumpDescs.collPump.clearMissing = b := by
  simp only [Blk.still, Bool.and_eq_true, List.isEmpty_iff] at h
  obtain ⟨⟨⟨hb, hc⟩, hn⟩, hm⟩ := h
  have h1 : b.pumpDescs = b := by
    unfold Blk.pumpDescs
    apply foldl_same
    intro q hq
    apply foldl_same
    intro d hd
    have := List.all_eq_true.mp (List.all_eq_true.mp hb q hq) d hd
    simp only [Bool.not_eq_true'] at this
    simp [this]
  have h2 : b.collPump = b := by simp [Blk.collPump, collNotices_none, hn, hc]
  rw [h1, h2]
  unfold Blk.clearMissing
  split <;> simp [hm]

/-- No uncompleted command can start. -/
def Blk.noneReady (b : Blk) : Bool := b.host.cmds.all (·.started)

theorem startReady_none (n : Nat) (h : b.noneReady = true) : b.startReady n = b := by
  cases n with
  | zero => rfl
  | succ n =>
    have : b.host.cmds.filter (fun c => b.mayRun c && (c.dataIn || !c.queued)) = [] := by
      rw [List.filter_eq_nil_iff]
      intro c hc
      have := List.all_eq_true.mp h c hc
      simp [Blk.mayRun, this]
    simp [Blk.startReady, Blk.nextReady, this]

/-- What remains of the pump once a command has run. -/
theorem pump_rest (n : Nat) (h : b.noneReady = true) (hs : b.still = true) :
    (b.startReady n).pumpDescs.collPump.clearMissing = b := by
  rw [startReady_none n h, still_tail hs]

/-! ### The checks do not look at the context's sequence -/

theorem ctx_entered (ht : (b.ctx m.ctx).st = 1) : (b.entered m).ctx m.ctx =
    if m.opcode = 1 then b.ctx m.ctx else { b.ctx m.ctx with series := true, expect := (m.seq + 1) % 2 ^ 32 } := by
  unfold Blk.entered
  by_cases h : m.opcode = 1
  · simp [h, Blk.ctx]
  · simp only [h, if_false]
    exact ctx_setCtx_new b m.ctx _ (by intro e; have := congrArg Ctx.st e; simp [ht] at this)

theorem devMode_powered (h : b.dev.powered = true) : b.devMode ≠ 0 := by
  unfold Blk.devMode
  rw [h]
  simp only [Bool.not_true, Bool.false_eq_true, if_false]
  split; · simp
  split; · simp
  split; · simp
  split <;> simp

theorem stateOk_congr {b' : Blk} {o : OpInfo} (h : b'.dev = b.dev) : b'.stateOk m o = b.stateOk m o := by
  unfold Blk.stateOk Blk.devMode; rw [h]
theorem startCheck_congr {b' : Blk} {c : Cmd} (h : b'.dev = b.dev) (hp : b'.parts = b.parts) : b'.startCheck c = b.startCheck c := by
  unfold Blk.startCheck Blk.part; simp only [stateOk_congr h, h, hp]

/-- Setting the sequence of a context changes no check of its messages. -/
theorem headerCheck_series {o : OpInfo} {s : Bool} {e : Nat} (ht : (b.ctx m.ctx).st = 1) :
    (b.setCtx m.ctx { b.ctx m.ctx with series := s, expect := e }).headerCheck m o = b.headerCheck m o := by
  have hc : (b.setCtx m.ctx { b.ctx m.ctx with series := s, expect := e }).ctx m.ctx = { b.ctx m.ctx with series := s, expect := e } :=
    ctx_setCtx_new b m.ctx _ (by intro e; have := congrArg Ctx.st e; simp [ht] at this)
  simp only [Blk.headerCheck, hc, stateOk_congr (setCtx_frame b _ _).2.2.2.2.2.2.2.2.2.2.2.2.2.2.2.2.1, setCtx_host]

/-- A message that the device takes at once becomes the one uncompleted command. -/
theorem takeMsg_takes (h : b.takes m = true) : b.receive m = b.entered m := by
  simp only [Blk.takes, msgPlain, Bool.and_eq_true, beq_iff_eq, Bool.not_eq_true', List.isEmpty_iff, Option.isNone_iff_eq_none, Bool.or_eq_true,
    decide_eq_true_eq] at h
  obtain ⟨⟨⟨⟨⟨⟨⟨⟨⟨⟨⟨⟨⟨⟨⟨⟨⟨⟨hv, hmin⟩, hcls⟩, hpart⟩, hdl⟩, hport⟩, hup⟩, hpow⟩, hint⟩, hst⟩, hhome⟩, hseq⟩, hhdr⟩, hsc⟩, hdat⟩, hstill⟩, hcm⟩, hlog⟩, hspan⟩ := h
  have hmode : b.devMode ≠ 0 := devMode_powered hpow
  obtain ⟨o, ho⟩ : ∃ o, opInfo m.opcode = some o := by
    cases e : opInfo m.opcode with
    | none => rw [e] at hhdr; simp at hhdr
    | some o => exact ⟨o, rfl⟩
  rw [ho] at hhdr
  have hm0 : asMinor0 m = m := by simp [asMinor0, hmin]
  have hp : ¬ (15 < m.partition ∧ m.partition ≠ 0xFF) := by omega
  have hs : ¬ (m.opcode ≠ 1 ∧ (b.ctx m.ctx).series = true ∧ m.seq ≠ (b.ctx m.ctx).expect) := by
    rintro ⟨h1, h2, h3⟩; rcases hseq with (h | h) | h
    · exact h1 h
    · simp [h2] at h
    · exact h3 h
  have hst' : ((b.ctx m.ctx).st != 1) = false := by simp [hst]
  have hb0 : (decide (m.ctx = 0) && decide ((b.ctx m.ctx).st = 1) && !(b.ctx m.ctx).homeSet) = false := by simp [hhome]
  have hs' : (m.opcode != 1 && (b.ctx m.ctx).series && m.seq != (b.ctx m.ctx).expect) = false := by
    cases e : (m.opcode != 1 && (b.ctx m.ctx).series && m.seq != (b.ctx m.ctx).expect) with
    | false => rfl
    | true =>
      simp only [Bool.and_eq_true, bne_iff_ne] at e
      exact absurd ⟨e.1.1, e.1.2, e.2⟩ hs
  have hp' : (decide (15 < m.partition) && m.partition != 0xFF) = false := by
    cases e : (decide (15 < m.partition) && m.partition != 0xFF) with
    | false => rfl
    | true =>
      simp only [Bool.and_eq_true, decide_eq_true_eq, bne_iff_ne] at e
      exact absurd e hp
  have hh : (b.headerCheck m o) = none := by simpa using hhdr
  simp only [Blk.receive, hup, if_true, Blk.arrive, hmode, if_false, hint, Bool.false_eq_true, Blk.takeMsg, hm0, hv, hcls, hb0, hp', ho,
    hst', hs', Nat.not_lt.mpr (Nat.zero_le 2)]
  by_cases h1 : m.opcode = 1
  · simp only [h1, if_true, hh, hcm, Blk.entered, Blk.asCmd, List.nil_append]
  · simp only [h1, if_false, headerCheck_series hst, hh, setCtx_host, hcm, Blk.entered, Blk.asCmd, List.nil_append, setCtx_frame]

theorem entered_frame : (b.entered m).dev = b.dev ∧ (b.entered m).parts = b.parts ∧ (b.entered m).board = b.board ∧ (b.entered m).spans = b.spans ∧
    (b.entered m).host.intakeStopped = b.host.intakeStopped ∧ (b.entered m).host.cmds = [b.asCmd m] ∧ (b.entered m).tide = b.tide := by
  unfold Blk.entered; split <;> simp

/-- A command that the device takes at once runs by its opcode's own rules. -/
theorem command_takes (h : b.takes m = true) :
    b.command m = (((((b.entered m).runOp (b.asCmd m)).startReady 1).pumpDescs).collPump).clearMissing := by
  rw [Blk.command, takeMsg_takes h]
  simp only [Blk.takes, msgPlain, Bool.and_eq_true, beq_iff_eq, Bool.not_eq_true', List.isEmpty_iff, Option.isNone_iff_eq_none, Bool.or_eq_true,
    decide_eq_true_eq] at h
  obtain ⟨⟨⟨⟨⟨⟨⟨⟨⟨⟨⟨⟨⟨⟨⟨⟨⟨⟨hv, hmin⟩, hcls⟩, hpart⟩, hdl⟩, hport⟩, hup⟩, hpow⟩, hint⟩, hst⟩, hhome⟩, hseq⟩, hhdr⟩, hsc⟩, hdat⟩, hstill⟩, hcm⟩, hlog⟩, hspan⟩ := h
  obtain ⟨e1, e2, e3, e4, e5, e6, e7⟩ := entered_frame (b := b) (m := m)
  have hpoll : (b.entered m).pollCmds = b.entered m := by simp [Blk.pollCmds, e6, Blk.asCmd]
  have hdat' : (b.asCmd m).dataIn = true := hdat
  have hsc' : (b.entered m).startCheck (b.asCmd m) = none := by
    rw [startCheck_congr e1 e2]; exact hsc
  have hrun : (b.entered m).mayRun (b.asCmd m) = true := by
    have : (logOps.contains (b.asCmd m).m.opcode && (b.entered m).spans.any fun p => p.2.opened && p.2.phase == 1 && p.2.ctx == (b.asCmd m).ctx) = false := by
      rcases hspan with h | h
      · simp only [Blk.asCmd, h, Bool.false_and]
      · simp [e4, h]
    simp only [Blk.mayRun, e6, this]
    simp [Blk.asCmd]
  have hadm : (b.entered m).admits (b.asCmd m) = (true, b.entered m) := by simp [Blk.admits, Blk.asCmd, hcls]
  have hlogc : (b.entered m).logCmd (b.asCmd m) = .ok (b.entered m) := by
    have : (b.entered m).logsOf (b.asCmd m) = [] := by
      unfold Blk.logsOf
      rcases hspan with h | h
      · simp only [Blk.asCmd, h]; rfl
      · simp [e4, h]
    simp [Blk.logCmd, this]
  have hstart : (b.entered m).startReady 2 = ((b.entered m).runOp (b.asCmd m)).startReady 1 := by
    have : (b.entered m).nextReady = some (b.asCmd m) := by simp [Blk.nextReady, e6, hrun, hdat']
    rw [Blk.startReady, this]
    have hq : (b.asCmd m).queued = false := rfl
    simp [Blk.runCmd, hq, hsc', hadm, hlogc, hdat']
  simp only [Blk.pump, Blk.pumpCmds, e5, hint, Bool.false_eq_true, if_false, hpoll, e6, List.length_singleton, hstart]

/-- With no command uncompleted and nothing going on, the pump changes nothing. -/
theorem pump_rests (h : b.rests = true) : b.pump = b := by
  simp only [Blk.rests, Bool.and_eq_true, List.isEmpty_iff] at h
  have h1 : b.pumpCmds = b := by
    unfold Blk.pumpCmds
    split
    · rfl
    · have hp : b.pollCmds = b := by simp [Blk.pollCmds, h.2]
      rw [hp]
      exact startReady_none _ (by simp [Blk.noneReady, h.2])
  rw [Blk.pump, h1, still_tail h.1]

end Sys2Proof.Machine
end

