-- ==== Sys2Proof/Laws/Reply.lean ====
section
/-! SUPPORT. What sending a reply, a final reply and the end of a command change: the host side, the measurements and the counter of free
values, and nothing else. -/
namespace Sys2Proof.Machine

variable {b : Blk}

/-- Everything but the host side is the same. -/
structure Blk.SameButHost (x y : Blk) : Prop where
  eq : { x with host := y.host } = y
/-- Contexts keep everything but what is held for their ports. -/
def Ctx.sameButHeld (x y : Ctx) : Prop :=
  y.st = x.st ∧ y.part = x.part ∧ y.depth = x.depth ∧ y.home = x.home ∧ y.homeSet = x.homeSet ∧ y.failover = x.failover ∧ y.privs = x.privs ∧
  y.series = x.series ∧ y.expect = x.expect ∧ y.replies = x.replies

theorem Ctx.sameButHeld_refl (x : Ctx) : x.sameButHeld x := ⟨rfl, rfl, rfl, rfl, rfl, rfl, rfl, rfl, rfl, rfl⟩
theorem Ctx.hold_same (x : Ctx) (o : Out) (n : Nat) : x.sameButHeld (x.hold o n) := by
  unfold Ctx.hold; split <;> exact ⟨rfl, rfl, rfl, rfl, rfl, rfl, rfl, rfl, rfl, rfl⟩
theorem Ctx.hold_new (x : Ctx) (o : Out) (n : Nat) : x.hold o n ≠ {} := by
  unfold Ctx.hold
  split
  · intro e; have := congrArg Ctx.lost e; simp at this
  · intro e; have := congrArg Ctx.held e; simp at this

/-! ### Sending -/

theorem sendOut_host (o : Out) (n : Nat) : { b with host := (b.sendOut o n).host } = b.sendOut o n := by
  unfold Blk.sendOut
  simp only
  split
  · unfold Blk.setPort; split <;> rfl
  · rfl
theorem sendOut_cmds (o : Out) (n : Nat) : (b.sendOut o n).host.cmds = b.host.cmds ∧ (b.sendOut o n).host.evSeq = b.host.evSeq ∧
    (b.sendOut o n).host.intake = b.host.intake ∧ (b.sendOut o n).host.intakeStopped = b.host.intakeStopped := by
  unfold Blk.sendOut; simp only; split <;> simp
theorem sendOut_ctx (o : Out) (n c : Nat) : (b.ctx c).sameButHeld ((b.sendOut o n).ctx c) := by
  unfold Blk.sendOut
  simp only
  split
  · rw [ctx_setPort]; exact Ctx.sameButHeld_refl _
  · by_cases e : c = o.ctx
    · subst e
      rw [ctx_setCtx_new b _ _ (Ctx.hold_new _ _ _)]
      exact Ctx.hold_same _ _ _
    · rw [ctx_setCtx_ne b _ e]; exact Ctx.sameButHeld_refl _

theorem sendOn_host (p : Nat) (o : Out) : { b with host := (b.sendOn p o).host } = b.sendOn p o := by
  unfold Blk.sendOn
  split
  · unfold Blk.setPort; split <;> rfl
  · rfl
theorem sendOn_cmds (p : Nat) (o : Out) : (b.sendOn p o).host.cmds = b.host.cmds ∧ (b.sendOn p o).host.evSeq = b.host.evSeq ∧
    (b.sendOn p o).host.intake = b.host.intake ∧ (b.sendOn p o).host.intakeStopped = b.host.intakeStopped := by
  unfold Blk.sendOn; split <;> simp
theorem sendOn_ctx (p : Nat) (o : Out) (c : Nat) : (b.sendOn p o).ctx c = b.ctx c := by
  unfold Blk.sendOn; split <;> simp

theorem replyTo_host (p c : Nat) (v : List Byte) : { b with host := (b.replyTo p c v).host } = b.replyTo p c v := by
  unfold Blk.replyTo; simp only; split
  · exact sendOn_host _ _
  · exact sendOut_host _ _
theorem replyTo_cmds (p c : Nat) (v : List Byte) : (b.replyTo p c v).host.cmds = b.host.cmds ∧ (b.replyTo p c v).host.evSeq = b.host.evSeq ∧
    (b.replyTo p c v).host.intake = b.host.intake ∧ (b.replyTo p c v).host.intakeStopped = b.host.intakeStopped := by
  unfold Blk.replyTo; simp only; split
  · exact sendOn_cmds _ _
  · exact sendOut_cmds _ _
theorem replyTo_ctx (p c n : Nat) (v : List Byte) : (b.ctx n).sameButHeld ((b.replyTo p c v).ctx n) := by
  unfold Blk.replyTo; simp only; split
  · rw [sendOn_ctx]; exact Ctx.sameButHeld_refl _
  · exact sendOut_ctx _ _ _

/-! ### A final reply -/

theorem finalReply_host (m : Msg) (s : Bool) (st det : Nat) (pay : List Byte) :
    { b with host := (b.finalReply m s st det pay).host } = b.finalReply m s st det pay := by
  unfold Blk.finalReply
  simp only
  split
  · rw [← replyTo_host]; rfl
  · rw [← replyTo_host]
theorem finalReply_cmds (m : Msg) (s : Bool) (st det : Nat) (pay : List Byte) :
    (b.finalReply m s st det pay).host.cmds = b.host.cmds ∧ (b.finalReply m s st det pay).host.evSeq = b.host.evSeq ∧
    (b.finalReply m s st det pay).host.intake = b.host.intake ∧ (b.finalReply m s st det pay).host.intakeStopped = b.host.intakeStopped := by
  unfold Blk.finalReply
  simp only
  split
  · rw [(replyTo_cmds _ _ _).1, (replyTo_cmds _ _ _).2.1, (replyTo_cmds _ _ _).2.2.1, (replyTo_cmds _ _ _).2.2.2]; simp
  · exact replyTo_cmds _ _ _
/-- A stored final reply is the last of those that its context keeps. -/
theorem finalReply_replies (m : Msg) (st det : Nat) (pay : List Byte) (h : (b.ctx m.ctx).st ≠ 0) :
    ((b.finalReply m true st det pay).ctx m.ctx).replies.getLast? =
      some (m.seq, msgBytes m.opcode m.ctx true false m.seq st det b.tide pay) := by
  unfold Blk.finalReply
  simp only [Bool.true_and, bne_iff_ne, ne_eq, h, not_false_eq_true, if_true]
  rw [(replyTo_ctx _ _ _ _).2.2.2.2.2.2.2.2.2, ctx_setCtx_new]
  · simp [List.getLast?_drop, List.getLast?_append]
  · intro e
    have := congrArg Ctx.st e
    exact h (by simpa using this)
/-- The other contexts keep their replies, and all contexts their bindings. -/
theorem finalReply_ctx (m : Msg) (s : Bool) (st det n : Nat) (pay : List Byte) :
    ((b.finalReply m s st det pay).ctx n).st = (b.ctx n).st ∧ ((b.finalReply m s st det pay).ctx n).part = (b.ctx n).part ∧
    ((b.finalReply m s st det pay).ctx n).depth = (b.ctx n).depth ∧ ((b.finalReply m s st det pay).ctx n).home = (b.ctx n).home ∧
    ((b.finalReply m s st det pay).ctx n).failover = (b.ctx n).failover ∧ ((b.finalReply m s st det pay).ctx n).privs = (b.ctx n).privs ∧
    ((b.finalReply m s st det pay).ctx n).series = (b.ctx n).series ∧ ((b.finalReply m s st det pay).ctx n).expect = (b.ctx n).expect := by
  unfold Blk.finalReply
  simp only
  split
  · next h =>
    have hx : (b.ctx m.ctx).st ≠ 0 := by simp at h; exact h.2
    obtain ⟨h1, h2, h3, h4, h5, h6, h7, h8, h9, h10⟩ := replyTo_ctx (b := b.setCtx m.ctx { b.ctx m.ctx with
      replies := ((b.ctx m.ctx).replies ++ [(m.seq, msgBytes m.opcode m.ctx true false m.seq st det b.tide pay)]).drop
        (((b.ctx m.ctx).replies ++ [(m.seq, msgBytes m.opcode m.ctx true false m.seq st det b.tide pay)]).length - 64) }) m.port m.ctx n
        (msgBytes m.opcode m.ctx true false m.seq st det b.tide pay)
    rw [h1, h2, h3, h4, h6, h7, h8, h9]
    by_cases e : n = m.ctx
    · subst e
      rw [ctx_setCtx_new]
      · simp
      · intro e; exact hx (by simpa using congrArg Ctx.st e)
    · rw [ctx_setCtx_ne b _ e]; simp
  · obtain ⟨h1, h2, h3, h4, h5, h6, h7, h8, h9, h10⟩ := replyTo_ctx (b := b) m.port m.ctx n (msgBytes m.opcode m.ctx true false m.seq st det b.tide pay)
    exact ⟨h1, h2, h3, h4, h6, h7, h8, h9⟩

/-! ### The end of a command -/

@[simp] theorem sendOut_frame (o : Out) (n : Nat) :
    (b.sendOut o n).free = b.free ∧ (b.sendOut o n).tide = b.tide ∧ (b.sendOut o n).cfg = b.cfg ∧ (b.sendOut o n).mem = b.mem ∧
    (b.sendOut o n).unitKeys = b.unitKeys ∧ (b.sendOut o n).zeroed = b.zeroed ∧ (b.sendOut o n).ueUnits = b.ueUnits ∧
    (b.sendOut o n).coves = b.coves ∧ (b.sendOut o n).bays = b.bays ∧ (b.sendOut o n).hls = b.hls ∧ (b.sendOut o n).badCoves = b.badCoves ∧
    (b.sendOut o n).barriers = b.barriers ∧ (b.sendOut o n).watches = b.watches ∧ (b.sendOut o n).spans = b.spans ∧
    (b.sendOut o n).parts = b.parts ∧ (b.sendOut o n).zeroing = b.zeroing ∧ (b.sendOut o n).dev = b.dev ∧ (b.sendOut o n).fw = b.fw ∧
    (b.sendOut o n).cores = b.cores ∧ (b.sendOut o n).board = b.board ∧ (b.sendOut o n).hbmStacks = b.hbmStacks ∧ (b.sendOut o n).err = b.err ∧
    (b.sendOut o n).links = b.links ∧ (b.sendOut o n).slice = b.slice ∧ (b.sendOut o n).serves = b.serves ∧
    (b.sendOut o n).accounts = b.accounts ∧ (b.sendOut o n).chans = b.chans ∧ (b.sendOut o n).sync = b.sync ∧ (b.sendOut o n).mode = b.mode ∧
    (b.sendOut o n).bars = b.bars := by
  rw [← sendOut_host]; simp
@[simp] theorem replyTo_frame (p c : Nat) (v : List Byte) :
    (b.replyTo p c v).free = b.free ∧ (b.replyTo p c v).tide = b.tide ∧ (b.replyTo p c v).cfg = b.cfg ∧ (b.replyTo p c v).mem = b.mem ∧
    (b.replyTo p c v).unitKeys = b.unitKeys ∧ (b.replyTo p c v).zeroed = b.zeroed ∧ (b.replyTo p c v).ueUnits = b.ueUnits ∧
    (b.replyTo p c v).coves = b.coves ∧ (b.replyTo p c v).bays = b.bays ∧ (b.replyTo p c v).hls = b.hls ∧
    (b.replyTo p c v).badCoves = b.badCoves ∧ (b.replyTo p c v).barriers = b.barriers ∧ (b.replyTo p c v).watches = b.watches ∧
    (b.replyTo p c v).spans = b.spans ∧ (b.replyTo p c v).parts = b.parts ∧ (b.replyTo p c v).zeroing = b.zeroing ∧
    (b.replyTo p c v).dev = b.dev ∧ (b.replyTo p c v).fw = b.fw ∧ (b.replyTo p c v).cores = b.cores ∧ (b.replyTo p c v).board = b.board ∧
    (b.replyTo p c v).hbmStacks = b.hbmStacks ∧ (b.replyTo p c v).err = b.err ∧ (b.replyTo p c v).links = b.links ∧
    (b.replyTo p c v).slice = b.slice ∧ (b.replyTo p c v).serves = b.serves ∧ (b.replyTo p c v).accounts = b.accounts ∧
    (b.replyTo p c v).chans = b.chans ∧ (b.replyTo p c v).sync = b.sync ∧ (b.replyTo p c v).mode = b.mode ∧ (b.replyTo p c v).bars = b.bars := by
  rw [← replyTo_host]; simp
@[simp] theorem finalReply_frame (m : Msg) (s : Bool) (st det : Nat) (pay : List Byte) :
    (b.finalReply m s st det pay).free = b.free ∧ (b.finalReply m s st det pay).tide = b.tide ∧ (b.finalReply m s st det pay).cfg = b.cfg ∧
    (b.finalReply m s st det pay).mem = b.mem ∧ (b.finalReply m s st det pay).unitKeys = b.unitKeys ∧
    (b.finalReply m s st det pay).zeroed = b.zeroed ∧ (b.finalReply m s st det pay).ueUnits = b.ueUnits ∧
    (b.finalReply m s st det pay).coves = b.coves ∧ (b.finalReply m s st det pay).bays = b.bays ∧ (b.finalReply m s st det pay).hls = b.hls ∧
    (b.finalReply m s st det pay).badCoves = b.badCoves ∧ (b.finalReply m s st det pay).barriers = b.barriers ∧
    (b.finalReply m s st det pay).watches = b.watches ∧ (b.finalReply m s st det pay).spans = b.spans ∧
    (b.finalReply m s st det pay).parts = b.parts ∧ (b.finalReply m s st det pay).zeroing = b.zeroing ∧
    (b.finalReply m s st det pay).dev = b.dev ∧ (b.finalReply m s st det pay).fw = b.fw ∧ (b.finalReply m s st det pay).cores = b.cores ∧
    (b.finalReply m s st det pay).board = b.board ∧ (b.finalReply m s st det pay).hbmStacks = b.hbmStacks ∧
    (b.finalReply m s st det pay).err = b.err ∧ (b.finalReply m s st det pay).links = b.links ∧ (b.finalReply m s st det pay).slice = b.slice ∧
    (b.finalReply m s st det pay).serves = b.serves ∧ (b.finalReply m s st det pay).accounts = b.accounts ∧
    (b.finalReply m s st det pay).chans = b.chans ∧ (b.finalReply m s st det pay).sync = b.sync ∧ (b.finalReply m s st det pay).mode = b.mode ∧
    (b.finalReply m s st det pay).bars = b.bars := by
  rw [← finalReply_host]; simp
@[simp] theorem closeDet_frame (d : Nat) :
    ((b.closeDet d).2).tide = b.tide ∧ ((b.closeDet d).2).cfg = b.cfg ∧ ((b.closeDet d).2).mem = b.mem ∧
    ((b.closeDet d).2).unitKeys = b.unitKeys ∧ ((b.closeDet d).2).zeroed = b.zeroed ∧ ((b.closeDet d).2).ueUnits = b.ueUnits ∧
    ((b.closeDet d).2).coves = b.coves ∧ ((b.closeDet d).2).bays = b.bays ∧ ((b.closeDet d).2).hls = b.hls ∧
    ((b.closeDet d).2).badCoves = b.badCoves ∧ ((b.closeDet d).2).barriers = b.barriers ∧ ((b.closeDet d).2).watches = b.watches ∧
    ((b.closeDet d).2).spans = b.spans ∧ ((b.closeDet d).2).parts = b.parts ∧ ((b.closeDet d).2).zeroing = b.zeroing ∧
    ((b.closeDet d).2).host = b.host ∧ ((b.closeDet d).2).dev = b.dev ∧ ((b.closeDet d).2).fw = b.fw ∧ ((b.closeDet d).2).cores = b.cores ∧
    ((b.closeDet d).2).board = b.board ∧ ((b.closeDet d).2).hbmStacks = b.hbmStacks ∧ ((b.closeDet d).2).err = b.err ∧
    ((b.closeDet d).2).links = b.links ∧ ((b.closeDet d).2).slice = b.slice ∧ ((b.closeDet d).2).serves = b.serves ∧
    ((b.closeDet d).2).accounts = b.accounts ∧ ((b.closeDet d).2).chans = b.chans ∧ ((b.closeDet d).2).sync = b.sync ∧
    ((b.closeDet d).2).mode = b.mode ∧ ((b.closeDet d).2).bars = b.bars := by
  unfold Blk.closeDet; split <;> simp [Blk.freeVal]
@[simp] theorem extendCfg_frame (m : Msg) :
    (b.extendCfg m).free = b.free ∧ (b.extendCfg m).tide = b.tide ∧ (b.extendCfg m).cfg = b.cfg ∧ (b.extendCfg m).mem = b.mem ∧
    (b.extendCfg m).unitKeys = b.unitKeys ∧ (b.extendCfg m).zeroed = b.zeroed ∧ (b.extendCfg m).ueUnits = b.ueUnits ∧
    (b.extendCfg m).coves = b.coves ∧ (b.extendCfg m).bays = b.bays ∧ (b.extendCfg m).hls = b.hls ∧ (b.extendCfg m).badCoves = b.badCoves ∧
    (b.extendCfg m).barriers = b.barriers ∧ (b.extendCfg m).watches = b.watches ∧ (b.extendCfg m).spans = b.spans ∧
    (b.extendCfg m).parts = b.parts ∧ (b.extendCfg m).zeroing = b.zeroing ∧ (b.extendCfg m).host = b.host ∧ (b.extendCfg m).dev = b.dev ∧
    (b.extendCfg m).cores = b.cores ∧ (b.extendCfg m).board = b.board ∧ (b.extendCfg m).hbmStacks = b.hbmStacks ∧ (b.extendCfg m).err = b.err ∧
    (b.extendCfg m).links = b.links ∧ (b.extendCfg m).slice = b.slice ∧ (b.extendCfg m).serves = b.serves ∧
    (b.extendCfg m).accounts = b.accounts ∧ (b.extendCfg m).chans = b.chans ∧ (b.extendCfg m).sync = b.sync ∧ (b.extendCfg m).mode = b.mode ∧
    (b.extendCfg m).bars = b.bars := by
  unfold Blk.extendCfg; split <;> simp
@[simp] theorem extendPm_frame (p : Nat) (m : Msg) (v : List Byte) :
    (b.extendPm p m v).free = b.free ∧ (b.extendPm p m v).tide = b.tide ∧ (b.extendPm p m v).cfg = b.cfg ∧ (b.extendPm p m v).mem = b.mem ∧
    (b.extendPm p m v).unitKeys = b.unitKeys ∧ (b.extendPm p m v).zeroed = b.zeroed ∧ (b.extendPm p m v).ueUnits = b.ueUnits ∧
    (b.extendPm p m v).coves = b.coves ∧ (b.extendPm p m v).bays = b.bays ∧ (b.extendPm p m v).hls = b.hls ∧
    (b.extendPm p m v).badCoves = b.badCoves ∧ (b.extendPm p m v).barriers = b.barriers ∧ (b.extendPm p m v).watches = b.watches ∧
    (b.extendPm p m v).spans = b.spans ∧ (b.extendPm p m v).zeroing = b.zeroing ∧ (b.extendPm p m v).host = b.host ∧
    (b.extendPm p m v).dev = b.dev ∧ (b.extendPm p m v).fw = b.fw ∧ (b.extendPm p m v).cores = b.cores ∧ (b.extendPm p m v).board = b.board ∧
    (b.extendPm p m v).hbmStacks = b.hbmStacks ∧ (b.extendPm p m v).err = b.err ∧ (b.extendPm p m v).links = b.links ∧
    (b.extendPm p m v).slice = b.slice ∧ (b.extendPm p m v).serves = b.serves ∧ (b.extendPm p m v).accounts = b.accounts ∧
    (b.extendPm p m v).chans = b.chans ∧ (b.extendPm p m v).sync = b.sync ∧ (b.extendPm p m v).mode = b.mode ∧ (b.extendPm p m v).bars = b.bars := by
  unfold Blk.extendPm; split <;> simp
@[simp] theorem measureCmd_frame (m : Msg) :
    (b.measureCmd m).free = b.free ∧ (b.measureCmd m).tide = b.tide ∧ (b.measureCmd m).cfg = b.cfg ∧ (b.measureCmd m).mem = b.mem ∧
    (b.measureCmd m).unitKeys = b.unitKeys ∧ (b.measureCmd m).zeroed = b.zeroed ∧ (b.measureCmd m).ueUnits = b.ueUnits ∧
    (b.measureCmd m).coves = b.coves ∧ (b.measureCmd m).bays = b.bays ∧ (b.measureCmd m).hls = b.hls ∧ (b.measureCmd m).badCoves = b.badCoves ∧
    (b.measureCmd m).barriers = b.barriers ∧ (b.measureCmd m).watches = b.watches ∧ (b.measureCmd m).spans = b.spans ∧
    (b.measureCmd m).zeroing = b.zeroing ∧ (b.measureCmd m).host = b.host ∧ (b.measureCmd m).dev = b.dev ∧ (b.measureCmd m).cores = b.cores ∧
    (b.measureCmd m).board = b.board ∧ (b.measureCmd m).hbmStacks = b.hbmStacks ∧ (b.measureCmd m).err = b.err ∧ (b.measureCmd m).links = b.links ∧
    (b.measureCmd m).slice = b.slice ∧ (b.measureCmd m).serves = b.serves ∧ (b.measureCmd m).accounts = b.accounts ∧
    (b.measureCmd m).chans = b.chans ∧ (b.measureCmd m).sync = b.sync ∧ (b.measureCmd m).mode = b.mode ∧ (b.measureCmd m).bars = b.bars := by
  unfold Blk.measureCmd; simp only; split
  · simp
  · split <;> simp
@[simp] theorem setCmd_frame (c : Cmd) :
    (b.setCmd c).free = b.free ∧ (b.setCmd c).tide = b.tide ∧ (b.setCmd c).cfg = b.cfg ∧ (b.setCmd c).mem = b.mem ∧
    (b.setCmd c).unitKeys = b.unitKeys ∧ (b.setCmd c).zeroed = b.zeroed ∧ (b.setCmd c).ueUnits = b.ueUnits ∧ (b.setCmd c).coves = b.coves ∧
    (b.setCmd c).bays = b.bays ∧ (b.setCmd c).hls = b.hls ∧ (b.setCmd c).badCoves = b.badCoves ∧ (b.setCmd c).barriers = b.barriers ∧
    (b.setCmd c).watches = b.watches ∧ (b.setCmd c).spans = b.spans ∧ (b.setCmd c).parts = b.parts ∧ (b.setCmd c).zeroing = b.zeroing ∧
    (b.setCmd c).dev = b.dev ∧ (b.setCmd c).fw = b.fw ∧ (b.setCmd c).cores = b.cores ∧ (b.setCmd c).board = b.board ∧
    (b.setCmd c).hbmStacks = b.hbmStacks ∧ (b.setCmd c).err = b.err ∧ (b.setCmd c).links = b.links ∧ (b.setCmd c).slice = b.slice ∧
    (b.setCmd c).serves = b.serves ∧ (b.setCmd c).accounts = b.accounts ∧ (b.setCmd c).chans = b.chans ∧ (b.setCmd c).sync = b.sync ∧
    (b.setCmd c).mode = b.mode ∧ (b.setCmd c).bars = b.bars := by
  simp [Blk.setCmd]
@[simp] theorem dropCmd_frame (c : Cmd) :
    (b.dropCmd c).free = b.free ∧ (b.dropCmd c).tide = b.tide ∧ (b.dropCmd c).cfg = b.cfg ∧ (b.dropCmd c).mem = b.mem ∧
    (b.dropCmd c).unitKeys = b.unitKeys ∧ (b.dropCmd c).zeroed = b.zeroed ∧ (b.dropCmd c).ueUnits = b.ueUnits ∧ (b.dropCmd c).coves = b.coves ∧
    (b.dropCmd c).bays = b.bays ∧ (b.dropCmd c).hls = b.hls ∧ (b.dropCmd c).badCoves = b.badCoves ∧ (b.dropCmd c).barriers = b.barriers ∧
    (b.dropCmd c).watches = b.watches ∧ (b.dropCmd c).spans = b.spans ∧ (b.dropCmd c).parts = b.parts ∧ (b.dropCmd c).zeroing = b.zeroing ∧
    (b.dropCmd c).dev = b.dev ∧ (b.dropCmd c).fw = b.fw ∧ (b.dropCmd c).cores = b.cores ∧ (b.dropCmd c).board = b.board ∧
    (b.dropCmd c).hbmStacks = b.hbmStacks ∧ (b.dropCmd c).err = b.err ∧ (b.dropCmd c).links = b.links ∧ (b.dropCmd c).slice = b.slice ∧
    (b.dropCmd c).serves = b.serves ∧ (b.dropCmd c).accounts = b.accounts ∧ (b.dropCmd c).chans = b.chans ∧ (b.dropCmd c).sync = b.sync ∧
    (b.dropCmd c).mode = b.mode ∧ (b.dropCmd c).bars = b.bars := by
  simp [Blk.dropCmd]

/-- A command without a deadline that no span logs ends with its status, its detail and its final reply. -/
theorem finish_eq {c : Cmd} {st det : Nat} {pay : List Byte} (h13 : c.flag 13 = false) (hl : b.logged c.ctx c.seq = false) :
    b.finish c st det pay =
      (((if st = stOK ∧ dKind c.m.opcode = false then (b.closeDet det).2.measureCmd c.m else (b.closeDet det).2).dropCmd c).finalReply c.m
        (c.m.opcode != 1) st (b.closeDet det).1 pay) := by
  unfold Blk.finish
  simp only [h13, Bool.and_false, Bool.false_and, Bool.false_eq_true, if_false, Bool.or_false, Bool.and_eq_true, decide_eq_true_eq, Bool.not_eq_true']
  have : ∀ x : Blk, x.spans = b.spans → x.logged c.ctx c.seq = false := by
    intro x hx; rw [← hl]; unfold Blk.logged; rw [hx]
  rw [if_neg]
  rw [this]
  · simp
  · split <;> simp
theorem finish_frame {c : Cmd} {st det : Nat} {pay : List Byte} (h13 : c.flag 13 = false) (hl : b.logged c.ctx c.seq = false) :
    (b.finish c st det pay).tide = b.tide ∧ (b.finish c st det pay).cfg = b.cfg ∧ (b.finish c st det pay).mem = b.mem ∧
    (b.finish c st det pay).unitKeys = b.unitKeys ∧ (b.finish c st det pay).zeroed = b.zeroed ∧ (b.finish c st det pay).ueUnits = b.ueUnits ∧
    (b.finish c st det pay).coves = b.coves ∧ (b.finish c st det pay).bays = b.bays ∧ (b.finish c st det pay).hls = b.hls ∧
    (b.finish c st det pay).badCoves = b.badCoves ∧ (b.finish c st det pay).barriers = b.barriers ∧
    (b.finish c st det pay).watches = b.watches ∧ (b.finish c st det pay).spans = b.spans ∧ (b.finish c st det pay).zeroing = b.zeroing ∧
    (b.finish c st det pay).dev = b.dev ∧ (b.finish c st det pay).cores = b.cores ∧ (b.finish c st det pay).board = b.board ∧
    (b.finish c st det pay).hbmStacks = b.hbmStacks ∧ (b.finish c st det pay).err = b.err ∧ (b.finish c st det pay).links = b.links ∧
    (b.finish c st det pay).slice = b.slice ∧ (b.finish c st det pay).serves = b.serves ∧ (b.finish c st det pay).accounts = b.accounts ∧
    (b.finish c st det pay).chans = b.chans ∧ (b.finish c st det pay).sync = b.sync ∧ (b.finish c st det pay).mode = b.mode ∧
    (b.finish c st det pay).bars = b.bars := by
  rw [finish_eq h13 hl]; split <;> simp

theorem finish_cmds {c : Cmd} {st det : Nat} {pay : List Byte} (h13 : c.flag 13 = false) (hl : b.logged c.ctx c.seq = false) :
    (b.finish c st det pay).host.cmds = b.host.cmds.filter fun d => !(d.ctx == c.ctx && d.seq == c.seq) := by
  rw [finish_eq h13 hl, (finalReply_cmds _ _ _ _ _).1]
  split <;> simp [Blk.dropCmd]

/-- A command that ends is answered: its final reply is the last that its context keeps (R42, R47). -/
theorem finish_answered {c : Cmd} {st det : Nat} {pay : List Byte} (h13 : c.flag 13 = false) (hl : b.logged c.ctx c.seq = false)
    (hop : c.m.opcode ≠ 1) (hst : (b.ctx c.m.ctx).st ≠ 0) (hd : det < openDet) : (b.finish c st det pay).answered c.m st det pay := by
  have hcl : b.closeDet det = (det, b) := by
    have : det ≠ openDet := Nat.ne_of_lt hd
    simp [Blk.closeDet, this, Nat.mod_eq_of_lt (Nat.lt_of_lt_of_eq hd rfl : det < 65536)]
  have hx : ∀ x : Blk, x.host.ctxs = b.host.ctxs → x.ctx c.m.ctx = b.ctx c.m.ctx := by intro x hx; unfold Blk.ctx; rw [hx]
  unfold Blk.answered
  rw [finish_eq h13 hl, hcl]
  have hb : (c.m.opcode != 1) = true := by simp [hop]
  rw [hb]
  split
  · rw [finalReply_replies]
    · simp
    · rw [hx]
      · exact hst
      · simp [Blk.dropCmd]
  · rw [finalReply_replies]
    · simp
    · rw [hx]
      · exact hst
      · simp [Blk.dropCmd]

/-! ### A command that the device takes at once -/

variable {m : Msg}

/-- What taking a message says about its context and the device. -/
theorem takes_facts (h : b.takes m = true) :
    (b.ctx m.ctx).st = 1 ∧ b.still = true ∧ b.logged m.ctx m.seq = false ∧ (b.asCmd m).flag 13 = false ∧ m.port < 2 := by
  simp only [Blk.takes, msgPlain, Bool.and_eq_true, beq_iff_eq, Bool.not_eq_true', List.isEmpty_iff, Option.isNone_iff_eq_none, Bool.or_eq_true,
    decide_eq_true_eq] at h
  obtain ⟨⟨⟨⟨⟨⟨⟨⟨⟨⟨⟨⟨⟨⟨⟨⟨⟨⟨hv, hmin⟩, hcls⟩, hpart⟩, hdl⟩, hport⟩, hup⟩, hpow⟩, hint⟩, hst⟩, hhome⟩, hseq⟩, hhdr⟩, hsc⟩, hdat⟩, hstill⟩, hcm⟩, hlog⟩, hspan⟩ := h
  exact ⟨hst, hstill, hlog, by simpa [Blk.asCmd, Cmd.flag] using hdl, hport⟩
/-- Entering a message changes the host side only. -/
theorem entered_host : { b with host := (b.entered m).host } = b.entered m := by
  unfold Blk.entered; split <;> rfl
@[simp] theorem entered_fields :
    (b.entered m).free = b.free ∧ (b.entered m).tide = b.tide ∧ (b.entered m).cfg = b.cfg ∧ (b.entered m).mem = b.mem ∧
    (b.entered m).unitKeys = b.unitKeys ∧ (b.entered m).zeroed = b.zeroed ∧ (b.entered m).ueUnits = b.ueUnits ∧ (b.entered m).coves = b.coves ∧
    (b.entered m).bays = b.bays ∧ (b.entered m).hls = b.hls ∧ (b.entered m).badCoves = b.badCoves ∧ (b.entered m).barriers = b.barriers ∧
    (b.entered m).watches = b.watches ∧ (b.entered m).spans = b.spans ∧ (b.entered m).parts = b.parts ∧ (b.entered m).zeroing = b.zeroing ∧
    (b.entered m).dev = b.dev ∧ (b.entered m).fw = b.fw ∧ (b.entered m).cores = b.cores ∧ (b.entered m).board = b.board ∧
    (b.entered m).hbmStacks = b.hbmStacks ∧ (b.entered m).err = b.err ∧ (b.entered m).links = b.links ∧ (b.entered m).slice = b.slice ∧
    (b.entered m).serves = b.serves ∧ (b.entered m).accounts = b.accounts ∧ (b.entered m).chans = b.chans ∧ (b.entered m).sync = b.sync ∧
    (b.entered m).mode = b.mode ∧ (b.entered m).bars = b.bars := by
  rw [← entered_host]; simp
@[simp] theorem entered_cmds : (b.entered m).host.cmds = [b.asCmd m] ∧ (b.entered m).host.evSeq = b.host.evSeq ∧
    (b.entered m).host.intakeStopped = b.host.intakeStopped ∧ (b.entered m).host.portA = b.host.portA ∧ (b.entered m).host.portB = b.host.portB := by
  unfold Blk.entered; split <;> simp
theorem still_congr {x : Blk} (h1 : x.bays = b.bays) (h2 : x.chans = b.chans) (h3 : x.slice = b.slice) : x.still = b.still := by
  unfold Blk.still; rw [h1, h2, h3]
theorem logged_congr {x : Blk} {c s : Nat} (h : x.spans = b.spans) : x.logged c s = b.logged c s := by unfold Blk.logged; rw [h]

/-- A command that ends as it runs: nothing else happens. -/
theorem command_ends {x : Blk} {st det : Nat} {pay : List Byte} (h : b.takes m = true)
    (hr : (b.entered m).runOp (b.asCmd m) = x.finish (b.asCmd m) st det pay)
    (hc : x.host.cmds = [b.asCmd m]) (hs : x.still = true) (hl : x.logged m.ctx m.seq = false) :
    b.command m = x.finish (b.asCmd m) st det pay := by
  obtain ⟨h1, h2, h3, h4, h5⟩ := takes_facts h
  have hl' : x.logged (b.asCmd m).ctx (b.asCmd m).seq = false := hl
  rw [command_takes h, hr]
  apply pump_rest
  · unfold Blk.noneReady
    rw [finish_cmds h4 hl', hc]
    simp
  · rw [still_congr]
    · exact hs
    all_goals (rw [finish_eq h4 hl']; split <;> simp)
/-- A command that is accepted and waits: nothing else happens. -/
theorem command_waits {x : Blk} (h : b.takes m = true) (hr : (b.entered m).runOp (b.asCmd m) = x)
    (hc : x.noneReady = true) (hs : x.still = true) : b.command m = x := by
  rw [command_takes h, hr]
  exact pump_rest 1 hc hs

end Sys2Proof.Machine
end

