-- ==== Sys2Proof/Laws/Memory.lean ====
section
/-! SUPPORT. Memory: every operation over it keeps the canonical form, a byte inside a write reads as written, and every other byte reads as
before. -/
namespace Sys2Proof.Machine

variable {b : Blk} {c p a j n u : Nat} {v : List Byte}

/-! ### Reading after writing -/

@[simp] theorem pokeN_mem : (b.pokeN a v).mem = ssetRun memReset b.mem a v := rfl
/-- Outside a write every byte reads as before. -/
theorem peek_pokeN_out (h : j < a ∨ a + v.length ≤ j) : (b.pokeN a v).peek j = b.peek j := sget_ssetRun_out v h
/-- Inside a write a byte reads as the one written. -/
theorem peek_pokeN_in (h : Memory.wf b.mem) (hj : a ≤ j) (hn : j - a < v.length) : (b.pokeN a v).peek j = v[j - a] := sget_ssetRun_in v h hj hn
theorem peek_congr {x : Blk} (h : x.mem = b.mem) : x.peek j = b.peek j := by unfold Blk.peek; rw [h]

/-! ### What leaves memory alone -/

@[simp] theorem ringTouch_mem (w : Bool) : (b.ringTouch c w a n).mem = b.mem := by
  unfold Blk.ringTouch
  simp only
  split <;> simp
@[simp] theorem bankTouch_mem (r : Nat) : (b.bankTouch c r a n).mem = b.mem := by
  unfold Blk.bankTouch
  simp only
  split <;> simp
@[simp] theorem tpTouchReads_mem (r : Nat) (l : List (Nat × Nat)) : (b.tpTouchReads c r l).mem = b.mem := by
  unfold Blk.tpTouchReads
  induction l generalizing b with
  | nil => rfl
  | cons q l ih => rw [List.foldl_cons, ih]; simp
@[simp] theorem inboxArrive_mem : (b.inboxArrive c a n).mem = b.mem := by simp [Blk.inboxArrive]
@[simp] theorem grantLocal_mem : (b.grantLocal c a n).mem = b.mem := by simp [Blk.grantLocal]

/-! ### The canonical form -/

theorem pokeN_wf (h : Memory.wf b.mem) : Memory.wf (b.pokeN a v).mem := swf_ssetRun v h
/-- A write into a Tidepool is one write of its bytes, or nothing. -/
theorem tpWriteQuiet_mem : (b.tpWriteQuiet c a v).mem = ssetRun memReset b.mem (tpAddr c a) v := by
  unfold Blk.tpWriteQuiet
  split
  · next h => simp [List.isEmpty_iff.mp h, ssetRun]
  · simp
theorem tpWrite_mem : (b.tpWrite c a v).mem = ssetRun memReset b.mem (tpAddr c a) v := by simp [Blk.tpWrite, tpWriteQuiet_mem]
theorem tpWriteFar_mem : (b.tpWriteFar c a v).mem = ssetRun memReset b.mem (tpAddr c a) v := by
  unfold Blk.tpWriteFar
  split
  · next h => simp [List.isEmpty_iff.mp h, ssetRun]
  · simp
theorem tpWrite_wf (h : Memory.wf b.mem) : Memory.wf (b.tpWrite c a v).mem := by rw [tpWrite_mem]; exact swf_ssetRun v h
theorem tpWriteQuiet_wf (h : Memory.wf b.mem) : Memory.wf (b.tpWriteQuiet c a v).mem := by rw [tpWriteQuiet_mem]; exact swf_ssetRun v h
theorem tpWriteFar_wf (h : Memory.wf b.mem) : Memory.wf (b.tpWriteFar c a v).mem := by rw [tpWriteFar_mem]; exact swf_ssetRun v h
theorem peek_tpWrite_out (h : j < tpAddr c a ∨ tpAddr c a + v.length ≤ j) : (b.tpWrite c a v).peek j = b.peek j := by
  unfold Blk.peek; rw [tpWrite_mem]; exact sget_ssetRun_out v h
theorem peek_tpWrite_in (h : Memory.wf b.mem) (hj : tpAddr c a ≤ j) (hn : j - tpAddr c a < v.length) :
    (b.tpWrite c a v).peek j = v[j - tpAddr c a] := by
  unfold Blk.peek; rw [tpWrite_mem]; exact sget_ssetRun_in v h hj hn

theorem rekeyUnit_wf (h : Memory.wf b.mem) : Memory.wf (b.rekeyUnit p u).mem := by simpa [Blk.rekeyUnit] using swf_ssetRun _ h
theorem hbmUnit_wf (h : Memory.wf b.mem) : Memory.wf (b.hbmUnit p a v u).mem := by
  unfold Blk.hbmUnit
  simp only
  split
  · exact swf_ssetRun _ h
  · split
    · exact h
    · exact pokeN_wf (rekeyUnit_wf h)
/-- A fold of operations that keep the form keeps it. -/
theorem foldl_wf {α : Type} (f : Blk → α → Blk) (l : List α) (hf : ∀ x q, Memory.wf x.mem → Memory.wf (f x q).mem) (h : Memory.wf b.mem) :
    Memory.wf (l.foldl f b).mem := by
  induction l generalizing b with
  | nil => exact h
  | cons q l ih => exact ih (hf b q h)
theorem hbmWrite_wf (h : Memory.wf b.mem) : Memory.wf (b.hbmWrite p a v).mem := foldl_wf _ _ (fun _ _ => hbmUnit_wf) h
theorem winWrite_wf (o : Option Nat) (h : Memory.wf b.mem) : Memory.wf (b.winWrite o a v).mem := by
  refine foldl_wf _ _ (fun x q hx => ?_) h
  simp only
  split
  · simpa using hx
  · split
    · exact tpWrite_wf hx
    · exact tpWriteFar_wf hx
theorem memWrite_wf (o : Option Nat) (h : Memory.wf b.mem) : Memory.wf (b.memWrite p o a v).mem := by
  unfold Blk.memWrite
  split
  · exact h
  · split
    · exact hbmWrite_wf h
    · exact winWrite_wf o h

/-- A change of the cache portion clears the bytes that move into or out of it, or changes no byte. -/
theorem tpCtlPut_wf {w : Nat} {x : Blk} (h : Memory.wf b.mem) (e : b.tpCtlPut c w = .ok x) : Memory.wf x.mem := by
  unfold Blk.tpCtlPut at e
  simp only at e
  repeat' split at e
  all_goals first | (cases e; simpa using h) | (cases e; simpa using swf_sclear h) | cases e

theorem zeroTidepools_wf (f : Nat → Bool) (h : Memory.wf b.mem) : Memory.wf (b.zeroTidepools f).mem := swf_filter h
/-- A byte of a Tidepool that is not lost, or of HBM, reads as before. -/
theorem peek_zeroTidepools_kept (f : Nat → Bool) (h : (regionOf j == 1 && f ((j - tpBase) / tpSize)) = false) :
    (b.zeroTidepools f).peek j = b.peek j := sget_filter fun _ => by cases e : (regionOf j == 1 && f ((j - tpBase) / tpSize)) <;> simp_all
/-- An event leaves memory alone. -/
@[simp] theorem eventTo_mem (l : List Nat) (op : Nat) : (b.eventTo l op v).mem = b.mem := by
  unfold Blk.eventTo
  simp only
  generalize l.filter _ = q
  suffices H : ∀ x : Blk, (q.foldl (fun (y : Blk) k =>
      y.sendOut { kind := 1, ctx := k, event := true, body := msgBytes op k true true b.host.evSeq 0 0 y.tide v } b.host.evSeq) x).mem = x.mem by
    exact H _
  induction q with
  | nil => intro x; rfl
  | cons k q ih => intro x; rw [List.foldl_cons, ih]; simp
/-- The end of background zeroing leaves the bytes of other granules as they were. -/
theorem zeroingDone_wf (h : Memory.wf b.mem) : Memory.wf (b.zeroingDone p).mem := by
  unfold Blk.zeroingDone
  simp only
  split
  · exact h
  · simpa [Blk.scrubDone, Blk.event0] using swf_filter h
/-- The memory after a reset keeps the form. -/
theorem afterReset_wf (k : Bool) (h : Memory.wf b.mem) : Memory.wf (b.afterReset k).mem := by
  unfold Blk.afterReset
  cases k
  · rfl
  · exact swf_filter h

/-- Memory right after reset lists nothing. -/
theorem reset_wf : Memory.wf State.reset.blk.mem := by decide

end Sys2Proof.Machine
end

