-- ==== Sys2Proof/Laws/Rows.lean ====
section
/-! SUPPORT. The row of a register write, read as the well-formedness of its message has it and as the command tests it: the two agree. -/
namespace Sys2Proof.Machine

/-- The place of a word that rows of DV, HL, BY and CV write, read in either way. -/
theorem place_eq (m : Msg) (blk lo hi : Nat) (hb : blk = 0 ∨ blk = 2 ∨ blk = 6 ∨ blk = 7) :
    (m.cfgPlace.1 == blk && decide (lo ≤ m.cfgPlace.2) && decide (m.cfgPlace.2 < hi)) =
    ((cfgWhere (m.param - cfgBase)).1 == blk && decide (lo ≤ (cfgWhere (m.param - cfgBase)).2.2) && decide ((cfgWhere (m.param - cfgBase)).2.2 < hi)) := by
  unfold Msg.cfgPlace
  have : (0x07F000000000 : Nat) = cfgBase := rfl
  simp only [this]
  generalize m.param - cfgBase = o
  unfold cfgWhere
  rcases hb with h | h | h | h <;> subst h <;>
  · simp only [Bool.and_eq_true, decide_eq_true_eq]
    repeat' split
    all_goals first | (exfalso; omega) | simp
theorem writes_eq (m : Msg) (blk lo hi : Nat) (hb : blk = 0 ∨ blk = 2 ∨ blk = 6 ∨ blk = 7) : m.writesReg blk lo hi = writes m blk lo hi := by
  unfold Msg.writesReg writes
  have := place_eq m blk lo hi hb
  have h0 : (0x07F000000000 : Nat) = cfgBase := rfl
  have h1 : m.isOp 0x101 = isFor m 0x101 := rfl
  rw [h0, h1]
  simp only [Bool.and_assoc] at this ⊢
  rw [this]

end Sys2Proof.Machine
end

