-- ==== Sys2Proof/Tests/Slice0.lean ====
section
/-! SUPPORT. The model's own tests: for every statement with hypotheses a state and operands that meet them, with what the command then
does; ill-formed commands refused; worked examples of the manual. A test is named after the statement it belongs to. -/
namespace Sys2Proof.Tests
open Sys2Proof.Machine
set_option Elab.async false

/-! ### States built for tests -/

/-- A device in service: firmware runs, port A is up, context 0 is open at its home port, the stacks and links as after boot, and partition 0
has Headland 0 and the first granule. -/
def live : Blk :=
  { host := { portA := { up := true, trained := true, lanes := 4 }, ctxs := [(0, { st := 1, homeSet := true })] }
    dev := { svc := true, reachedSvc := true }
    fw := { running := some {} }
    board := { mainOk := true, mainMv := 48000 }
    hbmStacks := (List.range 16).map fun k => (k, { ready := 1 })
    parts := [(0, { st := 2, hlmask := 1, grans := 1, key := [1#8] })] }
/-- The same with Headland 0 ready. -/
def liveH : Blk := { live with hls := [(0, { ready := 1 })] }
/-- A state with no command waiting. -/
def st (b : Blk) : State := { blk := b }
/-- A message of context 0 with an opcode, parameter and payload. -/
def msg (op param : Nat) (payload : List Byte := []) (partition : Nat := 0xFF) : Msg :=
  { opcode := op, param := param, payload := payload, plen := payload.length, partition := partition }
/-- The CMD_CFG_WRITE of one word. -/
def wr (off w : Nat) : Msg := msg 0x101 (cfgBase + off) (leBytes 8 w)
/-- A command leads to a next state that satisfies a predicate. -/
def chk (b : Blk) (i : Instr) (P : Blk → Bool) : Bool := match exec i (st b) with | .next t => P t.blk | _ => false
def isOk {α β : Type} : Except α β → Bool | .ok _ => true | _ => false
/-- The machine with one started command that waits. -/
def waiting (m : Msg) (b : Blk) : Blk := { b with host := { b.host with cmds := [{ m := m, started := true, queued := true }] } }

/-! ### Commands of contexts and ports -/

namespace GW1
def o2 : Nat := 5 + 0 * 2 ^ 16 + 7 * 2 ^ 20 + 1 * 2 ^ 32 + 1 * 2 ^ 33 + 9 * 2 ^ 40
theorem test_NopAndHelloComplete_1 : chk live (.cmdNop (msg 0 0)) (fun t => decide (t.answered (msg 0 0) stOK 0 [] ∧ { live with host := t.host } = t ∧
   live.leftOn t (live.homeOf 0) (replyFrame live (msg 0 0) stOK 0 []))) = true := by decide
theorem test_ContextCommandsAndErrlogRead_1 : chk live (.cmdCtxOpen (msg 3 o2)) (fun t => decide (t.answered (msg 3 o2) stOK 0 [] ∧ (t.ctx 5).st = 1 ∧ (t.ctx 5).depth = 7 ∧ (t.ctx 5).home = 1 ∧ (t.ctx 5).privs = 9)) = true := by decide
def two : Blk := { live with host := { live.host with ctxs := [(0, { st := 1, homeSet := true }), (5, { st := 1, part := 0, depth := 4, homeSet := true })] } }
theorem test_ContextCommandsAndErrlogRead_2 : chk two (.cmdCtxClose (msg 4 5)) (fun t => decide (t.answered (msg 4 5) stOK 0 [] ∧ (t.ctx 5).st = 0)) = true := by decide
theorem test_ContextCommandsAndErrlogRead_3 : two.takes (msg 4 5) = true ∧ two.canon := by decide
theorem test_ContextCommandsAndErrlogRead_4 : chk two (.cmdPortFailover (msg 0x907 3)) (fun t => decide (t.answered (msg 0x907 3) stOK 0 [] ∧ (t.ctx 5).home = 1)) = true := by decide
theorem test_ContextCommandsAndErrlogRead_5 : chk two (.cmdErrlogRead (msg 0x900 0 (zeros 8))) (fun t => decide (t.answered (msg 0x900 0 (zeros 8)) stOK 0 (zeros 8))) = true := by decide
end GW1

/-! ### Configuration space -/

namespace GW2
def rd : Msg := msg 0x100 (cfgBase + 0xE00) (leBytes 8 1)
theorem test_ConfigWordsReadAndWrite_1 : live.takes rd = true ∧ chk live (.cmdCfgRead rd) (fun t => decide (t.answered rd stOK 0 (leBytes 8 0x1003E8) ∧ t.cfg = live.cfg)) = true := by decide +kernel
theorem test_ConfigWordsReadAndWrite_2 : live.writesOne (wr 0xE00 0x20005) 0xE00 0x20005 = true ∧ live.canon ∧ chk live (.cmdCfgWrite (wr 0xE00 0x20005)) (fun t => decide (t.answered (wr 0xE00 0x20005) stOK 0 [] ∧ t.cfgGet 0xE00 = 0x20005 ∧ t.mem = live.mem)) = true := by decide +kernel
def nopart : Blk := { live with parts := [] }
theorem test_ConfigWordsReadAndWrite_3 : nopart.writesOne (wr 0x400 1) 0x400 1 = true ∧ nopart.canon ∧ chk nopart (.hbmMapWrite (wr 0x400 1)) (fun t => decide (t.answered (wr 0x400 1) stOK 0 [] ∧ t.cfgGet 0x400 = 1)) = true := by decide +kernel
def al : Blk := { live with board := { live.board with alerts := 0xE } }
theorem test_ConfigWordsReadAndWrite_4 : al.writesOne (wr 0xF10 0x406) 0xF10 0x406 = true ∧ chk al (.alertClear (wr 0xF10 0x406)) (fun t => decide (t.answered (wr 0xF10 0x406) stOK 0 [] ∧ t.board.alerts = 8 ∧ t.cfgGet 0xF10 = 0x400)) = true := by decide +kernel
def tb : Blk := { live with hls := [(0, { ready := 1, slots := [(3, { st := 2, table := 5 })] })] }
theorem test_ConfigWordsReadAndWrite_5 : tb.writesOne (wr (cfgHL 0 + 0x1000 + 24) 0x1000) (cfgHL 0 + 0x1000 + 24) 0x1000 = true ∧ chk tb (.tableHoldWrite (wr (cfgHL 0 + 0x1000 + 24) 0x1000)) (fun t => decide (t.answered (wr (cfgHL 0 + 0x1000 + 24) 0x1000) stOK 0 [] ∧ (t.tab 0 3).hold = true ∧ (t.tab 0 3).st = 2)) = true := by decide +kernel
def w1 := wr (cfgCV 1 + 0x3800) 2
theorem test_TidepoolControlWrites_1 : live.writesOne w1 (cfgCV 1 + 0x3800) 2 = true ∧ chk live (.tpArbSet w1) (fun t => decide (t.answered w1 stOK 0 [] ∧ t.cfgGet (cfgCV 1 + 0x3800) = 2 ∧ t.coves = live.coves)) = true := by decide +kernel
def w2 := wr (cfgCV 1 + 0x3800) 4
theorem test_TidepoolControlWrites_2 : live.writesOne w2 (cfgCV 1 + 0x3800) 4 = true ∧ chk live (.tpCacheResize w2) (fun t => decide (t.answered w2 stOK 0 [] ∧ t.cachePortion 1 = 524288 ∧ (t.cove 1).cacheChanging = true)) = true := by decide +kernel
def w3 := wr (cfgCV 1 + 0x3808) 0xF7204310
theorem test_TidepoolControlWrites_3 : live.writesOne w3 (cfgCV 1 + 0x3808) 0xF7204310 = true ∧ chk live (.tpSlotmapWrite w3) (fun t => decide (t.answered w3 stOK 0 [] ∧ t.cfgGet (cfgCV 1 + 0x3808) = 0xF7204310)) = true := by decide +kernel
def w4 := wr (cfgCV 1 + 0x1000) 0
theorem test_TidepoolControlWrites_4 : live.writesOne w4 (cfgCV 1 + 0x1000) 0 = true ∧ chk live (.arrCtlWrite w4) (fun t => decide (t.answered w4 stOK 0 [] ∧ t.cfgGet (cfgCV 1 + 0x1000) = 0)) = true := by decide +kernel
def iw : Nat := 1 + 2*4 + 16 * 2^14 + 4 * 2^24 + 0x1000 * 2^35
def w5 := wr (cfgCV 1 + 0x3900 + 16 * 3) iw
theorem test_InboxAndRingWrites_1 : live.writesOne w5 (cfgCV 1 + 0x3900 + 16 * 3) iw = true ∧ isOk ((live.entered w5).inboxPut 1 3 iw) = true ∧ chk live (.tpInboxWrite w5) (fun t => decide (t.answered w5 stOK 0 [] ∧ (t.cove 1).inbox 3 = {word := iw, grant := 4} ∧ (t.cove 2).cred 0 = { valid := true, target := 1, inbox := 3, grant := 4, consumed := 0 })) = true := by decide +kernel
def rw : Nat := 1 + 2*2 + 8 * 2^5 + 2 * 2^18 + 4096 * 2^30
def rg : Blk := { live with coves := [(1, { rings := [(5, { timeout := 77 })] })] }
def w6 := wr (cfgCV 1 + 0x3A00 + 16 * 5) rw
theorem test_InboxAndRingWrites_2 : rg.writesOne w6 (cfgCV 1 + 0x3A00 + 16 * 5) rw = true ∧ isOk ((rg.entered w6).ringPut 1 5 rw 77) = true ∧ chk rg (.tpRingWrite w6) (fun t => decide (t.answered w6 stOK 0 [] ∧ (t.cove 1).ring 5 = {word := rw, timeout := 77} ∧ (t.cove 2).prodEnt 0 = { valid := true, owner := 1, ring := 5, tail := 0, credits := 8 })) = true := by decide +kernel
def w7 := wr (cfgCV 1 + 0x3008) 1
theorem test_GeneratorAndRegisterWrites_1 : live.writesOne w7 (cfgCV 1 + 0x3008) 1 = true ∧ chk live (.srReseed w7) (fun t => decide (t.answered w7 stOK 0 [] ∧ t.gen 1 3 = laneSeed 1 3)) = true := by decide +kernel
def w8 := wr (cfgCV 1 + 0x3108) (5 + 7 * 2^32)
theorem test_GeneratorAndRegisterWrites_2 : live.writesOne w8 (cfgCV 1 + 0x3108) (5 + 7 * 2^32) = true ∧ chk live (.srStateWrite w8) (fun t => decide (t.answered w8 stOK 0 [] ∧ t.gen 1 2 = 5 ∧ t.gen 1 3 = 7)) = true := by decide +kernel
def w9 := wr (cfgCV 1 + 0x108) 55
theorem test_GeneratorAndRegisterWrites_3 : live.writesOne w9 (cfgCV 1 + 0x108) 55 = true ∧ chk live (.seqSregWrite w9) (fun t => decide (t.answered w9 stOK 0 [] ∧ sreg (t.seq 1).sregs 1 = 55)) = true := by decide +kernel
end GW2

/-! ### Firmware, the Lighthouse and ports -/

namespace GW3
def rom : Blk := { live with dev := { svc := false }, parts := [] }
def fl : Msg := { msg 2 3 with flags := 4, bulk := [1#8, 2#8, 3#8] }
theorem test_FirmwareLoadsAndReports_1 : rom.takes fl = true ∧ chk rom (.cmdFwLoad fl) (fun t => decide (t.awaits fl ∧ t.fw.loader = some (0,0) ∧ t.fw.loading = fl.bulk)) = true := by decide +kernel
def rom2 : Blk := waiting fl { rom with fw := { loader := some (0, 0), loading := [1#8] } }
def cw (m : Msg) : Cmd := { m := m, started := true, queued := true }
theorem test_FirmwareLoadsAndReports_2 : rom2.onlyWaits (cw fl) = true := by decide +kernel
theorem test_FirmwareLoadsAndReports_3 : live.rests = true := by decide +kernel
def lc : Blk := { live with fw := { live.fw with certReady := true } }
def at' : Msg := msg 0x703 0 (zeros 32) 0
theorem test_FirmwareLoadsAndReports_4 : lc.takes at' = true := by decide +kernel
def fs : Msg := { msg 0x905 3 with flags := 4, bulk := [1#8, 2#8, 3#8] }
theorem test_FirmwareActivatesAndCoresRestart_1 : live.takes fs = true := by decide +kernel
def stg : Blk := { live with fw := { live.fw with staged := some {} } }
def fa : Msg := msg 0x906 0
theorem test_FirmwareActivatesAndCoresRestart_2 : stg.takes fa = true ∧ chk stg (.cmdFwActivate fa) (fun t => decide (t.awaits fa ∧ t.host.intakeStopped = true ∧ t.fw.activating = some (0,0))) = true := by decide +kernel
def act : Blk := waiting fa { stg with fw := { stg.fw with activating := some (0,0) }, host := { stg.host with intakeStopped := true } }
theorem test_FirmwareActivatesAndCoresRestart_3 : act.onlyWaits (cw fa) = true ∧ chk act .fwActivateTimeout (fun t => decide (t.answered fa stHWERROR 0 (stallBytes 0 0) ∧ t.host.intakeStopped = false ∧ t.fw.activating = none ∧ t.fw.staged = some {})) = true := by decide +kernel
def ls : Msg := msg 0x904 3
theorem test_FirmwareActivatesAndCoresRestart_4 : live.takes ls = true ∧ chk live (.cmdLhSpare ls) (fun t => decide (t.awaits ls ∧ t.host.intakeStopped = true ∧ t.cores.sparing = some (0,0))) = true := by decide +kernel
theorem test_FirmwareActivatesAndCoresRestart_5 : live.canon ∧ chk live (.lhMemUe 3) (fun t => decide (t.host.intakeStopped = true ∧ t.cfgGet (cfgLH + 8) = 1 ∧ t.cores.lastRestart = [(3, 0)] ∧ t.err.next = 1)) = true := by decide +kernel
def nopBody : List Byte := [3, 0] ++ zeros 30
def fr : List Byte := let x := [1, 0, 0, 0] ++ zeros 4 ++ leBytes 4 32 ++ zeros 4 ++ nopBody; x ++ leBytes 4 (crc32 x)
theorem test_FramesArrive_1 : frameIntact fr = true ∧ leAt fr 0 1 = 1 ∧ leAt fr 8 4 = 32 ∧ leAt fr 4 4 = 0 := by decide +kernel
theorem test_FramesArrive_2 : chk live (.beaconFrameRx 0 fr) (fun t => decide (t = ((live.setPort 0 { live.port 0 with rxNext := 1 }).arrive (msgOf 0 nopBody)).pump)) = true := by decide +kernel
def blkc : Cmd := { m := { fs with bulk := [] }, queued := true }
def bw : Blk := { live with host := { live.host with cmds := [blkc] } }
def bf : List Byte := zeros 16 ++ [7#8]
theorem test_FramesArrive_3 : Cmd.dataIn { blkc with got := blkc.got ++ bf.drop 16 } = false ∧ chk bw (.bulkFrameRx 0 bf) (fun t => decide (t.host.cmds = [{ blkc with got := [7#8] }])) = true := by decide +kernel
theorem test_PortsFailAndTrain_1 : chk live (.beaconResendTimeout 0) (fun t => decide (t.host = live.host ∧ t.cfgGet 0x118 = 0)) = true := by decide +kernel
def lv2 : Blk := { live with host := { live.host with portA := { live.host.portA with lanes := 0xF }, portB := { up := true, trained := true, lanes := 0xF }, ctxs := [(0, { st := 1, homeSet := true, failover := true })] } }
theorem test_PortsFailAndTrain_2 : chk lv2 (.beaconLaneLoss 0 2) (fun t => decide ((t.port 0).up = false ∧ (t.port 0).lanes = 11)) = true := by decide +kernel
theorem test_PortsFailAndTrain_3 : chk lv2 (.beaconPortDown 0) (fun t => decide ((t.port 0).up = false ∧ t.homeOf 0 = 1 ∧ (t.ctx 0).st = 1)) = true := by decide +kernel
theorem test_PortsFailAndTrain_4 : chk live (.beaconPortTrained 1) (fun t => decide ((t.port 1).up = true ∧ (t.port 1).txBuf.head? = some (0, eventFrame evREADY 0 0 0 (readyBytes 0 1 0)))) = true := by decide +kernel
end GW3

/-! ### Programs, spans and the watch -/

namespace GW4
def nopImg : Nat := 0
def pl : Msg := msg 0x200 (3 + 2 * 2^16) (leBytes 8 0x100 ++ leBytes 8 2) 0
theorem test_ProgramsLoadAndStart_1 : liveH.takes pl = true ∧ liveH.covesFree pl 3 2 = true ∧ imageFault (liveH.imageOf 3 0x100 2) = none ∧
  chk liveH (.cmdProgLoad pl) (fun t => decide (t.answered pl stOK 0 [] ∧ (t.seq 4).count = 2 ∧ (t.seq 4).st = 0)) = true := by decide +kernel
def lp : Blk := { liveH with coves := [(3, { seq := { count := 2 } })] }
def ps : Msg := msg 0x201 (3 + 1 * 2^16) (leBytes 8 1 ++ leBytes 8 6 ++ leBytes 8 77 ++ leBytes 8 88 ++ zeros (29 * 8)) 0
theorem test_ProgramsLoadAndStart_2 : lp.takes ps = true ∧ lp.covesFree ps 3 1 = true ∧ chk lp (.cmdProgStart ps) (fun t => decide (t.awaits ps ∧ t.coves = lp.coves)) = true := by decide +kernel
def wt (c : Cmd) (b : Blk) : Blk := { b with host := { b.host with cmds := [c] } }
def psC : Cmd := { m := ps, started := true, vars := [400] }
theorem test_ProgramsRunAndEnd_1 : (wt psC lp).canon ∧ chk (wt psC lp) (.progStartInstant 0 0) (fun t => decide (t.tide = 400 ∧ (t.seq 3).st = 1 ∧ (t.seq 3).pc = 1 ∧ sreg (t.seq 3).sregs 1 = 77 ∧ sreg (t.seq 3).sregs 2 = 88 ∧ sreg (t.seq 3).sregs 3 = 0)) = true := by decide +kernel
def psD : Cmd := { m := ps, started := true, vars := [400, 1] }
theorem test_ProgramsRunAndEnd_2 : (wt psD lp).onlyWaits psD = true ∧ chk (wt psD lp) (.progStartComplete 0 0) (fun t => decide (t.answered ps stOK 0 (({} : ExitRec).bytes 3 false) ∧ t.host.cmds = [])) = true := by decide +kernel
def run1 : Blk := { liveH with coves := [(3, { seq := { count := 2, st := 1, pc := 1 } })] }
def pst : Msg := msg 0x202 (3 + 1 * 2^16) [] 0
theorem test_ProgramsRunAndEnd_3 : run1.takes pst = true ∧ run1.covesOk 0 [3] = true ∧ run1.covesReady [3] = none ∧ chk run1 (.cmdProgStop pst) (fun t => decide (t.answered pst stOK 0 [] ∧ (t.seq 3).st = 5 ∧ (t.seq 3).exit.index = 1)) = true := by decide +kernel
def so : Msg := msg 0x203 2 (leBytes 8 (3 + 2 * 2^16) ++ leBytes 8 1) 0
theorem test_SpansOpenAndClose_1 : liveH.takes so = true ∧ liveH.spanFault 0 so.payload = none ∧ chk liveH (.cmdSpanOpen so) (fun t => decide (t.answered so stOK 0 [] ∧ (t.span 0 2).opened = true ∧ (t.span 0 2).count = 2 ∧ (t.cove 4).checkpoint = liveH.gens 4)) = true := by decide +kernel
def sp1 : Blk := { liveH with spans := [(2, { opened := true, ctx := 0, first := 3, count := 2, cap := 1 })] }
def sc : Msg := msg 0x204 2 [] 0
theorem test_SpansOpenAndClose_2 : sp1.takes sc = true ∧ chk sp1 (.cmdSpanClose sc) (fun t => decide (t.awaits sc ∧ t.span 0 2 = { sp1.span 0 2 with closing := some 0 })) = true := by decide +kernel
def ws : Msg := msg 0x205 7 (leBytes 8 0x0000000208101041 ++ zeros 24) 0
def wctl : Nat := 1 + 4 * 2^4 + 0x10 * 2^8 + 0x10 * 2^16 + 3 * 2^24 + 5 * 2^32
def ws2 : Msg := msg 0x205 7 (leBytes 8 wctl ++ zeros 24) 0
theorem test_SpansOpenAndClose_3 : liveH.takes ws2 = true ∧ liveH.canon ∧ liveH.watchFault 0 wctl 0 0 0 = none ∧ chk liveH (.cmdWatchSet ws2) (fun t => decide (t.answered ws2 stOK 0 [] ∧ (t.watch 0 7).ctl = wctl ∧ (t.watch 0 7).warmLeft = 3)) = true := by decide +kernel
def scC : Cmd := { m := sc, started := true, queued := true }
def sp2 : Blk := wt scC { liveH with spans := [(2, { opened := true, ctx := 0, first := 3, count := 2, cap := 1, closing := some 0 })] }
theorem test_SpansCommitAndReplay_1 : sp2.still = true ∧ chk sp2 (.spanCommitPoint 0 2) (fun t => decide ((t.span 0 2).phase = 2 ∧ t.host.cmds = [{ scC with vars := [0] }])) = true := by decide +kernel
def src := tpAddr 3 0x100
def dst := tpAddr 3 0x200
def sp3 : Blk := wt { scC with vars := [5] } { liveH with mem := [(src, 9#8)], spans := [(2, { opened := true, ctx := 0, first := 3, count := 2, cap := 1, closing := some 0, phase := 2, outputs := [(src, dst, 2)] })] }
theorem test_SpansCommitAndReplay_2 : sp3.still = true ∧ sp3.rangeUe src 2 = none ∧ chk sp3 (.spanStagingCopyDone 0 2) (fun t => decide (t.mem = [(src, 9#8), (dst, 9#8)] ∧ t.spans = [] ∧ t.host.cmds = [] ∧
  (t.ctx 0).replies.getLast? = some (0, msgBytes 0x204 0 true false 0 stOK 0 5 []))) = true := by decide +kernel
def sp4 : Blk := { liveH with coves := [(3, { checkpoint := List.range 64 }), (4, { checkpoint := List.range 64 })], spans := [(2, { opened := true, ctx := 0, first := 3, count := 2, cap := 1, phase := 1 })] }
theorem test_SpansCommitAndReplay_3 : sp4.rests = true ∧ sp4.canon ∧ sp4.spanDrained (sp4.span 0 2) = true ∧ chk sp4 (.replayDrained 0 2) (fun t => decide ((t.span 0 2).replays = 1 ∧ t.gen 4 7 = 7)) = true := by decide +kernel
def wb : Blk := { liveH with watches := [(7, { ctl := wctl, count := 5, sumsq := 100, maxlog := 3 })] }
theorem test_SampleCloses_1 : (wb.watch 0 7).samples = 5 ∧ ((wb.watch 0 7).judge (sampleNorm 100 (wb.watch 0 7).sl) (wb.watch 0 7).closeInd).surge = 0 ∧ chk wb (.watchSampleClose 0 7) (fun t => decide ((t.watch 0 7).closed = 1 ∧ (t.watch 0 7).init = true ∧ (t.watch 0 7).count = 0)) = true := by decide +kernel
end GW4

/-! ### Memory, descriptors, tables and caches -/

namespace GW5
def wt (c : Cmd) (b : Blk) : Blk := { b with host := { b.host with cmds := [c] } }
def tp3 : Nat := tpAddr 3 0x100
def mw : Msg := msg 0x300 tp3 (leBytes 8 0x1122) 0
theorem test_MemoryWritesAndReads_1 : liveH.takes mw = true ∧ liveH.globalStatus 0 tp3 8 = (0, 0) ∧ liveH.isLocal tp3 = true ∧ liveH.spanInput tp3 8 = false ∧ regionOf (gLocal tp3) = 1 ∧
  liveH.rangeLost tp3 8 = false ∧ chk liveH (.cmdMemWrite mw) (fun t => decide (t.answered mw stOK 0 [] ∧ t.mem = [(tp3, 0x22#8), (tp3 + 1, 0x11#8)])) = true := by decide +kernel
def mwh : Msg := msg 0x300 0x1000 (leBytes 8 0x1122) 0
theorem test_MemoryWritesAndReads_2 : liveH.takes mwh = true ∧ liveH.globalStatus 0 0x1000 8 = (0, 0) ∧ liveH.hbmHeld 0x1000 8 = none ∧ liveH.partialUe 0x1000 8 = none ∧
  liveH.rangeLost 0x1000 8 = false ∧ chk liveH (.cmdMemWrite mwh) (fun t => decide (t.answered mwh stOK 0 [] ∧ t.mem.length = 2)) = true := by decide +kernel
def lm : Blk := { liveH with mem := [(tp3, 9#8)] }
def mr : Msg := msg 0x301 tp3 (leBytes 8 4) 0
theorem test_MemoryWritesAndReads_3 : lm.takes mr = true ∧ lm.globalStatus 0 tp3 4 = (0, 0) ∧ lm.isLocal tp3 = true ∧ lm.rangeUe tp3 4 = none ∧ lm.rangeLost tp3 4 = false ∧ lm.homeOf 0 = 0 ∧ (lm.port 0).up = true ∧
  chk lm (.cmdMemRead mr) (fun t => decide (t.answered mr stOK 0 (leBytes 4 4 ++ zeros 4) ∧ (t.port 0).txBuf.any (fun q => q.2.body == leBytes 2 0 ++ zeros 2 ++ leBytes 4 0 ++ leBytes 8 0 ++ [9#8, 0#8, 0#8, 0#8]))) = true := by decide +kernel
def ds : Msg := msg 0x302 0 (leBytes 8 1 ++ zeros 120) 0
theorem test_DescriptorsQueueAndComplete_1 : liveH.takes ds = true ∧ liveH.covesOk 0 [0] = true ∧ liveH.hlReady (hlOf 0) = none ∧
  chk liveH (.cmdDmaSubmit ds) (fun t => decide (t.awaits ds ∧ (t.bay 0).descs.map (fun d => (d.queue, d.raw, d.part, d.running)) = [(16, leBytes 8 1 ++ zeros 56, 0, false), (16, zeros 64, 0, false)])) = true := by decide +kernel
def d1s : Msg := msg 0x302 0 (zeros 64) 0
def d1c : Cmd := { m := d1s, started := true, queued := true, vars := [1], bytes := zeros 8 }
def dd : Desc := { serial := 5, queue := 16, raw := leBytes 1 1 ++ zeros 63, cove := 0xFFFF, part := 0, origin := .cmd 0 0 0, running := true, out := some (0, 0, 77) }
def ddB : Blk := wt d1c { liveH with bays := [(0, { descs := [dd] })] }
theorem test_DescriptorsQueueAndComplete_2 : ({ ddB with bays := [] } : Blk).onlyWaits d1c = true ∧ dd.validates = false ∧ dd.op = 1 ∧ ddB.canon ∧
  chk ddB (.dmaDescriptorComplete 0 5) (fun t => decide (t.answered d1s stOK 0 (leBytes 4 0 ++ leBytes 4 77) ∧ t.host.cmds = [] ∧ (t.bay 0).descs = [] ∧ t.cfgGet (cfgBY 0 + 0xA08) = 1)) = true := by decide +kernel
def tb : Msg := msg 0x303 (0 + 5 * 256) (leBytes 8 tp3 ++ leBytes 8 4) 0
theorem test_TablesBuild_1 : liveH.takes tb = true ∧ liveH.partOfHl 0 = some 0 ∧ liveH.accessStatus 0 tp3 4 = (0, 0) ∧ (liveH.reserveTab 0 5).isSome = true ∧
  chk liveH (.cmdTableBuild tb) (fun t => decide (t.awaits tb ∧ (t.tab 0 0).st = 1 ∧ (t.tab 0 0).table = 5)) = true := by decide +kernel
def tbc : Cmd := { m := tb, started := true, queued := true, vars := [0] }
def tbB : Blk := wt tbc { liveH with mem := [(tp3, 9#8), (tp3 + 1, 9#8)], hls := [(0, { ready := 1, slots := [(0, { st := 1, table := 5, gen := 2 })] })] }
theorem test_TablesBuild_2 : tbB.onlyWaits tbc = true ∧ tbB.hbmHeld tp3 4 = none ∧ tbB.rangeUe tp3 4 = none ∧ tbB.curTab 0 5 = none ∧
  chk tbB (.tableBuildDone 0 0) (fun t => decide (t.answered tb stOK 0 (leBytes 8 (5 + 2 * 256)) ∧ (t.tab 0 0).st = 2)) = true := by decide +kernel
def ci : Msg := msg 0x304 (3 + 1 * 2^16) [] 0
def ciB : Blk := { liveH with coves := [(3, { lines := [(0, { valid := true, tag := 7 })] })] }
theorem test_CacheAndSpeculationCommands_1 : ciB.takes ci = true ∧ ciB.covesFree ci 3 1 = true ∧ ciB.canon ∧ chk ciB (.cmdCacheInvalidate ci) (fun t => decide (t.answered ci stOK 0 [] ∧ (t.cove 3).lines = [])) = true := by decide +kernel
def kvB : List Byte := leBytes 4 5 ++ leBytes 4 (2 + 2 ^ 23) ++ leBytes 4 0x10400 ++ leBytes 4 0x101 ++ leBytes 4 4 ++ leBytes 4 4 ++ leBytes 8 0x2000 ++ leBytes 8 0x3000 ++ leBytes 8 0x4000 ++ leBytes 8 0x5000 ++ leBytes 8 0x5100 ++ zeros 64
def kvS : Blk := liveH.hbmWrite 0 0x1000 kvB
def spc : Msg := msg 0x402 0x1000 (leBytes 8 (1 + 2 ^ 23)) 0
def kvX : Except Stop (KvSeq × Kx) := kvOpen 0x1000 { b := kvS.entered spc, y := 0, d := { serial := 0, queue := 0, raw := [], cove := 0, part := 0, origin := .cmd 0 0 0 } }
theorem test_CacheAndSpeculationCommands_2 : kvS.takes spc = true ∧ kvS.hbmHeld 0x1000 128 = none ∧ kvS.canon ∧ kvS.keyMark 0 ≠ [] ∧ (match kvX with | .ok (q, _) => decide (1 ≤ q.tent ∧ q.epoch = 1 ∧ q.addr = 0x1000 ∧ q.len = 5) | _ => false) = true ∧
  ((kvS.entered spc).specCommit 0 0x1000 1 1).1 = stOK ∧
  chk kvS (.cmdSpecCommit spc) (fun t => decide (t.answered spc stOK 0 [] ∧ t.hbmRead 0 0x1000 8 = leBytes 8 (6 + (2 * 2 ^ 23 + 2 ^ 27) * 2 ^ 32))) = true := by decide +kernel
end GW5

/-! ### Instructions of the sequencer -/

namespace GW6
/-- Cove 3 at a word of its program -/
def tile (w : Nat) (sregs : List (Nat × Nat) := []) (x : Cove := {}) : Blk :=
  { liveH with coves := [(3, { x with seq := { x.seq with st := 1, count := 9, prog := [(0, w)], sregs := sregs } })] }
def op (o : Nat) : Nat := o * 2 ^ 120
def only (b t : Blk) : Bool := decide ({ b with coves := t.coves, cfg := t.cfg } = t) && decide ({ b.cove 3 with seq := t.seq 3 } = t.cove 3) && t.coves.all fun q => q.1 == 3
theorem test_RegisterInstructions_1 : (tile 0).canon ∧ (tile 0).comes 3 0 = true ∧ chk (tile 0) (.nop 3) (fun t => decide (t.seq 3 = ((tile 0).seq 3).did id) && only (tile 0) t) = true := by decide +kernel
def wSli : Nat := op 4 + 5 * 2 ^ 91 + 0x1234567890
theorem test_RegisterInstructions_2 : (tile wSli).comes 3 4 = true ∧ chk (tile wSli) (.sli 3) (fun t => only (tile wSli) t && decide (sreg (t.seq 3).sregs 5 = 0x1234567890 ∧ (t.seq 3).pc = 1)) = true := by decide +kernel
def wSli0 : Nat := op 4 + 7
theorem test_RegisterInstructions_3 : (tile wSli0 [(1, 8)]).comes 3 4 = true ∧ chk (tile wSli0 [(1, 8)]) (.sli 3) (fun t => decide ((t.seq 3).sregs = [(1, 8)] ∧ (t.seq 3).pc = 1)) = true := by decide +kernel
def wSop : Nat := op 5 + 5 * 2 ^ 91 + 1 * 2 ^ 86 + 2 * 2 ^ 81 + 0 * 2 ^ 77
theorem test_RegisterInstructions_4 : (tile wSop [(1, 2 ^ 64 - 1), (2, 5)]).comes 3 5 = true ∧ chk (tile wSop [(1, 2 ^ 64 - 1), (2, 5)]) (.sop 3) (fun t => only (tile wSop [(1, 2 ^ 64 - 1), (2, 5)]) t && decide (sreg (t.seq 3).sregs 5 = sopFn 0 (2 ^ 64 - 1) 5)) = true := by decide +kernel
def wScmp : Nat := op 6 + 3 * 2 ^ 93 + 1 * 2 ^ 88 + 1 * 2 ^ 79 + 8 * 2 ^ 47
theorem test_RegisterInstructions_5 : (tile wScmp [(1, 8)]).comes 3 6 = true ∧ chk (tile wScmp [(1, 8)]) (.scmp 3) (fun t => only (tile wScmp [(1, 8)]) t && decide (tbit (t.seq 3).preds 3 = ccFn 0 8 8)) = true := by decide +kernel
def wSget (sel : Nat) : Nat := op 9 + 5 * 2 ^ 91 + sel * 2 ^ 87
theorem test_RegisterInstructions_6 : ∀ sel, sel < 5 → (tile (wSget sel)).comes 3 9 = true ∧ chk { tile (wSget sel) with tide := 77 } (.sget 3) (fun t => decide (sreg (t.seq 3).sregs 5 = nth [3, 0, 77, 0, 0] sel 0)) = true := by decide +kernel
theorem test_ControlInstructions_1 : (tile (op 2 + 7 * 2 ^ 86)).comes 3 2 = true ∧ chk (tile (op 2 + 7 * 2 ^ 86)) (.br 3) (fun t => only (tile (op 2 + 7 * 2 ^ 86)) t && decide ((t.seq 3).pc = 7)) = true := by decide +kernel
def wLoop : Nat := op 3 + 2 * 2 ^ 94 + 6 * 2 ^ 77 + 4 * 2 ^ 67
theorem test_ControlInstructions_2 : (tile wLoop).comes 3 3 = true ∧ chk (tile wLoop) (.loop 3) (fun t => only (tile wLoop) t && decide ((t.seq 3).pc = 1 ∧ (t.seq 3).lreg 2 = 6 ∧ (t.seq 3).loops = [(2, 1, 4)])) = true := by decide +kernel
def wLoopR : Nat := op 3 + 2 * 2 ^ 94 + 2 ^ 93 + 1 * 2 ^ 77 + 4 * 2 ^ 67
theorem test_ControlInstructions_3 : (tile wLoopR).comes 3 3 = true ∧ chk (tile wLoopR) (.loop 3) (fun t => only (tile wLoopR) t && decide ((t.seq 3).pc = 5 ∧ (t.seq 3).loops = [])) = true := by decide +kernel
def wGuard : Nat := 2 ^ 107 + 2 * 2 ^ 104
theorem test_ControlInstructions_4 : (tile wGuard).canIssue 3 = true ∧ ((tile wGuard).seq 3).guardOk wGuard = false ∧ chk (tile wGuard) (.nop 3) (fun t => only (tile wGuard) t && decide (t.seq 3 = ((tile wGuard).seq 3).next)) = true := by decide +kernel
theorem test_ControlInstructions_5 : (tile (op 1)).comes 3 1 = true ∧ chk (tile (op 1)) (.halt 3) (fun t => only (tile (op 1)) t && decide ((t.seq 3).st = 3 ∧ (t.seq 3).exit = { state := 3, issued := 1, tide := 0, flags := (t.seq 3).exit.flags })) = true := by decide +kernel
def runoff : Blk := { liveH with coves := [(3, { seq := { st := 1, count := 2, pc := 2 } })] }
theorem test_ControlInstructions_6 : runoff.canIssue 3 = true ∧ chk runoff (.programRunoff 3) (fun t => only runoff t && decide ((t.seq 3).st = 4 ∧ (t.seq 3).exit.st = stFORMAT ∧ (t.seq 3).exit.det = 0xD002 ∧ (t.seq 3).exit.index = 2)) = true := by decide +kernel
def wSld : Nat := op 7 + 5 * 2 ^ 86 + 0x100 * 2 ^ 64
def sldB : Blk := { tile wSld with mem := [(tpAddr 3 0x101, 2#8)] }
theorem test_TidepoolWordInstructions_1 : sldB.canon ∧ xaddr wSld [] 85 64 = 0x100 ∧ 0x108 ≤ sldB.progEnd 3 ∧ sldB.comes 3 7 = true ∧ chk sldB (.sld 3) (fun t => decide (t.mem = sldB.mem ∧ sreg (t.seq 3).sregs 5 = 0x200 ∧ (t.seq 3).pc = 1)) = true := by decide +kernel
def wSst : Nat := op 8 + 5 * 2 ^ 86 + 0x100 * 2 ^ 64
theorem test_TidepoolWordInstructions_2 : (tile wSst [(5, 0x203)]).comes 3 8 = true ∧ chk (tile wSst [(5, 0x203)]) (.sst 3) (fun t => decide (t.mem = [(tpAddr 3 0x100, 3#8), (tpAddr 3 0x101, 2#8)] ∧ t.seq 3 = ((tile wSst [(5, 0x203)]).seq 3).did id)) = true := by decide +kernel
theorem test_WaitingInstructions_1 : (tile (op 0x81)).comes 3 0x81 = true ∧ chk (tile (op 0x81)) (.wait 3) (fun t => only (tile (op 0x81)) t && decide (t.seq 3 = ((tile (op 0x81)).seq 3).did id)) = true := by decide +kernel
theorem test_WaitingInstructions_2 : (tile (op 0x61)).comes 3 0x61 = true ∧ chk (tile (op 0x61)) (.dmaw 3) (fun t => only (tile (op 0x61)) t && decide (t.seq 3 = ((tile (op 0x61)).seq 3).did id)) = true := by decide +kernel
def wTw : Nat := op 0x82 + 5 * 2 ^ 91
def twB : Blk := tile wTw [(5, 9)]
theorem test_WaitingInstructions_3 : twB.comes 3 0x82 = true ∧ chk twB (.twait 3) (fun t => only twB t && decide (t.seq 3 = { twB.seq 3 with hold := .twait 9 })) = true ∧
  chk { twB with tide := 9 } (.twait 3) (fun t => decide (t.seq 3 = (twB.seq 3).did id)) = true := by decide +kernel
def twH : Blk := tile wTw [(5, 9)] { seq := { hold := .twait 9 } }
theorem test_WaitingInstructions_4 : (twH.seq 3).hold = .twait 9 ∧ chk twH (.twaitRelease 3) (fun t => decide (t.tide = 9 ∧ t.seq 3 = ({ twH.seq 3 with hold := .none } : Seq).did id)) = true := by decide +kernel
def wBar : Nat := op 0x80 + 4 * 2 ^ 90 + 2 * 2 ^ 77
theorem test_WaitingInstructions_5 : (tile wBar).comes 3 0x80 = true ∧ 2 ≤ ((tile wBar).scopeOf 3 0).2 ∧ chk (tile wBar) (.bar 3) (fun t => decide ((t.seq 3).hold = .bar 0 ((tile wBar).scopeOf 3 0).1 4 ∧
  t.barrier (barKey 0 ((tile wBar).scopeOf 3 0).1 4) = { k := 2, arrived := [3] })) = true := by decide +kernel
def barB : Blk := { liveH with coves := [(3, { seq := { st := 1, count := 9, prog := [(0, wBar)], hold := .bar 0 0 4 } }), (4, { seq := { st := 1, count := 9, prog := [(0, wBar)], hold := .bar 0 0 4 } })], barriers := [(barKey 0 0 4, { k := 2, arrived := [3, 4], due := true })] }
theorem test_WaitingInstructions_6 : (barB.barrier (barKey 0 0 4)).due = true ∧ chk barB (.barRelease 0 0 4) (fun t => decide (t.barrier (barKey 0 0 4) = { gen := 1 } ∧ t.seq 4 = ({ barB.seq 4 with hold := .none } : Seq).did id)) = true := by decide +kernel
end GW6

/-! ### Unit instructions -/

namespace GW7
def tile (w : Nat) (sregs : List (Nat × Nat) := []) (x : Cove := {}) : Blk :=
  { liveH with coves := [(3, { x with seq := { x.seq with st := 1, count := 9, prog := [(0, w)], sregs := sregs } })] }
def wf2 (o a b : Nat) : Nat := o * 2 ^ 120 + a * 2 ^ 112 + b * 2 ^ 108
def unitOk (b : Blk) (i : Instr) : Bool :=
  let w := (b.seq 3).word
  b.comes 3 (wOpcode w) && b.unitFree 3 && chk b i fun t =>
    let r := (b.unitBegins 3).runUnit 3 w (b.seq 3).sregs
    decide (t = r.1.begun 3 (b.unitEntry 3) (some r.2)) && (t.seq 3).inflight.length == 1
theorem test_UnitInstructionsRun_1 : unitOk (tile (wf2 0x11 4 0) [] { slotA := { st := 2, n := 3 } }) (.macc 3) = true := by decide +kernel
theorem test_UnitInstructionsRun_2 : unitOk (tile (wf2 0x12 5 0) [] { slotA := { st := 2, n := 4, layout := 3 } }) (.ripple 3) = true := by decide +kernel
theorem test_UnitInstructionsRun_3 : unitOk (tile (wf2 0x13 3 0) [] { slotA := { st := 2, n := 8, layout := 4 } }) (.binacc 3) = true := by decide +kernel
def plB : Blk := tile (wf2 0x14 4 1)
theorem test_UnitInstructionsRun_4 : plB.comes 3 0x14 = true ∧ plB.unitFree 3 = true ∧ chk plB (.planex 3) (fun t => decide ((t.seq 3).pc = 1)) = true := by decide +kernel
theorem test_UnitInstructionsRun_5 : unitOk (tile (wf2 0x20 0 0)) (.aclr 3) = true := by decide +kernel
theorem test_UnitInstructionsRun_6 : unitOk (tile (wf2 0x21 0 0)) (.acvt 3) = true := by decide +kernel
theorem test_UnitInstructionsRun_7 : unitOk (tile (wf2 0x22 0 0)) (.aread 3) = true := by decide +kernel
def wv (o : Nat) : Nat := wf2 o 0xC 0xC + 2 * 2 ^ 2
theorem test_UnitInstructionsRun_8 : unitOk (tile (wv 0x30) [(2, 1)]) (.vew 3) = true := by decide +kernel
theorem test_UnitInstructionsRun_9 : unitOk (tile (wv 0x31) [(2, 1)]) (.vfn 3) = true := by decide +kernel
theorem test_UnitInstructionsRun_10 : unitOk (tile (wv 0x32) [(2, 1)]) (.vred 3) = true := by decide +kernel
theorem test_UnitInstructionsRun_11 : unitOk (tile (wv 0x33) [(2, 1)]) (.vcvt 3) = true := by decide +kernel
theorem test_UnitInstructionsRun_12 : unitOk (tile (wv 0x34) [(2, 1)]) (.vopt 3) = true := by decide +kernel
theorem test_UnitInstructionsRun_13 : unitOk (tile (wf2 0x40 0 0)) (.tmov 3) = true := by decide +kernel
theorem test_UnitInstructionsRun_14 : unitOk (tile (wf2 0x41 0 0)) (.tstr 3) = true := by decide +kernel
theorem test_UnitInstructionsRun_15 : unitOk (tile (wf2 0x42 0 0 + 64 * 2 ^ 15)) (.ttrn 3) = true := by decide +kernel
theorem test_UnitInstructionsRun_16 : unitOk (tile (wf2 0x43 0 0 + 3 * 2 ^ 61)) (.tput 3) = true := by decide +kernel
theorem test_UnitInstructionsRun_17 : unitOk (tile (wf2 0x44 0 0 + 3 * 2 ^ 61)) (.tget 3) = true := by decide +kernel
theorem test_UnitInstructionsRun_18 : unitOk (tile (wf2 0x62 0xB 0xC)) (.cmm 3) = true := by decide +kernel
theorem test_UnitInstructionsRun_19 : unitOk (tile (wf2 0x70 0 0)) (.metaCheck 3) = true := by decide +kernel
theorem test_UnitInstructionsRun_20 : unitOk (tile (wf2 0x73 0 0)) (.merge 3) = true := by decide +kernel
theorem test_UnitInstructionsRun_21 : unitOk (tile (wf2 0x71 0 0)) (.spmatchLoad 3) = true := by decide +kernel
theorem test_UnitInstructionsRun_22 : unitOk (tile (wf2 0x71 0 0 + 2 ^ 68)) (.spmatchProbe 3) = true := by decide +kernel
def sk (k : Nat) : Blk := { tile (wf2 0x72 0 0) with mem := [(tpAddr 3 0, BitVec.ofNat 8 k)] }
theorem test_UnitInstructionsRun_23 : (sk 4).scatterKind 3 (wf2 0x72 0 0) = 4 ∧ unitOk (sk 1) (.scatterAccum 3) = true ∧ unitOk (sk 2) (.scatterFlush 3) = true ∧ unitOk (sk 3) (.scatterClear 3) = true ∧
  unitOk (sk 4) (.scatterExpand 3) = true ∧ unitOk (sk 5) (.predict 3) = true ∧ unitOk (sk 6) (.tally 3) = true := by decide +kernel
end GW7

/-! ### Loads, rings, spills and HBM -/

namespace GW8
def tile (w : Nat) (sregs : List (Nat × Nat) := []) (x : Cove := {}) : Blk :=
  { liveH with coves := [(3, { x with seq := { x.seq with st := 1, count := 9, prog := [(0, w)], sregs := sregs } })] }
def wf2 (o a b : Nat) : Nat := o * 2 ^ 120 + a * 2 ^ 112 + b * 2 ^ 108
def ent (q w : Nat) (started : Bool) (done : Option Done) : Entry := { serial := 0, index := 0, queue := q, word := w, regs := [], rd := [], wr := [], started := started, done := done }
/-- Cove 3 in RUN with one entry -/
def fly (e : Entry) (x : Cove := {}) (st : Nat := 1) : Blk := { liveH with coves := [(3, { x with seq := { x.seq with st := st, count := 9, pc := 1, nextSerial := 1, inflight := [e] } })] }
def wl : Nat := wf2 0x10 0 0 + 3 * 2 ^ 81
theorem test_LoadsAndCompletions_1 : (tile wl).comes 3 0x10 = true ∧ (tile wl).unitFree 3 = true ∧ wlN wl = 3 ∧ chk (tile wl) (.wload 3) (fun t => decide (((t.cove 3).slot 0).st = 1 ∧ ((t.cove 3).slot 0).layout = 0 ∧ (t.seq 3).inflight = [{ (tile wl).unitEntry 3 with started := true }] ∧ t.mem = [])) = true := by decide +kernel
def wle : Entry := ent 0 wl true none
theorem test_LoadsAndCompletions_2 : chk (fly wle { slotA := { st := 1, n := 3 } }) (.wloadFillDone 3 0) (fun t => decide ((t.cove 3).slot 0 = { st := 2, n := 3 } ∧ (t.seq 3).inflight = [{ wle with done := some okDone }])) = true := by decide +kernel
theorem test_LoadsAndCompletions_3 : chk (fly wle { slotA := { st := 1, n := 3, bad := some 7 } }) (.wloadFillDone 3 0) (fun t => decide ((t.cove 3).slot 0 = { st := 0, n := 3 } ∧ (t.seq 3).inflight = [{ wle with done := some (fault stFORMAT 7) }])) = true := by decide +kernel
def dq : Nat := wf2 0x60 0 0 + 0x100 * 2 ^ 69 + 2 * 2 ^ 58
def dqB : Blk := { tile dq with mem := [(tpAddr 3 0x100, 1#8)] }
theorem test_LoadsAndCompletions_4 : dqB.comes 3 0x60 = true ∧ dqB.unitFree 3 = true ∧ 2 ≤ dqB.dmaRoom 3 ∧ chk dqB (.dmaq 3) (fun t => decide ((t.bay 0).descs.map Desc.raw = [[1#8] ++ zeros 63, zeros 64] ∧ (t.seq 3).inflight = [{ dqB.unitEntry 3 with started := true, fed := 2 }])) = true := by decide +kernel
def cw : Nat := wf2 0x30 0 0 + 2 ^ 102
theorem test_LoadsAndCompletions_5 : chk (fly (ent 3 cw true (some (fault stFORMAT 7)))) (.unitInstrComplete 3 3) (fun t => decide ((t.seq 3).inflight = [] ∧ (t.seq 3).st = 1 ∧ (t.seq 3).cont = contWord stFORMAT 7 0 (fault stFORMAT 7).rows ∧ tbit (t.seq 3).preds 7 = false)) = true := by decide +kernel
theorem test_LoadsAndCompletions_6 : chk (fly (ent 3 (wf2 0x30 0 0) true (some okDone))) (.unitInstrComplete 3 3) (fun t => decide ((t.seq 3).inflight = [] ∧ (t.seq 3).st = 1 ∧ (t.seq 3).cont = 0)) = true := by decide +kernel
theorem test_LoadsAndCompletions_7 : chk (fly (ent 3 (wf2 0x30 0 0) true (some (fault stFORMAT 7)))) (.unitInstrComplete 3 3) (fun t => decide ((t.seq 3).inflight = [] ∧ (t.seq 3).st = 4 ∧ (t.seq 3).exit.st = stFORMAT ∧ (t.seq 3).exit.det = 7)) = true := by decide +kernel
def rw : Nat := 1 + 8 * 2 ^ 5 + 3 * 2 ^ 18 + 0x1000 * 2 ^ 30
def rput : Nat := wf2 0x50 0 0 + 2 * 2 ^ 85 + 4 * 2 ^ 73 + 0x100 * 2 ^ 51 + 4 * 2 ^ 31
def rpB : Blk := { liveH with mem := [(tpAddr 3 0x100, 7#8)], coves := [(3, { seq := { st := 1, count := 9, prog := [(0, rput)] }, prods := [(5, { valid := true, owner := 4, ring := 2, tail := 1, credits := 2 })] }), (4, { rings := [(2, { word := rw })] })] }
theorem test_RingInstructions_1 : rpB.comes 3 0x50 = true ∧ rpB.unitFree 3 = true ∧ rpB.prodIdx 3 4 2 = some 5 ∧ chk rpB (.rput 3) (fun t => decide ((t.cove 3).prodEnt 5 = { valid := true, owner := 4, ring := 2, tail := 2, credits := 1 } ∧
  (t.cove 4).ring 2 = { word := rw, landing := [(1, [7#8, 0#8, 0#8, 0#8])] } ∧ t.mem = rpB.mem)) = true := by decide +kernel
def rfB : Blk := { liveH with coves := [(4, { rings := [(2, { word := rw, landing := [(1, [7#8])] })] })] }
theorem test_RingInstructions_2 : rfB.tpLost 4 = false ∧ chk rfB (.ringSlotFull 4 2) (fun t => decide ((t.cove 4).ring 2 = { word := rw, full := [1] } ∧ t.mem = [(tpAddr 4 0x1040, 7#8)])) = true := by decide +kernel
def rget : Nat := wf2 0x51 0 0 + 2 * 2 ^ 85 + 0x200 * 2 ^ 63 + 4 * 2 ^ 43
def rgB : Blk := { liveH with mem := [(tpAddr 4 0x1040, 7#8)], coves := [(4, { seq := { st := 1, count := 9, prog := [(0, rget)] }, rings := [(2, { word := rw, full := [1], head := 1 })] })] }
theorem test_RingInstructions_3 : rgB.comes 4 0x51 = true ∧ rgB.unitFree 4 = true ∧ chk rgB (.rget 4) (fun t => decide ((t.seq 4).inflight = [{ rgB.unitEntry 4 with started := true, done := some okDone }] ∧ t.tpRead 4 0x200 4 = [7#8, 0#8, 0#8, 0#8])) = true := by decide +kernel
def rge : Entry := ent 5 rget true (some okDone)
def rcB : Blk := { liveH with coves := [(4, { seq := { st := 1, count := 9, pc := 1, nextSerial := 1, inflight := [rge] }, rings := [(2, { word := rw, full := [1], head := 1 })] })] }
theorem test_RingInstructions_4 : chk rcB (.unitInstrComplete 4 5) (fun t => decide ((t.seq 4).inflight = [] ∧ (t.cove 4).ring 2 = { word := rw, head := 2, returning := 1 })) = true := by decide +kernel
def rtB : Blk := { liveH with coves := [(3, { prods := [(5, { valid := true, owner := 4, ring := 2, tail := 1, credits := 2 })] }), (4, { rings := [(2, { word := rw, returning := 1 })] })] }
theorem test_RingInstructions_5 : rtB.prodIdx 3 4 2 = some 5 ∧ chk rtB (.ringCreditReturn 4 2) (fun t => decide ((t.cove 4).ring 2 = { word := rw } ∧ ((t.cove 3).prodEnt 5).credits = 3)) = true := by decide +kernel
def rwe : Entry := ent 5 rget false none
def rwB : Blk := { liveH with coves := [(4, { seq := { st := 1, count := 9, pc := 1, nextSerial := 1, inflight := [rwe] }, rings := [(2, { word := rw, head := 1 })] })] }
theorem test_RingInstructions_6 : chk rwB (.ringWaitTimeout 4) (fun t => decide ((t.seq 4).inflight = [{ rwe with started := true, done := some (fault stRINGTIMEOUT) }])) = true := by decide +kernel
def ing : Ingress := { kind := .write, cove := 3, addr := 0x40, data := [5#8] }
theorem test_TidepoolEvents_1 : ingressFits ing = true ∧ liveH.tpLost 3 = false ∧ chk liveH (.tidepoolIngress ing) (fun t => decide (t.mem = [(tpAddr 3 0x40, 5#8)])) = true := by decide +kernel
def ingR : Ingress := { kind := .read, cove := 3, addr := 0x40, len := 8 }
theorem test_TidepoolEvents_2 : ingressFits ingR = true ∧ chk liveH (.tidepoolIngress ingR) (fun t => decide (t.mem = [])) = true := by decide +kernel
def ibw : Nat := 1 + 5 * 2 ^ 2 + 1 * 2 ^ 14 + 2 * 2 ^ 24 + (0x200 / 8) * 2 ^ 35
def ibB : Blk := { liveH with coves := [(3, { inboxes := [(1, { word := ibw, grant := 9 })] }), (5, { creds := [(6, { valid := true, target := 3, inbox := 1 })] })] }
theorem test_TidepoolEvents_3 : ((ibB.cove 3).inbox 1).gaddr = 0x200 ∧ ((ibB.cove 3).inbox 1).base = 0x1000 ∧ chk ibB (.grantWordWrite 3 1 12) (fun t => decide ((t.cove 3).inbox 1 = { word := ibw, grant := 12 } ∧ t.tpNat 3 0x200 8 = 12)) = true := by decide +kernel
theorem test_TidepoolEvents_4 : ibB.credIdx 0 5 3 1 = some 6 ∧ chk ibB (.grantUpdateArrive 3 1) (fun t => decide ((t.credAt 0 5 6).grant = 9)) = true := by decide +kernel
theorem test_TidepoolEvents_5 : chk { liveH with coves := [(3, { cacheChanging := true, lineClock := 4 })] } (.cacheChangeDone 3) (fun t => decide (t.cove 3 = { lineClock := 4 })) = true := by decide +kernel
def rcm : Msg := msg 0x801 (4 + 3 * 2 ^ 16)
def rcc : Cmd := { m := rcm, started := true, queued := true }
def clB : Blk := waiting rcm { liveH with coves := [(3, { clearing := true })] }
theorem test_TidepoolEvents_6 : clB.onlyWaits rcc = true ∧ chk clB (.coveClearingEnd 3) (fun t => decide (t.answered rcm stOK 0 [] ∧ t.host.cmds = [] ∧ (t.cove 3).clearing = false)) = true := by decide +kernel
def spw : Nat := 2 * 2 ^ 12 + 1 * 2 ^ 22
def spm : Msg := wr (spWord 3 0) spw
theorem test_SpillRings_1 : liveH.writesOne spm (spWord 3 0) spw = true ∧ fld spw 25 22 = 1 ∧ 0x2000 + 0x2000 ≤ liveH.progEnd 3 ∧ chk liveH (.spillCfgWrite spm) (fun t => decide (t.answered spm stOK 0 [] ∧ t.cfgGet (spWord 3 0) = spw)) = true := by decide +kernel
/-- a ring of 8 KiB at 0x2000, its buffer in HBM at 0x10000 of 1 MiB, half full -/
def sppB : Blk := { liveH with coves := [(3, { spill := { rfill := 4096 } })], cfg := [(spWord 3 0, spw), (spWord 3 1, 0x10000), (spWord 3 2, 2 ^ 20)] }
theorem test_SpillRings_2 : sppB.spillCanCopy 3 = true ∧ chk sppB (.spillHalfCopy 3) (fun t => decide ((t.cove 3).spill = { rfill := 4096, copying := true })) = true := by decide +kernel
def sp3w : Nat := 3 * 2 ^ 12
def sppC : Blk := { liveH with mem := [(tpAddr 3 0x3000, 7#8)], coves := [(3, { spill := { rfill := 2048, copying := true } })], cfg := [(spWord 3 0, sp3w), (spWord 3 1, 0x10000), (spWord 3 2, 2 ^ 20)] }
theorem test_SpillRings_3 : sppC.spillCanCopy 3 = true ∧ sppC.canon ∧ chk sppC (.spillHalfCopyDone 3) (fun t => decide ((t.cove 3).spill = { rhead := 2048 } ∧ t.cfgGet (spWord 3 3) = 2048)) = true := by decide +kernel
def acc1 : HbmAccess := { write := true, part := 0, addr := 0x2000, data := [5#8] }
theorem test_HbmAndBootEvents_1 : accFits acc1 = true ∧ liveH.hbmStopped acc1 1 = false ∧ liveH.hbmHeld 0x2000 1 = none ∧ chk liveH (.hbmAccess acc1) (fun t => decide (t = liveH.hbmWrite 0 0x2000 [5#8])) = true := by decide +kernel
def acc2 : HbmAccess := { write := false, part := 0, addr := 0x2000, len := 8 }
theorem test_HbmAndBootEvents_2 : accFits acc2 = true ∧ liveH.hbmStopped acc2 8 = false ∧ liveH.hbmHeld 0x2000 8 = none ∧ chk liveH (.hbmAccess acc2) (fun t => decide (t = liveH)) = true ∧
  chk liveH (.hbmParityError 2 acc2 0) (fun t => decide (t.cfgGet (cfgMC 2 + 0x18) = 1 ∧ t.err.next = 1 ∧ t.err.recs.map (fun r => (r.cls, r.kind, r.code, r.addr, r.detail)) = [(0, 4, 0x12, 0x2000, 1)])) = true := by decide +kernel
theorem test_HbmAndBootEvents_3 : chk liveH (.hbmTempReadout 2 90) (fun t => decide (t.stack 2 = { liveH.stack 2 with temp := 90 })) = true ∧ chk liveH (.hbmRefresh 2 7) (fun t => decide ((t.stack 2).hotRefresh = false)) = true ∧
  chk liveH (.hbmRfmRequest 2 7) (fun t => decide (t = liveH)) = true := by decide +kernel
def trB : Blk := { liveH with hbmStacks := [(2, { training := true })], hls := [] }
theorem test_HbmAndBootEvents_4 : trB.rests = true ∧ chk trB (.hbmStackTrained 2 false []) (fun t => decide (t.stack 2 = { ready := 1 } ∧ trB.leftOn t 0 (eventFrame evREADY 0 0 0 (readyBytes 2 2 0)))) = true ∧
  chk trB (.headlandSelftestDone 4 [] false) (fun t => decide ((t.hl 4).ready = 1 ∧ trB.leftOn t 0 (eventFrame evREADY 0 0 0 (readyBytes 4 4 0)))) = true := by decide +kernel
end GW8

/-! ### Transfers and serving operations -/

namespace GW9
/-- A descriptor of Cove 3 -/
def dsc (raw : List Byte) : Desc := { serial := 5, queue := 3, raw := raw ++ zeros (64 - raw.length), cove := 3, part := 0, origin := .cmd 0 0 0 }
def bd (d : Desc) (mem : List (Nat × Byte)) : Blk := { liveH with mem := mem, bays := [(0, { descs := [d] })] }
def cp (flags src dst len : Nat) : Desc := dsc (leBytes 1 1 ++ leBytes 1 flags ++ zeros 2 ++ leBytes 4 len ++ leBytes 8 src ++ leBytes 8 dst ++ leBytes 2 1 ++ leBytes 2 1)
def h1 : Blk := bd (cp 0 0x1000 0x2000 4) []
theorem test_TransfersRun_1 : h1.startable 0 3 = some (cp 0 0x1000 0x2000 4) ∧ (cp 0 0x1000 0x2000 4).fieldFault = none ∧ (cp 0 0x1000 0x2000 4).moveFault = none ∧ (cp 0 0x1000 0x2000 4).addrFault = none ∧
  h1.globalStatus 0 0x1000 4 = (0, 0) ∧ h1.globalStatus 0 0x2000 4 = (0, 0) ∧ h1.isLocal 0x1000 = true ∧ h1.isLocal 0x2000 = true ∧ h1.heldBy (cp 0 0x1000 0x2000 4) = none ∧ h1.spanInput 0x2000 4 = false ∧
  chk (h1.hbmWrite 0 0x1000 [5#8]) (.dmaCopy 0 3) (fun t => decide (t.hbmByte 0 0x2000 = 5#8 ∧ (t.bay 0).descs.map Desc.out = [some (0, 0, 4)])) = true := by decide +kernel
theorem test_TransfersRun_2 : let d := cp 0 0x1000 0x2000 0; (bd d []).startable 0 3 = some d ∧ d.fieldFault = none ∧ d.moveFault = none ∧ d.addrFault = none ∧ (bd d []).validateFault d = none ∧
  chk (bd d []) (.dmaCopy 0 3) (fun t => decide ((t.bay 0).descs.map Desc.out = [some (0, 0, 0)] ∧ t.mem = [])) = true := by decide +kernel
theorem test_TransfersRun_3 : let d := cp 8 0x1000 0x2000 0; (bd d []).startable 0 3 = some d ∧ d.fieldFault = none ∧ d.moveFault = none ∧ d.addrFault = none ∧ d.expands = true ∧
  chk (bd d []) (.dmaExpand 0 3) (fun t => decide ((t.bay 0).descs.map Desc.out = [some (0, 0, 0)] ∧ t.mem = [])) = true := by decide +kernel
theorem test_TransfersRun_4 : let d := cp 0x14 0x1000 0x2000 0; (bd d []).startable 0 3 = some d ∧ d.fieldFault = none ∧ d.moveFault = none ∧ d.addrFault = none ∧ d.compresses = true ∧ d.builds = true ∧
  chk (bd d []) (.dmaBuild 0 3) (fun t => decide ((t.bay 0).descs.map Desc.out = [some (0, 0, 0)] ∧ t.mem = [])) = true := by decide +kernel
theorem test_TransfersRun_5 : let d := cp 4 0x1000 0x2000 0; (bd d []).startable 0 3 = some d ∧ d.fieldFault = none ∧ isOk (match exec (.dmaCompress 0 3) (st (bd d [])) with | .next _ => Except.ok () | _ => .error ()) = true := by decide +kernel
def gat : Desc := dsc (leBytes 1 2 ++ zeros 7 ++ leBytes 8 0x1000 ++ leBytes 8 0x2000 ++ leBytes 2 0)
theorem test_TransfersRun_6 : (bd gat []).startable 0 3 = some gat ∧ gat.fieldFault = none ∧ isOk (match exec (.dmaGather 0 3) (st (bd gat [])) with | .next _ => Except.ok () | _ => .error ()) = true := by decide +kernel
/-- an operation with its parameter block of n words at 0x8000 -/
def opd (o n : Nat) : Desc := dsc (leBytes 1 o ++ zeros 3 ++ leBytes 4 (8 * n) ++ leBytes 8 0x8000)
def prm (ws : List Nat) : List Byte := ws.flatMap fun w => leBytes 8 w
def opB (d : Desc) (ws : List Nat) : Blk := (bd d []).hbmWrite 0 0x8000 (prm ws)
def opRun (b : Blk) (d : Desc) (p : K DescOut) : Option (DescOut × Bool) :=
  let d1 := { d with running := true }
  match p { b := (b.setBay 0 { b.bay 0 with lastQueue := 3 }).setDesc 0 d1, y := 0, d := d1 } with
  | .ok (o, k) => some (o, k.wr.isEmpty && k.far.isEmpty && !k.lost)
  | .error _ => none
def opOk (d : Desc) (ws : List Nat) (i : Instr) (p : K DescOut) : Bool :=
  let b := opB d ws
  decide (b.startable 0 3 = some d) && d.fieldFault.isNone && (match opRun b d p with
    | some (o, ok) => ok && chk b i (fun t => decide ((t.bay 0).descs.map Desc.out = [some o]))
    | none => false)
theorem test_ServingOperationsRun_1 : opOk (opd 0x10 6) [0, 0, 0, 0, 0, 0] (.kvAppend 0 3) kvAppend = true := by decide +kernel
theorem test_ServingOperationsRun_2 : opOk (opd 0x11 11) [0, 0, 0, 0, 0, 1, 0, 0, 0, 0, 0] (.kvGather 0 3) kvGather = true := by decide +kernel
theorem test_ServingOperationsRun_3 : opOk (opd 0x12 7) [0, 0, 0, 0, 0, 0, 0] (.kvFold 0 3) kvFold = true := by decide +kernel
theorem test_ServingOperationsRun_4 : opOk (opd 0x14 3) [0, 0, 0] (.kvShare 0 3) kvShare = true := by decide +kernel
theorem test_ServingOperationsRun_5 : opOk (opd 0x18 14) [0, 0, 0, 1, 1, 0, 0, 0, 0, 0, 4, 0, 0, 0] (.exRoute 0 3) exRoute = true := by decide +kernel
def kvB : List Byte := leBytes 4 5 ++ leBytes 4 (2 + 2 ^ 23) ++ leBytes 4 0x10400 ++ leBytes 4 0x101 ++ leBytes 4 4 ++ leBytes 4 4 ++ leBytes 8 0x2000 ++ leBytes 8 0x3000 ++ leBytes 8 0x4000 ++ leBytes 8 0x5000 ++ leBytes 8 0x5100 ++ zeros 64
def kcB : Blk := (opB (opd 0x13 3) [0x1000, 1, 1]).hbmWrite 0 0x1000 kvB
theorem test_ServingOperationsRun_6 : kcB.startable 0 3 = some (opd 0x13 3) ∧ (opRun kcB (opd 0x13 3) kvCommit).isSome = true ∧ chk kcB (.kvCommit 0 3) (fun t => decide ((t.bay 0).descs.map (fun d => d.out.isSome) = [true] ∧ t.hbmRead 0 0x1000 4 = leBytes 4 6)) = true := by decide +kernel
/-- the same with everything in the Tidepool of Cove 3, its parameter block at 0x8000 -/
def opt (o n : Nat) : Desc := dsc (leBytes 1 o ++ zeros 3 ++ leBytes 4 (8 * n) ++ leBytes 8 0x40000)
def runs (b : Blk) (d : Desc) (p : K DescOut) : Bool := decide (b.startable 0 3 = some d) && d.fieldFault.isNone && (match opRun b d p with | some (_, ok) => ok | none => false)
def i13B : Blk := bd (opt 0x19 18) [(262176, 1#8), (262186, 1#8), (262193, 16#8), (262194, 1#8), (262201, 16#8), (262209, 48#8), (262210, 1#8), (262216, 1#8), (262282, 2#8)]
theorem test_ServingOperationsRun_7 : runs i13B (opt 0x19 18) exPackForward = true := by decide +kernel
def i14B : Blk := bd (opt 0x19 10) [(262144, 1#8), (262176, 1#8), (262186, 1#8), (262193, 16#8), (262194, 1#8), (262201, 16#8), (262209, 48#8), (262210, 1#8), (262218, 5#8), (327682, 1#8), (327684, 1#8)]
theorem test_ServingOperationsRun_8 : runs i14B (opt 0x19 10) exPackReturn = true := by decide +kernel
def i15B : Blk := bd (opt 0x1b 3) [(262146, 5#8), (327682, 1#8), (327684, 1#8)]
theorem test_ServingOperationsRun_9 : runs i15B (opt 0x1b 3) exGroup = true := by decide +kernel
end GW9

/-! ### Operations that read a placement table -/

namespace GA2
def dsc (raw : List Byte) : Desc := { serial := 5, queue := 3, raw := raw ++ zeros (64 - raw.length), cove := 3, part := 0, origin := .cmd 0 0 0 }
def bd (d : Desc) (mem : List (Nat × Byte)) : Blk := { liveH with mem := mem, bays := [(0, { descs := [d] })] }
def opt (o n : Nat) : Desc := dsc (leBytes 1 o ++ zeros 3 ++ leBytes 4 (8 * n) ++ leBytes 8 0x40000)
theorem kbind {α β : Type} {x : K α} {f : α → K β} {k k' : Kx} {a : α} (h : x k = .ok (a, k')) : (x >>= f) k = f a k' := by
  show StateT.bind x f k = _
  simp only [StateT.bind, h]; rfl
theorem hbmRead_zeros (b : Blk) (p a n : Nat) (hk : b.unitKeys = []) (hz : b.zeroed = 0) (h : ∀ i, a ≤ i → i < a + n → b.peek i = 0#8) :
    b.hbmRead p a n = List.replicate n 0#8 := by
  induction n generalizing a with
  | zero => rfl
  | succ n ih =>
    have h0 : b.hbmByte p a = 0#8 := by
      simp [Blk.hbmByte, hk, hz, sget, tbit, h a (Nat.le_refl _) (by omega)]
    rw [Blk.hbmRead, h0, ih (a + 1) (fun i h1 h2 => h i (by omega) (by omega))]
    rfl
theorem wordsLe_zeros (n : Nat) : wordsLe (List.replicate (4 * n) 0#8) = List.replicate n 0 := by
  induction n with
  | zero => rfl
  | succ n ih =>
    show wordsLe (List.replicate (4 * n + 4) 0#8) = _
    simp only [List.replicate_succ, wordsLe, ih]; rfl
def gives {α : Type} [DecidableEq α] (r : Except Stop (α × Kx)) (a : α) (k : Kx) : Bool := match r with | .ok (x, k1) => decide (x = a ∧ k1 = k) | .error _ => false
theorem of_gives {α : Type} [DecidableEq α] {r : Except Stop (α × Kx)} {a : α} {k : Kx} (h : gives r a k = true) : r = .ok (a, k) := by
  match r, h with
  | .ok (x, k1), h => simp only [gives, decide_eq_true_eq] at h; rw [h.1, h.2]
def kx (b : Blk) (d : Desc) : Kx := { b := b, y := 0, d := { d with running := true } }
theorem peek_below (b : Blk) (i : Nat) (h : b.mem.all (fun q => decide (262144 ≤ q.1)) = true) (hi : i < 262144) : b.peek i = 0#8 := by
  unfold Blk.peek
  generalize b.mem = m at h
  induction m with
  | nil => rfl
  | cons q r ih =>
    simp only [List.all_cons, Bool.and_eq_true, decide_eq_true_eq] at h
    rw [sget, if_neg (by omega)]
    exact ih h.2
/-- A table of placements that holds only zeros, at 0x20000. -/
theorem placement_zeros (k : Kx) (hm : k.b.mem.all (fun q => decide (262144 ≤ q.1)) = true) (hk : k.b.unitKeys = []) (hz : k.b.zeroed = 0)
    (h1 : kArea 131072 32776 0 k = .ok ((), k)) (h2 : kNat 131072 8 k = .ok (0, k))
    (h3 : k.b.globalStatus k.d.part (k.b.globalOf 131080) 16384 = (0, 0)) (h4 : k.b.isLocal (k.b.globalOf 131080) = true)
    (h5 : gLocal (k.b.globalOf 131080) = 131080) (h6 : k.b.hbmHeld 131080 16384 = none) (h7 : k.b.rangeUe 131080 16384 = none) :
    exPlacement 0x20000 0 k = .ok (List.replicate 4096 0, k) := by
  have hr : kReadL 131080 16384 k = .ok (List.replicate (4 * 4096) 0#8, k) := by
    simp only [kReadL, kRead, h3, h4, h5, h6, h7]
    rw [show k.b.memRead k.d.part 131080 16384 = List.replicate (4 * 4096) 0#8 from by
      unfold Blk.memRead
      rw [if_pos (by decide)]
      exact hbmRead_zeros _ _ _ _ hk hz fun i _ h => peek_below _ _ hm (by omega)]
    rfl
  unfold exPlacement
  rw [kbind (x := kCheck _ _) (a := ()) (k' := k) rfl, kbind h1, kbind h2, kbind (x := kCheck _ _) (a := ()) (k' := k) rfl]
  rw [show (131072 + 8 + (if 0 < 0 / 2 ^ 32 then fld 0 0 0 else fld 0 1 1) * 16384) = 131080 from rfl]
  rw [kbind (x := kReadL _ _) (a := List.replicate (4 * 4096) 0#8) (k' := k) hr]
  simp only [wordsLe_zeros]
  rw [kbind (x := kCheck _ _) (a := ()) (k' := k)]
  · rfl
  · rw [show (List.replicate 4096 0).all (fun e => fld e 30 26 == 0) = true from by
      rw [List.all_eq_true]; intro e he; rw [List.eq_of_mem_replicate he]; rfl]
    rfl
def i13B : Blk := bd (opt 0x19 18) [(262176, 1#8), (262186, 1#8), (262193, 16#8), (262194, 1#8), (262201, 16#8), (262209, 48#8), (262210, 1#8), (262216, 1#8), (262282, 2#8)]
theorem p1 : exPlacement 0x20000 0 (kx i13B (opt 0x19 18)) = .ok (List.replicate 4096 0, kx i13B (opt 0x19 18)) :=
  placement_zeros _ (by decide +kernel) rfl rfl (of_gives (by decide +kernel)) (of_gives (by decide +kernel)) (by decide +kernel) (by decide +kernel) (by decide +kernel) (by decide +kernel) (by decide +kernel)
def ends (r : Except Stop (DescOut × Kx)) : Bool := match r with | .ok (_, k) => k.wr.isEmpty && k.far.isEmpty && !k.lost | .error _ => false
def kp : Kx := kx i13B (opt 0x19 18)
theorem test_ServingOperationsRun_10 : ends (exPackForward kp) = true := by
  unfold exPackForward
  rw [kbind (x := kParams 18) (a := [0, 0, 0, 0, 1, 0x10000, 0x11000, 0x1000, 0x13000, 1, 0,0,0,0,0,0,0,0x20000]) (k' := kp) (of_gives (by decide +kernel))]
  rw [kbind (x := kCheck _ _) (a := ()) (k' := kp) (of_gives (by decide +kernel)), kbind (x := exMembers _ _) (a := [0]) (k' := kp) (of_gives (by decide +kernel))]
  refine (congrArg ends (kbind (x := exPlacement 0x20000 0) p1)).trans ?_
  decide +kernel
def i16B : Blk := bd (opt 0x1A 18) [(262168, 1#8), (262178, 5#8), (262185, 16#8), (262186, 5#8), (262194, 2#8), (262264, 1#8), (262272, 1#8), (262281, 32#8), (262282, 5#8), (327682, 1#8), (327696, 64#8), (327700, 64#8), (331776, 64#8)]
def kc : Kx := kx i16B (opt 0x1A 18)
theorem q1 : exPlacement 0x20000 0 kc = .ok (List.replicate 4096 0, kc) :=
  placement_zeros _ (by decide +kernel) rfl rfl (of_gives (by decide +kernel)) (of_gives (by decide +kernel)) (by decide +kernel) (by decide +kernel) (by decide +kernel) (by decide +kernel) (by decide +kernel)
theorem nth_zeros (n e : Nat) : nth (List.replicate n 0) e 0 = 0 := by
  unfold nth; rw [List.getElem?_replicate]; split <;> rfl
def cw : List Nat := [0, 0, 0, 1, 0x50000, 0x51000, 0x20000, 0, 0, 0, 0, 0, 0, 0, 0, 1, 1, 0x52000]
def seg0 : ExSeg := exSegOf (zeros 2 ++ [1#8] ++ zeros 13 ++ [64#8] ++ zeros 3 ++ [64#8] ++ zeros 43) 0x50000
theorem test_ServingOperationsRun_11 : ends (exCollate kc) = true := by
  unfold exCollate
  rw [kbind (x := kParams 18) (a := cw) (k' := kc) (of_gives (by decide +kernel))]
  rw [kbind (x := kCheck _ _) (a := ()) (k' := kc) (of_gives (by decide +kernel)), kbind (x := kGet) (a := kc) (k' := kc) rfl]
  refine (congrArg ends (kbind (x := exPlacement 0x20000 0) q1)).trans ?_
  refine (congrArg ends (kbind (x := exReceive 0x50000 0x51000 1 0 0 0 0) (a := [seg0]) (k' := kc) (of_gives (by decide +kernel)))).trans ?_
  simp only [nth_zeros, show plValid 0 = false from rfl, Bool.false_and]
  rw [show (List.range 4096).filter (fun _ => false) = [] from List.filter_eq_nil_iff.mpr (by simp)]
  decide +kernel
def opd (o n : Nat) : Desc := dsc (leBytes 1 o ++ zeros 3 ++ leBytes 4 (8 * n) ++ leBytes 8 0x40000)
def i17B : Blk := bd (opt 0x1C 14) [(262168, 1#8), (262178, 5#8), (262185, 16#8), (262186, 5#8), (327682, 5#8), (327696, 64#8), (327700, 64#8), (331776, 64#8)]
theorem test_ServingOperationsRun_12 : ends (exCombine (kx i17B (opt 0x1C 14))) = true := by decide +kernel
theorem test_ServingOperationsRun_13 : i17B.startable 0 3 = some (opt 0x1C 14) ∧ (opt 0x1C 14).fieldFault = none ∧ (opt 0x1C 14).op = 0x1C ∧ ((i17B.bay 0).engine 1).busy = none := by decide +kernel
end GA2

/-! ### Serving and channels -/

namespace GW10
def pm (op param : Nat) (v : List Byte) : Msg := msg op param v 0
def seqdB : List Byte := leBytes 4 5 ++ leBytes 4 (2 ^ 23) ++ leBytes 4 0x10400 ++ leBytes 4 0x101 ++ leBytes 4 4 ++ leBytes 4 4 ++ leBytes 8 0x2000 ++ leBytes 8 0x3000 ++ leBytes 8 0x4000 ++ leBytes 8 0x5000 ++ leBytes 8 0x5100 ++ zeros 64
def subP : List Byte := leBytes 4 7 ++ leBytes 2 3 ++ zeros 2 ++ leBytes 8 0x1000 ++ leBytes 8 0x8000 ++ leBytes 4 1 ++ leBytes 4 1 ++ leBytes 8 0x9000 ++ zeros 24
def sv (x : Serve) : Blk := { liveH with serves := [(0, x)], accounts := [(3, { part := some 0, cap := 4 })] }
def subB : Blk := (sv { engine := 1 }).hbmWrite 0 0x1000 seqdB
def subM : Msg := pm 0x400 0 subP
theorem test_ServingCommands_1 : subB.takes subM = true ∧ (subB.entered subM).reqFault 0 (subB.serve 0) (subB.asCmd subM) = none ∧ subB.hbmHeld 0 hbmEnd = none ∧
  (subB.entered subM).seqdOk 0 (reqOf (subB.asCmd subM) 0) = true ∧
  chk subB (.cmdReqSubmit subM) (fun t => decide (t.awaits subM ∧ (t.serve 0).reqs = [reqOf (subB.asCmd subM) 0] ∧ t.mem = subB.mem)) = true := by decide +kernel
def rq : Req := { reqOf { m := subM, tide := 0, got := [] } 0 with seq := 9 }
def subC : Cmd := { m := { subM with seq := 9 }, started := true, queued := true }
def canB : Blk := let b := sv { engine := 1, reqs := [rq], order := 1 }; { b with host := { b.host with cmds := [subC] } }
def canM : Msg := pm 0x401 7 []
theorem test_ServingCommands_2 : canB.takesBeside canM subC = true ∧ chk canB (.cmdReqCancel canM) (fun t => decide (t.host.cmds = [] ∧ t.answered canM stOK 0 (zeros 8) ∧ (t.serve 0).reqs = [])) = true := by decide +kernel
def accM : Msg := pm 0x403 3 (leBytes 3 10 ++ zeros 1 ++ leBytes 4 5 ++ leBytes 2 6 ++ leBytes 1 7 ++ leBytes 1 2 ++ zeros 4)
theorem test_ServingCommands_3 : liveH.takes accM = true ∧ chk liveH (.cmdAccountSet accM) (fun t => decide (t.answered accM stOK 0 (zeros 8) ∧ (t.account 3).next = some (10, 5, 6, 7))) = true := by decide +kernel
def plM : Msg := pm 0x404 0 (leBytes 2 1 ++ leBytes 2 256 ++ leBytes 2 0 ++ leBytes 2 256 ++ leBytes 8 0x10000)
theorem test_ServingCommands_4 : liveH.takes plM = true ∧ (liveH.entered plM).inHbm 0 0x10000 planBytes = true ∧ chk liveH (.cmdPoolSet plM) (fun t => decide (t.answered plM stOK 0 [] ∧ (t.serve 0).building = some { addr := 0x10000, lims := (1, 256, 0, 256) })) = true := by decide +kernel
/-- a plan whose only class is 4, only split 0 -/
def rawP : List Byte := zeros 4 ++ zeros 4 ++ leBytes 4 17 ++ leBytes 4 1 ++ leBytes 2 3 ++ leBytes 2 5 ++ leBytes 2 1 ++ leBytes 2 1 ++ leBytes 4 1 ++ zeros 4 ++ zeros 4 ++ leBytes 2 1 ++ leBytes 2 1 ++ leBytes 8 0x20000 ++ leBytes 8 0x30000 ++ leBytes 8 0x40000 ++ leBytes 8 4 ++ leBytes 2 4 ++ zeros 14 ++ leBytes 2 0 ++ zeros 0xE6
def bldB : Blk := (sv { building := some { addr := 0x10000, lims := (1, 256, 0, 256) } }).hbmWrite 0 0x10000 rawP
theorem test_ServingSteps_1 : rawP.length = 0x140 ∧ bldB.rests = true ∧ bldB.rangeUe 0x10000 0x140 = none ∧ chk bldB (.planBuildDone 0) (fun t => decide ((t.serve 0).building = none)) = true := by decide +kernel
def pln : Plan := { addr := 0x10000, raw := rawP, lims := (1, 256, 0, 256) }
def bndB : Blk := sv { next := some pln }
theorem test_ServingSteps_2 : bndB.serveWaits = false ∧ (pln.splits (bndB.partBays 0).length).isEmpty = false ∧ pln.cls 0 = 4 ∧ bndB.rests = true ∧ chk bndB (.stepBoundary 0) (fun t => decide ((t.serve 0).plan = some pln ∧ (t.serve 0).next = none ∧ (t.serve 0).engine = 1) && (match (t.serve 0).step with | some z => !z.started && z.ents.isEmpty && z.cls == 4 && z.num == 17 | none => false)) = true := by decide +kernel
def stp : Step := { num := 17, cls := 4, split := 0, ts := 0, start := 50 }
def stiB : Blk := sv { engine := 1, plan := some pln, step := some stp }
theorem test_ServingSteps_3 : (stiB.partCoves 0).any stiB.runs = false ∧ stiB.slackAt none = false ∧ 5 ∈ poolCoves (pln.pool (stiB.partBays 0) stp.split false) ∧ 5 ∉ poolCoves (pln.pool (stiB.partBays 0) stp.split true) ∧
  chk stiB (.stepStartInstant 0) (fun t => decide (t.tide = 50 ∧ (t.serve 0).step = some { stp with started := true } ∧ (t.seq 5).st = 1 ∧ (t.seq 5).pc = 3 ∧ sreg (t.seq 5).sregs 2 = 17)) = true := by decide +kernel
def hlt : Cove := { seq := { st := 3, exit := { state := 3 } } }
def spdB : Blk := { sv { engine := 1, plan := some pln, step := some { stp with started := true } } with coves := (List.range 256).map fun v => (v, hlt) }
theorem test_ServingSteps_4 : spdB.rests = true ∧ spdB.serveWaits = false ∧ (poolCoves (spdB.partBays 0)).any spdB.runs = false ∧ (poolCoves (spdB.partBays 0)).all (fun v => (spdB.seq v).exit.state == 3) = true ∧
  chk spdB (.stepPoolsDone 0) (fun t => decide ((t.serve 0).step = none ∧ (t.serve 0).engine = 1)) = true := by decide +kernel
def ste : StepEnt := { place := 0, req := 0, prefill := false, pos := 0, count := 1 }
def res : List Byte := leBytes 4 7 ++ [0#8, 1#8, 0#8, 0#8] ++ leBytes 4 99 ++ zeros 52
def selB : Blk := (sv { engine := 1, reqs := [{ rq with run := 1, st := 2 }], order := 1 }).hbmWrite 0 0x30000 res
def selW : SealAcc := ({ b := selB } : SealAcc).entry 0 pln stp [] ste
theorem test_SealedTokensArePaid_1 : (selB.resultOf 0 pln ste) = res ∧ (selB.serve 0).reqs = [{ rq with run := 1, st := 2 }] ∧ rq.order = ste.req ∧ rq.maxnew = 1 ∧ (selB.account rq.acct).part = some 0 ∧
  (selW.b.account 3).bal = -(2 ^ 32) ∧ (selW.b.serve 0).reqs.map (fun y => (y.out, y.run)) = [(1, 1)] ∧ selW.outs.length = 1 ∧ selW.ptok = 0 := by decide +kernel
def ringW : Nat := 1 + 8 * 2 ^ 5 + 3 * 2 ^ 18 + 0x8000 * 2 ^ 30
def chB : Blk := { liveH with coves := [(3, { rings := [(2, { word := ringW })] })] }
def choP : List Byte := leBytes 1 0 ++ leBytes 1 1 ++ leBytes 2 7 ++ leBytes 4 1 ++ leBytes 4 1 ++ leBytes 4 100 ++ zeros 16 ++ leBytes 2 0 ++ zeros 6 ++ leBytes 2 3 ++ leBytes 2 2 ++ leBytes 4 0x1000 ++ leBytes 8 0x2000
def choM : Msg := pm 0x500 5 choP
theorem test_ChannelsOpenAndPost_1 : ((chB.cove 3).ring 2).producer = 3 ∧ ((chB.cove 3).ring 2).count = 8 ∧ ((chB.cove 3).ring 2).slot = 64 ∧ chB.takes choM = true ∧ (chB.entered choM).chanFault 5 0 choP = none ∧ chk chB (.cmdChanOpen choM) (fun t => decide (t.answered choM stOK 0 [] ∧ (t.chan 5).opened = true ∧ (t.chan 5).gen = 7 ∧ (t.chan 5).members = [0] ∧ (t.chan 5).counts = [0])) = true := by decide +kernel
end GW10

/-! ### Channels under way -/

namespace GW11
def pm (op param : Nat) (v : List Byte) : Msg := msg op param v 0
def ch1 : Chan := { opened := true, window := 1, gen := 7, members := [0, 2], parts := [(3, 2, 0x1000, 0x2000)], timeout := 100, part := 0, counts := [0] }
def withCh (x : Chan) : Blk := { liveH with chans := [(5, x)] }
theorem test_ChannelsOpenAndPost_2 : ({ withCh { ch1 with members := [0] } with chans := [] } : Blk).takes (pm 0x501 5 []) = true ∧ chk (withCh { ch1 with members := [0] }) (.cmdChanClose (pm 0x501 5 [])) (fun t => decide (t.answered (pm 0x501 5 []) stOK 0 [] ∧ t.chan 5 = {})) = true := by decide +kernel
def chT : Chan := { ch1 with parts := [(3, 2, 0x1000, 0x2000), (4, 2, 0x1000, 0x2000)], counts := [0, 0] }
def recT : List Byte := [3#8, 0#8]
def ptB : Blk := { withCh chT with mem := [(tpAddr 3 0x1000, 3#8)] }
theorem test_ChannelsOpenAndPost_3 : ptB.onlyChan 5 = true ∧ Memory.wf ptB.mem ∧ ptB.tpLost 3 = false ∧ chk ptB (.collPostWordWrite 5 0 1) (fun t => decide ((t.chan 5).counts = [1, 0] ∧ (t.chan 5).posted = [(0, 0, 3#8 :: zeros 63)] ∧ t.tpNat 3 0x2000 8 = 1)) = true := by decide +kernel
def bc : List Byte := leBytes 1 3 ++ zeros 3 ++ leBytes 2 1 ++ zeros 2 ++ leBytes 4 64 ++ zeros 4 ++ leBytes 8 0 ++ leBytes 8 0x4000 ++ zeros 32
def opn (v : List Byte) : CollOp := { seq := 0, sig := 5, recs := [v], start := 0 }
def pk (kind : Nat) (data : List Byte := []) (chunk : Nat := 0) : Pkt := { dst := 0, src := 2, kind := kind, tag := 5, len := 7 * 65536 + data.length, addr := chunk * 2 ^ 32, status := 5, part := 0, data := data }
theorem test_CollectivePacketsArriveOrFail_1 : (withCh ch1).onlyChan 5 = true ∧ ch1.memberIdx 2 = some 1 ∧ pktGen (pk 0x12) = 7 ∧ chk (withCh ch1) (.collCreditRx (pk 0x12 [] 3)) (fun t => decide (t.chan 5 = { ch1 with credit := [(1, 3)] })) = true := by decide +kernel
def opB (v : List Byte) (o : CollOp) : Blk := withCh { ch1 with op := some o, posted := [(0, 0, v)], counts := [1] }
theorem test_CollectivePacketsArriveOrFail_2 : let o := opn bc; let p := pk 0x10 [9#8]; (opB bc o).onlyChan 5 = true ∧ (opB bc o).collFrom p 5 1 o = true ∧ rOp bc = 3 ∧ rRoot bc = 1 ∧ isEmptyOp bc = false ∧ rDst bc = 0x4000 ∧
  chk (opB bc o) (.collDataRx p) (fun t => decide (t.hbmRead 0 0x4000 2 = [9#8, 0#8])) = true := by decide +kernel
theorem test_CollectivePacketsArriveOrFail_3 : let o := { opn bc with sent := [(1, 0, 0, pk 0x10), (1, 2, 0, pk 0x10)] }; let p := pk 0x11; (opB bc o).onlyChan 5 = true ∧ (opB bc o).collFrom p 5 1 o = true ∧
  chk (opB bc o) (.collAckRx p) (fun t => decide (t.chan 5 = { (opB bc o).chan 5 with op := some { o with sent := [(1, 2, 0, pk 0x10)] } })) = true := by decide +kernel
def a2a : List Byte := leBytes 1 4 ++ zeros 63
theorem test_CollectivePacketsArriveOrFail_4 : let o := opn a2a; let p := pk 0x13 (leBytes 4 77); (opB a2a o).onlyChan 5 = true ∧ (opB a2a o).collFrom p 5 1 o = true ∧ rOp a2a = 4 ∧
  chk (opB a2a o) (.collSizeRx p) (fun t => decide (t.chan 5 = { (opB a2a o).chan 5 with op := some { o with sizes := [(1, 77)], arrived := [1] } })) = true := by decide +kernel
theorem test_CollectivePacketsArriveOrFail_5 : let o := opn a2a; let p := pk 0x14 (leBytes 4 1 ++ zeros 4); (opB a2a o).onlyChan 5 = true ∧ (opB a2a o).collFrom p 5 1 o = true ∧
  chk (opB a2a o) (.collGoRx p) (fun t => decide (t.chan 5 = { (opB a2a o).chan 5 with op := some { o with gos := [(1, some (2 ^ 32))] } })) = true := by decide +kernel
theorem test_CollectivePacketsArriveOrFail_6 : let o := opn a2a; let p := pk 0x14 (leBytes 4 0 ++ leBytes 4 6); rSizes a2a = 0 ∧
  chk (opB a2a o) (.collGoRx p) (fun t => decide (t.chan 5 = { (opB a2a o).chan 5 with op := some { o with gos := [(1, some 6)] } })) = true := by decide +kernel
def bar : List Byte := leBytes 1 5 ++ zeros 63
theorem test_CollectivePacketsArriveOrFail_7 : let o := opn bar; let p := pk 0x16; (opB bar o).onlyChan 5 = true ∧ (opB bar o).collFrom p 5 1 o = true ∧ rOp bar = 5 ∧ rFmt bar = 0 ∧ ((opB bar o).chan 5).n = 2 ∧
  chk (opB bar o) (.collArriveRx p) (fun t => decide ((t.chan 5).op = none ∧ (t.chan 5).done = 1 ∧ (t.chan 5).failed = false ∧ t.mem = [])) = true := by decide +kernel
theorem test_CollectivePacketsArriveOrFail_8 : let o := opn bc; let p := pk 0x15; (opB bc o).onlyChan 5 = true ∧ (opB bc o).collFrom p 5 1 o = true ∧
  chk (opB bc o) (.collFailRx p) (fun t => decide ((t.chan 5).failed = true ∧ (t.chan 5).op = none ∧ (t.chan 5).posted = [] ∧ t.mem = [])) = true ∧
  chk (opB bc o) (.collOpTimeout 5) (fun t => decide ((t.chan 5).failed = true ∧ (t.chan 5).op = none ∧ (t.chan 5).posted = [] ∧ t.mem = [])) = true := by decide +kernel
end GW11

/-! ### The slice, links and packets -/

namespace GW12
def pm (op param : Nat) (v : List Byte) : Msg := msg op param v 0
/-- device 0 of a line of four along Z, its first link of face +Z live -/
def lk0 : Link := { st := 6, lanes := [0, 1, 2, 3, 4, 5, 6, 7], spare := 8, reported := true }
def inSlice : Blk := { liveH with slice := { joined := true, devid := 0, sliceid := 1, dims := 3072, hmid := 0, harbour := true, routes := [(1, 2 ^ 16), (2, 2 ^ 16), (3, 2 ^ 16)] }, links := [(16, lk0)] }
def ch1 : Chan := { opened := true, window := 1, gen := 7, members := [0, 2], parts := [(3, 2, 0x1000, 0x2000)], timeout := 100, part := 0, counts := [0] }
def bc : List Byte := leBytes 1 3 ++ zeros 3 ++ leBytes 2 1 ++ zeros 2 ++ leBytes 4 64 ++ zeros 4 ++ leBytes 8 0 ++ leBytes 8 0x4000 ++ zeros 32
def pk (kind : Nat) (data : List Byte := []) (chunk : Nat := 0) : Pkt := { dst := 0, src := 2, kind := kind, tag := 5, len := 7 * 65536 + data.length, addr := chunk * 2 ^ 32, status := 5, part := 0, data := data }
def rsP : Pkt := { pk 0x10 [1#8] with dst := 2, src := 0 }
def rsO : CollOp := { seq := 0, sig := 5, recs := [bc], start := 0, sent := [(1, 0, 0, rsP)] }
def rsB : Blk := { inSlice with chans := [(5, { ch1 with op := some rsO, posted := [(0, 0, bc)], counts := [1] })] }
def rsB1 : Blk := (rsB.setChan 5 { rsB.chan 5 with op := some { rsO with sent := [(1, 0, 1, rsP)] } }).count 0xA48 1
theorem test_CollectivePacketsArriveOrFail_9 : rsB.onlyChan 5 = true ∧ rsB.canon ∧ (rsB1.originate rsP).2 = none ∧
  chk rsB (.collResendTimeout 5) (fun t => decide (t.chan 5 = rsB1.chan 5 ∧ t = (rsB1.originate rsP).1 ∧ rsB1.cfgGet 0xA48 = 1)) = true := by decide +kernel
def joinP : List Byte := leBytes 2 2 ++ leBytes 1 1 ++ zeros 1 ++ leBytes 4 9 ++ leBytes 4 3072 ++ leBytes 2 2 ++ zeros 2
theorem test_SliceCommands_1 : liveH.takes (msg 0x600 0 joinP) = true ∧ joinFault joinP = none ∧ chk liveH (.cmdSliceJoin (msg 0x600 0 joinP)) (fun t => decide (t.answered (msg 0x600 0 joinP) stOK 0 [] ∧ t.slice.joined = true ∧ t.slice.devid = 2 ∧ t.slice.harbour = true)) = true := by decide +kernel
def leavM : Msg := msg 0x600 0 (leBytes 16 (4 * 2 ^ 16))
theorem test_SliceCommands_2 : inSlice.takes leavM = true ∧ leavM.plen = 16 ∧ leNat leavM.payload = 4 * 2 ^ 16 ∧ chk inSlice (.sliceLeave leavM) (fun t => decide (t.answered leavM stOK 0 [] ∧ t.slice.joined = false ∧ (t.link 16).st = 4 ∧ (t.link 16).cause = 6)) = true := by decide +kernel
def rsM : Msg := { msg 0x603 0 (leBytes 8 (2 + 1 * 2 ^ 16)) with flags := 4, bulk := leBytes 4 (2 ^ 16) ++ leBytes 4 (2 ^ 16 + 1 * 2 ^ 14 + 2) }
theorem test_SliceCommands_3 : inSlice.takes rsM = true ∧ (([2 ^ 16, 2 ^ 16 + 1 * 2 ^ 14 + 2].zipIdx.all fun q => routeOk 0 (2 + q.2) q.1 (putRoutes [] 2 [2 ^ 16, 2 ^ 16 + 1 * 2 ^ 14 + 2])) = true) ∧ chk inSlice (.cmdRouteShadow rsM) (fun t => decide (t.answered rsM stOK 0 [] ∧ t.slice.shadow = [(2, 2 ^ 16), (3, 2 ^ 16 + 2 ^ 14 + 2)])) = true := by decide +kernel
def woM : Msg := msg 0x605 0 (leBytes 8 (tpAddr 3 0) ++ leBytes 8 4096 ++ leBytes 8 (2 + 2 ^ 16))
theorem test_SliceCommands_4 : inSlice.takes woM = true ∧ tpAddr 3 0 % 4096 = 0 ∧ regionOf (tpAddr 3 0) = 1 ∧ inSlice.touchesCache (tpAddr 3 0) 4096 = false ∧ chk inSlice (.cmdWindowOpen woM) (fun t => decide (t.answered woM stOK 0 (leBytes 8 0) ∧ t.slice.window 0 = { opened := true, base := tpAddr 3 0, len := 4096, peer := 2, writes := true, reads := false })) = true := by decide +kernel
def wnB : Blk := { inSlice with slice := { inSlice.slice with windows := [(4, { opened := true, base := 4096, len := 4096 })] } }
theorem test_SliceCommands_5 : wnB.takes (msg 0x606 4) = true ∧ swf (fun _ => ({} : Window)) wnB.slice.windows = true ∧ chk wnB (.cmdWindowClose (msg 0x606 4)) (fun t => decide (t.answered (msg 0x606 4) stOK 0 [] ∧ t.slice.windows = [])) = true := by decide +kernel
def lB (l : Link) : Blk := { inSlice with links := [(16, l)] }
theorem test_LinkCommands_1 : inSlice.takes (msg 0x602 16) = true ∧ chk inSlice (.linkSetDisabled (msg 0x602 16)) (fun t => decide (t.answered (msg 0x602 16) stOK 0 [] ∧ (t.link 16).st = 0)) = true := by decide +kernel
theorem test_LinkCommands_2 : (lB { st := 0, enabled := false, trainFails := 3 }).takes (msg 0x602 (16 + 0x100)) = true ∧ chk (lB { st := 0, enabled := false, trainFails := 3 }) (.linkSetEnabled (msg 0x602 (16 + 0x100))) (fun t => decide (t.awaits (msg 0x602 (16 + 0x100)) ∧ t.link 16 = { st := 1, cmd := some (0, 0), cmdKind := 1 })) = true := by decide +kernel
theorem test_LinkCommands_3 : chk inSlice (.linkSetFenced (msg 0x602 (16 + 0x200))) (fun t => decide (t.awaits (msg 0x602 (16 + 0x200)) ∧ (t.link 16).st = 5 ∧ (t.link 16).ctlOut = [ctlFence])) = true := by decide +kernel
/-- the peer's port is 20, face -Z -/
def fenc : Link := { lk0 with st := 5, peerSerial := 77, peerDev := 1, peerPort := 20, peerSlice := 1 }
def fcB (l : Link) : Blk := { lB l with slice := { inSlice.slice with plan := some ((List.range 24).map fun _ => { serial := 77, peerId := 1, port := 20, slice := 1 }) } }
theorem test_LinkCommands_4 : ((fcB fenc).checkLink 16).1 = 6 ∧ (fcB fenc).takes (msg 0x602 (16 + 0x300)) = true ∧ chk (fcB { fenc with askedPeer := true }) (.linkSetActive (msg 0x602 (16 + 0x300))) (fun t => decide (t.answered (msg 0x602 (16 + 0x300)) stOK 0 [] ∧ (t.link 16).st = 6)) = true ∧
  chk (fcB fenc) (.linkSetActive (msg 0x602 (16 + 0x300))) (fun t => decide (t.awaits (msg 0x602 (16 + 0x300)) ∧ t.link 16 = { fenc with ctlOut := [ctlActive], askedSelf := true, cmd := some (0, 0), cmdKind := 3 })) = true := by decide +kernel
theorem test_LinkCommands_5 : inSlice.takes (msg 0x903 (16 + 3 * 256 + 65536)) = true ∧ chk inSlice (.laneSpareLink (msg 0x903 (16 + 3 * 256 + 65536))) (fun t => decide (t.awaits (msg 0x903 (16 + 3 * 256 + 65536)) ∧ t.link 16 = { lk0 with switching := some (0, 3), ctlOut := [ctlLane 3], cmd := some (0, 0), cmdKind := 4 })) = true := by decide +kernel
theorem test_LinksTrainAndFence_1 : chk (lB { st := 1 }) (.linkSignalDetect 16) (fun t => decide ((t.link 16).st = 2)) = true := by decide +kernel
theorem test_LinksTrainAndFence_2 : chk (lB { st := 2 }) (.linkTrainingDone 16) (fun t => (t.link 16).st == 3) = true := by decide +kernel
theorem test_LinksTrainAndFence_3 : chk (lB { st := 2 }) (.linkTrainingTimeout 16) (fun t => decide ((t.link 16).st = 1 ∧ (t.link 16).trainFails = 1)) = true := by decide +kernel
theorem test_LinksTrainAndFence_4 : (fcB { lk0 with st := 3 }).rests = true ∧ chk (fcB { lk0 with st := 3 }) (.linkctlIdentityRx 16 77 1 20 1) (fun t => decide ((t.link 16).st = 6 ∧ (t.link 16).cause = 0)) = true ∧ chk (fcB { lk0 with st := 3 }) (.linkctlIdentityRx 16 78 1 20 1) (fun t => decide ((t.link 16).st = 4 ∧ (t.link 16).cause = 3)) = true := by decide +kernel
theorem test_LinksTrainAndFence_5 : chk inSlice (.linkctlFenceRx 16) (fun t => decide ((t.link 16).st = 5 ∧ (t.link 16).fencedPeer = true ∧ (t.link 16).ctlOut = [ctlFence])) = true ∧ chk inSlice (.linkctlActiveRequestRx 16) (fun t => decide (t.link 16 = { lk0 with askedPeer := true })) = true := by decide +kernel
def askC : Cmd := { m := msg 0x602 (16 + 0x300), started := true, queued := true }
def askB : Blk := waiting askC.m (fcB { fenc with askedSelf := true, cmd := some (0, 0), cmdKind := 3 })
theorem test_LinksTrainAndFence_6 : askB.onlyWaits askC = true ∧ chk askB (.linkActiveAskTimeout 16) (fun t => decide (t.answered askC.m stFENCED 0 [] ∧ t.host.cmds = [] ∧ t.link 16 = { askB.link 16 with askedSelf := false, cmd := none })) = true := by decide +kernel
def p0 : Pkt := { dst := 1, kind := 1 }
def sB : Blk := lB { lk0 with sent := [(7, 0, 1, p0), (8, 0, 1, p0)], txNext := 9 }
theorem test_LanesAndFlits_1 : sB.canon ∧ chk sB (.linkctlNakRx 16 8) (fun t => decide (t.link 16 = { sB.link 16 with resends := 1 } ∧ t.cfgGet (cfgLK 16 + 0x58) = 1)) = true ∧ chk sB (.linkReplayTimeout 16) (fun t => decide (t.link 16 = { sB.link 16 with resends := 1 } ∧ t.cfgGet (cfgLK 16 + 0x58) = 2)) = true := by decide +kernel
def seB : Blk := { inSlice with cfg := [(cfgLK 16, 1)] }
theorem test_LanesAndFlits_2 : tbit (seB.cfgGet (cfgLK 16)) 0 = true ∧ chk seB (.laneSerExceeded 16 3) (fun t => decide (t.link 16 = { lk0 with failed := 8, switching := some (0, 3), ctlOut := [ctlLane 3] } ∧ t.err.next = 1)) = true ∧
  chk seB (.linkLaneSignalLoss 16 3) (fun t => decide (t.link 16 = { lk0 with failed := 8, darkLanes := 8, switching := some (0, 3), ctlOut := [ctlLane 3] })) = true ∧ chk seB (.linkctlLaneMsgRx 16 0 3) (fun t => decide (t.link 16 = { lk0 with switching := some (0, 3) })) = true := by decide +kernel
def swB : Blk := lB { lk0 with failed := 8, switching := some (0, 3) }
theorem test_LanesAndFlits_3 : swB.rests = true ∧ swB.canon ∧ chk swB (.linkLaneSwitchDone 16) (fun t => decide (t.link 16 = { lk0 with failed := 8, lanes := [0, 1, 2, 8, 4, 5, 6, 7], spare := 0xF } ∧ t.cfgGet (cfgLK 16 + 0x80) = 1)) = true := by decide +kernel
def flit : List Byte := [1#8, 0#8, 0#8] ++ zeros 4 ++ [1#8] ++ zeros 4 ++ [5#8] ++ zeros 239
theorem crc_zeros_append (c m n : Nat) : (zeros (m + n)).foldl (crcByte 0x82F63B78) c = (zeros n).foldl (crcByte 0x82F63B78) ((zeros m).foldl (crcByte 0x82F63B78) c) := by
  rw [zeros, zeros, zeros, ← List.replicate_append_replicate, List.foldl_append]
def flitC : List Byte := flit ++ leBytes 4 3996056302
theorem crc_flit : crc32c flit = 3996056302 := by
  unfold crc32c crc32With flit
  rw [List.foldl_append, show ([1#8, 0#8, 0#8] ++ zeros 4 ++ [1#8] ++ zeros 4 ++ [5#8] : List Byte).foldl (crcByte 0x82F63B78) 0xFFFFFFFF = 2847350139 by decide +kernel]
  rw [crc_zeros_append _ 40 199, show (zeros 40).foldl (crcByte 0x82F63B78) 2847350139 = 3641559438 by decide +kernel]
  rw [crc_zeros_append _ 40 159, show (zeros 40).foldl (crcByte 0x82F63B78) 3641559438 = 2703216678 by decide +kernel]
  rw [crc_zeros_append _ 40 119, show (zeros 40).foldl (crcByte 0x82F63B78) 2703216678 = 2692093101 by decide +kernel]
  rw [crc_zeros_append _ 40 79, show (zeros 40).foldl (crcByte 0x82F63B78) 2692093101 = 3689355000 by decide +kernel]
  rw [crc_zeros_append _ 40 39, show (zeros 40).foldl (crcByte 0x82F63B78) 3689355000 = 3897539264 by decide +kernel]
  rw [show (zeros 39).foldl (crcByte 0x82F63B78) 3897539264 = 298910993 by decide +kernel]
  rfl
theorem test_LanesAndFlits_4 : flitC.length = 256 ∧ flitC.take 252 = flit ∧ leAt flitC 252 4 = 3996056302 ∧ leAt flitC 0 1 % 8 = 1 ∧ leAt flitC 1 2 = 0 ∧ leAt flitC 7 1 = 1 := by decide +kernel
def trP : Pkt := { dst := 3, src := 1, kind := 1, phase := 1, hops := 2 }
theorem test_PacketsAct_1 : inSlice.faceLive 4 = true ∧ inSlice.slice.hopFace 0 3 = some 4 ∧ chk inSlice (.pktTransit trP) (fun t => decide (t = inSlice.sendHop trP 4)) = true := by decide +kernel
def pwB : Blk := { inSlice with slice := { inSlice.slice with windows := [(0, { opened := true, base := tpAddr 3 0, len := 4096, peer := 2, writes := true, reads := true, part := 0 }), (1, { opened := true, base := 0x10000, len := 4096, peer := 2, writes := true, reads := true, part := 0 })] } }
def pwP : Pkt := { dst := 0, src := 2, kind := 1, tag := 9, part := 0, addr := tpAddr 3 8, len := 1, data := [6#8] }
theorem test_PacketsAct_2 : pwB.pktStatus pwP true = 0 ∧ pktLen pwP = 1 ∧ chk pwB (.pktWriteRx pwP) (fun t => decide (t.mem = [(tpAddr 3 8, 6#8)])) = true := by decide +kernel
def pdP : Pkt := { pwP with kind := 2, addr := 0x10000, len := 4, data := [] }
theorem test_PacketsAct_3 : pwB.pktStatus pdP false = 0 ∧ chk pwB (.pktReadRx pdP) (fun t => decide (t.mem = [] ∧ ((t.link 16).sent.map fun q => q.2.2.2.data) = [[0#8, 0#8, 0#8, 0#8]])) = true := by decide +kernel
def rem (kind : Nat) : Remote := { who := .cmd 0 0, off := 0, pkt := { dst := 2, kind := kind, tag := 9, len := 4 } }
def rmB (kind : Nat) : Blk := { inSlice with slice := { inSlice.slice with remotes := [rem kind] } }
theorem test_PacketsAct_4 : (rmB 2).rests = true ∧ chk (rmB 2) (.pktReadDataRx { dst := 0, src := 2, kind := 3, tag := 9, data := [1#8] }) (fun t => decide (t.slice.remotes = [{ rem 2 with st := some 0, data := [1#8] }])) = true ∧
  chk (rmB 1) (.pktWriteAckRx { dst := 0, src := 2, kind := 4, tag := 9, status := 5 }) (fun t => decide (t.slice.remotes = [{ rem 1 with st := some 5 }])) = true ∧
  chk (rmB 1) (.pktNoticeRx { dst := 0, src := 2, kind := 5, tag := 9, cause := 3 }) (fun t => decide (t.slice.remotes = [{ rem 1 with st := some stROUTELOST }] ∧ t.cfgGet 0x820 = 1)) = true ∧
  chk (rmB 1) (.remoteRequestTimeout 9) (fun t => decide (t.slice.remotes = [{ rem 1 with st := some stROUTELOST }])) = true := by decide +kernel
end GW12

/-! ### Barriers, missing devices, the Tide clock and mode changes -/

namespace GW13
def lk0 : Link := { st := 6, lanes := [0, 1, 2, 3, 4, 5, 6, 7], spare := 8, reported := true }
def inSlice : Blk := { liveH with slice := { joined := true, devid := 0, sliceid := 1, dims := 3072, hmid := 0, harbour := true, routes := [(1, 2 ^ 16), (2, 2 ^ 16), (3, 2 ^ 16)] }, links := [(16, lk0)] }
def lB (l : Link) : Blk := { inSlice with links := [(16, l)] }
def memb (b : Blk) : Blk := { b with slice := { b.slice with harbour := false, hmid := 1 } }
def planV : List Byte := (List.range 24).flatMap fun k => leBytes 8 77 ++ leBytes 2 1 ++ leBytes 1 (20 + (if k = 16 then 64 else 0)) ++ zeros 1 ++ leBytes 4 1
theorem test_SliceCommands_6 : planFault planV = none ∧ inSlice.takes (msg 0x601 0 planV) = true ∧ (planEntOf planV 16).unused = true := by decide +kernel
theorem test_SliceCommands_7 : chk inSlice (.cmdCablingPlan (msg 0x601 0 planV)) (fun t => decide (t.answered (msg 0x601 0 planV) stOK 0 [] ∧ (t.link 16).st = 0)) = true := by decide +kernel
def bm : Msg := msg 0x502 5
theorem test_SliceBarriers_1 : (memb inSlice).takes bm = true ∧ chk (memb inSlice) (.cmdSliceBarrier bm) (fun t => decide (t.awaits bm ∧ t.bars.waiting = [(5, 0, 0)] ∧ t.bars.arrived = [])) = true := by decide +kernel
theorem test_SliceBarriers_2 : inSlice.members = [0, 1, 2, 3] ∧ chk inSlice (.cmdSliceBarrier bm) (fun t => decide (t.awaits bm ∧ t.bars.waiting = [(5, 0, 0)] ∧ t.bars.arrived = [(5, [0])])) = true := by decide +kernel
def arr (l : List Nat) (b : Blk := inSlice) : Blk := { b with bars := { b.bars with arrived := [(5, l)] } }
theorem test_SliceBarriers_3 : chk (arr [1, 2, 3]) (.cmdSliceBarrier bm) (fun t => decide (t.answered bm stOK 0 (leBytes 8 0) ∧ t.host.cmds = [] ∧ t.bars.waiting = [] ∧ t.bars.arrived = [])) = true := by decide +kernel
def cp (kind src seq : Nat) (data : List Byte := []) (sig : Nat := 0) : Pkt := { dst := 0, src := src, kind := kind, addr := seq, data := data, status := sig % 65536, cause := sig / 65536 }
theorem test_SliceBarriers_4 : (arr [1]).rests = true ∧ chk (arr [1]) (.barrierArriveRx (cp 0x23 2 5)) (fun t => decide ({ arr [1] with bars := t.bars } = t ∧ t.bars.arrived = [(5, [1, 2])])) = true := by decide +kernel
def bmc : Cmd := { m := bm, started := true, queued := true }
def waitB (b : Blk) : Blk := waiting bm { b with bars := { b.bars with waiting := [(5, 0, 0)] } }
theorem test_SliceBarriers_5 : (waitB (arr [0, 1, 2])).onlyWaits bmc = true ∧ chk (waitB (arr [0, 1, 2])) (.barrierArriveRx (cp 0x23 3 5)) (fun t => decide (t.answered bm stOK 0 (leBytes 8 0) ∧ t.host.cmds = [] ∧ t.bars.waiting = [])) = true := by decide +kernel
theorem test_SliceBarriers_6 : (waitB (memb inSlice)).onlyWaits bmc = true ∧ chk (waitB (memb inSlice)) (.barrierReleaseRx 16 (cp 0x24 1 5 (leBytes 8 99))) (fun t => decide (t.answered bm stOK 0 (leBytes 8 99) ∧ t.host.cmds = [] ∧ t.bars.waiting = [])) = true := by decide +kernel
def seenB : Blk := { memb inSlice with mode := { seen := [(0x24, 1 * 2 ^ 32)] } }
theorem test_SliceBarriers_7 : seenB.rests = true ∧ seenB.firstCopy (cp 0x24 1 5) = false ∧ chk seenB (.barrierReleaseRx 16 (cp 0x24 1 5)) (fun t => decide (t = seenB)) = true := by decide +kernel
theorem test_MissingDevices_1 : chk inSlice (.faceStateRx (cp 0x21 2 0 [] (4 + 1 * 8 + 3 * 65536))) (fun t => decide ({ inSlice with slice := t.slice } = t ∧ sget (fun _ => 0) t.slice.darkFaces (2 * 8 + 4) = 4 * 3 + 2)) = true := by decide +kernel
def dk : Blk := { inSlice with slice := { inSlice.slice with darkFaces := [(2 * 8 + 4, 4 * 3 + 1)] } }
theorem test_MissingDevices_2 : dk.allDark 3 = true ∧ chk dk (.missingTimer 3) (fun t => decide (t.slice.missing = [3] ∧ t.mem = [])) = true := by decide +kernel
theorem test_MissingDevices_3 : inSlice.allDark 3 = false ∧ inSlice.rests = true ∧ chk inSlice (.missingTimer 3) (fun t => decide (t = inSlice)) = true := by decide +kernel
theorem test_MissingDevices_4 : (memb inSlice).firstCopy (cp 0x22 1 0 [] (3 + 65536)) = true ∧ chk (memb inSlice) (.missingMarkRx 16 (cp 0x22 1 0 [] (3 + 65536))) (fun t => decide (t.slice.missing = [3] ∧ t.mem = [])) = true := by decide +kernel
def mis : Blk := let b := memb inSlice; { b with slice := { b.slice with missing := [3] } }
theorem test_MissingDevices_5 : chk mis (.missingMarkRx 16 (cp 0x22 1 0 [] 3)) (fun t => decide (t.slice.missing = [] ∧ t.mem = [])) = true := by decide +kernel
def clo : Blk := { inSlice with dev := { inSlice.dev with closed := [(0, 3), (1, 2)] } }
theorem test_MissingDevices_6 : clo.xingReady 0 3 = true ∧ chk clo (.xingReopen 0 3) (fun t => decide (t = { clo with dev := { clo.dev with closed := [(1, 2)] } })) = true := by decide +kernel
def cloC : Blk := { clo with coves := [(3, { clearing := true })] }
theorem test_MissingDevices_7 : cloC.xingReady 0 3 = false ∧ cloC.rests = true ∧ chk cloC (.xingReopen 0 3) (fun t => decide (t = cloC)) = true := by decide +kernel
theorem test_TideClock_1 : inSlice.slice.leads 0 4 = some 1 ∧ chk { inSlice with tide := 7 } .tideSyncSend (fun t => decide (t.tide = 7 ∧ t.mem = [] ∧ sget (fun _ => 0) t.sync.faces 8 = 7)) = true ∧ chk { liveH with tide := 7 } .tideSyncSend (fun t => decide (t = { liveH with tide := 7 })) = true := by decide +kernel
def sy (b : Blk) (y : TideSync) : Blk := { b with sync := y }
theorem test_TideClock_2 : (memb inSlice).parentFace = some 4 ∧ (memb inSlice).canon ∧ chk (memb inSlice) (.tideSyncRx 16 (cp 0x20 1 0 (leBytes 8 1000 ++ zeros 8))) (fun t => decide (t.sync.st = 1 ∧ t.sync.parent = 4 ∧ t.tide = 1000 ∧ t.cfgGet 0x918 = 1)) = true := by decide +kernel
def c3B : Blk := { sy (memb inSlice) { st := 1, synced := true, faces := [(8, 500)] } with tide := 1003 }
theorem test_TideClock_3 : chk c3B (.tideSyncRx 16 (cp 0x20 1 0 (leBytes 8 1000 ++ leBytes 8 502))) (fun t => decide (t.sync.st = 1 ∧ t.sync.run = 1 ∧ t.sync.offset = 8 ∧ t.sync.slew = 0 ∧ t.tide = 1003)) = true := by decide +kernel
theorem test_TideClock_4 : chk (sy (memb inSlice) { st := 2, run := 16 }) .tideHoldover (fun t => decide (t = sy (memb inSlice) { st := 3 })) = true := by decide +kernel
def ext : Blk := { inSlice with tide := 9, slice := { inSlice.slice with extref := true } }
theorem test_TideClock_5 : chk ext .ppsEdge (fun t => decide (t.sync.pps = 9 ∧ t.board.ppsSeen = true)) = true ∧ chk inSlice .ppsEdge (fun t => decide (t = inSlice)) = true ∧ chk ext .ppsSeenExpiry (fun t => decide (t = ext)) = true ∧
  chk ext .trefReturn (fun t => decide (t.board.trefOk = true)) = true ∧ chk ext .trefLoss (fun t => decide (t.board.trefOk = false)) = true := by decide +kernel
def mv (bits : Nat) : List Byte := leBytes 4 7 ++ leBytes 1 bits ++ leBytes 1 1 ++ leBytes 1 5 ++ zeros 1 ++ leBytes 4 1000 ++ zeros 4
def mm (bits : Nat) : Msg := msg 0x604 0 (mv bits)
theorem test_ModeChangesBegin_1 : inSlice.takes (mm 1) = true ∧ modeFault (mv 1) = none ∧ chk inSlice (.cmdModePrepare (mm 1)) (fun t => decide (t.awaits (mm 1) ∧ t.mode.phase = 1 ∧ t.mode.change = 7 ∧ t.mode.staged = some (mv 1) ∧ t.mode.coord = true ∧ t.mode.acks = [0] ∧ t.mode.commit = none)) = true := by decide +kernel
def alone : Blk := { inSlice with slice := { inSlice.slice with routes := [] } }
theorem test_ModeChangesBegin_2 : chk alone (.cmdModePrepare (mm 1)) (fun t => decide (t.mode.phase = 1 ∧ t.mode.commit = some (2 ^ 20))) = true := by decide +kernel
theorem test_ModeChangesBegin_3 : liveH.takes (mm 2) = true ∧ modeFault (mv 2) = none ∧ tbit (mcBits (mv 2)) 0 = false ∧ tbit (mcBits (mv 2)) 2 = false := by decide +kernel
def lck : Blk := sy (memb inSlice) { st := 2 }
theorem test_ModeChangesBegin_4 : lck.rests = true ∧ chk lck (.modePrepareRx 16 (cp 0x25 1 7 (mv 2))) (fun t => decide (t.mode.phase = 1 ∧ t.mode.change = 7 ∧ t.mode.staged = some (mv 2) ∧ t.mode.coord = false ∧ t.mode.commit = none)) = true ∧
  chk (memb inSlice) (.modePrepareRx 16 (cp 0x25 1 7 (mv 2))) (fun t => decide (t.mode.phase = 0 ∧ t.mode.staged = none)) = true := by decide +kernel
def prepC : Cmd := { m := mm 3, started := true, queued := true }
def prepB (acks : List Nat) : Blk := waiting (mm 3) { inSlice with mode := { change := 7, phase := 1, staged := some (mv 3), coord := true, cmd := some (0, 0), acks := acks } }
theorem test_ModeChangesBegin_5 : (prepB [0]).onlyWaits prepC = true ∧ chk (prepB [0]) (.modeAckRx (cp 0x26 2 7 [] 1)) (fun t => decide (t.answered (mm 3) stBUSY 2 [] ∧ t.host.cmds = [] ∧ t.mode.phase = 0 ∧ t.mode.staged = none)) = true ∧
  chk (prepB [0]) (.modeAckRx (cp 0x26 2 7)) (fun t => decide (t.mode.acks = [0, 2] ∧ t.mode.phase = 1 ∧ t.mode.commit = none)) = true ∧ chk (prepB [0, 1, 3]) (.modeAckRx (cp 0x26 2 7)) (fun t => decide (t.mode.commit = some (2 ^ 20))) = true := by decide +kernel
theorem test_ModeChangesBegin_6 : chk (prepB [0]) .modeAckTimeout (fun t => decide (t.answered (mm 3) stHWERROR (prepB [0]).errDetail [] ∧ t.host.cmds = [] ∧ t.mode.phase = 0 ∧ t.mode.staged = none ∧ t.err.next = 1)) = true := by decide +kernel
def stg : Blk := let b := memb inSlice; { b with mode := { change := 7, phase := 1, staged := some (mv 2) }, tide := 5, slice := { b.slice with shadow := [(1, 2 ^ 16)] } }
theorem test_ModeChangesEnd_1 : stg.rests = true ∧ chk stg (.modeCommitRx 16 (cp 0x27 1 7 (leBytes 8 6))) (fun t => decide (t.mode.commit = some 6 ∧ t.mode.phase = 1 ∧ t.mode.staged = some (mv 2))) = true ∧
  chk stg (.modeCommitRx 16 (cp 0x27 1 7 (leBytes 8 5))) (fun t => decide (t.mode.staged = none ∧ t.mode.phase = 0 ∧ t.mode.epoch = 5 ∧ t.slice.routes = [(1, 2 ^ 16)])) = true ∧
  chk stg (.modeAbortRx 16 (cp 0x28 1 7)) (fun t => decide (t.mode.staged = none ∧ t.mode.phase = 0 ∧ t.slice.routes = stg.slice.routes)) = true ∧
  chk stg .modeInDoubt (fun t => decide (t.mode = { stg.mode with phase := 2 } ∧ t.err.next = 1 ∧ t.slice = stg.slice)) = true := by decide +kernel
def unc : Blk := { inSlice with mode := { change := 7, epoch := 4, uncommitted := [2] } }
theorem test_ModeChangesEnd_2 : chk unc (.commitAckRx (cp 0x29 2 7)) (fun t => decide (t = { unc with mode := { unc.mode with uncommitted := [] } })) = true ∧ chk unc .modeCommitResend (fun t => decide (t.mem = [] ∧ t.mode = unc.mode ∧ t = unc.sendCtl (ctlPkt 2 0x27 7 0 (leBytes 8 4)))) = true := by decide +kernel
def swi : Blk := waiting (mm 15) { inSlice with mode := { change := 7, phase := 1, staged := some (mv 15), coord := true, cmd := some (0, 0), commit := some (2 ^ 20) } }
def swiC : Cmd := { m := mm 15, started := true, queued := true }
theorem test_ModeChangesEnd_3 : swi.onlyWaits swiC = true ∧ swi.canon ∧ chk swi .modeEpochSwitch (fun t => decide (t.answered (mm 15) stOK 0 (leBytes 8 (2 ^ 20)) ∧ t.host.cmds = [] ∧ t.tide = 2 ^ 20 ∧ t.mode.phase = 0 ∧ t.mode.staged = none ∧ t.mode.epoch = 2 ^ 20 ∧
  t.slice.routes = [] ∧ t.slice.fmode = 1 ∧ fld (t.cfgGet 0x810) 23 16 = 5)) = true := by decide +kernel
end GW13

/-! ### Partitions, power, resets, repairs and the board -/

namespace GW14
def live2 : Blk := { liveH with hls := [(0, { ready := 1 }), (1, { ready := 1 })] }
def crM : Msg := msg 0x700 3 (leBytes 8 2 ++ leBytes 144 2)
theorem test_PartitionCommands_1 : live2.takes crM = true ∧ live2.partOfHl 1 = none ∧ chk live2 (.cmdPartCreate crM) (fun t => decide (t.answered crM stOK 0 [] ∧ (t.part 3).st = 1 ∧ (t.part 3).hlmask = 2 ∧ (t.part 3).grans = 2)) = true := by decide +kernel
def unkey : Blk := { liveH with parts := [(0, { st := 1, hlmask := 1, grans := 1 })] }
def kyM : Msg := msg 0x701 0 (zeros 1640)
theorem test_PartitionCommands_2 : unkey.takes kyM = true := by decide +kernel
def klM (z d : Nat) : Msg := msg 0x702 (z * 2 ^ 32 + d * 2 ^ 33)
theorem test_PartitionCommands_3 : liveH.takes (klM 1 1) = true ∧ liveH.quiet = true := by decide +kernel
def klC (z d : Nat) : Cmd := { m := klM z d, started := true, queued := true }
def klB (d : Bool) : Blk := waiting (klM 0 (if d then 1 else 0)) { liveH with parts := [(0, { st := 3, hlmask := 1, grans := 1, killer := some (0, 0), dissolving := d, pm := zeros 64 })], mem := [(5, 1#8), (tpAddr 3 4, 2#8)] }
theorem test_PartitionCommands_4 : (klB true).onlyWaits (klC 0 1) = true ∧ (klB true).quiet = true ∧ chk (klB true) (.killScrubDone 0) (fun t => decide (t.answered (klM 0 1) stOK 0 [] ∧ t.host.cmds = [] ∧ (t.part 0).st = 0 ∧ t.mem = [(5, 1#8)])) = true := by decide +kernel
theorem test_PartitionCommands_5 : (klB false).onlyWaits (klC 0 0) = true ∧ chk (klB false) (.killScrubDone 0) (fun t => decide (t.answered (klM 0 0) stOK 0 [] ∧ (t.part 0).st = 1 ∧ t.mem = [(5, 1#8)])) = true := by decide +kernel
def bgB : Blk := { liveH with zeroing := 3, mem := [(5, 1#8), (2 ^ 30 + 1, 1#8), (tpAddr 3 4, 2#8)] }
theorem test_PartitionCommands_6 : chk bgB (.backgroundZeroDone 0) (fun t => decide (t.zeroing = 2 ∧ t.mem = [(2 ^ 30 + 1, 1#8), (tpAddr 3 4, 2#8)])) = true := by decide +kernel
def pw (n : Nat) : Msg := msg 0x800 n
theorem test_PowerStates_1 : liveH.takes (pw 1) = true ∧ liveH.settled = true ∧ chk liveH (.powerEnterSlack (pw 1)) (fun t => decide (t.answered (pw 1) stOK 0 [] ∧ t.dev.slack = true ∧ (t.part 0).slack = true)) = true := by decide +kernel
theorem test_PowerStates_2 : liveH.takes (pw 2) = true ∧ liveH.coveOutside = false ∧ chk liveH (.powerEnterNeap (pw 2)) (fun t => decide (t.awaits (pw 2) ∧ t.dev = { liveH.dev with changing := 1, target := 2, changer := some (0, 0) })) = true := by decide +kernel
theorem test_PowerStates_3 : liveH.takes (pw 3) = true ∧ chk liveH (.powerEnterDormant (pw 3)) (fun t => decide (t.awaits (pw 3) ∧ t.dev = { liveH.dev with changing := 1, target := 3, changer := some (0, 0) })) = true := by decide +kernel
def dorm (n : Nat) : Blk := { liveH with dev := { liveH.dev with power := n } }
theorem test_PowerStates_4 : (dorm 3).takes (pw 0) = true ∧ (dorm 3).settled = true ∧ chk (dorm 3) (.powerWake (pw 0)) (fun t => decide (t.awaits (pw 0) ∧ t.dev = { (dorm 3).dev with changing := 2, target := 0, changer := some (0, 0) })) = true := by decide +kernel
def slk : Blk := { liveH with dev := { liveH.dev with slack := true }, parts := [(0, { st := 2, hlmask := 1, grans := 1, key := [1#8], slack := true })] }
theorem test_PowerStates_5 : slk.takes (pw 0) = true ∧ slk.quiet = true ∧ chk slk (.powerWake (pw 0)) (fun t => decide (t.answered (pw 0) stOK 0 [] ∧ t.dev.slack = false ∧ (t.part 0).slack = false)) = true := by decide +kernel
def ent (n : Nat) : Blk := waiting (pw n) { liveH with dev := { liveH.dev with changing := 1, target := n, changer := some (0, 0) }, mem := [(5, 1#8), (tpAddr 3 4, 2#8)], coves := [(3, { seq := { prog := [(0, 9)], count := 1 } })] }
def pwC (n : Nat) : Cmd := { m := pw n, started := true, queued := true }
theorem test_PowerStates_6 : (ent 2).onlyWaits (pwC 2) = true ∧ (ent 2).drained = true ∧ chk (ent 2) .powerEntryDrained (fun t => decide (t.answered (pw 2) stOK 0 [] ∧ t.host.cmds = [] ∧ t.dev.power = 2 ∧ t.dev.changing = 0 ∧ (t.seq 3).prog = [] ∧ t.mem = (ent 2).mem)) = true := by decide +kernel
theorem test_PowerStates_7 : (ent 3).onlyWaits (pwC 3) = true ∧ chk (ent 3) .powerEntryDrained (fun t => decide (t.answered (pw 3) stOK 0 [] ∧ t.host.cmds = [] ∧ t.dev.power = 3 ∧ t.mem = [(5, 1#8)])) = true := by decide +kernel
def wk : Blk := waiting (pw 0) { liveH with dev := { liveH.dev with power := 3, changing := 2, target := 0, changer := some (0, 0) } }
theorem test_PowerStates_8 : wk.onlyWaits (pwC 0) = true ∧ chk wk .powerWakeDone (fun t => decide (t.answered (pw 0) stOK 0 [] ∧ t.host.cmds = [] ∧ t.dev.power = 0 ∧ t.dev.changing = 0 ∧ t.dev.lost = 0x017E0E00)) = true := by decide +kernel
def rs (k i : Nat) : Msg := msg 0x801 (k + i * 65536)
def rsB : Blk := { liveH with mem := [(5, 1#8), (tpAddr 3 4, 2#8)], coves := [(3, { seq := { prog := [(0, 9)], count := 1 } })] }
theorem test_Resets_1 : rsB.takes (rs 1 0) = true ∧ (rsB.asCmd (rs 1 0)).flag 15 = false ∧ chk rsB (.resetDevice (rs 1 0)) (fun t => decide (t.dev.changing = 3 ∧ t.dev.svc = false ∧ t.coves = [] ∧ t.mem = [(5, 1#8)] ∧ (t.ctx 0).st = 1 ∧ t.fw = {})) = true := by decide +kernel
def rsM1 : Msg := { rs 1 0 with flags := 8 }
theorem test_Resets_2 : rsB.devMode = 4 ∧ rsB.powerChanging = false ∧ rsB.takes (rs 2 0) = true ∧ chk rsB (.resetLighthouse (rs 2 0)) (fun t => decide (t.awaits (rs 2 0) ∧ t.host.intakeStopped = true ∧ t.cores.lhReset = some (0, 0) ∧ t.dev.closed = [(3, 0)])) = true := by decide +kernel
theorem test_Resets_3 : rsB.takes (rs 3 0) = true ∧ rsB.quiet = true := by decide +kernel
theorem test_Resets_4 : rsB.takes (rs 4 3) = true ∧ chk rsB (.resetCove (rs 4 3)) (fun t => decide (t.awaits (rs 4 3) ∧ (t.cove 3).clearing = true ∧ (t.seq 3).prog = [] ∧ t.dev.closed = [(0, 3)] ∧ t.mem = [(5, 1#8)])) = true := by decide +kernel
theorem test_Resets_5 : rsB.takes (rs 5 3) = true ∧ chk rsB (.resetLink (rs 5 3)) (fun t => decide (t.awaits (rs 5 3) ∧ (t.link 3).enabled = true ∧ (t.link 3).cmd = some (0, 0) ∧ (t.link 3).cmdKind = 5 ∧ (t.link 3).st = 1 ∧ t.dev.closed = [(2, 3)])) = true := by decide +kernel
theorem test_Resets_6 : rsB.takes (rs 6 3) = true ∧ chk rsB (.resetStack (rs 6 3)) (fun t => decide (t.awaits (rs 6 3) ∧ t.stack 3 = { rsB.stack 3 with retrain := true, busyCmd := some (0, 0) } ∧ t.dev.closed = [(1, 3)])) = true := by decide +kernel
def rsting (low : Bool) : Blk := { liveH with dev := { changing := 3, mrstLow := low } }
theorem test_Resets_7 : chk (rsting false) .resetDeviceDone (fun t => decide (t.dev = { lost := 0x01FF0FFF, lostKind := 1 })) = true ∧ chk (rsting true) .mrstNRelease (fun t => decide (t.dev = { lost := 0x01FF0FFF, lostKind := 1 })) = true ∧
  chk rsB .mrstNAssert (fun t => decide (t.dev.mrstLow = true ∧ t.dev.changing = 3 ∧ t.devMode = 1 ∧ t.mem = [(5, 1#8)])) = true := by decide +kernel
def sp : Msg := msg 0x901 (0x979 + 16 * 65536)
def spBay : Blk := { liveH with hls := [(9, { ready := 1 })], bays := [(0x97, { coveMap := (List.range 16).map fun i => (i, i) })] }
theorem test_Repairs_1 : liveH.takes sp = true ∧ liveH.quiet = true ∧ liveH.covesOk 0xFF [0x979] = true ∧ liveH.coveScrub 0x979 = false := by decide +kernel
def spC : Cmd := { m := sp, started := true, queued := true }
def spW : Blk := waiting sp { liveH with tide := 9, bays := [(0x97, { sparing := some (0x979, 16, 0, 4) })] }
theorem test_Repairs_2 : spW.onlyWaits spC = true ∧ spW.quiet = true ∧ swf (fun i => Config.fusedSlot 0x97 i) (spW.bay 0x97).coveMap = true := by decide +kernel
def hr : Msg := msg 0x902 (2 + 5 * 16 + 3 * 512 + 7 * 2 ^ 14)
theorem test_Repairs_3 : liveH.takes hr = true ∧ (liveH.stack 2).usable = true := by decide +kernel
def hrC : Cmd := { m := hr, started := true, queued := true, vars := [4] }
def hrW : Blk := { liveH with tide := 9, hbmStacks := [(2, { ready := 1, bankBlocked := some 163, busyCmd := some (0, 0), repairs := [(163, 7)] })], host := { liveH.host with cmds := [hrC] } }
theorem test_Repairs_4 : hrW.onlyWaits hrC = true ∧ hrW.rowUes 2 163 7 = [] ∧ chk hrW (.hbmRepairDone 2) (fun t => decide (t.answered hr stOK 0 (leBytes 8 5) ∧ t.host.cmds = [] ∧ t.stack 2 = { ready := 1, repairs := [(163, 7)], pprDone := 1 })) = true := by decide +kernel
def ls : Msg := msg 0x903 (2 + 5 * 16 + 9 * 256)
theorem test_Repairs_5 : liveH.takes ls = true ∧ (liveH.stack 2).usable = true := by decide +kernel
def lsC : Cmd := { m := ls, started := true, queued := true, vars := [4] }
def lsW : Blk := { liveH with tide := 9, hbmStacks := [(2, { ready := 1, channelHeld := some 5, busyCmd := some (0, 0), spareUsed := [(5, 1)] })], host := { liveH.host with cmds := [lsC] } }
theorem test_Repairs_6 : lsW.onlyWaits lsC = true ∧ chk lsW (.stackLaneSpareDone 2) (fun t => decide (t.answered ls stOK 0 (leBytes 8 5) ∧ t.host.cmds = [] ∧ t.stack 2 = { ready := 1, spareUsed := [(5, 1)], spared := 1 })) = true := by decide +kernel
theorem test_BoardPins_1 : chk { dev := { powered := false }, free := 3 } .pwrOkAssert (fun t => decide (t = { Blk.reset with free := 3 })) = true ∧ chk rsB .pwrOkDeassert (fun t => decide (t.dev = { powered := false } ∧ t.mem = [] ∧ t.host.cmds = [] ∧ t.coves = [] ∧ t.parts = [])) = true ∧
  chk rsB .errMergeWindowEnd (fun t => decide (t.err = rsB.err)) = true := by decide +kernel
theorem test_BoardPins_2 : chk rsB (.mainInputWarn 41000) (fun t => decide (t.board.mainMv = 41000 ∧ tbit t.board.alerts 3 = true)) = true ∧ chk rsB (.mainInputFault 39000) (fun t => decide (t.dev.fatal = true ∧ t.board.mainOk = false ∧ t.host.cmds = [] ∧ t.err.next = 1)) = true ∧
  chk rsB (.mainInputCollapse 9) (fun t => decide (t.dev.fatal = true ∧ t.board.mainOk = false ∧ t.mem = [] ∧ t.coves = [])) = true ∧ chk rsB .sysclkLoss (fun t => decide (t.dev.fatal = true ∧ t.board.sysclk = false ∧ t.err.next = 1)) = true := by decide +kernel
def lk : Blk := { rsB with board := { rsB.board with lref0 := true }, links := [(16, { st := 6 }), (18, { st := 6 })] }
theorem test_BoardPins_3 : chk lk (.lrefLoss 0) (fun t => decide (t.board.lref0 = false ∧ (t.link 16).st < 2 ∧ (t.link 18).st = 6)) = true ∧ chk rsB (.lrefReturn 1) (fun t => decide (t.board.lref1 = true)) = true := by decide +kernel
def thB : Blk := { rsB with board := { rsB.board with steps := [0, 2, 0, 0] } }
theorem test_BoardPins_4 : chk thB (.throttleStepDown 1 1600) (fun t => decide (t.board.steps = [0, 3, 0, 0])) = true ∧ chk thB (.throttleStepUp 1 1551) (fun t => decide (t.board.steps = [0, 1, 0, 0])) = true ∧
  chk thB (.thermalTrip 1 1680) (fun t => decide (t.dev.fatal = true)) = true ∧ chk thB (.thermalTrip 1 1679) (fun t => decide (t = { thB with board := thB.board.read 1 1679 })) = true := by decide +kernel
theorem test_BoardBus_1 : chk thB .smbId (fun t => decide (t.board.smb = leBytes 8 dvId)) = true ∧ chk thB .smbTj (fun t => decide (t.board.smb = [0#8, 0#8])) = true ∧ chk thB (.smbAlertMask 0xE) (fun t => decide (t.cfgGet 0xF10 = 7 * 0x200)) = true ∧
  chk { thB with board := { thB.board with alerts := 6 } } (.smbAlertClear 2) (fun t => decide (t.board.alerts = 4)) = true ∧ chk thB .tapIdcode (fun t => decide (t.board.tapDr = leBytes 4 0x10B3354F)) = true ∧
  chk thB .tapExtest (fun t => decide (t.board.tapDr = [0#8])) = true ∧ chk { thB with dev := { thB.dev with mrstLow := true } } .tapExtest (fun t => decide (t.board.tapIr = 3 ∧ t.board.tapDr = [])) = true := by decide +kernel
theorem test_PacketHeadersReadBack_1 : ({ dst := 1, src := 2, kind := 1, addr := 5, len := 3, data := [7#8] } : Pkt).wf = true := by decide +kernel
end GW14

/-! ### Worked examples of the manual -/

namespace GW15
/-- The Tidepool of Cove 9 of Bay 7 of Headland 1 on die 2 (after R18). -/
theorem test_address_example : tpAddr 0x979 0 = 0x04025E400000 ∧ 5 * 2 ^ 9 + 12 * 2 ^ 4 + 3 = 0xAC3 ∧ 0xAC3 * 2 ^ 43 + tpAddr 0x979 0 = 0x00561C025E400000 := by decide +kernel
/-- DV_ID (R64). -/
theorem test_dvId_example : leBytes 8 dvId = [0x58#8, 0x4C#8, 0x33#8, 0x0B#8, 0xB0#8, 0x03#8, 0#8, 0#8] := by decide +kernel
/-- The E4M3 block converted to INT8 (after R85), under RNE and RTZ. -/
def e4 : List Val := ([0x6C, 0x55, 0x4D, 0x3E, 0x32, 0x2E] ++ List.replicate 26 0).map (elVal fE4M3)
theorem test_blockInt_example : blockInt fE4M3 rNE e4 0 (List.replicate 32 0) = ([96, 13, 6, 2, 1, 0] ++ List.replicate 26 0, 0, 0) ∧
  (blockInt fE4M3 rTZ e4 0 (List.replicate 32 0)).1.take 6 = [96, 13, 6, 1, 0, 0] := by decide +kernel
/-- The E2M1 digits of TQ3 (after R93). -/
theorem test_tq3_example : [3, 9, 7, 0, 0xD].map (fun c => btDigits 3 (intImage fE2M1 c)) = [[0, 1, 0], [-1, 0, 0], [0, 1, 1], [0, 0, 0], [0, 1, -1]] := by decide +kernel
/-- The EXACT128 accumulation (after R141): 37 × 2^4 and −5 × 2^−66 land, and 3 × 2^124 makes INF. -/
theorem test_accumulation_example : land 1 (unitL 1 0x80) 37 4 { v := 0 } = { v := 592 * 2 ^ 64 } ∧ land 1 (unitL 1 0x80) (-5) (-66) { v := 592 * 2 ^ 64 } = { v := 592 * 2 ^ 64 - 1, inexact := 1 } ∧
  (land 1 (unitL 1 0x80) 3 124 { v := 0 }).v = infVal 1 := by decide +kernel
/-- The gradient surge (after R164). -/
def slot12 : Watch := { ctl := 2 + 4 + 8 + 4 * 2 ^ 4 + 24 * 2 ^ 8 + 48 * 2 ^ 16 + 2 * 2 ^ 32 + toTwos 16 (-20) * 2 ^ 48, init := true, ema := 139264 }
theorem test_surge_example : slot12.ema16 = 544 ∧ sampleNorm (2 ^ 114) slot12.sl = 592 ∧ (slot12.judge 592 0).surge = 1 ∧ sampleNorm (2 ^ 106) slot12.sl = 528 ∧ slot12.judge 528 0 = ⟨true, 0, 139008, 1, 0⟩ := by decide +kernel
/-- Where HBM address 0x12345600 lies (after R351). -/
theorem test_hbm_example : live.stackOf 0x12345600 = 12 ∧ live.pcBankRow 0x12345600 = (20, 6, 18) := by decide +kernel
/-- The code of the first MACC of the ternary projection (after R197) as printed there, and its bytes; the header of R173, which governs (R3), has UNIT 1 and FMT_A 6 where it has 6
and 0 (log entry 76). -/
def maccW : Nat := 0x11600000001001000040400000010000
theorem test_macc_example : wOpcode maccW = 0x11 ∧ fld maccW 119 112 = 0x60 ∧ leBytes 16 maccW = [0#8, 0#8, 1#8, 0#8, 0#8, 0x40#8, 0x40#8, 0#8, 0#8, 1#8, 0x10#8, 0#8, 0#8, 0#8, 0x60#8, 0x11#8] := by decide +kernel
/-- The refill of account 7 (after R346). -/
theorem test_refill_example : ({ cap := 1000, rate := 858993, bal := -3 * 2 ^ 32 } : Account).refill 820000 = 691489358112 := by decide +kernel
/-- The routes of A's packets to D, at (6, 2, 1) and by way of (3, 4, 1) (after R417). -/
theorem test_route_example : ({ dims := 7 + 7 * 32 + 3 * 1024 + 7 * 2 ^ 14 } : Slice).hopFace (3 * 512 + 5 * 16 + 1) 0x0C21 = some 0 ∧ ({ dims := 7 + 7 * 32 + 3 * 1024 + 7 * 2 ^ 14 } : Slice).hopFace (3 * 512 + 5 * 16 + 1) (rtVia 0x14641) = some 3 ∧
  rtVia 0x14641 = 0x641 ∧ rtMode 0x14641 = 1 ∧ rtMember 0x14641 = true := by decide +kernel
/-- The Breakwater sums (after R440). -/
theorem test_breakwater_example : addFp32 0x4B800000 0x3F800000 = 0x4B800000 ∧ addFp32 (addFp32 0x4B800000 0x3F800000) (addFp32 0x3F800000 0xCB800000) = 0x3F800000 := by decide +kernel
/-- The 2:4 metadata (after R240). -/
def d24 : SpDesc := { (({} : Blk).spDesc 0 0) with layout := 0, nm := 1, rows := 1, extent := 20 }
theorem test_metadata_example : validate d24 [0x62, 9, 0x2B, 0x26, 0x15] [] = some (1, 2) ∧ validate d24 [0x62, 9, 0x46, 0x26, 0x15] [] = some (2, 3) ∧ validate d24 [0x62, 9, 0x46, 0x22, 0x15] [] = some (3, 4) ∧
  validate d24 [0x62, 9, 0x46, 0x22, 0x0D] [] = none := by decide +kernel
/-- The four tokens routed (after R303), scores not shown being 0. -/
def sc (l : List (Nat × Nat)) : List Nat := (List.range 8).map fun i => sget (fun _ => 0) l i
def toks : List (List Nat) := [sc [(1, 0x3F800000), (3, 0x40000000), (5, 0x40000000)], sc [(0, 0x3ECD82AF), (1, 0x3DCCCCCD), (2, 0x7FC00000), (3, 0x3FC00000), (4, 0x3E4CCCCD), (5, 0xBF800000), (6, 0x3E99999A)],
  sc [(3, 0x40400000), (4, 0x3F666666), (5, 0x3F800000)], sc [(3, 0x40200000), (5, 0x40200000), (7, 0x4019999A)]]
theorem test_routing_example : (settleAll toks 2 1 1 fun _ => 2).1.map (fun q => (q.1.2, q.1.1, q.2.expert, q.2.rerouted, q.2.dropped)) =
    [(0, 0, 3, false, false), (1, 0, 3, false, false), (2, 0, 4, true, false), (3, 0, 7, true, false), (0, 1, 5, false, false), (1, 1, 0, false, false), (2, 1, 5, false, false), (3, 1, 5, false, true)] ∧
  (settleAll toks 2 1 1 fun _ => 2).2 = [(0, 1), (3, 2), (4, 1), (5, 2), (7, 1)] := by decide +kernel
theorem test_routeSlot_example : routeSlot { expert := 4, rerouted := true, crank := 2 } 0x3EF3 = 0x000000023EF32004 ∧ routeSlot { expert := 5, dropped := true, crank := 1 } 0 = 0x0000000100001005 := by decide +kernel
/-- R508's example: PATH of Cove 0x979 in physical slot 9. -/
theorem test_spare_example : bayOf 0x979 = 151 := by decide +kernel
end GW15

/-! ### Statements about the whole machine -/

theorem test_NopAndHelloComplete_2 : live.takes (msg 1 0) = true := by decide +kernel
theorem test_PacketHeadersReadBack_2 : (zeros 32).length = 32 ∧ leAt (zeros 32) 7 1 < 16 := by decide +kernel
theorem test_EveryStepKeepsMemory_1 : (st live).memOk ∧ step { blk := live } = .next { blk := live.idleStep } := by
  exact ⟨by unfold State.memOk; decide +kernel, rfl⟩
theorem test_EveryCommandCompletes_1 : (Instr.nop 3).rowOk = true ∧ (Instr.nop 4096).rowOk = false ∧
    (match exec (.nop 4096) (st live) with | .fault .noSuchUnit => true | _ => false) = true := by decide +kernel
/-- The queue is first in, first out, and withFetchWord leaves a state as it is: the table gives no word any bits. -/
theorem test_step_queue : (match step { pending := [.smbId, .smbTj], blk := live } with | .next t => decide (t.pending = [.smbTj] ∧ t.blk.board.smb = leBytes 8 dvId) | _ => false) = true ∧
    decodeTableWord 16 5 = none ∧ (st live).withFetchWord 16 5 = st live := by decide +kernel

/-! ### Ill-formed commands -/

/-- Every field of a message that does not fit its place is refused. -/
theorem test_msg_wf : (msg 0 0).wf = true ∧
    [{ msg 0 0 with port := 2 }, { msg 0 0 with major := 256 }, { msg 0 0 with minor := 256 }, { msg 0 0 with opcode := 65536 }, { msg 0 0 with ctx := 4096 },
      { msg 0 0 with flags := 2 ^ 20 }, { msg 0 0 with seq := 2 ^ 32 }, { msg 0 0 with plen := 2 ^ 32 }, { msg 0 0 with cls := 256 }, { msg 0 0 with partition := 256 },
      { msg 0 0 with reserved := 65536 }, { msg 0 0 with deadline := 2 ^ 32 }, { msg 0 0 with param := 2 ^ 64 }].all (fun m => !m.wf) = true := by decide +kernel
/-- Every field of a packet that does not fit its place is refused. -/
theorem test_pkt_wf : ({} : Pkt).wf = true ∧
    [({ dst := 65536 } : Pkt), { src := 65536 }, { via := 65536 }, { kind := 256 }, { phase := 2 }, { pseq := 2 ^ 32 }, { tag := 65536 }, { hops := 256 }, { part := 256 },
      { addr := 2 ^ 64 }, { len := 2 ^ 32 }, { status := 65536 }, { cause := 65536 }].all (fun p => !p.wf) = true := by decide +kernel
theorem test_access_wf : ({ kind := .write, cove := 3, addr := 0, data := [1#8] } : Ingress).wf = true ∧
    [({ kind := .write, cove := 4096, addr := 0, data := [1#8] } : Ingress), { kind := .write, cove := 3, addr := 0 }, { kind := .read, cove := 3, addr := 0, len := 4097 },
      { kind := .write, cove := 3, addr := 4194304, data := [1#8] }].all (fun a => !a.wf) = true := by decide +kernel
/-- A command for a unit that the device does not have, or with another row's message, is refused. -/
theorem test_row_wf : [Instr.cmdNop (msg 1 0), .nop 4096, .progStartInstant 4096 0, .spanCommitPoint 16 0, .spanCommitPoint 0 16, .linkSetActive (msg 0x602 16), .sliceLeave (msg 0x600 0 (zeros 16)),
    .hbmRepairDone 16, .coveSpareCopyDone 256, .lrefReturn 2, .dmaCopy 256 0, .dmaCopy 0 17, .seqSregWrite (wr (cfgCV 1) 0), .smbAlertMask 0].map (fun i => i.wf) =
    [false, false, false, false, false, false, false, false, false, false, false, false, false, true] := by decide +kernel

/-! ### Numbers, the array and the last witnesses of samples and loops -/

namespace GW18
def tileAt (w : Nat) (q : Seq) (x : Cove := {}) : Blk := { liveH with coves := [(3, { x with seq := { q with st := 1, count := 9, prog := [(q.pc, w)] } })] }
/-- A loop whose body ends here has a pass to go, or none. -/
def loopB (n : Nat) : Blk := tileAt 0 { pc := 4, lregs := [(2, n)], loops := [(2, 1, 4)] }
theorem test_ControlInstructions_7 : (loopB 6).comes 3 0 = true ∧ chk (loopB 6) (.nop 3) (fun t => decide ((t.seq 3).pc = 1 ∧ (t.seq 3).lreg 2 = 5 ∧ (t.seq 3).loops = [(2, 1, 4)])) = true := by decide +kernel
theorem test_ControlInstructions_8 : (loopB 1).comes 3 0 = true ∧ chk (loopB 1) (.nop 3) (fun t => decide ((t.seq 3).pc = 5 ∧ (t.seq 3).lreg 2 = 0 ∧ (t.seq 3).loops = [])) = true := by decide +kernel
/-- A slot whose direction up is enabled, and a sample far above its average. -/
def upB : Blk := { liveH with watches := [(7, { ctl := 1 + 4 + 4 * 2 ^ 4 + 2 ^ 32, init := true, count := 1, sumsq := 2 ^ 40 })] }
theorem test_SampleCloses_2 : ((upB.watch 0 7).judge (sampleNorm (2 ^ 40) 0) 0).surge = 1 ∧
    chk upB (.watchSampleClose 0 7) (fun t => decide ((t.watch 0 7).closed = 1 ∧ (t.watch 0 7).ema = 0 ∧ (t.watch 0 7).surges = 1 ∧ (t.watch 0 7).lastN = 320 ∧ t.mem = upB.mem)) = true := by decide +kernel
theorem test_GeneratorAndRegisterWrites_4 : State.reset.blk.gen 9 63 = laneSeed 9 63 ∧ State.reset.blk.gen 4095 0 ≠ State.reset.blk.gen 4094 0 := by decide +kernel
/-- Seven trits in two bytes of T5, padded with digit 1; a byte of 243 is a fault at its place (R73). -/
theorem test_NumbersPackAndRound_1 : (t5Pack [1, 0, -1, 0, 1, 1, -1]).map BitVec.toNat = [2 + 3 + 27 + 2 * 81, 2 + 9 + 27 + 81] ∧ isOk (t5Read [242#8, 0#8, 243#8] 0 15) = false ∧
    isOk (t5Read [242#8, 0#8, 243#8] 0 10) = true := by decide +kernel
/-- 5/2 and 7/2 to the nearest even step, -11/4 toward zero, 5/4 up with a draw of three quarters (R86, R87). -/
theorem test_NumbersPackAndRound_2 : roundMag 0 0 5 2 0 0 = 2 ∧ roundMag 0 0 7 2 0 0 = 4 ∧ roundInt 1 0 (-11) (-2) = -2 ∧ roundMag 2 (3 * 2 ^ 30) 5 4 0 0 = 2 ∧
    roundMag 2 (3 * 2 ^ 30 - 1) 5 4 0 0 = 1 := by decide +kernel
/-- The entry at the edge of INT64, and one contribution beyond the window (R124). -/
theorem test_ContributionsLand_1 : (land 0 0 1 0 { v := 2 ^ 63 - 2 }).v = 2 ^ 63 - 1 ∧ (land 0 0 1 0 { v := 2 ^ 63 - 1 }).v = infVal 0 ∧ (land 0 0 (-3) (-1) { v := 5 }) = { v := 4, inexact := 1 } ∧
    (landAll 0 0 [(7, 0), (1, 63), (-9, 0)] { v := 0 }).v = infVal 0 := by decide +kernel
def maccOne : Nat := 0x11 * 2 ^ 120 + 0x16 * 2 ^ 112 + 2 ^ 76 + 2 * 2 ^ 66 + 0x80 * 2 ^ 47 + 0x1000 * 2 ^ 25 + 128 * 2 ^ 9
def maccB : Blk := { tileAt maccOne {} { slotA := { st := 2, n := 1, planes := [[1, -1] ++ List.replicate 62 0 ++ [0, 1]] }, acm := [(0, 100 :: List.replicate 31 0)] } with
  mem := [(tpAddr 3 0x1000, 5#8), (tpAddr 3 0x1001, 0xFD#8), (tpAddr 3 0x1020, 0x7F#8)] }
/-- The trits 1, −1 of column 0 and 0, 1 of column 1 meet the elements 5, −3 at scale 1. -/
theorem test_ArrayAccumulates_1 : swf (fun _ => ({} : Cove)) maccB.coves = true ∧ swf (fun _ => List.replicate 32 0) (maccB.cove 3).acm = true ∧ ((maccB.cove 3).accRow 0).length = 32 ∧
    arrM maccOne [] = 1 ∧ (maccB.streamTokens 3 maccOne [] 1 0).2 = none ∧ tbit (maccB.cove 3).slotA.zero (arrDepth maccOne) = false ∧ (maccB.runUnit 3 maccOne []).2 = okDone ∧
    ((maccB.runUnit 3 maccOne []).1.cove 3).accRow 0 = 108 :: toTwos 64 (-3) :: List.replicate 30 0 := by decide +kernel
end GW18

end Sys2Proof.Tests
end

section
/-! SUPPORT. Every row is one guarded update: the rule of its command where its operands name units of the device, the fault noSuchUnit
elsewhere (log entry 68). That every command completes is read off that shape. -/
namespace Sys2Proof.Machine

/-! ### What a guarded update answers -/

@[simp] theorem updIf_true (s : State) (f : Blk → Blk) : s.updIf true f = .next { s with blk := f s.blk } := rfl
@[simp] theorem updIf_false (s : State) (f : Blk → Blk) : s.updIf false f = .fault .noSuchUnit := rfl

/-- A meaning that updates the machine alone, under a condition on the operands alone. -/
def GuardedUpdate (ok : Bool) (meaning : State → Host.Outcome State Fault Refusal) : Prop :=
  ∃ f, ∀ s : State, meaning s = s.updIf ok f

/-- The row of a configuration write: the place of the word that the row asks for is the one that the command tests (R62, R63). -/
theorem write_guarded (m : Msg) (blk lo hi : Nat) (hb : blk = 0 ∨ blk = 2 ∨ blk = 6 ∨ blk = 7) :
    GuardedUpdate (m.writesReg blk lo hi) (fun s => s.updIf (writes m blk lo hi) fun b => b.command m) := by
  rw [writes_eq m blk lo hi hb]
  exact ⟨_, fun _ => rfl⟩

theorem GuardedUpdate.completes {ok : Bool} {meaning : State → Host.Outcome State Fault Refusal} (h : GuardedUpdate ok meaning) (s : State) :
    (ok = true → ∃ b, meaning s = .next { s with blk := b }) ∧ (ok = false → meaning s = .fault .noSuchUnit) := by
  obtain ⟨f, hf⟩ := h
  constructor
  · rintro rfl
    exact ⟨f s.blk, by rw [hf, updIf_true]⟩
  · rintro rfl
    rw [hf, updIf_false]

/-! ### The rows -/

/-- The meaning of every row is an update guarded by the row's well-formedness. Register writes find the block of their word in two
ways, which agree; of every other row the two conditions are one by definition. -/
theorem exec_guarded (i : Instr) : GuardedUpdate i.rowOk (exec i) := by
  cases i with
  | tpArbSet m | tpCacheResize m => exact write_guarded m 7 0x3800 0x3808 (by decide)
  | tpSlotmapWrite m => exact write_guarded m 7 0x3808 0x3810 (by decide)
  | tpInboxWrite m => exact write_guarded m 7 0x3900 0x3A00 (by decide)
  | tpRingWrite m => exact write_guarded m 7 0x3A00 0x3E00 (by decide)
  | srReseed m => exact write_guarded m 7 0x3000 0x3010 (by decide)
  | srStateWrite m => exact write_guarded m 7 0x3100 0x3200 (by decide)
  | arrCtlWrite m => exact write_guarded m 7 0x1000 0x1008 (by decide)
  | seqSregWrite m => exact write_guarded m 7 0x100 0x200 (by decide)
  | spillCfgWrite m => exact write_guarded m 6 0x100 0x300 (by decide)
  | tableHoldWrite m => exact write_guarded m 2 0x1000 0x1200 (by decide)
  | hbmMapWrite m => exact write_guarded m 0 0x400 0x408 (by decide)
  | alertClear m => exact write_guarded m 0 0xF10 0xF18 (by decide)
  | _ => exact ⟨_, fun _ => rfl⟩

/-- Settles O58: each row is a guarded update, which completes or is the fault noSuchUnit. -/
theorem everyCommandCompletes : Obligations.EveryCommandCompletes :=
  fun i => (exec_guarded i).completes

end Sys2Proof.Machine
end

section
/-! SUPPORT. What a command of the host does on the host side: its own context, the frames that the ports carry and the uncompleted commands
change, and nothing else there. -/
namespace Sys2Proof.Machine

variable {b x y z : Blk} {m : Msg} {c : Cmd} {l k : List Nat}

/-! ### Commands as rows -/

/-- A row whose operands name units of the device leads to the state that its rule gives. -/
theorem does_of_updIf {s : State} {i : Instr} {ok : Bool} {f : Blk → Blk} {P : Blk → Prop} (he : exec i s = s.updIf ok f) (hok : ok = true)
    (hP : P (f s.blk)) : s.does i P :=
  ⟨f s.blk, by rw [he, hok, updIf_true], hP⟩
theorem isFor_takes {op : Nat} (h : b.takes m = true) (hop : m.opcode = op) : isFor m op = true := by
  simp [isFor, hop, (takes_facts h).2.2.2.2]
/-- The rule of an opcode that the table of rules lists. -/
theorem runOp_eq {op : Nat} {r : Nat × (Blk → Cmd → Blk)} (hop : c.m.opcode = op) (hr : opRuns.find? (fun q => q.1 == op) = some r) :
    b.runOp c = r.2 b c := by
  unfold Blk.runOp; rw [hop, hr]

/-! ### What stays beside the host side -/

theorem Blk.SameButHost.refl : x.SameButHost x := ⟨rfl⟩
theorem Blk.SameButHost.trans (h : x.SameButHost y) (g : y.SameButHost z) : x.SameButHost z :=
  ⟨by rw [← g.eq, ← h.eq]⟩
theorem Blk.SameButHost.symm (h : x.SameButHost y) : y.SameButHost x := ⟨by rw [← h.eq]⟩
theorem Blk.SameButHost.of_host (h : HostSide) : x.SameButHost { x with host := h } := ⟨rfl⟩
theorem extendCfg_host (h : HostSide) : ({ b with host := h } : Blk).extendCfg m = { b.extendCfg m with host := h } := by
  unfold Blk.extendCfg
  cases b.fw.running.isNone <;> rfl
theorem extendPm_host (h : HostSide) (p : Nat) (v : List Byte) : ({ b with host := h } : Blk).extendPm p m v = { b.extendPm p m v with host := h } := by
  unfold Blk.extendPm
  have : ({ b with host := h } : Blk).part p = b.part p := rfl
  rw [this]
  cases (decide (p < nParts) && (b.part p).st != 0) <;> rfl
/-- Measuring a command looks at nothing of the host side. -/
theorem measureCmd_host (h : HostSide) : ({ b with host := h } : Blk).measureCmd m = { b.measureCmd m with host := h } := by
  unfold Blk.measureCmd
  simp only [extendCfg_host, extendPm_host]
  split
  · rfl
  · split <;> rfl
theorem measureCmd_sameButHost (h : x.SameButHost y) : (x.measureCmd m).SameButHost (y.measureCmd m) := by
  have e := measureCmd_host (b := x) (m := m) y.host
  rw [h.eq] at e
  rw [e]
  exact .of_host _

/-! ### What stays on the host side -/

/-- On the host side nothing changes but the contexts listed, the frames that the ports carry and the uncompleted commands. -/
def Blk.hostBut (b t : Blk) (l : List Nat) : Prop :=
  b.ctxsBut t l ∧ t.host.evSeq = b.host.evSeq ∧ t.host.intake = b.host.intake ∧ t.host.intakeStopped = b.host.intakeStopped

theorem hostFor_iff : b.hostFor x m ↔ b.hostBut x [m.ctx] := Iff.rfl
theorem Blk.hostBut.refl : x.hostBut x l := ⟨fun _ _ => rfl, rfl, rfl, rfl⟩
theorem Blk.hostBut.trans (h : x.hostBut y l) (g : y.hostBut z l) : x.hostBut z l :=
  ⟨fun n hn => (g.1 n hn).trans (h.1 n hn), g.2.1.trans h.2.1, g.2.2.1.trans h.2.2.1, g.2.2.2.trans h.2.2.2⟩
theorem Blk.hostBut.mono (h : x.hostBut y l) (hs : ∀ n ∈ l, n ∈ k) : x.hostBut y k :=
  ⟨fun n hn => h.1 n fun q => hn (hs n q), h.2⟩
/-- A machine with the same contexts, event sequence and intake. -/
theorem Blk.hostBut.of_same (h1 : y.host.ctxs = x.host.ctxs) (h2 : y.host.evSeq = x.host.evSeq) (h3 : y.host.intake = x.host.intake)
    (h4 : y.host.intakeStopped = x.host.intakeStopped) : x.hostBut y l :=
  ⟨fun _ _ => by unfold Blk.ctx; rw [h1], h2, h3, h4⟩
theorem hostBut_of_host (h : y.host = x.host) : x.hostBut y l := .of_same (by rw [h]) (by rw [h]) (by rw [h]) (by rw [h])

theorem setCtx_hostBut (n : Nat) (v : Ctx) : x.hostBut (x.setCtx n v) [n] :=
  ⟨fun k hk => ctx_setCtx_ne x v (by simpa using hk), rfl, rfl, rfl⟩
theorem setPort_hostBut (p : Nat) (v : Port) : x.hostBut (x.setPort p v) l := .of_same (by simp) (by simp) (by simp) (by simp)
theorem dropCmd_hostBut : x.hostBut (x.dropCmd c) l := .of_same rfl rfl rfl rfl
theorem setCmd_hostBut : x.hostBut (x.setCmd c) l := .of_same rfl rfl rfl rfl
theorem measureCmd_hostBut : x.hostBut (x.measureCmd m) l := hostBut_of_host (by simp)
theorem entered_hostBut : b.hostBut (b.entered m) [m.ctx] := by
  unfold Blk.entered
  split
  · exact .of_same rfl rfl rfl rfl
  · exact (setCtx_hostBut _ _).trans (.of_same rfl rfl rfl rfl)
theorem sendOut_hostBut (o : Out) (n : Nat) : x.hostBut (x.sendOut o n) [o.ctx] := by
  unfold Blk.sendOut
  simp only
  split
  · exact setPort_hostBut _ _
  · exact setCtx_hostBut _ _
theorem replyTo_hostBut (p n : Nat) (v : List Byte) : x.hostBut (x.replyTo p n v) [n] := by
  unfold Blk.replyTo
  simp only
  split
  · unfold Blk.sendOn
    split
    · exact setPort_hostBut _ _
    · exact .refl
  · exact sendOut_hostBut _ _
theorem finalReply_hostBut (s : Bool) (st det : Nat) (pay : List Byte) : x.hostBut (x.finalReply m s st det pay) [m.ctx] := by
  unfold Blk.finalReply
  simp only
  split
  · exact (setCtx_hostBut _ _).trans (replyTo_hostBut _ _ _)
  · exact replyTo_hostBut _ _ _

/-! ### The end of a command in ST_OK -/

theorem closeDet_zero : b.closeDet 0 = (0, b) := by simp [Blk.closeDet, openDet]
/-- A command of kind I that ends in ST_OK is measured and answered. -/
theorem finish_ok_I {pay : List Byte} (h13 : c.flag 13 = false) (hl : x.logged c.ctx c.seq = false) (hk : dKind c.m.opcode = false) :
    x.finish c stOK 0 pay = ((x.measureCmd c.m).dropCmd c).finalReply c.m (c.m.opcode != 1) stOK 0 pay := by
  rw [finish_eq h13 hl, closeDet_zero, if_pos ⟨rfl, hk⟩]
/-- A command of kind D, measured as it was accepted, is answered. -/
theorem finish_ok_D {pay : List Byte} (h13 : c.flag 13 = false) (hl : x.logged c.ctx c.seq = false) (hk : dKind c.m.opcode = true) :
    x.finish c stOK 0 pay = (x.dropCmd c).finalReply c.m (c.m.opcode != 1) stOK 0 pay := by
  rw [finish_eq h13 hl, closeDet_zero, if_neg (by simp [hk])]
theorem finalReply_sameButHost (s : Bool) (st det : Nat) (pay : List Byte) : x.SameButHost (x.finalReply m s st det pay) := ⟨finalReply_host _ _ _ _ _⟩
theorem dropCmd_sameButHost : x.SameButHost (x.dropCmd c) := .of_host _
theorem finish_ok_I_same {pay : List Byte} (h13 : c.flag 13 = false) (hl : x.logged c.ctx c.seq = false) (hk : dKind c.m.opcode = false) :
    (x.measureCmd c.m).SameButHost (x.finish c stOK 0 pay) := by
  rw [finish_ok_I h13 hl hk]
  exact dropCmd_sameButHost.trans (finalReply_sameButHost _ _ _ _)
theorem finish_ok_D_same {pay : List Byte} (h13 : c.flag 13 = false) (hl : x.logged c.ctx c.seq = false) (hk : dKind c.m.opcode = true) :
    x.SameButHost (x.finish c stOK 0 pay) := by
  rw [finish_ok_D h13 hl hk]
  exact dropCmd_sameButHost.trans (finalReply_sameButHost _ _ _ _)
theorem finish_hostBut {st det : Nat} {pay : List Byte} (h13 : c.flag 13 = false) (hl : x.logged c.ctx c.seq = false) :
    x.hostBut (x.finish c st det pay) [c.m.ctx] := by
  rw [finish_eq h13 hl]
  refine .trans (.trans (hostBut_of_host ?_) dropCmd_hostBut) (finalReply_hostBut _ _ _ _)
  split <;> simp
theorem entered_sameButHost : b.SameButHost (b.entered m) := ⟨entered_host⟩

/-- A command that runs to its end as it starts: nothing else happens. The command that ends may have been marked as started. -/
theorem command_ends_as {st det : Nat} {pay : List Byte} (h : b.takes m = true) (hm : c.m = m)
    (hr : (b.entered m).runOp (b.asCmd m) = x.finish c st det pay) (hc : ∀ d ∈ x.host.cmds, d.m = m) (hs : x.still = true)
    (hl : x.logged m.ctx m.seq = false) : b.command m = x.finish c st det pay ∧ (b.command m).host.cmds = [] := by
  have h13 : c.flag 13 = false := by have := (takes_facts h).2.2.2.1; simpa [Cmd.flag, Blk.asCmd, hm] using this
  have hl' : x.logged c.ctx c.seq = false := by simpa [Cmd.ctx, Cmd.seq, hm] using hl
  have hcm : (x.finish c st det pay).host.cmds = [] := by
    rw [finish_cmds h13 hl', List.filter_eq_nil_iff]
    intro d hd
    simp [Cmd.ctx, Cmd.seq, hc d hd, hm]
  have he : b.command m = x.finish c st det pay := by
    refine command_waits h hr (by simp [Blk.noneReady, hcm]) ?_
    rw [still_congr, hs] <;> simp [finish_frame h13 hl']
  exact ⟨he, by rw [he, hcm]⟩

/-! ### A frame that leaves at once -/

theorem homeOf_set {n : Nat} (h : (x.ctx n).homeSet = true) : x.homeOf n = (x.ctx n).home := by simp [Blk.homeOf, h]
/-- A frame for a context whose home port can take it leaves there. -/
theorem sendOut_canSend {o : Out} (n : Nat) (h : x.canSend o = true) :
    x.sendOut o n = x.setPort (x.homeOf o.ctx) ((x.port (x.homeOf o.ctx)).push o) := by
  unfold Blk.canSend at h
  unfold Blk.sendOut
  simp [h]
/-- Whether a context's frame can leave depends on its home, on what it holds and on that port. -/
theorem canSend_congr {o : Out} {v : Ctx} (hc : y.ctx o.ctx = v) (hh : v.home = (x.ctx o.ctx).home) (hs : v.homeSet = (x.ctx o.ctx).homeSet)
    (hd : v.held = (x.ctx o.ctx).held) (hA : y.host.portA = x.host.portA) (hB : y.host.portB = x.host.portB) :
    y.homeOf o.ctx = x.homeOf o.ctx ∧ y.canSend o = x.canSend o ∧ ∀ p, y.port p = x.port p := by
  subst hc
  have h1 : y.homeOf o.ctx = x.homeOf o.ctx := by unfold Blk.homeOf; simp only [hh, hs, hA, hB]
  have h2 : ∀ p, y.port p = x.port p := fun p => by unfold Blk.port; rw [hA, hB]
  refine ⟨h1, ?_, h2⟩
  unfold Blk.canSend; simp only [h1, h2, hd]
/-- The final reply of a command whose context is open leaves at once on its home port, when that can take it (R47). -/
theorem finalReply_leftOn {s : Bool} {st det : Nat} {pay : List Byte} (hst : (x.ctx m.ctx).st ≠ 0)
    (hs : x.canSend (replyFrame x m st det pay) = true) :
    x.leftOn (x.finalReply m s st det pay) (x.homeOf m.ctx) (replyFrame x m st det pay) := by
  unfold Blk.finalReply
  simp only
  generalize hb1 : (if (s && (x.ctx m.ctx).st != 0) = true then _ else x : Blk) = b1
  obtain ⟨v, hv, hh, hhs, hd, hvs, hA, hB⟩ : ∃ v, b1.ctx m.ctx = v ∧ v.home = (x.ctx m.ctx).home ∧ v.homeSet = (x.ctx m.ctx).homeSet ∧
      v.held = (x.ctx m.ctx).held ∧ v.st ≠ 0 ∧ b1.host.portA = x.host.portA ∧ b1.host.portB = x.host.portB := by
    refine ⟨_, rfl, ?_⟩
    subst hb1
    split
    · rw [ctx_setCtx_new]
      · exact ⟨rfl, rfl, rfl, hst, rfl, rfl⟩
      · intro e; exact hst (congrArg Ctx.st e)
    · exact ⟨rfl, rfl, rfl, hst, rfl, rfl⟩
  obtain ⟨h1, h2, h3⟩ := canSend_congr (o := replyFrame x m st det pay) hv hh hhs hd hA hB
  rw [Blk.replyTo]
  simp only [hv, hvs, if_false]
  have := sendOut_canSend (x := b1) (o := replyFrame x m st det pay) 0 (h2.trans hs)
  unfold replyFrame at this h1 ⊢
  simp only at this h1
  rw [Blk.leftOn, this, h1, port_setPort, h3]
  rfl

end Sys2Proof.Machine
end

section
/-! SUPPORT. CMD_NOP and CMD_HELLO (R42, R47, R57, R58). -/
namespace Sys2Proof.Machine

variable {b x : Blk} {m : Msg} {c : Cmd}

/-- The context of a message that the device takes has a home port. -/
theorem takes_homeSet (h : b.takes m = true) : (b.ctx m.ctx).homeSet = true := by
  simp only [Blk.takes, Bool.and_eq_true] at h
  obtain ⟨⟨⟨⟨⟨⟨⟨⟨⟨-, hhome⟩, -⟩, -⟩, -⟩, -⟩, -⟩, -⟩, -⟩, -⟩ := h
  exact hhome
/-- Entering a message leaves its context open, with its home, what it holds and its replies. -/
theorem entered_ctx_self (h : b.takes m = true) :
    ((b.entered m).ctx m.ctx).st = 1 ∧ ((b.entered m).ctx m.ctx).home = (b.ctx m.ctx).home ∧
    ((b.entered m).ctx m.ctx).homeSet = (b.ctx m.ctx).homeSet ∧ ((b.entered m).ctx m.ctx).held = (b.ctx m.ctx).held := by
  have hst := (takes_facts h).1
  rw [ctx_entered hst]
  split <;> exact ⟨hst, rfl, rfl, rfl⟩

@[simp] theorem entered_still : (b.entered m).still = b.still := still_congr (by simp) (by simp) (by simp)
@[simp] theorem entered_logged (n q : Nat) : (b.entered m).logged n q = b.logged n q := logged_congr (by simp)

section
variable {pay : List Byte} (h : b.takes m = true) (hk : dKind m.opcode = false) (hr : (b.entered m).runOp (b.asCmd m) = (b.entered m).finish (b.asCmd m) stOK 0 pay)
include h hk hr

/-- A command of kind I without an effect of its own: it is measured and answered on the machine as it was entered. -/
theorem command_replies : b.command m = (((b.entered m).measureCmd m).dropCmd (b.asCmd m)).finalReply m (m.opcode != 1) stOK 0 pay := by
  obtain ⟨-, hs, hl, h13, -⟩ := takes_facts h
  have hle : (b.entered m).logged m.ctx m.seq = false := by rw [entered_logged, hl]
  rw [command_ends h hr (by simp) (by rw [entered_still, hs]) hle, finish_ok_I h13 hle hk]
  rfl
theorem command_replies_frame : { b.measureCmd m with host := (b.command m).host } = b.command m := by
  rw [command_replies h hk hr]
  exact ((measureCmd_sameButHost entered_sameButHost).trans (dropCmd_sameButHost.trans (finalReply_sameButHost _ _ _ _))).eq
theorem command_replies_hostFor : b.hostFor (b.command m) m ∧ (b.command m).host.cmds = [] := by
  rw [command_replies h hk hr, (finalReply_cmds _ _ _ _ _).1]
  exact ⟨entered_hostBut.trans (measureCmd_hostBut.trans (dropCmd_hostBut.trans (finalReply_hostBut _ _ _ _))), by simp [Blk.dropCmd]⟩
/-- Its reply is the last that the context keeps, unless it stands outside the context's series (R42). -/
theorem command_replies_answered (hop : m.opcode ≠ 1) : (b.command m).answered m stOK 0 pay := by
  obtain ⟨hst, -⟩ := entered_ctx_self h
  have hctx : (((b.entered m).measureCmd m).dropCmd (b.asCmd m)).ctx m.ctx = (b.entered m).ctx m.ctx := by simp [Blk.ctx, Blk.dropCmd]
  rw [command_replies h hk hr, Blk.answered, show (m.opcode != 1) = true by simpa using hop, finalReply_replies]
  · simp
  · rw [hctx, hst]; simp
/-- Its reply leaves at once when the home port can take it (R47). -/
theorem command_replies_leftOn (hs : b.canSend (replyFrame b m stOK 0 pay) = true) :
    b.leftOn (b.command m) (b.homeOf m.ctx) (replyFrame b m stOK 0 pay) := by
  obtain ⟨hst, hh, hhs, hd⟩ := entered_ctx_self h
  let y := ((b.entered m).measureCmd m).dropCmd (b.asCmd m)
  have hctx : y.ctx m.ctx = (b.entered m).ctx m.ctx := by simp [y, Blk.ctx, Blk.dropCmd]
  obtain ⟨h1, h2, h3⟩ := canSend_congr (x := b) (y := y) (o := replyFrame b m stOK 0 pay) hctx hh hhs hd (by simp [y, Blk.dropCmd]) (by simp [y, Blk.dropCmd])
  have hf : replyFrame y m stOK 0 pay = replyFrame b m stOK 0 pay := by simp [replyFrame, y]
  have hleft := finalReply_leftOn (x := y) (m := m) (s := m.opcode != 1) (st := stOK) (det := 0) (pay := pay) (by rw [hctx, hst]; simp)
    (by rw [hf, h2, hs])
  rw [command_replies h hk hr]
  unfold Blk.leftOn at hleft ⊢
  rw [hf, h3, show y.homeOf m.ctx = b.homeOf m.ctx from h1] at hleft
  exact hleft
/-- The sequence that the context expects is the one it expected as the message was entered (R42). -/
theorem command_replies_expect : ((b.command m).ctx m.ctx).expect = if m.opcode = 1 then (b.ctx m.ctx).expect else (m.seq + 1) % 2 ^ 32 := by
  have hctx : (((b.entered m).measureCmd m).dropCmd (b.asCmd m)).ctx m.ctx = (b.entered m).ctx m.ctx := by simp [Blk.ctx, Blk.dropCmd]
  rw [command_replies h hk hr, (finalReply_ctx _ _ _ _ _ _).2.2.2.2.2.2.2, hctx, ctx_entered (takes_facts h).1]
  split <;> rfl
end

/-! ### The two commands -/

theorem runOp_nop (hop : m.opcode = 0x0000) (hp : m.param = 0) : x.runOp (b.asCmd m) = x.finish (b.asCmd m) stOK 0 [] := by
  rw [runOp_eq (op := 0x0000) hop rfl]
  simp [Blk.doNopCmd, Blk.asCmd, hp]
theorem runOp_hello (hop : m.opcode = 0x0001) (hp : m.param = 0) (hport : m.port < 2) :
    x.runOp (b.asCmd m) = x.finish (b.asCmd m) stOK 0 (leBytes 8 dvId ++ leBytes 8 Config.serial.toNat ++
      leBytes 4 (m.port + 2 * bnat (x.ctx m.ctx).series) ++ leBytes 4 (if (x.ctx m.ctx).series then (x.ctx m.ctx).expect else 0)) := by
  rw [runOp_eq (op := 0x0001) hop rfl]
  simp only [Blk.doHello, Blk.asCmd, Cmd.ctx, hp, bne_self_eq_false, Bool.false_eq_true, if_false, Nat.mod_eq_of_lt hport] <;> rfl

/-- Neither command is measured (R493). -/
theorem measureCmd_of_not_measured (hop : m.opcode = 0x0000 ∨ m.opcode = 0x0001 ∨ m.opcode / 256 = 1 ∨ m.opcode / 256 = 3) : x.measureCmd m = x := by
  unfold Blk.measureCmd
  simp only [Bool.or_eq_true, decide_eq_true_eq]
  rw [if_neg (by omega), if_neg (by omega)]

/-- Settles O1: both commands run to their final reply on the machine as it was entered. -/
theorem nopAndHelloComplete : Obligations.NopAndHelloComplete := by
  unfold Obligations.NopAndHelloComplete
  refine ⟨fun s m h hop hp => ?_, fun s m h hop hp => ?_⟩
  · have hk : dKind m.opcode = false := by rw [hop]; rfl
    have hr := runOp_nop (b := s.blk) (x := s.blk.entered m) hop hp
    have hm : s.blk.measureCmd m = s.blk := measureCmd_of_not_measured (.inl hop)
    obtain ⟨hhost, hcmds⟩ := command_replies_hostFor h hk hr
    refine does_of_updIf rfl (isFor_takes h hop) ⟨?_, ?_, hhost, hcmds, ?_, ?_⟩
    · exact command_replies_answered h hk hr (by omega)
    · have := command_replies_frame h hk hr; rwa [hm] at this
    · rw [command_replies_expect h hk hr, if_neg (by omega)]
    · exact command_replies_leftOn h hk hr
  · have hk : dKind m.opcode = false := by rw [hop]; rfl
    have hr := runOp_hello (b := s.blk) (x := s.blk.entered m) hop hp (takes_facts h).2.2.2.2
    rw [ctx_entered (takes_facts h).1, if_pos hop] at hr
    have hm : s.blk.measureCmd m = s.blk := measureCmd_of_not_measured (.inr (.inl hop))
    refine does_of_updIf rfl (isFor_takes h hop) ⟨?_, ?_, (command_replies_hostFor h hk hr).1, ?_⟩
    · rw [command_replies_expect h hk hr, if_pos hop]
    · have := command_replies_frame h hk hr; rwa [hm] at this
    · exact command_replies_leftOn h hk hr

end Sys2Proof.Machine
end

section
/-! SUPPORT. The machine right after reset (R51, R453, R462). -/
namespace Sys2Proof.Machine

/-- Every map right after reset lists nothing, and so is in canonical form. -/
theorem reset_canon : State.reset.blk.canon := ⟨rfl, rfl, rfl, rfl, rfl, rfl, rfl, rfl⟩
/-- No descriptor, channel, notice or missing device is listed right after reset, and no command. -/
theorem reset_rests : State.reset.blk.rests = true := rfl

/-- Settles O57: what the reset values of the state are. -/
theorem resetState : Obligations.ResetState :=
  ⟨rfl, rfl, rfl, rfl, rfl, rfl, rfl, rfl, rfl, rfl, rfl, reset_canon, reset_rests⟩

end Sys2Proof.Machine
end

section
/-! SUPPORT. Reading and writing one word of configuration space (R62, R63). -/
namespace Sys2Proof.Machine

variable {b x t : Blk} {m : Msg} {c : Cmd} {off w : Nat} {l : List Nat}

/-! ### Little-endian numbers in a payload -/

theorem bytesAt_succ (v : List Byte) (o n : Nat) : bytesAt v o (n + 1) = v.getD o 0#8 :: bytesAt v (o + 1) n := by
  unfold bytesAt zeros
  by_cases h : o < v.length
  · rw [List.drop_eq_getElem_cons h, List.take_succ_cons, List.getD_eq_getElem _ _ h]
    simp only [List.length_cons, List.cons_append, Nat.add_sub_add_right]
  · have h1 : v.drop o = [] := List.drop_eq_nil_iff.mpr (by omega)
    have h2 : v.drop (o + 1) = [] := List.drop_eq_nil_iff.mpr (by omega)
    simp [h1, h2, List.replicate_succ, List.getD_eq_getElem?_getD, List.getElem?_eq_none (Nat.le_of_not_lt h)]
@[simp] theorem leAt_zero (v : List Byte) (o : Nat) : leAt v o 0 = 0 := by simp [leAt, bytesAt, zeros, leNat]
/-- A little-endian number is its first byte and the number of the bytes after it. -/
theorem leAt_succ (v : List Byte) (o n : Nat) : leAt v o (n + 1) = (v.getD o 0#8).toNat + 256 * leAt v (o + 1) n := by
  unfold leAt; rw [bytesAt_succ]; rfl
theorem leAt_lt (v : List Byte) (o n : Nat) : leAt v o n < 256 ^ n := by
  induction n generalizing o with
  | zero => simp
  | succ n ih =>
    have h1 := ih (o + 1)
    have h2 := (v.getD o 0#8).isLt
    rw [leAt_succ, Nat.pow_succ]
    omega
/-- The number of n + k bytes is that of the first n and that of the k after them. -/
theorem leAt_add (v : List Byte) (o n k : Nat) : leAt v o (n + k) = leAt v o n + 256 ^ n * leAt v (o + n) k := by
  induction n generalizing o with
  | zero => simp
  | succ n ih =>
    rw [Nat.add_right_comm, leAt_succ, ih, leAt_succ, Nat.pow_succ, Nat.add_right_comm o 1 n]
    ring_nf

/-! ### The checks of an access of one word -/

theorem cfgOffs_one : cfgOffs (cfgBase + off) 1 = [off] := by simp [cfgOffs]
/-- Context 0 may access any one word that is mapped (R62, R63). -/
theorem cfgCheck_one (ha : off % 8 = 0) (hm : cfgMapped off = true) : b.cfgCheck 0 (cfgBase + off) 1 = none := by
  have hb : (cfgBase + off) % 8 = 0 := by unfold cfgBase; omega
  simp [Blk.cfgCheck, cfgOffs_one, hb, hm, Blk.cfgReach]
theorem cfgPart_congr (h : x.parts = b.parts) (o : Nat) : x.cfgPart o = b.cfgPart o := by
  have hp : ∀ p, x.part p = b.part p := fun p => by unfold Blk.part; rw [h]
  unfold Blk.cfgPart Blk.partOfCove Blk.partOfHl
  simp only [hp]
theorem cfgScrub_congr (h : x.parts = b.parts) (o : Nat) : x.cfgScrub o = b.cfgScrub o := by
  have hp : ∀ p, x.part p = b.part p := fun p => by unfold Blk.part; rw [h]
  unfold Blk.cfgScrub
  rw [cfgPart_congr h]
  simp only [hp]
theorem cfgClosed_congr (h : x.dev = b.dev) (o : Nat) : x.cfgClosed o = b.cfgClosed o := by unfold Blk.cfgClosed; rw [h]
/-- A word of the DV_ block belongs to no partition and lies behind no crossing. -/
theorem cfgScrub_dv (h : off < 0x10000) : b.cfgScrub off = false ∧ b.cfgClosed off = false := by
  simp [Blk.cfgScrub, Blk.cfgPart, Blk.cfgClosed, cfgWhere, h]

/-! ### CMD_CFG_READ of DV_ERR_CTL -/

theorem cfgRead_errCtl : b.cfgRead 0xE00 = (b.cfgGet 0xE00, b) := by
  simp [Blk.cfgRead, cfgWhere, Blk.dvWord, timedWord]
theorem runOp_cfgRead_errCtl (hop : m.opcode = 0x0100) (h0 : m.ctx = 0) (hp : m.param = cfgBase + 0xE00) (hn : leAt m.payload 0 8 = 1) :
    x.runOp (b.asCmd m) = x.finish (b.asCmd m) stOK 0 (leBytes 8 (x.cfgGet 0xE00)) := by
  have hsplit : leAt m.payload 0 8 = leAt m.payload 0 2 + 256 ^ 2 * leAt m.payload 2 6 := leAt_add m.payload 0 2 6
  have h6 : leAt m.payload 2 6 = 0 := by have := leAt_lt m.payload 0 2; omega
  have h2 : leAt m.payload 0 2 = 1 := by omega
  obtain ⟨hscrub, hclosed⟩ := cfgScrub_dv (b := x) (off := 0xE00) (by decide)
  have hcheck : x.cfgCheck 0 (cfgBase + 0xE00) 1 = none := cfgCheck_one (by decide) (by decide)
  rw [runOp_eq (op := 0x0100) hop rfl]
  simp [Blk.doCfgRead, Blk.asCmd, Cmd.ctx, h0, hp, h2, h6, hcheck, cfgOffs_one, hscrub, hclosed, cfgRead_errCtl]

/-! ### Measuring a write (R493) -/

theorem extendCfg_congr (hf : x.fw = b.fw) (hp : x.parts = b.parts) : (x.extendCfg m).fw = (b.extendCfg m).fw ∧ (x.extendCfg m).parts = (b.extendCfg m).parts := by
  refine ⟨?_, by simp [hp]⟩
  unfold Blk.extendCfg
  rw [hf]
  split
  · exact hf
  · rfl
theorem extendPm_congr (p : Nat) (v : List Byte) (hf : x.fw = b.fw) (hp : x.parts = b.parts) :
    (x.extendPm p m v).fw = (b.extendPm p m v).fw ∧ (x.extendPm p m v).parts = (b.extendPm p m v).parts := by
  refine ⟨by simp [hf], ?_⟩
  have hq : x.part p = b.part p := by unfold Blk.part; rw [hp]
  unfold Blk.extendPm
  rw [hq]
  split
  · simp [Blk.setPart, hp]
  · exact hp
/-- What a write measures is read off the firmware's state and the partitions alone. -/
theorem measureWrite_congr (hf : x.fw = b.fw) (hp : x.parts = b.parts) :
    (x.measureWrite m l).fw = (b.measureWrite m l).fw ∧ (x.measureWrite m l).parts = (b.measureWrite m l).parts := by
  have key : ∀ (k : List Nat) (u v : Blk), u.fw = v.fw → u.parts = v.parts →
      (k.foldl (fun b p => b.extendPm p m []) u).fw = (k.foldl (fun b p => b.extendPm p m []) v).fw ∧
      (k.foldl (fun b p => b.extendPm p m []) u).parts = (k.foldl (fun b p => b.extendPm p m []) v).parts := by
    intro k
    induction k with
    | nil => exact fun u v h1 h2 => ⟨h1, h2⟩
    | cons p k ih => exact fun u v h1 h2 => ih _ _ (extendPm_congr p [] h1 h2).1 (extendPm_congr p [] h1 h2).2
  unfold Blk.measureWrite
  simp only [cfgPart_congr hp]
  split
  · exact key _ _ _ (extendCfg_congr hf hp).1 (extendCfg_congr hf hp).2
  · exact key _ _ _ hf hp
theorem extendCfg_eq : b.extendCfg m = { b with fw := (b.extendCfg m).fw } := by
  unfold Blk.extendCfg; split <;> rfl
theorem extendPm_eq (p : Nat) (v : List Byte) : b.extendPm p m v = { b with parts := (b.extendPm p m v).parts } := by
  unfold Blk.extendPm; split <;> rfl
/-- Measuring a write changes the firmware's state and the partitions alone. -/
theorem measureWrite_eq : b.measureWrite m l = { b with fw := (b.measureWrite m l).fw, parts := (b.measureWrite m l).parts } := by
  have key : ∀ (k : List Nat) (u : Blk), k.foldl (fun b p => b.extendPm p m []) u =
      { u with parts := (k.foldl (fun b p => b.extendPm p m []) u).parts } := by
    intro k
    induction k with
    | nil => exact fun u => rfl
    | cons p k ih =>
      intro u
      rw [List.foldl_cons, ih (u.extendPm p m []), extendPm_eq]
  unfold Blk.measureWrite
  simp only
  split
  · rw [key, extendCfg_eq]
  · rw [key]

@[simp] theorem measureWrite_frame : (b.measureWrite m l).cfg = b.cfg ∧ (b.measureWrite m l).board = b.board ∧ (b.measureWrite m l).hls = b.hls := by
  refine ⟨?_, ?_, ?_⟩ <;> rw [measureWrite_eq]

/-! ### CMD_CFG_WRITE of one word -/

theorem writesOne_facts (h : b.writesOne m off w = true) :
    b.takes m = true ∧ m.ctx = 0 ∧ m.opcode = 0x0101 ∧ m.param = cfgBase + off ∧ m.plen = 8 ∧ leAt m.payload 0 8 = w ∧ off % 8 = 0 ∧
    cfgMapped off = true ∧ b.cfgScrub off = false ∧ b.cfgClosed off = false ∧ cfgReserved [(off, w)] = none := by
  simp only [Blk.writesOne, Bool.and_eq_true, beq_iff_eq, Bool.not_eq_true', Option.isNone_iff_eq_none] at h
  obtain ⟨⟨⟨⟨⟨⟨⟨⟨⟨⟨h1, h2⟩, h3⟩, h4⟩, h5⟩, h6⟩, h7⟩, h8⟩, h9⟩, h10⟩, h11⟩ := h
  exact ⟨h1, h2, h3, h4, h5, h6, h7, h8, h9, h10, h11⟩
theorem writesOne_lt (h : b.writesOne m off w = true) : w < 2 ^ 64 := by
  obtain ⟨-, -, -, -, -, hw, -⟩ := writesOne_facts h
  rw [← hw]; exact leAt_lt _ _ 8
/-- A row of a register write holds the word at its place (R62). -/
theorem writes_of_writesOne {blk u o lo hi : Nat} (h : b.writesOne m off w = true) (hw : cfgWhere off = (blk, u, o)) (hlo : lo ≤ o) (hhi : o < hi) :
    writes m blk lo hi = true := by
  obtain ⟨ht, -, hop, hp, -⟩ := writesOne_facts h
  simp [writes, isFor_takes ht hop, hp, hw, hlo, hhi]
theorem runOp_cfgWrite (h : b.writesOne m off w = true) (hput : (b.entered m).groupPut (cfgGroup off) [(off, w)] = .ok x) :
    (b.entered m).runOp (b.asCmd m) = (x.measureWrite m [off]).finish (b.asCmd m) stOK 0 [] := by
  obtain ⟨-, h0, hop, hp, hl, hw, ha, hm, hscrub, hclosed, hres⟩ := writesOne_facts h
  have hcheck : (b.entered m).cfgCheck 0 (cfgBase + off) 1 = none := cfgCheck_one ha hm
  have hs : (b.entered m).cfgScrub off = false := by rw [cfgScrub_congr (by simp : (b.entered m).parts = b.parts), hscrub]
  have hc : (b.entered m).cfgClosed off = false := by rw [cfgClosed_congr (by simp : (b.entered m).dev = b.dev), hclosed]
  rw [runOp_eq (op := 0x0101) hop rfl]
  simp [Blk.doCfgWrite, Blk.asCmd, Cmd.ctx, h0, hp, hl, hcheck, cfgOffs_one, hs, hc, hw, hres, Blk.cfgWriteAll, hput]

section
variable (h : b.writesOne m off w = true) (hput : (b.entered m).groupPut (cfgGroup off) [(off, w)] = .ok x)
  (hx : { b with host := (b.entered m).host, cfg := x.cfg, board := x.board, hls := x.hls } = x)
include h hput hx

/-- A write of one word that is accepted changes what its register group changes, and is measured and answered. -/
theorem command_cfgWrite : (b.command m).answered m stOK 0 [] ∧ b.hostFor (b.command m) m ∧
    (b.command m).cfg = x.cfg ∧ (b.command m).board = x.board ∧ (b.command m).hls = x.hls ∧
    { b.measureWrite m [off] with host := (b.command m).host, cfg := (b.command m).cfg, board := (b.command m).board, hls := (b.command m).hls } =
      b.command m := by
  obtain ⟨ht, -, hop, -⟩ := writesOne_facts h
  obtain ⟨hst, hstill, hlog, h13, -⟩ := takes_facts ht
  have hmw := measureWrite_eq (b := x) (m := m) (l := [off])
  rw [(measureWrite_congr (b := b) (by rw [← hx]) (by rw [← hx])).1, (measureWrite_congr (b := b) (by rw [← hx]) (by rw [← hx])).2] at hmw
  generalize hy : x.measureWrite m [off] = y at hmw
  have hyh : y.host = (b.entered m).host := by rw [hmw, ← hx]
  have hyl : y.logged m.ctx m.seq = false := by rw [logged_congr (b := b) (by rw [hmw, ← hx]), hlog]
  have hys : y.still = true := by rw [still_congr (b := b) (by rw [hmw, ← hx]) (by rw [hmw, ← hx]) (by rw [hmw, ← hx]), hstill]
  have hyc : y.ctx m.ctx = (b.entered m).ctx m.ctx := by unfold Blk.ctx; rw [hyh]
  have hk : dKind (b.asCmd m).m.opcode = false := by show dKind m.opcode = false; rw [hop]; rfl
  have hmeas : y.measureCmd (b.asCmd m).m = y := measureCmd_of_not_measured (by show _ ∨ _ ∨ m.opcode / 256 = 1 ∨ _; omega)
  have hr := runOp_cfgWrite h hput
  rw [hy] at hr
  obtain ⟨he, -⟩ := command_ends_as ht rfl hr (by rw [hyh]; simp [Blk.asCmd]) hys hyl
  have hsame := finish_ok_I_same (pay := []) h13 hyl hk
  rw [hmeas, ← he] at hsame
  refine ⟨?_, ?_, by rw [← hsame.eq, hmw], by rw [← hsame.eq, hmw], by rw [← hsame.eq, hmw], ?_⟩
  · rw [he]
    exact finish_answered h13 hyl (by show m.opcode ≠ 1; omega) (by show (y.ctx m.ctx).st ≠ 0; rw [hyc, (entered_ctx_self ht).1]; simp) (by decide)
  · rw [he]
    exact entered_hostBut.trans ((hostBut_of_host hyh).trans (finish_hostBut h13 hyl))
  · rw [measureWrite_eq (b := b), ← hsame.eq, hmw, ← hx]
end

/-! ### The words of the DV_ block that O3 names -/

theorem groupPut_errCtl (h1 : fld w 15 0 ≠ 0) (h2 : fld w 31 16 ≠ 0) : x.groupPut (cfgGroup 0xE00) [(0xE00, w)] = .ok (x.cfgSet 0xE00 w) := by
  simp [Blk.groupPut, cfgGroup, cfgWhere, Blk.dvPut, h1, h2]
theorem groupPut_hbmMap (h : x.parts = []) : x.groupPut (cfgGroup 0x400) [(0x400, w)] = .ok (x.cfgSet 0x400 w) := by
  simp [Blk.groupPut, cfgGroup, cfgWhere, Blk.dvPut, h]
theorem groupPut_alert : x.groupPut (cfgGroup 0xF10) [(0xF10, w)] =
    .ok ({ x with board := { x.board with alerts := x.board.alerts - Nat.land x.board.alerts (w % 16 / 2 * 2) } }.cfgSet 0xF10 (fld w 11 9 * 0x200)) := by
  simp [Blk.groupPut, cfgGroup, cfgWhere, Blk.dvPut]

/-! ### The slots of a table store (R381) -/

theorem tab_setTab_new (h i : Nat) {v : TabSlot} (hv : v ≠ {}) : (x.setTab h i v).tab h i = v := by
  have hs : ((x.hl h).setSlot i v).slot i = v := sget_sset_new hv
  unfold Blk.setTab Blk.tab
  rw [hl_setHl_new, hs]
  intro e
  rw [e] at hs
  exact hv hs.symm
theorem tab_setTab_ne {h i g j : Nat} {v : TabSlot} (hv : v ≠ {}) (hn : (g, j) ≠ (h, i)) : (x.setTab h i v).tab g j = x.tab g j := by
  unfold Blk.setTab Blk.tab
  by_cases e : g = h
  · subst e
    have hj : j ≠ i := fun e => hn (by rw [e])
    rw [hl_setHl_new]
    · exact sget_sset_ne hj
    · intro e
      have hs : ((x.hl g).setSlot i v).slot i = v := sget_sset_new hv
      rw [e] at hs
      exact hv hs.symm
  · rw [hl_setHl_ne x _ e]
theorem tab_congr (h : t.hls = x.hls) (g j : Nat) : t.tab g j = x.tab g j := by unfold Blk.tab Blk.hl; rw [h]
theorem cfgWhere_tabSlot {h i : Nat} (hh : h < 16) (hi : i < 64) : cfgWhere (cfgHL h + 0x1000 + 8 * i) = (2, h, 0x1000 + 8 * i) := by
  unfold cfgWhere cfgHL
  rw [if_neg (by omega), if_neg (by omega), if_pos (by simp; omega)]
  have h1 : (0x100000 + h * 0x10000 + 0x1000 + 8 * i - 0x100000) / 0x10000 = h := by omega
  have h2 : (0x100000 + h * 0x10000 + 0x1000 + 8 * i) % 0x10000 = 0x1000 + 8 * i := by omega
  rw [h1, h2]
/-- A write to a slot that holds a current table sets or clears its HOLD. -/
theorem groupPut_tabSlot {h i : Nat} (hh : h < 16) (hi : i < 64) (hst : (x.tab h i).st = 2) :
    x.groupPut (cfgGroup (cfgHL h + 0x1000 + 8 * i)) [(cfgHL h + 0x1000 + 8 * i, w)] = .ok (x.setTab h i { x.tab h i with hold := tbit w 12 }) := by
  have hw := cfgWhere_tabSlot hh hi
  have hg : cfgGroup (cfgHL h + 0x1000 + 8 * i) = cfgHL h + 0x1000 + 8 * i := by simp [cfgGroup, hw]
  have ho : 0x1000 + 8 * i < 0x2000 := by omega
  have hidx : 8 * i / 8 = i := by omega
  simp [Blk.groupPut, hg, hw, Blk.midPut, ho, hidx, hst, TabSlot.settle]

theorem cfgGet_congr (h : t.cfg = x.cfg) (q : Nat) : t.cfgGet q = x.cfgGet q := by unfold Blk.cfgGet; rw [h]
/-- Configuration words after one of them is set on the machine as a message was entered. -/
theorem cfgGet_of_cfgSet {v : Nat} (hc : b.canon) (h : t.cfg = ((b.entered m).cfgSet off v).cfg) (hv : v < 2 ^ 64) :
    t.cfgGet off = v ∧ b.cfgBut t [off] := by
  refine ⟨?_, fun q hq => ?_⟩
  · rw [cfgGet_congr h, cfgGet_cfgSet _ _ _ (by simpa using hc.2.1), Nat.mod_eq_of_lt hv]
  · rw [cfgGet_congr h, cfgGet_cfgSet_ne _ _ (by simpa using hq), cfgGet_congr (x := b) (by simp)]

/-! ### O3 -/

/-- Reading one word that belongs to no partition. -/
theorem does_cfgRead_errCtl {s : State} (h : s.blk.takes m = true) (hop : m.opcode = 0x0100) (h0 : m.ctx = 0) (hp : m.param = cfgBase + 0xE00)
    (hn : leAt m.payload 0 8 = 1) : s.does (.cmdCfgRead m) fun t =>
      t.answered m stOK 0 (leBytes 8 (s.blk.cfgGet 0xE00)) ∧ { s.blk with host := t.host } = t ∧ s.blk.hostFor t m := by
  have hk : dKind m.opcode = false := by rw [hop]; rfl
  have hr := runOp_cfgRead_errCtl (b := s.blk) (x := s.blk.entered m) hop h0 hp hn
  rw [cfgGet_congr (x := s.blk) (by simp)] at hr
  have hframe := command_replies_frame h hk hr
  rw [measureCmd_of_not_measured (by omega)] at hframe
  exact does_of_updIf rfl (isFor_takes h hop)
    ⟨command_replies_answered h hk hr (by omega), hframe, (command_replies_hostFor h hk hr).1⟩

/-- A write that sets one word of cfg alone, once the register group's rule is known. -/
theorem command_cfgSet {v : Nat} (h : b.writesOne m off w = true) (hc : b.canon)
    (hput : (b.entered m).groupPut (cfgGroup off) [(off, w)] = .ok ((b.entered m).cfgSet off v)) (hv : v < 2 ^ 64) :
    (b.command m).answered m stOK 0 [] ∧ (b.command m).cfgGet off = v ∧ b.cfgBut (b.command m) [off] ∧
    { b.measureWrite m [off] with host := (b.command m).host, cfg := (b.command m).cfg } = b.command m ∧ b.hostFor (b.command m) m := by
  obtain ⟨hans, hhost, hcfg, hboard, hhls, hfr⟩ := command_cfgWrite h hput (by rw [← entered_host (b := b) (m := m)]; rfl)
  obtain ⟨hget, hbut⟩ := cfgGet_of_cfgSet hc hcfg hv
  rw [show (b.command m).board = (b.measureWrite m [off]).board by rw [hboard]; simp,
    show (b.command m).hls = (b.measureWrite m [off]).hls by rw [hhls]; simp] at hfr
  exact ⟨hans, hget, hbut, hfr, hhost⟩
theorem command_alert (h : b.writesOne m 0xF10 w = true) (hc : b.canon) : (b.command m).answered m stOK 0 [] ∧
    (b.command m).board.alerts = b.board.alerts - Nat.land b.board.alerts (w % 16 / 2 * 2) ∧ (b.command m).cfgGet 0xF10 = fld w 11 9 * 0x200 ∧
    b.cfgBut (b.command m) [0xF10] ∧
    { b.measureWrite m [0xF10] with host := (b.command m).host, cfg := (b.command m).cfg, board := (b.command m).board } = b.command m ∧
    { b.board with alerts := (b.command m).board.alerts } = (b.command m).board ∧ b.hostFor (b.command m) m := by
  obtain ⟨hans, hhost, hcfg, hboard, hhls, hfr⟩ := command_cfgWrite h groupPut_alert (by rw [← entered_host (b := b) (m := m)]; rfl)
  have hv : fld w 11 9 * 0x200 < 2 ^ 64 := by
    have : fld w 11 9 < 2 ^ 3 := Nat.mod_lt _ (by decide)
    omega
  obtain ⟨hget, hbut⟩ := cfgGet_of_cfgSet (b := b) (m := m) hc hcfg hv
  have hboard' : (b.command m).board = { b.board with alerts := b.board.alerts - Nat.land b.board.alerts (w % 16 / 2 * 2) } := by
    rw [hboard]; simp
  rw [show (b.command m).hls = (b.measureWrite m [0xF10]).hls by rw [hhls]; simp] at hfr
  exact ⟨hans, by rw [hboard'], hget, hbut, hfr, by rw [hboard'], hhost⟩
theorem command_tabSlot {k i : Nat} (h : b.writesOne m (cfgHL k + 0x1000 + 8 * i) w = true) (hk : k < 16) (hi : i < 64) (hst : (b.tab k i).st = 2) :
    (b.command m).answered m stOK 0 [] ∧ ((b.command m).tab k i).hold = tbit w 12 ∧ ((b.command m).tab k i).st = 2 ∧
    (∀ g j, (g, j) ≠ (k, i) → (b.command m).tab g j = b.tab g j) ∧
    { b.measureWrite m [cfgHL k + 0x1000 + 8 * i] with host := (b.command m).host, hls := (b.command m).hls } = b.command m ∧
    b.hostFor (b.command m) m := by
  have htab : ∀ g j, (b.entered m).tab g j = b.tab g j := fun g j => tab_congr (by simp) g j
  have hst' : ((b.entered m).tab k i).st = 2 := by rw [htab, hst]
  obtain ⟨hans, hhost, hcfg, hboard, hhls, hfr⟩ :=
    command_cfgWrite h (groupPut_tabSlot hk hi hst') (by rw [← entered_host (b := b) (m := m)]; rfl)
  have hne : ({ (b.entered m).tab k i with hold := tbit w 12 } : TabSlot) ≠ {} := fun e => by
    have := congrArg TabSlot.st e
    simp [hst'] at this
  have hself := tab_congr hhls k i
  rw [tab_setTab_new k i hne] at hself
  rw [show (b.command m).board = (b.measureWrite m [cfgHL k + 0x1000 + 8 * i]).board by rw [hboard]; simp [Blk.setTab],
    show (b.command m).cfg = (b.measureWrite m [cfgHL k + 0x1000 + 8 * i]).cfg by rw [hcfg]; simp [Blk.setTab]] at hfr
  exact ⟨hans, by rw [hself], by rw [hself]; exact hst', fun g j hgj => by rw [tab_congr hhls, tab_setTab_ne hne hgj, htab], hfr, hhost⟩

/-- Settles O3: CMD_CFG_READ returns the word; each write changes its register group, is measured and is answered. -/
theorem configWordsReadAndWrite : Obligations.ConfigWordsReadAndWrite := by
  unfold Obligations.ConfigWordsReadAndWrite
  refine ⟨fun s m => does_cfgRead_errCtl, fun s m w h h1 h2 hc => ?_, fun s m w h hparts hc => ?_, fun s m w h hc => ?_,
    fun s m k i w h hk hi hst => ?_⟩
  · obtain ⟨ht, -, hop, -⟩ := writesOne_facts h
    exact does_of_updIf rfl (isFor_takes ht hop) (command_cfgSet h hc (groupPut_errCtl h1 h2) (writesOne_lt h))
  · exact does_of_updIf rfl (writes_of_writesOne h rfl (by decide) (by decide))
      (command_cfgSet h hc (groupPut_hbmMap (by simpa using hparts)) (writesOne_lt h))
  · exact does_of_updIf rfl (writes_of_writesOne h rfl (by decide) (by decide)) (command_alert h hc)
  · exact does_of_updIf rfl (writes_of_writesOne h (cfgWhere_tabSlot hk hi) (by omega) (by omega)) (command_tabSlot h hk hi hst)

end Sys2Proof.Machine
end

section
/-! SUPPORT. What sending frames and events does on the host side (R38, R41, R47 to R49): contexts keep everything but what they hold, ports that
are up keep what they have sent before, and a port that is down stays as it is. -/
namespace Sys2Proof.Machine

variable {b x y z : Blk} {m : Msg} {c : Cmd}

/-- A port to whose replay buffer frames were added, or none. -/
def Port.grows (p q : Port) : Prop :=
  q.up = p.up ∧ q.trained = p.trained ∧ q.lanes = p.lanes ∧ q.rxNext = p.rxNext ∧ p.txBuf <+: q.txBuf
/-- The host side of y is that of x after frames and events were sent or held. -/
structure Blk.Sends (x y : Blk) : Prop where
  ctx : ∀ n, (x.ctx n).st ≠ 0 → (x.ctx n).sameButHeld (y.ctx n)
  port : ∀ p, (x.port p).grows (y.port p)
  down : ∀ p, (x.port p).up = false → y.port p = x.port p
  cmds : y.host.cmds = x.host.cmds
  intake : y.host.intake = x.host.intake
  stopped : y.host.intakeStopped = x.host.intakeStopped

theorem Ctx.sameButHeld_trans {u v w : Ctx} (h : u.sameButHeld v) (g : v.sameButHeld w) : u.sameButHeld w := by
  obtain ⟨h1, h2, h3, h4, h5, h6, h7, h8, h9, h10⟩ := h
  obtain ⟨g1, g2, g3, g4, g5, g6, g7, g8, g9, g10⟩ := g
  exact ⟨g1.trans h1, g2.trans h2, g3.trans h3, g4.trans h4, g5.trans h5, g6.trans h6, g7.trans h7, g8.trans h8, g9.trans h9, g10.trans h10⟩
theorem Port.grows_refl (p : Port) : p.grows p := ⟨rfl, rfl, rfl, rfl, List.prefix_rfl⟩
theorem Port.grows_push (p : Port) (o : Out) : p.grows (p.push o) := ⟨rfl, rfl, rfl, rfl, List.prefix_append _ _⟩
theorem Port.grows_trans {p q r : Port} (h : p.grows q) (g : q.grows r) : p.grows r := by
  obtain ⟨h1, h2, h3, h4, h5⟩ := h
  obtain ⟨g1, g2, g3, g4, g5⟩ := g
  exact ⟨g1.trans h1, g2.trans h2, g3.trans h3, g4.trans h4, h5.trans g5⟩

/-- A machine whose contexts, ports, commands and intake are the same. -/
theorem Blk.Sends.of_same (h1 : y.host.ctxs = x.host.ctxs) (h2 : y.host.portA = x.host.portA) (h3 : y.host.portB = x.host.portB)
    (h4 : y.host.cmds = x.host.cmds) (h5 : y.host.intake = x.host.intake) (h6 : y.host.intakeStopped = x.host.intakeStopped) : x.Sends y := by
  have hc : ∀ n, y.ctx n = x.ctx n := fun n => by unfold Blk.ctx; rw [h1]
  have hp : ∀ p, y.port p = x.port p := fun p => by unfold Blk.port; rw [h2, h3]
  exact ⟨fun n _ => by rw [hc]; exact Ctx.sameButHeld_refl _, fun p => by rw [hp]; exact Port.grows_refl _, fun p _ => hp p, h4, h5, h6⟩
theorem Blk.Sends.of_host (h : y.host = x.host) : x.Sends y := .of_same (by rw [h]) (by rw [h]) (by rw [h]) (by rw [h]) (by rw [h]) (by rw [h])
theorem Blk.Sends.refl : x.Sends x := .of_host rfl
theorem Blk.Sends.trans (h : x.Sends y) (g : y.Sends z) : x.Sends z where
  ctx n hn := by
    have h1 := h.ctx n hn
    exact Ctx.sameButHeld_trans h1 (g.ctx n (by rw [h1.1]; exact hn))
  port p := Port.grows_trans (h.port p) (g.port p)
  down p hp := by
    have h1 := h.down p hp
    exact (g.down p (by rw [h1]; exact hp)).trans h1
  cmds := g.cmds.trans h.cmds
  intake := g.intake.trans h.intake
  stopped := g.stopped.trans h.stopped
/-- A fold of operations that send sends. -/
theorem foldl_sends {α : Type} (f : Blk → α → Blk) (l : List α) (h : ∀ (x : Blk) a, x.Sends (f x a)) : x.Sends (l.foldl f x) := by
  induction l generalizing x with
  | nil => exact .refl
  | cons a l ih => exact (h x a).trans ih
theorem foldl_sameButHost {α : Type} (f : Blk → α → Blk) (l : List α) (h : ∀ (x : Blk) a, x.SameButHost (f x a)) : x.SameButHost (l.foldl f x) := by
  induction l generalizing x with
  | nil => exact .refl
  | cons a l ih => exact (h x a).trans ih

/-! ### Setting one context or one port -/

/-- A context written with what it holds changed. -/
theorem setCtx_sends {n : Nat} {v : Ctx} (hv : (x.ctx n).sameButHeld v) : x.Sends (x.setCtx n v) where
  ctx k hk := by
    by_cases e : k = n
    · subst e
      rw [ctx_setCtx_new]
      · exact hv
      · rintro rfl; exact hk hv.1.symm
    · rw [ctx_setCtx_ne x _ e]; exact Ctx.sameButHeld_refl _
  port _ := Port.grows_refl _
  down _ _ := rfl
  cmds := rfl
  intake := rfl
  stopped := rfl
theorem port_setPort_ite (p q : Nat) (v : Port) : (x.setPort p v).port q = if (q = 0 ↔ p = 0) then v else x.port q := by
  unfold Blk.setPort Blk.port
  by_cases h1 : p = 0 <;> by_cases h2 : q = 0 <;> simp [h1, h2]
/-- A port that is up written with frames added to its buffer. -/
theorem setPort_sends {p : Nat} {v : Port} (hv : (x.port p).grows v) (hup : (x.port p).up = true) : x.Sends (x.setPort p v) := by
  have hsame : ∀ q, (q = 0 ↔ p = 0) → x.port q = x.port p := fun q h => by unfold Blk.port; simp only [h]
  refine ⟨fun n _ => by rw [ctx_setPort]; exact Ctx.sameButHeld_refl _, fun q => ?_, fun q hq => ?_, by simp, by simp, by simp⟩
  · rw [port_setPort_ite]
    split
    · next h => rw [hsame q h]; exact hv
    · exact Port.grows_refl _
  · rw [port_setPort_ite, if_neg]
    intro h
    rw [hsame q h, hup] at hq
    exact Bool.noConfusion hq
theorem setPort_sameButHost (p : Nat) (v : Port) : x.SameButHost (x.setPort p v) := .of_host _
theorem setCtx_sameButHost (n : Nat) (v : Ctx) : x.SameButHost (x.setCtx n v) := .of_host _

/-! ### Sending and holding -/

theorem sendOut_sends (o : Out) (n : Nat) : x.Sends (x.sendOut o n) := by
  unfold Blk.sendOut
  simp only
  split
  · next h =>
    simp only [Bool.and_eq_true] at h
    exact setPort_sends (Port.grows_push _ _) h.1.1
  · exact setCtx_sends (Ctx.hold_same _ _ _)
theorem sendOut_sameButHost (o : Out) (n : Nat) : x.SameButHost (x.sendOut o n) := ⟨sendOut_host _ _⟩
theorem sendOn_sends (p : Nat) (o : Out) : x.Sends (x.sendOn p o) := by
  unfold Blk.sendOn
  split
  · next h =>
    simp only [Bool.and_eq_true] at h
    exact setPort_sends (Port.grows_push _ _) h.1
  · exact .refl
theorem replyTo_sends (p n : Nat) (v : List Byte) : x.Sends (x.replyTo p n v) := by
  unfold Blk.replyTo
  simp only
  split
  · exact sendOn_sends _ _
  · exact sendOut_sends _ _
theorem replyTo_sameButHost (p n : Nat) (v : List Byte) : x.SameButHost (x.replyTo p n v) := ⟨replyTo_host _ _ _⟩
theorem eventTo_sends (l : List Nat) (op : Nat) (pay : List Byte) : x.Sends (x.eventTo l op pay) := by
  unfold Blk.eventTo
  refine .trans ?_ (foldl_sends _ _ ?_)
  · exact .of_same rfl rfl rfl rfl rfl rfl
  · exact fun _ _ => sendOut_sends _ _
theorem eventTo_sameButHost (l : List Nat) (op : Nat) (pay : List Byte) : x.SameButHost (x.eventTo l op pay) := by
  unfold Blk.eventTo
  refine .trans (.of_host _) (foldl_sameButHost _ _ ?_)
  exact fun _ _ => sendOut_sameButHost _ _

/-! ### What a context holds leaves (R41, R49) -/

/-- One step of the flush of a context: the frame leaves, or stays held behind those that stay. -/
def flushStep (s : Port × List Out) (o : Out) : Port × List Out := if s.2.isEmpty && s.1.room o then (s.1.push o, s.2) else (s.1, s.2 ++ [o])
theorem flushStep_grows (l : List Out) (s : Port × List Out) : s.1.grows (l.foldl flushStep s).1 := by
  induction l generalizing s with
  | nil => exact Port.grows_refl _
  | cons o l ih =>
    refine Port.grows_trans ?_ (ih _)
    unfold flushStep
    split
    · exact Port.grows_push _ _
    · exact Port.grows_refl _
/-- The flush of a context leaves every frame it can on the port; EVENTS_LOST follows when its event queue has room again. -/
theorem flushCtx_eq (p n : Nat) : x.flushCtx p n =
    if x.homeOf n ≠ p || !(x.port p).up then x
    else
      let r := (x.ctx n).held.foldl flushStep (x.port p, [])
      let b1 := (x.setPort p r.1).setCtx n { x.ctx n with held := r.2 }
      let x1 := b1.ctx n
      if x1.lost = 0 || 256 ≤ (x1.held.filter (·.event)).length then b1
      else (b1.setCtx n { x1 with lost := 0 }).eventTo [n] evEVENTSLOST (leBytes 4 x1.lost ++ leBytes 4 x1.lostFirst ++ leBytes 4 x1.lostLast ++ zeros 4) := rfl
theorem flushCtx_sends (p n : Nat) : x.Sends (x.flushCtx p n) := by
  rw [flushCtx_eq]
  split
  · exact .refl
  · next h =>
    have hup : (x.port p).up = true := by
      cases e : (x.port p).up with
      | true => rfl
      | false => simp [e] at h
    have h1 : x.Sends ((x.setPort p ((x.ctx n).held.foldl flushStep (x.port p, [])).1).setCtx n
        { x.ctx n with held := ((x.ctx n).held.foldl flushStep (x.port p, [])).2 }) :=
      (setPort_sends (flushStep_grows _ _) hup).trans (setCtx_sends ⟨by simp, by simp, by simp, by simp, by simp, by simp, by simp, by simp, by simp, by simp⟩)
    simp only
    split
    · exact h1
    · refine h1.trans (.trans (setCtx_sends ?_) (eventTo_sends _ _ _))
      exact ⟨rfl, rfl, rfl, rfl, rfl, rfl, rfl, rfl, rfl, rfl⟩
theorem flushCtx_sameButHost (p n : Nat) : x.SameButHost (x.flushCtx p n) := by
  have h1 : ∀ (v : Port) (w : Ctx), x.SameButHost ((x.setPort p v).setCtx n w) := fun v w => (setPort_sameButHost p v).trans (setCtx_sameButHost n w)
  rw [flushCtx_eq]
  split
  · exact .refl
  · simp only
    split
    · exact h1 _ _
    · refine (h1 _ _).trans (.trans (setCtx_sameButHost _ _) (eventTo_sameButHost _ _ _))
theorem flushPort_sends (p : Nat) : x.Sends (x.flushPort p) := foldl_sends _ _ fun _ _ => flushCtx_sends _ _
theorem flushPort_sameButHost (p : Nat) : x.SameButHost (x.flushPort p) := foldl_sameButHost _ _ fun _ _ => flushCtx_sameButHost _ _

/-! ### A command is accepted (R48) -/

/-- A command accepted for the first time: measured, marked as started, and answered with ST_QUEUED unless it asks for none. -/
theorem accept_eq {pay : List Byte} (hq : c.queued = false) : x.accept c pay =
    if c.flag 15 then (x.measureCmd c.m).setCmd { c with started := true, queued := true }
    else ((x.measureCmd c.m).setCmd { c with started := true, queued := true }).replyTo c.m.port c.ctx
      (msgBytes c.m.opcode c.ctx false false c.seq stQUEUED 0 x.tide pay) := by
  simp [Blk.accept, hq]
theorem setCmd_sameButHost : x.SameButHost (x.setCmd c) := .of_host _
theorem accept_sends {pay : List Byte} (hq : c.queued = false) :
    ((x.measureCmd c.m).setCmd { c with started := true, queued := true }).Sends (x.accept c pay) := by
  rw [accept_eq hq]
  split
  · exact .refl
  · exact replyTo_sends _ _ _
theorem accept_sameButHost {pay : List Byte} (hq : c.queued = false) : (x.measureCmd c.m).SameButHost (x.accept c pay) := by
  rw [accept_eq hq]
  split
  · exact setCmd_sameButHost
  · exact setCmd_sameButHost.trans (replyTo_sameButHost _ _ _)
theorem accept_hostBut {pay : List Byte} (hq : c.queued = false) : x.hostBut (x.accept c pay) [c.ctx] := by
  have h : x.hostBut ((x.measureCmd c.m).setCmd { c with started := true, queued := true }) [c.ctx] := measureCmd_hostBut.trans setCmd_hostBut
  rw [accept_eq hq]
  split
  · exact h
  · exact h.trans (replyTo_hostBut _ _ _)
/-- A message that the device takes, as an accepted command. -/
def Blk.accepted (b : Blk) (m : Msg) : Cmd := { b.asCmd m with started := true, queued := true }
theorem accept_entered_cmds {pay : List Byte} : ((b.entered m).accept (b.asCmd m) pay).host.cmds = [b.accepted m] := by
  rw [(accept_sends rfl).cmds]
  simp [Blk.setCmd, Blk.accepted, Blk.asCmd, Cmd.ctx, Cmd.seq]
theorem accept_entered_sameButHost {pay : List Byte} : (b.measureCmd m).SameButHost ((b.entered m).accept (b.asCmd m) pay) :=
  (measureCmd_sameButHost entered_sameButHost).trans (accept_sameButHost (c := b.asCmd m) rfl)
theorem accept_entered_hostBut {pay : List Byte} : b.hostBut ((b.entered m).accept (b.asCmd m) pay) [m.ctx] :=
  entered_hostBut.trans (accept_hostBut (c := b.asCmd m) rfl)
/-- An accepted message's context is open, as it was entered. -/
theorem accept_entered_ctx {pay : List Byte} (h : b.takes m = true) :
    ((b.entered m).ctx m.ctx).sameButHeld (((b.entered m).accept (b.asCmd m) pay).ctx m.ctx) := by
  have hc : (((b.entered m).measureCmd m).setCmd (b.accepted m)).ctx m.ctx = (b.entered m).ctx m.ctx := by simp [Blk.ctx, Blk.setCmd]
  have := (accept_sends (x := b.entered m) (c := b.asCmd m) (pay := pay) rfl).ctx m.ctx (by
    show ((((b.entered m).measureCmd m).setCmd (b.accepted m)).ctx m.ctx).st ≠ 0
    rw [hc, (entered_ctx_self h).1]; simp)
  rw [← hc]
  exact this

/-! ### The map of contexts keeps its canonical form -/

/-- The map of contexts is in canonical form. -/
abbrev Blk.ctxsWf (b : Blk) : Prop := swf (fun _ => ({} : Ctx)) b.host.ctxs = true
theorem setCtx_wf (n : Nat) (v : Ctx) (h : x.ctxsWf) : (x.setCtx n v).ctxsWf := swf_sset h
theorem ctxsWf_congr (e : y.host.ctxs = x.host.ctxs) (h : x.ctxsWf) : y.ctxsWf := by unfold Blk.ctxsWf; rw [e]; exact h
theorem sendOut_wf (o : Out) (n : Nat) (h : x.ctxsWf) : (x.sendOut o n).ctxsWf := by
  unfold Blk.sendOut
  simp only
  split
  · exact ctxsWf_congr (by simp) h
  · exact setCtx_wf _ _ h
theorem replyTo_wf (p n : Nat) (v : List Byte) (h : x.ctxsWf) : (x.replyTo p n v).ctxsWf := by
  unfold Blk.replyTo
  simp only
  split
  · unfold Blk.sendOn
    split
    · exact ctxsWf_congr (by simp) h
    · exact h
  · exact sendOut_wf _ _ h
theorem finalReply_wf (s : Bool) (st det : Nat) (pay : List Byte) (h : x.ctxsWf) : (x.finalReply m s st det pay).ctxsWf := by
  unfold Blk.finalReply
  simp only
  split
  · exact replyTo_wf _ _ _ (setCtx_wf _ _ h)
  · exact replyTo_wf _ _ _ h
theorem entered_wf (h : b.ctxsWf) : (b.entered m).ctxsWf := by
  unfold Blk.entered
  split
  · exact h
  · exact setCtx_wf (x := b) _ _ h
theorem accept_wf {pay : List Byte} (hq : c.queued = false) (h : x.ctxsWf) : (x.accept c pay).ctxsWf := by
  have hs : ((x.measureCmd c.m).setCmd { c with started := true, queued := true }).ctxsWf := ctxsWf_congr (by simp [Blk.setCmd]) h
  rw [accept_eq hq]
  split
  · exact hs
  · exact replyTo_wf _ _ _ hs

end Sys2Proof.Machine
end

section
/-! SUPPORT. Contexts opened, closed and moved, and the error log read (R41, R51, R52, R55, R58, R478, R503). -/
namespace Sys2Proof.Machine

variable {b x y : Blk} {m : Msg} {c : Cmd}

/-! ### CMD_CTX_OPEN -/

/-- The parameter of CMD_CTX_OPEN. -/
def openParam (n part depth home fo privs : Nat) : Nat := n + part * 2 ^ 16 + depth * 2 ^ 20 + home * 2 ^ 32 + fo * 2 ^ 33 + privs * 2 ^ 40
theorem openParam_fields {n part depth home fo privs : Nat} (h1 : n < 4096) (h2 : part < 16) (h3 : depth ≤ 256) (h4 : home < 2) (h5 : fo < 2)
    (h6 : privs < 32) :
    fld (openParam n part depth home fo privs) 11 0 = n ∧ fld (openParam n part depth home fo privs) 19 16 = part ∧
    fld (openParam n part depth home fo privs) 28 20 = depth ∧ bnat (tbit (openParam n part depth home fo privs) 32) = home ∧
    tbit (openParam n part depth home fo privs) 33 = (fo == 1) ∧ fld (openParam n part depth home fo privs) 44 40 = privs ∧
    fld (openParam n part depth home fo privs) 15 12 = 0 ∧ fld (openParam n part depth home fo privs) 31 29 = 0 ∧
    fld (openParam n part depth home fo privs) 39 34 = 0 ∧ openParam n part depth home fo privs < 2 ^ 45 := by
  have hhome : openParam n part depth home fo privs / 2 ^ 32 % 2 = home := by unfold openParam; omega
  have hfo : openParam n part depth home fo privs / 2 ^ 33 % 2 = fo := by unfold openParam; omega
  have h32 : bnat (tbit (openParam n part depth home fo privs) 32) = home := by
    simp only [tbit, Nat.shiftRight_eq_div_pow, hhome]
    obtain rfl | rfl : home = 0 ∨ home = 1 := by omega
    · rfl
    · rfl
  have h33 : tbit (openParam n part depth home fo privs) 33 = (fo == 1) := by simp only [tbit, Nat.shiftRight_eq_div_pow, hfo]
  refine ⟨?_, ?_, ?_, h32, h33, ?_, ?_, ?_, ?_, by unfold openParam; omega⟩ <;>
  · simp only [fld, Nat.shiftRight_eq_div_pow]
    unfold openParam
    omega
/-- The context that a CMD_CTX_OPEN opens, with what is still held for it. -/
def openedCtx (held : List Out) (part depth home fo privs : Nat) : Ctx :=
  { held := held, st := 1, part := part, depth := depth, home := home, homeSet := true, failover := fo == 1, privs := privs }
theorem runOp_ctxOpen {n part depth home fo privs : Nat} (hop : m.opcode = 0x0003) (hp : m.param = openParam n part depth home fo privs) (hn0 : 0 < n)
    (hn : n < 4096) (hpart : part < 16) (hd0 : 0 < depth) (hd : depth ≤ 256) (hhome : home < 2) (hfo : fo < 2) (hprivs : privs < 32)
    (hst : (x.part part).st = 1 ∨ (x.part part).st = 2) (hc : (x.ctx n).st = 0) :
    x.runOp (b.asCmd m) = (x.setCtx n (openedCtx (x.ctx n).held part depth home fo privs)).finish (b.asCmd m) stOK 0 [] := by
  obtain ⟨f1, f2, f3, f4, f5, f6, f7, f8, f9, f10⟩ := openParam_fields hn hpart hd hhome hfo hprivs
  have h45 : ¬ 35184372088832 ≤ openParam n part depth home fo privs := by omega
  have hd' : ¬ 256 < depth := by omega
  have hn' : n ≠ 0 := by omega
  have hdn : depth ≠ 0 := by omega
  rw [runOp_eq (op := 0x0003) hop rfl]
  rcases hst with hst | hst <;>
    simp [Blk.doCtxOpen, Blk.asCmd, hp, f1, f2, f3, f4, f5, f6, f7, f8, f9, h45, hd', hn', hdn, hst, hc, openedCtx]
theorem command_ctxOpen {n part depth home fo privs : Nat} (h : b.takes m = true) (hop : m.opcode = 0x0003)
    (hp : m.param = openParam n part depth home fo privs) (hn0 : 0 < n) (hn : n < 4096) (hpart : part < 16) (hd0 : 0 < depth) (hd : depth ≤ 256)
    (hhome : home < 2) (hfo : fo < 2) (hprivs : privs < 32) (hne : n ≠ m.ctx) (hst : (b.part part).st = 1 ∨ (b.part part).st = 2)
    (hc : (b.ctx n).st = 0) :
    (b.command m).answered m stOK 0 [] ∧ (b.command m).ctx n = openedCtx (b.ctx n).held part depth home fo privs ∧
    { b.measureCmd m with host := (b.command m).host } = b.command m ∧ b.ctxsBut (b.command m) [n, m.ctx] := by
  obtain ⟨-, hstill, hlog, h13, -⟩ := takes_facts h
  have hcn : (b.entered m).ctx n = b.ctx n := entered_hostBut.1 n (by simpa using hne)
  have hpt : (b.entered m).part part = b.part part := by unfold Blk.part; simp
  have hr := runOp_ctxOpen (b := b) (x := b.entered m) hop hp hn0 hn hpart hd0 hd hhome hfo hprivs (by rw [hpt]; exact hst) (by rw [hcn]; exact hc)
  rw [hcn] at hr
  generalize hv : openedCtx (b.ctx n).held part depth home fo privs = v at hr ⊢
  have hvne : v ≠ {} := fun e => by rw [← hv] at e; have := congrArg Ctx.st e; simp [openedCtx] at this
  generalize hx : (b.entered m).setCtx n v = x at hr
  have hxl : x.logged m.ctx m.seq = false := by rw [← hx, logged_congr (b := b) (by simp), hlog]
  have hxs : x.still = true := by rw [← hx, still_congr (b := b) (by simp) (by simp) (by simp), hstill]
  have hxc : x.ctx m.ctx = (b.entered m).ctx m.ctx := by rw [← hx]; exact ctx_setCtx_ne _ _ hne.symm
  have hk : dKind (b.asCmd m).m.opcode = false := by show dKind m.opcode = false; rw [hop]; rfl
  obtain ⟨he, -⟩ := command_ends_as h rfl hr (by rw [← hx]; simp [Blk.asCmd]) hxs hxl
  have hbut : x.hostBut (b.command m) [m.ctx] := by rw [he]; exact finish_hostBut h13 hxl
  have hbx : b.SameButHost x := by rw [← hx]; exact entered_sameButHost.trans (setCtx_sameButHost _ _)
  refine ⟨?_, ?_, ?_, ?_⟩
  · rw [he]
    exact finish_answered h13 hxl (by show m.opcode ≠ 1; omega) (by show (x.ctx m.ctx).st ≠ 0; rw [hxc, (entered_ctx_self h).1]; simp) (by decide)
  · rw [hbut.1 n (by simpa using hne), ← hx, ctx_setCtx_new _ _ _ hvne]
  · have := (measureCmd_sameButHost hbx).trans (finish_ok_I_same (pay := []) h13 hxl hk)
    rw [← he] at this
    exact this.eq
  · intro k hk
    have hk1 : k ≠ n ∧ k ≠ m.ctx := by simpa using hk
    rw [hbut.1 k (by simpa using hk1.2), ← hx, ctx_setCtx_ne _ _ hk1.1]
    exact entered_hostBut.1 k (by simpa using hk1.2)

/-! ### CMD_ERRLOG_READ -/

/-- The index of the oldest record held; the next index when none is held. -/
def Blk.oldestErr (b : Blk) : Nat := match b.err.recs with | r :: _ => r.index | [] => b.err.next
theorem runOp_errlogRead (hop : m.opcode = 0x0900) (hp : m.param < 2 ^ 32) (hn : leAt m.payload 0 8 ≤ 1023) :
    x.runOp (b.asCmd m) = x.finish (b.asCmd m) stOK 0 (leBytes 4 x.oldestErr ++ leBytes 4 x.err.next ++
      (x.err.recs.filter fun r => (r.index + 2 ^ 32 - m.param) % 2 ^ 32 < leAt m.payload 0 8).flatMap fun r => r.bytes) := by
  have h1 : ¬ 2 ^ 32 ≤ m.param := by omega
  have h2 : ¬ 1023 < leAt m.payload 0 8 := by omega
  rw [runOp_eq (op := 0x0900) hop rfl]
  unfold Blk.doErrlogRead
  simp only [show (b.asCmd m).m = m from rfl, if_neg h1, if_neg h2]
  rfl

theorem command_errlogRead (h : b.takes m = true) (hop : m.opcode = 0x0900) (hp : m.param < 2 ^ 32) (hn : leAt m.payload 0 8 ≤ 1023) :
    (b.command m).answered m stOK 0 (leBytes 4 b.oldestErr ++ leBytes 4 b.err.next ++
      (b.err.recs.filter fun r => (r.index + 2 ^ 32 - m.param) % 2 ^ 32 < leAt m.payload 0 8).flatMap fun r => r.bytes) ∧
    { b.measureCmd m with host := (b.command m).host } = b.command m ∧ b.hostFor (b.command m) m := by
  have hk : dKind m.opcode = false := by rw [hop]; rfl
  have hr := runOp_errlogRead (b := b) (x := b.entered m) hop hp hn
  unfold Blk.oldestErr at hr
  rw [show (b.entered m).err = b.err by simp] at hr
  exact ⟨command_replies_answered h hk hr (by omega), command_replies_frame h hk hr, (command_replies_hostFor h hk hr).1⟩

/-! ### CMD_CTX_CLOSE -/

theorem freeSpans_none (f : Nat → Span → Bool) (h : x.spans = []) : x.freeSpans f = x := by simp [Blk.freeSpans, h]
theorem cancelReqs_none (f : Req → Bool) (h : x.serves = []) : x.cancelReqs f = x := by
  unfold Blk.cancelReqs
  apply foldl_same
  intro p _
  simp [Blk.serve, h]
/-- A context without spans, requests and commands of its own starts to close. -/
theorem closing_idle {n : Nat} {who : Option (Nat × Nat)} (hs : x.spans = []) (hv : x.serves = []) (hc : ∀ d ∈ x.host.cmds, d.ctx ≠ n) :
    x.closing n who = x.setCtx n { x.ctx n with st := 2 } := by
  have hcmds : (x.setCtx n { x.ctx n with st := 2 }).host.cmds.filter (fun c => c.ctx == n && some (c.ctx, c.seq) != who) = [] := by
    rw [List.filter_eq_nil_iff]
    intro d hd
    simp [hc d (by simpa using hd)]
  unfold Blk.closing
  simp only
  rw [freeSpans_none _ (by simp [hs]), cancelReqs_none _ (by simp [hv]), hcmds]
  rfl
/-- A closed context: only its home and the frames that are no events stay. -/
def Ctx.gone (v : Ctx) : Ctx := { home := v.home, homeSet := v.homeSet, held := v.held.filter fun o => !o.event }
theorem ctxGone_eq (n : Nat) : x.ctxGone n = x.setCtx n (x.ctx n).gone := rfl
theorem runOp_ctxClose {n : Nat} (hop : m.opcode = 0x0004) (h0 : m.ctx = 0) (hp : m.param = n) (hn0 : 0 < n) (hn : n < 4096)
    (hst : (b.ctx n).st = 1) (hs : b.spans = []) (hv : b.serves = []) :
    (b.entered m).runOp (b.asCmd m) =
      ((((b.entered m).accept (b.asCmd m)).setCtx n { b.ctx n with st := 2 }).finish (b.accepted m) stOK 0 []).ctxGone n := by
  have hne : n ∉ [m.ctx] := by rw [List.mem_singleton, h0]; omega
  have hctx : (b.entered m).ctx n = b.ctx n := entered_hostBut.1 n hne
  have hacc := accept_entered_cmds (b := b) (m := m) (pay := [])
  have hsame := accept_entered_sameButHost (b := b) (m := m) (pay := [])
  have hbut := accept_entered_hostBut (b := b) (m := m) (pay := [])
  generalize hy : (b.entered m).accept (b.asCmd m) = y at hacc hsame hbut ⊢
  have hyctx : y.ctx n = b.ctx n := hbut.1 n hne
  have hcl : y.closing n (some ((b.asCmd m).ctx, (b.asCmd m).seq)) = y.setCtx n { b.ctx n with st := 2 } := by
    rw [closing_idle (by rw [← hsame.eq]; simpa using hs) (by rw [← hsame.eq]; simpa using hv), hyctx]
    intro d hd
    rw [hacc, List.mem_singleton] at hd
    subst hd
    show m.ctx ≠ n
    omega
  have hfind : (y.setCtx n { b.ctx n with st := 2 }).cmdOf (b.asCmd m).ctx (b.asCmd m).seq = some (b.accepted m) := by
    simp [Blk.cmdOf, hacc, Blk.accepted, Blk.asCmd, Cmd.ctx, Cmd.seq]
  have hpoll : (y.setCtx n { b.ctx n with st := 2 }).pollCtxClose (b.accepted m) =
      ((y.setCtx n { b.ctx n with st := 2 }).finish (b.accepted m) stOK 0 []).ctxGone n := by
    simp [Blk.pollCtxClose, hacc, show (b.accepted m).m.param = n from hp]
  have hn4 : ¬ (nCtxs ≤ n ∨ n = 0) := by unfold nCtxs; omega
  rw [runOp_eq (op := 0x0004) hop rfl]
  simp only [Blk.doCtxClose, show (b.asCmd m).m.param = n from hp, hctx, hst, hy, hcl, hfind, hpoll]
  simp [hn4]
theorem command_ctxClose {n : Nat} (h : b.takes m = true) (hop : m.opcode = 0x0004) (h0 : m.ctx = 0) (hp : m.param = n) (hn0 : 0 < n) (hn : n < 4096)
    (hst : (b.ctx n).st = 1) (hs : b.spans = []) (hv : b.serves = []) (hc : b.canon) :
    (b.command m).answered m stOK 0 [] ∧ (b.command m).ctx n = ({ b.ctx n with st := 2 } : Ctx).gone ∧
    { b.measureCmd m with host := (b.command m).host } = b.command m ∧ b.ctxsBut (b.command m) [n, 0] := by
  obtain ⟨-, hstill, -, h13, -⟩ := takes_facts h
  have hne : m.ctx ≠ n := by omega
  have hr := runOp_ctxClose hop h0 hp hn0 hn hst hs hv
  have hacc := accept_entered_cmds (b := b) (m := m) (pay := [])
  have hsame := accept_entered_sameButHost (b := b) (m := m) (pay := [])
  have hbut := accept_entered_hostBut (b := b) (m := m) (pay := [])
  have hself := (accept_entered_ctx (pay := []) h).1
  have hwf := accept_wf (pay := []) (c := b.asCmd m) rfl (entered_wf (m := m) hc.2.2.2.1)
  generalize (b.entered m).accept (b.asCmd m) = y at hr hacc hsame hbut hself hwf
  generalize hz : y.setCtx n { b.ctx n with st := 2 } = z at hr
  have hsz : (b.measureCmd m).SameButHost z := by rw [← hz]; exact hsame.trans (setCtx_sameButHost _ _)
  have hzl : z.logged m.ctx m.seq = false := by
    have : z.spans = [] := by rw [← hsz.eq]; simpa using hs
    simp [Blk.logged, this]
  have hzc : z.ctx n = { b.ctx n with st := 2 } := by
    rw [← hz, ctx_setCtx_new]
    intro e; have := congrArg Ctx.st e; simp at this
  have hzm : (z.ctx m.ctx).st ≠ 0 := by rw [← hz, ctx_setCtx_ne _ _ hne, hself, (entered_ctx_self h).1]; simp
  have hk : dKind (b.accepted m).m.opcode = true := by show dKind m.opcode = true; rw [hop]; rfl
  have h13' : (b.accepted m).flag 13 = false := h13
  generalize hu : z.finish (b.accepted m) stOK 0 [] = u at hr
  have hub : z.hostBut u [m.ctx] := by rw [← hu]; exact finish_hostBut h13' hzl
  have hus : z.SameButHost u := by rw [← hu]; exact finish_ok_D_same h13' hzl hk
  have hua : u.answered m stOK 0 [] := by rw [← hu]; exact finish_answered h13' hzl (by show m.opcode ≠ 1; omega) hzm (by decide)
  have hucmds : u.host.cmds = [] := by
    rw [← hu, finish_cmds h13' hzl, ← hz]
    simp [hacc]
  have huwf : u.ctxsWf := by
    rw [← hu, finish_ok_D h13' hzl hk]
    refine finalReply_wf _ _ _ _ (ctxsWf_congr (x := z) rfl ?_)
    rw [← hz]; exact setCtx_wf _ _ hwf
  have hun : u.ctx n = { b.ctx n with st := 2 } := by rw [hub.1 n (by simpa using hne.symm), hzc]
  rw [ctxGone_eq, hun] at hr
  have hst' : (u.setCtx n ({ b.ctx n with st := 2 } : Ctx).gone).still = true := by
    rw [still_congr (b := b), hstill] <;>
    · simp only [setCtx_frame]
      rw [← hus.eq, ← hsz.eq]
      simp
  rw [command_waits h hr (by simp [Blk.noneReady, hucmds]) hst']
  refine ⟨?_, ctx_setCtx u n _ huwf, (hsz.trans (hus.trans (setCtx_sameButHost _ _))).eq, ?_⟩
  · unfold Blk.answered at hua ⊢
    rw [ctx_setCtx_ne _ _ hne]
    exact hua
  · intro k hk
    have hk1 : k ≠ n ∧ k ≠ 0 := by simpa using hk
    have hk2 : k ∉ [m.ctx] := by simpa [h0] using hk1.2
    rw [ctx_setCtx_ne _ _ hk1.1, hub.1 k hk2, ← hz, ctx_setCtx_ne _ _ hk1.1]
    exact hbut.1 k hk2

/-! ### CMD_PORT_FAILOVER -/

/-- A context that moves: its home is the port, and nothing else of any context changes but what it holds. -/
theorem moveCtx_ctx {p n : Nat} (hn : (x.ctx n).st ≠ 0) (k : Nat) (hk : (x.ctx k).st ≠ 0) :
    ((x.moveCtx p n).ctx k).st = (x.ctx k).st ∧ ((x.moveCtx p n).ctx k).home = if k = n then p else (x.ctx k).home := by
  have hs := flushCtx_sends (x := x.setCtx n { x.ctx n with home := p, homeSet := true }) p n
  unfold Blk.moveCtx
  by_cases e : k = n
  · subst e
    have hc : (x.setCtx k { x.ctx k with home := p, homeSet := true }).ctx k = { x.ctx k with home := p, homeSet := true } :=
      ctx_setCtx_new _ _ _ fun e => hn (congrArg Ctx.st e)
    obtain ⟨h1, -, -, h4, -⟩ := hs.ctx k (by rw [hc]; exact hn)
    rw [h1, h4, hc, if_pos rfl]
    exact ⟨rfl, rfl⟩
  · have hc : (x.setCtx n { x.ctx n with home := p, homeSet := true }).ctx k = x.ctx k := ctx_setCtx_ne _ _ e
    obtain ⟨h1, -, -, h4, -⟩ := hs.ctx k (by rw [hc]; exact hk)
    rw [h1, h4, hc, if_neg e]
    exact ⟨rfl, rfl⟩
/-- Contexts that move one after the other: each ends at the port. -/
theorem moveCtxs_ctx {p : Nat} (l : List Nat) (hl : ∀ n ∈ l, (x.ctx n).st ≠ 0) (k : Nat) (hk : (x.ctx k).st ≠ 0) :
    ((l.foldl (fun b n => b.moveCtx p n) x).ctx k).st = (x.ctx k).st ∧
    ((l.foldl (fun b n => b.moveCtx p n) x).ctx k).home = if k ∈ l then p else (x.ctx k).home := by
  induction l generalizing x with
  | nil => simp
  | cons n l ih =>
    have hn := hl n (by simp)
    have hst : ∀ j, (x.ctx j).st ≠ 0 → ((x.moveCtx p n).ctx j).st = (x.ctx j).st := fun j hj => (moveCtx_ctx hn j hj).1
    obtain ⟨h1, h2⟩ := ih (x := x.moveCtx p n) (fun j hj => by rw [hst j (hl j (by simp [hj]))]; exact hl j (by simp [hj])) (by rw [hst k hk]; exact hk)
    obtain ⟨g1, g2⟩ := moveCtx_ctx (p := p) hn k hk
    rw [List.foldl_cons, h1, h2, g1, g2]
    refine ⟨rfl, ?_⟩
    by_cases e1 : k ∈ l <;> by_cases e2 : k = n <;> simp [e1, e2]
theorem moveCtx_sameButHost (p n : Nat) : x.SameButHost (x.moveCtx p n) := (setCtx_sameButHost _ _).trans (flushCtx_sameButHost _ _)
theorem moveCtx_cmds (p n : Nat) : (x.moveCtx p n).host.cmds = x.host.cmds := (flushCtx_sends _ _).cmds
theorem moveCtxs_cmds (p : Nat) (l : List Nat) : (l.foldl (fun b n => b.moveCtx p n) x).host.cmds = x.host.cmds := by
  induction l generalizing x with
  | nil => rfl
  | cons n l ih => rw [List.foldl_cons, ih, moveCtx_cmds]
/-- What a key reads as, when it is no default, is listed. -/
theorem mem_of_sget {α : Type} {d : Nat → α} {l : List (Nat × α)} {k : Nat} (h : sget d l k ≠ d k) : (k, sget d l k) ∈ l := by
  induction l with
  | nil => exact absurd rfl h
  | cons q l ih =>
    obtain ⟨j, v⟩ := q
    by_cases e : j = k
    · subst e; simp [sget]
    · simp only [sget, e, if_false] at h ⊢
      exact List.mem_cons_of_mem _ (ih h)
/-- The contexts that the map lists as open. -/
def Blk.openCtxs (b : Blk) : List Nat := (b.host.ctxs.filter fun q => q.2.st == 1).map Prod.fst
theorem mem_openCtxs {n : Nat} (h : (x.ctx n).st = 1) : n ∈ x.openCtxs := by
  have hne : sget (fun _ => ({} : Ctx)) x.host.ctxs n ≠ {} := fun e => by
    have := congrArg Ctx.st e
    exact absurd (this.symm.trans h) (by simp)
  have := mem_of_sget (d := fun _ => ({} : Ctx)) hne
  unfold Blk.openCtxs
  rw [List.mem_map]
  exact ⟨_, List.mem_filter.mpr ⟨this, beq_iff_eq.mpr h⟩, rfl⟩
theorem lt_of_mem_sabove {α : Type} {l : List (Nat × α)} {j k : Nat} {v : α} (h : sabove j l = true) (hm : (k, v) ∈ l) : j < k := by
  induction l with
  | nil => simp at hm
  | cons q l ih =>
    simp only [sabove, Bool.and_eq_true, decide_eq_true_eq] at h
    rcases List.mem_cons.mp hm with e | hm
    · rw [← e] at h; exact h.1
    · exact ih h.2 hm
/-- In canonical form a listed entry is what its key reads as. -/
theorem sget_of_mem {α : Type} [DecidableEq α] {d : Nat → α} {l : List (Nat × α)} {k : Nat} {v : α} (hw : swf d l = true) (h : (k, v) ∈ l) :
    sget d l k = v := by
  induction l with
  | nil => simp at h
  | cons q l ih =>
    obtain ⟨j, u⟩ := q
    simp only [swf, Bool.and_eq_true] at hw
    rcases List.mem_cons.mp h with e | hm
    · obtain ⟨rfl, rfl⟩ : k = j ∧ v = u := by simpa using e
      simp [sget]
    · have hlt := lt_of_mem_sabove hw.1.2 hm
      rw [sget, if_neg (by omega), ih hw.2 hm]
theorem openCtxs_open (h : x.ctxsWf) {n : Nat} (hn : n ∈ x.openCtxs) : (x.ctx n).st = 1 := by
  obtain ⟨q, hq, rfl⟩ := List.mem_map.mp hn
  obtain ⟨hm, hst⟩ := List.mem_filter.mp hq
  unfold Blk.ctx
  rw [sget_of_mem h hm]
  simpa using hst

theorem runOp_portFailover (hop : m.opcode = 0x0907) (hp : m.param = 2 ∨ m.param = 3) :
    x.runOp (b.asCmd m) = (x.openCtxs.foldl (fun b n => b.moveCtx (m.param - 2) n) x).finish (b.asCmd m) stOK 0 [] := by
  rw [runOp_eq (op := 0x0907) hop rfl]
  unfold Blk.doPortFailover
  simp only [show (b.asCmd m).m = m from rfl]
  rcases hp with hp | hp <;> rw [hp] <;> rfl
theorem command_portFailover (h : b.takes m = true) (hop : m.opcode = 0x0907) (hp : m.param = 2 ∨ m.param = 3) (hc : b.canon) :
    (b.command m).answered m stOK 0 [] ∧ (∀ n, (b.ctx n).st = 1 → ((b.command m).ctx n).home = m.param - 2 ∧ ((b.command m).ctx n).st = 1) ∧
    { b.measureCmd m with host := (b.command m).host } = b.command m := by
  obtain ⟨hst, hstill, hlog, h13, -⟩ := takes_facts h
  have hwf : (b.entered m).ctxsWf := entered_wf hc.2.2.2.1
  have hr := runOp_portFailover (b := b) (x := b.entered m) hop hp
  have hmove := fun k => moveCtxs_ctx (p := m.param - 2) (b.entered m).openCtxs (fun n hn => by rw [openCtxs_open hwf hn]; simp) k
  have hcmds := moveCtxs_cmds (x := b.entered m) (m.param - 2) (b.entered m).openCtxs
  have hsame : b.SameButHost ((b.entered m).openCtxs.foldl (fun b n => b.moveCtx (m.param - 2) n) (b.entered m)) :=
    entered_sameButHost.trans (foldl_sameButHost _ _ fun _ _ => moveCtx_sameButHost _ _)
  generalize (b.entered m).openCtxs.foldl (fun b n => b.moveCtx (m.param - 2) n) (b.entered m) = x at hr hmove hcmds hsame
  have hxl : x.logged m.ctx m.seq = false := by rw [logged_congr (b := b) (by rw [← hsame.eq]), hlog]
  have hxs : x.still = true := by rw [still_congr (b := b) (by rw [← hsame.eq]) (by rw [← hsame.eq]) (by rw [← hsame.eq]), hstill]
  have hk : dKind (b.asCmd m).m.opcode = false := by show dKind m.opcode = false; rw [hop]; rfl
  obtain ⟨he, -⟩ := command_ends_as h rfl hr (by rw [hcmds]; simp [Blk.asCmd]) hxs hxl
  have hself := (entered_ctx_self h).1
  rw [he]
  refine ⟨?_, fun n hn => ?_, ((measureCmd_sameButHost hsame).trans (finish_ok_I_same (pay := []) h13 hxl hk)).eq⟩
  · refine finish_answered h13 hxl (by show m.opcode ≠ 1; omega) ?_ (by decide)
    show (x.ctx m.ctx).st ≠ 0
    rw [(hmove m.ctx (by rw [hself]; simp)).1, hself]
    simp
  · have hen : ((b.entered m).ctx n).st = 1 := by
      by_cases e : n = m.ctx
      · subst e; exact hself
      · rw [entered_hostBut.1 n (by simpa using e), hn]
    obtain ⟨h1, h2⟩ := hmove n (by rw [hen]; simp)
    rw [finish_ok_I h13 hxl hk]
    obtain ⟨g1, -, -, g4, -⟩ := finalReply_ctx (b := (x.measureCmd m).dropCmd (b.asCmd m)) m (m.opcode != 1) stOK 0 n []
    have hd : ((x.measureCmd m).dropCmd (b.asCmd m)).ctx n = x.ctx n := by simp [Blk.ctx, Blk.dropCmd]
    exact ⟨by rw [show (b.asCmd m).m = m from rfl, g4, hd, h2, if_pos (mem_openCtxs hen)], by rw [show (b.asCmd m).m = m from rfl, g1, hd, h1, hen]⟩

/-! ### O2 -/

/-- Settles O2: each command changes its contexts or reads the log, is measured and is answered. -/
theorem contextCommandsAndErrlogRead : Obligations.ContextCommandsAndErrlogRead := by
  unfold Obligations.ContextCommandsAndErrlogRead
  refine ⟨fun s m n part depth home fo privs h hop hp hn0 hn hpart hd0 hd hhome hfo hprivs hne hst hc => ?_,
    fun s m n h hop h0 hp hn0 hn hst hs hv hc => ?_, fun s m h hop hp hc => ?_, fun s m h hop hp hn => ?_⟩
  · obtain ⟨hans, hctx, hfr, hbut⟩ := command_ctxOpen h hop hp hn0 hn hpart hd0 hd hhome hfo hprivs hne hst hc
    refine does_of_updIf rfl (isFor_takes h hop) ⟨hans, ?_, ?_, ?_, ?_, ?_, ?_, ?_, ?_, ?_, hfr, hbut⟩ <;> rw [hctx] <;> rfl
  · obtain ⟨hans, hctx, hfr, hbut⟩ := command_ctxClose h hop h0 hp hn0 hn hst hs hv hc
    refine does_of_updIf rfl (isFor_takes h hop) ⟨hans, ?_, ?_, hfr, hbut⟩ <;> rw [hctx] <;> rfl
  · exact does_of_updIf rfl (isFor_takes h hop) (command_portFailover h hop hp hc)
  · exact does_of_updIf rfl (isFor_takes h hop) (command_errlogRead h hop hp hn)

end Sys2Proof.Machine
end

section
/-! SUPPORT. Frames that arrive on a Beacon port: a message in order acts, and bulk data is attached to its command (R37 to R40). -/
namespace Sys2Proof.Machine

variable {b x : Blk} {m : Msg} {c : Cmd} {p n : Nat} {v f : List Byte}

/-! ### What the acknowledgement of an empty buffer changes -/

/-- In canonical form writing what a key reads as changes nothing. -/
theorem sset_sget {α : Type} [DecidableEq α] {d : Nat → α} {l : List (Nat × α)} {k : Nat} (h : swf d l = true) : sset d l k (sget d l k) = l := by
  induction l with
  | nil => simp [sset, sget]
  | cons q l ih =>
    obtain ⟨j, u⟩ := q
    simp only [swf, Bool.and_eq_true, bne_iff_ne, ne_eq] at h
    obtain ⟨⟨hu, ha⟩, hl⟩ := h
    by_cases e : j = k
    · subst e
      simp [sset, sget, hu]
    · simp only [sget, if_neg e]
      by_cases hlt : k < j
      · have : sget d l k = d k := sget_above ha (Nat.le_of_lt hlt)
        simp [sset, hlt, this]
      · simp [sset, hlt, Ne.symm e, ih hl]
theorem setCtx_self (h : x.ctxsWf) : x.setCtx n (x.ctx n) = x := by
  unfold Blk.setCtx Blk.ctx
  rw [sset_sget h]
theorem setPort_self : x.setPort p (x.port p) = x := by
  unfold Blk.setPort Blk.port
  by_cases h : p = 0 <;> simp [h]
/-- The flush of a context that holds nothing and has lost nothing. -/
theorem flushCtx_idle (hw : x.ctxsWf) (hh : (x.ctx n).held = []) (hl : (x.ctx n).lost = 0) : x.flushCtx p n = x := by
  have hself : (x.setPort p (x.port p)).setCtx n { x.ctx n with held := [] } = x := by
    rw [setPort_self, show ({ x.ctx n with held := [] } : Ctx) = x.ctx n by rw [← hh], setCtx_self hw]
  rw [flushCtx_eq]
  split
  · rfl
  · rw [show (x.ctx n).held.foldl flushStep (x.port p, []) = (x.port p, []) by rw [hh]; rfl]
    simp only [hself]
    simp [hl]
/-- No context holds a frame or has lost an event. -/
abbrev Blk.heldNone (b : Blk) : Prop := (b.host.ctxs.all fun q => q.2.held.isEmpty && q.2.lost == 0) = true
theorem flushPort_idle (hw : x.ctxsWf) (hh : x.heldNone) : x.flushPort p = x := by
  unfold Blk.flushPort
  apply foldl_same
  intro k hk
  obtain ⟨q, hq, rfl⟩ := List.mem_map.mp hk
  have hv : x.ctx q.1 = q.2 := sget_of_mem hw hq
  have := List.all_eq_true.mp hh q hq
  simp only [Bool.and_eq_true, List.isEmpty_iff, beq_iff_eq] at this
  exact flushCtx_idle hw (by rw [hv]; exact this.1) (by rw [hv]; exact this.2)
theorem takeAck_idle (a : Nat) (ht : (x.port p).txBuf = []) (hw : x.ctxsWf) (hh : x.heldNone) : x.takeAck p a = x := by
  have : (x.port p).acked a = x.port p := by
    unfold Port.acked
    rw [ht, List.filter_nil, ← ht]
  rw [Blk.takeAck, this, setPort_self, flushPort_idle hw hh]

/-! ### A message in order (R37 to R39) -/

theorem frameIntact_length (h : frameIntact f = true) : 20 ≤ f.length ∧ leAt f 8 4 + 20 = f.length := by
  simp only [frameIntact, Bool.and_eq_true, decide_eq_true_eq, beq_iff_eq] at h
  exact ⟨h.1.1, h.1.2⟩
/-- An intact MSG frame next in order, on a port that has sent all it had: its message arrives. -/
theorem frameRx_msg (hup : (x.port p).up = true) (hcr : f.length ≤ (x.port p).credit) (hin : frameIntact f = true) (htype : leAt f 0 1 = 1)
    (hres : leAt f 1 3 = 0) (hlo : 32 ≤ leAt f 8 4) (hhi : leAt f 8 4 ≤ 32 + 65536) (hseq : leAt f 4 4 = (x.port p).rxNext)
    (hopen : x.host.intakeStopped = false) (htx : (x.port p).txBuf = []) (hh : x.heldNone) (hw : x.ctxsWf) :
    x.frameRx p f = (x.setPort p { x.port p with rxNext := ((x.port p).rxNext + 1) % 2 ^ 32 }).arrive
      (msgOf p ((f.drop 16).take (leAt f 8 4))) := by
  obtain ⟨hlen, heq⟩ := frameIntact_length hin
  have hbody : ¬ ((f.drop 16).take (leAt f 8 4)).length < 32 := by
    rw [List.length_take, List.length_drop]
    omega
  have h1 : ¬ (x.port p).credit < f.length := by omega
  have h2 : ¬ 32 + 65536 < leAt f 8 4 := by omega
  unfold Blk.frameRx
  simp only [hup, h1, hin, htype, bodyMax, hres, takeAck_idle _ htx hw hh, hseq, Blk.useCredit, setPort_host, hopen, Blk.frameBody, hbody]
  simp [h2]

/-! ### Bulk data (R40) -/

@[simp] theorem setCmd_logged (n q : Nat) : (x.setCmd c).logged n q = x.logged n q := logged_congr (by simp)
theorem logBulk_unlogged {q : Nat} (h : x.logged n q = false) : x.logBulk n q v = x := by simp [Blk.logBulk, h]

theorem bulkRx_attach (hcmds : x.host.cmds = [c]) (hst : c.started = false) (hlog : x.logged c.ctx c.seq = false) (hport : c.m.port = p)
    (hctx : c.ctx < 4096) (hlo : 16 ≤ v.length) (hhi : v.length ≤ 16 + 1048576) (h0 : leAt v 0 2 = c.ctx) (h2 : leAt v 2 2 = 0)
    (h4 : leAt v 4 4 = c.seq) (h8 : leAt v 8 8 = c.got.length) (hmax : c.got.length + (v.length - 16) ≤ c.bulkMax) :
    x.bulkRx p v = x.setCmd { c with got := c.got ++ v.drop 16 } := by
  have h1 : ¬ v.length < 16 := by omega
  have h3 : ¬ 1048576 < v.length - 16 := by omega
  have h5 : ¬ 4096 ≤ c.ctx := by omega
  have h6 : ¬ c.bulkMax < c.got.length + (v.length - 16) := by omega
  have hfind : x.cmdOf c.ctx c.seq = some c := by simp [Blk.cmdOf, hcmds]
  have hl : (x.setCmd { c with got := c.got ++ v.drop 16 }).logBulk c.ctx c.seq (v.drop 16) = x.setCmd { c with got := c.got ++ v.drop 16 } :=
    logBulk_unlogged (by rw [setCmd_logged]; exact hlog)
  unfold Blk.bulkRx
  simp only [h0, h2, h4, h8, List.length_drop, hfind]
  rw [if_neg (by simp [h1, h3, h5]), if_neg (by simp [hst, hport, h6]), hl]
theorem setCmd_single {d : Cmd} (hcmds : x.host.cmds = [c]) (hctx : d.ctx = c.ctx) (hseq : d.seq = c.seq) : (x.setCmd d).host.cmds = [d] := by
  simp [Blk.setCmd, hcmds, hctx, hseq]
/-- One command that waits for its data, and nothing else that goes on: the pump changes nothing. -/
theorem pump_waiting (hopen : x.host.intakeStopped = false) (hs : x.still = true) (hcmds : x.host.cmds = [c]) (hst : c.started = false)
    (hq : c.queued = true) (hd : c.dataIn = false) : x.pump = x := by
  have hpoll : x.pollCmds = x := by simp [Blk.pollCmds, hcmds, hst]
  have hready : x.nextReady = none := by simp [Blk.nextReady, hcmds, hd, hq]
  have hcm : x.pumpCmds = x := by
    unfold Blk.pumpCmds
    rw [hopen, hpoll, hcmds]
    simp [Blk.startReady, hready]
  rw [Blk.pump, hcm, still_tail hs]
theorem bulkArrive_open (hp : x.dev.powered = true) (hopen : x.host.intakeStopped = false) : x.bulkArrive p v = x.bulkRx p v := by
  simp [Blk.bulkArrive, devMode_powered hp, hopen]

/-! ### O9 -/

/-- Settles O9: the frame's message acts as it arrives; the body of a BULK frame joins what its command has. -/
theorem framesArrive : Obligations.FramesArrive := by
  unfold Obligations.FramesArrive
  refine ⟨fun s p f hp hup hcr hin htype hres hlo hhi hseq hopen htx hh hc => ?_,
    fun s p v c hp hup hpow hopen hs hcmds hst hq hlog hport hctx hlo hhi h0 h2 h4 h8 hmax hdata => ?_⟩
  · refine does_of_updIf rfl (decide_eq_true hp) ?_
    rw [frameRx_msg hup hcr hin htype hres hlo hhi hseq hopen htx hh hc.2.2.2.1]
  · refine does_of_updIf rfl (decide_eq_true hp) ?_
    have hrx := bulkRx_attach hcmds hst hlog hport hctx hlo hhi h0 h2 h4 h8 hmax
    have hset := setCmd_single (x := s.blk) (d := { c with got := c.got ++ v.drop 16 }) hcmds rfl rfl
    simp only [hup, if_true, bulkArrive_open hpow hopen, hrx]
    rw [pump_waiting (x := s.blk.setCmd _) hopen ((still_congr (b := s.blk) rfl rfl rfl).trans hs) hset hst hq hdata]
    exact ⟨hset, setCmd_sameButHost.eq⟩

end Sys2Proof.Machine
end

section
/-! SUPPORT. Ports that resend, lose signal, go down and train (R36, R38, R41, R453). -/
namespace Sys2Proof.Machine

variable {b x y z : Blk} {p n lane : Nat}

/-! ### Resending and the loss of a lane -/

/-- A counter after it was raised (R119). -/
theorem cfgGet_count (off k : Nat) (h : swf cfgReset x.cfg = true) : (x.count off k).cfgGet off % 2 ^ 64 = (x.cfgGet off + k) % 2 ^ 64 := by
  by_cases hk : k = 0
  · rw [cfgGet_congr (x := x) (by simp [Blk.count, hk]), hk, Nat.add_zero]
  · rw [cfgGet_congr (x := x.cfgSet off (x.cfgGet off + k)) (by simp [Blk.count, hk]), cfgGet_cfgSet _ _ _ h, Nat.mod_mod]
theorem cfgGet_count_ne {off k q : Nat} (h : q ≠ off) : (x.count off k).cfgGet q = x.cfgGet q := by
  by_cases hk : k = 0
  · exact cfgGet_congr (by simp [Blk.count, hk]) q
  · rw [cfgGet_congr (x := x.cfgSet off (x.cfgGet off + k)) (by simp [Blk.count, hk]), cfgGet_cfgSet_ne _ _ h]
/-- Frames not acknowledged are sent again and counted, and stay in the replay buffer. -/
theorem resendTimeout_up (h : (x.port p).up = true) : x.resendTimeout p = x.count (0x118 + 64 * p) (x.port p).txBuf.length := by
  unfold Blk.resendTimeout Blk.portCount
  rw [if_pos h]
  congr 1
  omega
theorem laneLoss_lit (h : tbit (x.port p).lanes lane = true) :
    x.laneLoss p lane = x.setPort p { x.port p with lanes := (x.port p).lanes - 2 ^ lane, up := false } := by
  simp [Blk.laneLoss, h]
theorem port_other (hp : p < 2) (v : Port) : (x.setPort p v).port (1 - p) = x.port (1 - p) := by
  rw [port_setPort_ite, if_neg]
  omega

/-! ### Errors are recorded (R497 to R503) -/

/-- Everything but configuration words, the host side and the error log is the same. -/
structure Blk.SameButLog (x y : Blk) : Prop where
  eq : { x with cfg := y.cfg, host := y.host, err := y.err } = y
theorem Blk.SameButLog.refl : x.SameButLog x := ⟨rfl⟩
theorem Blk.SameButLog.trans (h : x.SameButLog y) (g : y.SameButLog z) : x.SameButLog z := ⟨by rw [← g.eq, ← h.eq]⟩
theorem Blk.SameButHost.log (h : x.SameButHost y) : x.SameButLog y := ⟨by rw [← h.eq]⟩
theorem count_sameButLog (off k : Nat) : x.SameButLog (x.count off k) := ⟨by unfold Blk.count; rfl⟩
theorem propose_sends (r : ErrRec) : x.Sends (x.propose r) := eventTo_sends _ _ _
theorem propose_sameButLog (r : ErrRec) : x.SameButLog (x.propose r) := (eventTo_sameButHost _ _ _).log
theorem errorEvent_sends (r : ErrRec) : x.Sends (x.errorEvent r) := by
  unfold Blk.errorEvent
  split <;> exact eventTo_sends _ _ _
theorem errorEvent_sameButLog (r : ErrRec) : x.SameButLog (x.errorEvent r) := by
  unfold Blk.errorEvent
  split <;> exact (eventTo_sameButHost _ _ _).log
theorem newError_spec (r : ErrRec) : x.Sends (x.newError r) ∧ x.SameButLog (x.newError r) := by
  unfold Blk.newError
  simp only
  generalize hb : ({ x with err := _ } : Blk).count _ 1 = b1
  have h1 : x.Sends b1 := by rw [← hb]; exact .of_host (by simp)
  have g1 : x.SameButLog b1 := by rw [← hb]; exact .trans ⟨rfl⟩ (count_sameButLog _ _)
  split
  · exact ⟨h1.trans ((errorEvent_sends _).trans (propose_sends _)), g1.trans ((errorEvent_sameButLog _).trans (propose_sameButLog _))⟩
  · exact ⟨h1.trans (errorEvent_sends _), g1.trans (errorEvent_sameButLog _)⟩
theorem mergeError_spec (r : ErrRec) : x.Sends (x.mergeError r) ∧ x.SameButLog (x.mergeError r) := by
  unfold Blk.mergeError
  simp only
  generalize hb : ({ x with err := _ } : Blk) = b1
  have h1 : x.Sends b1 := by rw [← hb]; exact .of_host rfl
  have g1 : x.SameButLog b1 := by rw [← hb]; exact ⟨rfl⟩
  split
  · exact ⟨h1.trans (propose_sends _), g1.trans (propose_sameButLog _)⟩
  · exact ⟨h1, g1⟩
/-- Recording a fault changes the log, its counters and, by its events, the host side. -/
theorem addError_spec (r : ErrRec) : x.Sends (x.addError r) ∧ x.SameButLog (x.addError r) := by
  unfold Blk.addError
  split
  · exact mergeError_spec _
  · exact newError_spec _

/-! ### A port goes down (R41) -/

theorem sendRaw_sends (o : Out) : x.Sends (x.sendRaw o) := by
  unfold Blk.sendRaw
  simp only
  split
  · next h =>
    simp only [Bool.and_eq_true] at h
    exact setPort_sends (Port.grows_push _ _) h.1.1
  · exact setCtx_sends ⟨rfl, rfl, rfl, rfl, rfl, rfl, rfl, rfl, rfl, rfl⟩
theorem sendRaw_sameButHost (o : Out) : x.SameButHost (x.sendRaw o) := by
  unfold Blk.sendRaw
  simp only
  split
  · exact setPort_sameButHost _ _
  · exact setCtx_sameButHost _ _
theorem holdBack_sends (tx : List Out) : x.Sends (x.holdBack tx) := by
  unfold Blk.holdBack
  refine foldl_sends _ _ fun y o => setCtx_sends ?_
  exact ⟨rfl, rfl, rfl, rfl, rfl, rfl, rfl, rfl, rfl, rfl⟩
theorem holdBack_sameButHost (tx : List Out) : x.SameButHost (x.holdBack tx) := foldl_sameButHost _ _ fun _ _ => setCtx_sameButHost _ _
/-- Contexts get a new home, and what they hold is taken from them. -/
def Blk.rehome (b : Blk) (q : Nat) (l : List Nat) : Blk := l.foldl (fun b c => b.setCtx c { b.ctx c with home := q, homeSet := true, held := [] }) b
theorem rehome_sameButHost (q : Nat) (l : List Nat) : x.SameButHost (x.rehome q l) := foldl_sameButHost _ _ fun _ _ => setCtx_sameButHost _ _
theorem rehome_port (q : Nat) (l : List Nat) (k : Nat) : (x.rehome q l).port k = x.port k := by
  unfold Blk.rehome
  induction l generalizing x with
  | nil => rfl
  | cons n l ih => rw [List.foldl_cons, ih]; rfl
theorem rehome_ctx (q : Nat) (l : List Nat) (k : Nat) :
    ((x.rehome q l).ctx k).st = (x.ctx k).st ∧ ((k ∈ l ∨ ((x.ctx k).home = q ∧ (x.ctx k).homeSet = true)) →
      ((x.rehome q l).ctx k).home = q ∧ ((x.rehome q l).ctx k).homeSet = true) := by
  unfold Blk.rehome
  induction l generalizing x with
  | nil => simp
  | cons n l ih =>
    rw [List.foldl_cons]
    by_cases e : k = n
    · subst e
      have hc : (x.setCtx k { x.ctx k with home := q, homeSet := true, held := [] }).ctx k =
          { x.ctx k with home := q, homeSet := true, held := [] } :=
        ctx_setCtx_new _ _ _ fun e => Bool.noConfusion (congrArg Ctx.homeSet e)
      obtain ⟨h1, h2⟩ := ih (x := x.setCtx k { x.ctx k with home := q, homeSet := true, held := [] })
      rw [hc] at h1 h2
      exact ⟨h1, fun _ => h2 (.inr ⟨rfl, rfl⟩)⟩
    · have hc : (x.setCtx n { x.ctx n with home := q, homeSet := true, held := [] }).ctx k = x.ctx k := ctx_setCtx_ne _ _ e
      obtain ⟨h1, h2⟩ := ih (x := x.setCtx n { x.ctx n with home := q, homeSet := true, held := [] })
      rw [hc] at h1 h2
      exact ⟨h1, fun h => h2 (h.imp (fun h => (List.mem_cons.mp h).resolve_left e) id)⟩
/-- Once the contexts that move have their new home, PORT_FAILOVER and their frames are sent or held. -/
theorem failover_after_rehome (ms : List Nat) (tx : List Out) :
    (x.rehome (1 - p) ms).Sends (x.failover p ms tx) ∧ (x.rehome (1 - p) ms).SameButHost (x.failover p ms tx) := by
  unfold Blk.failover Blk.rehome
  simp only
  refine ⟨(eventTo_sends _ _ _).trans (.trans (foldl_sends _ _ ?_) (foldl_sends _ _ ?_)),
    (eventTo_sameButHost _ _ _).trans (.trans (foldl_sameButHost _ _ ?_) (foldl_sameButHost _ _ ?_))⟩
  · exact fun _ _ => sendRaw_sends _
  · exact fun _ _ => foldl_sends _ _ fun _ _ => sendRaw_sends _
  · exact fun _ _ => sendRaw_sameButHost _
  · exact fun _ _ => foldl_sameButHost _ _ fun _ _ => sendRaw_sameButHost _

theorem mem_homed (hst : (x.ctx n).st = 1) (hh : x.homeOf n = p) : n ∈ x.homed p := by
  have hne : sget (fun _ => ({} : Ctx)) x.host.ctxs n ≠ {} := fun e => by
    have := congrArg Ctx.st e
    exact absurd (this.symm.trans hst) (by simp)
  have hmem := mem_of_sget (d := fun _ => ({} : Ctx)) hne
  unfold Blk.homed
  rw [List.mem_map]
  refine ⟨_, List.mem_filter.mpr ⟨hmem, ?_⟩, rfl⟩
  have : (sget (fun _ => ({} : Ctx)) x.host.ctxs n).st = 1 := hst
  simp [this, hh]

/-- The port that is declared down, with its counter. -/
def Blk.portOff (b : Blk) (p : Nat) : Blk := (b.setPort p { b.port p with trained := false, up := false, txBuf := [] }).portCount p 0x30 1
/-- The contexts that move when a port is declared down and the other one is up. -/
def Blk.moving (b : Blk) (p : Nat) : List Nat := (b.homed p).filter fun c => (b.ctx c).failover
theorem portOff_facts : (x.portOff p).port p = { x.port p with trained := false, up := false, txBuf := [] } ∧ (∀ k, (x.portOff p).ctx k = x.ctx k) ∧
    x.SameButLog (x.portOff p) := by
  refine ⟨?_, fun k => ?_, (setPort_sameButHost p _).log.trans (count_sameButLog _ _)⟩
  · show (x.setPort p _).port p = _
    rw [port_setPort]
  · show (x.setPort p _).ctx k = _
    rw [ctx_setPort]
/-- A port declared down while the other is up: frames of contexts that stay are held, the others move, and the fault is recorded. -/
theorem portDown_eq (hp : p < 2) (ht : (x.port p).trained = true) (hup : (x.port (1 - p)).up = true) : ∃ hold tx rec,
    x.portDown p = ((((x.portOff p).holdBack hold).failover p (x.moving p) tx).addError rec) := by
  have hother : (((x.setPort p { x.port p with trained := false, up := false, txBuf := [] }).portCount p 0x30 1).port (1 - p)).up = true := by
    show ((x.setPort p _).port (1 - p)).up = true
    rw [port_other hp, hup]
  refine ⟨((x.port p).txBuf.map Prod.snd).filter (fun o => !(x.moving p).contains o.ctx), (x.port p).txBuf.map Prod.snd,
    { cls := if (x.homed p).all (x.moving p).contains then 0 else 1, kind := 7, code := 0x22, path := p + (x.port p).lostLane * 2 }, ?_⟩
  unfold Blk.portDown
  simp only [ht, hother, Bool.not_true, Bool.false_eq_true, if_false, if_true]
  rfl
theorem portDown_facts (hp : p < 2) (ht : (x.port p).trained = true) (hup : (x.port (1 - p)).up = true) :
    (x.portDown p).port p = { x.port p with trained := false, up := false, txBuf := [] } ∧
    (∀ n, (x.ctx n).st = 1 → x.homeOf n = p → (x.ctx n).failover = true → (x.portDown p).homeOf n = 1 - p ∧ ((x.portDown p).ctx n).st = 1) ∧
    x.SameButLog (x.portDown p) := by
  obtain ⟨hold, tx, rec, he⟩ := portDown_eq hp ht hup
  obtain ⟨hoff, hoffc, hoffl⟩ := portOff_facts (x := x) (p := p)
  obtain ⟨hfs, hfl⟩ := failover_after_rehome (x := (x.portOff p).holdBack hold) (p := p) (x.moving p) tx
  obtain ⟨has, hal⟩ := addError_spec (x := ((x.portOff p).holdBack hold).failover p (x.moving p) tx) rec
  have hhold := holdBack_sends (x := x.portOff p) hold
  have hport : ((x.portOff p).holdBack hold).port p = { x.port p with trained := false, up := false, txBuf := [] } := by
    rw [hhold.down p (by rw [hoff]), hoff]
  rw [he]
  refine ⟨?_, fun n hst hh hf => ?_, ?_⟩
  · rw [(hfs.trans has).down p (by rw [rehome_port, hport]), rehome_port, hport]
  · have hmem : n ∈ x.moving p := List.mem_filter.mpr ⟨mem_homed hst hh, hf⟩
    have hst1 : (((x.portOff p).holdBack hold).ctx n).st = 1 := by
      rw [(hhold.ctx n (by rw [hoffc, hst]; simp)).1, hoffc, hst]
    obtain ⟨h1, h2⟩ := rehome_ctx (x := (x.portOff p).holdBack hold) (1 - p) (x.moving p) n
    obtain ⟨hhome, hset⟩ := h2 (.inl hmem)
    obtain ⟨g1, -, -, g4, g5, -⟩ := (hfs.trans has).ctx n (by rw [h1, hst1]; simp)
    exact ⟨by rw [homeOf_set (by rw [g5, hset]), g4, hhome], by rw [g1, h1, hst1]⟩
  · exact hoffl.trans ((holdBack_sameButHost _).log.trans ((rehome_sameButHost _ _).log.trans (hfl.log.trans hal)))

/-! ### A port trains (R453) -/

@[simp] theorem leBytes_length (k v : Nat) : (leBytes k v).length = k := by
  induction k generalizing v with
  | zero => rfl
  | succ k ih => simp [leBytes, ih]
@[simp] theorem zeros_length (k : Nat) : (zeros k).length = k := List.length_replicate
theorem msgBytes_length (op ctx : Nat) (final event : Bool) (seq st det tide : Nat) (pay : List Byte) :
    (msgBytes op ctx final event seq st det tide pay).length = 32 + pay.length := by
  simp [msgBytes]
  omega
/-- The machine as a port that trains carries its READY: context 0 exists, and the event took its sequence. -/
def Blk.readied (b : Blk) (p : Nat) : Blk :=
  let b1 := b.setPort p { up := true, trained := true, lanes := 0xF }
  let b2 := if (b1.ctx 0).st = 0 then b1.setCtx 0 { ctxZero with held := (b1.ctx 0).held } else b1
  { b2 with host := { b2.host with evSeq := (b2.host.evSeq + 1) % 2 ^ 32 } }
theorem readied_facts : (x.readied p).port p = { up := true, trained := true, lanes := 0xF } ∧ ((x.readied p).ctx 0).st ≠ 0 ∧
    x.SameButHost (x.readied p) := by
  unfold Blk.readied
  simp only
  split
  · refine ⟨?_, ?_, .of_host _⟩
    · show (x.setPort p _).port p = _
      rw [port_setPort]
    · show (((x.setPort p _).setCtx 0 _).ctx 0).st ≠ 0
      rw [ctx_setCtx_new]
      · simp [ctxZero]
      · intro e; have := congrArg Ctx.st e; simp [ctxZero] at this
  · next h =>
    refine ⟨?_, h, .of_host _⟩
    show (x.setPort p _).port p = _
    rw [port_setPort]
/-- READY's frame has room in an empty replay buffer. -/
theorem room_ready (q : Port) (h : q.txBuf = []) (e t : Nat) : q.room (eventFrame evREADY 0 e t (readyBytes 0 p 0)) = true := by
  simp [Port.room, h, frameBytes, eventFrame, msgBytes_length, readyBytes]
theorem portTrained_eq (hpow : x.dev.powered = true) (ht : (x.port p).trained = false) :
    x.portTrained p = ((x.readied p).setPort p (({ up := true, trained := true, lanes := 0xF } : Port).push
      (eventFrame evREADY 0 x.host.evSeq x.tide (readyBytes 0 p 0)))).flushPort p := by
  have hs : (x.readied p).sendOn p (eventFrame evREADY 0 x.host.evSeq x.tide (readyBytes 0 p 0)) =
      (x.readied p).setPort p (({ up := true, trained := true, lanes := 0xF } : Port).push (eventFrame evREADY 0 x.host.evSeq x.tide (readyBytes 0 p 0))) := by
    unfold Blk.sendOn
    rw [readied_facts.1, if_pos]
    simp [room_ready]
  have hev : (if ((x.setPort p { up := true, trained := true, lanes := 0xF }).ctx 0).st = 0 then
      (x.setPort p { up := true, trained := true, lanes := 0xF }).setCtx 0
        { ctxZero with held := ((x.setPort p { up := true, trained := true, lanes := 0xF }).ctx 0).held }
      else x.setPort p { up := true, trained := true, lanes := 0xF }).host.evSeq = x.host.evSeq := by
    split <;> simp
  rw [← hs]
  unfold Blk.portTrained
  rw [if_neg (by simp [hpow, ht])]
  simp only [hev, eventFrame, Blk.readied]

/-- What the host sees of a port that trained: it carries frames, READY first, and nothing beside the host side changed. -/
theorem portTrained_facts (hpow : x.dev.powered = true) (ht : (x.port p).trained = false) :
    ((x.portTrained p).port p).up = true ∧ ((x.portTrained p).port p).trained = true ∧ ((x.portTrained p).port p).lanes = 0xF ∧
    ((x.portTrained p).port p).rxNext = 0 ∧ ((x.portTrained p).ctx 0).st ≠ 0 ∧
    ((x.portTrained p).port p).txBuf.head? = some (0, eventFrame evREADY 0 x.host.evSeq x.tide (readyBytes 0 p 0)) ∧
    { x with host := (x.portTrained p).host } = x.portTrained p := by
  obtain ⟨-, hst, hbut⟩ := readied_facts (x := x) (p := p)
  rw [portTrained_eq hpow ht]
  generalize hy : (x.readied p).setPort p _ = y
  have hport : y.port p = ({ up := true, trained := true, lanes := 0xF } : Port).push (eventFrame evREADY 0 x.host.evSeq x.tide (readyBytes 0 p 0)) := by
    rw [← hy, port_setPort]
  have hctx : (y.ctx 0).st ≠ 0 := by rw [← hy, ctx_setPort]; exact hst
  have hyb : x.SameButHost y := hbut.trans (hy ▸ setPort_sameButHost p _)
  have hflush := flushPort_sends (x := y) p
  obtain ⟨hup, htr, hlanes, hrx, ⟨l, hl⟩⟩ := hport ▸ hflush.port p
  refine ⟨hup, htr, hlanes, hrx, ?_, ?_, (hyb.trans (flushPort_sameButHost p)).eq⟩
  · rw [(hflush.ctx 0 hctx).1]; exact hctx
  · rw [← hl]; rfl

/-! ### O10 -/

/-- Settles O10: each of the port's events is one operation, followed to the ports, contexts and counters it touches. -/
theorem portsFailAndTrain : Obligations.PortsFailAndTrain := by
  unfold Obligations.PortsFailAndTrain
  refine ⟨fun s p hp hup hc => ?_, fun s p lane hp hlane hlit => ?_, fun s p hp ht hup _ => ?_, fun s p hp hpow ht i hi => ?_⟩
  · refine does_of_updIf rfl (decide_eq_true hp) ?_
    rw [resendTimeout_up hup]
    exact ⟨by simp, cfgGet_count _ _ hc.2.1, fun q hq => cfgGet_count_ne (by simpa using hq), by unfold Blk.count; rfl⟩
  · refine does_of_updIf rfl (by simp [hp, hlane]) ?_
    rw [laneLoss_lit hlit]
    refine ⟨?_, ?_, ?_, port_other hp _, by simp, (setPort_sameButHost _ _).eq⟩ <;> rw [port_setPort]
  · refine does_of_updIf rfl (decide_eq_true hp) ?_
    obtain ⟨hport, hmoved, hlog⟩ := portDown_facts hp ht hup
    rw [hport]
    exact ⟨rfl, rfl, rfl, hmoved, hlog.eq⟩
  · obtain rfl | rfl : i = .beaconPortTrained p ∨ i = .beaconPortRetry p true := by simpa using hi
    · exact does_of_updIf rfl (decide_eq_true hp) (portTrained_facts hpow ht)
    · exact does_of_updIf rfl (decide_eq_true hp) (portTrained_facts hpow ht)

end Sys2Proof.Machine
end

section
/-! SUPPORT. The host writes and reads memory (R58, R219, R348, R352, R363, R364). -/
namespace Sys2Proof.Machine

variable {b x y z : Blk} {c : Cmd} {m : Msg} {p a j n u : Nat} {v : List Byte}

/-! ### HBM under keys: what was written reads back (R363, R364) -/

/-- A byte of a unit under the key in force reads as it is stored. -/
theorem hbmByte_marked (hu : sget (fun _ => ([] : List Byte)) b.unitKeys (j / 64) = b.keyMark p) (hk : b.keyMark p ≠ []) : b.hbmByte p j = b.peek j := by
  simp [Blk.hbmByte, hu, hk]
theorem keyMark_congr (hp : x.parts = b.parts) : x.keyMark p = b.keyMark p := by
  unfold Blk.keyMark Blk.part
  rw [hp]
/-- A byte reads as before when its unit's key, the keys in force and the byte stored are as before. -/
theorem hbmByte_congr (hu : sget (fun _ => ([] : List Byte)) x.unitKeys (j / 64) = sget (fun _ => ([] : List Byte)) b.unitKeys (j / 64))
    (hz : x.zeroed = b.zeroed) (hp : x.parts = b.parts) (hj : x.peek j = b.peek j) : x.hbmByte p j = b.hbmByte p j := by
  unfold Blk.hbmByte
  rw [hu, hz, keyMark_congr hp, hj]
@[simp] theorem hbmRead_length : (b.hbmRead p a n).length = n := by
  induction n generalizing a with
  | zero => rfl
  | succ n ih => simp [Blk.hbmRead, ih]
theorem hbmRead_getElem (h : j < (b.hbmRead p a n).length) : (b.hbmRead p a n)[j] = b.hbmByte p (a + j) := by
  induction n generalizing a j with
  | zero => simp [Blk.hbmRead] at h
  | succ n ih =>
    cases j with
    | zero => rfl
    | succ j =>
      have := ih (a := a + 1) (j := j) (by simpa using h)
      simpa [Blk.hbmRead, Nat.add_assoc, Nat.add_comm 1 j] using this

/-- Where the part of a write that falls in a unit begins and ends. -/
theorem inUnit_length : (inUnit a v u).2.length = min (v.length - (max a (64 * u) - a)) (64 * u + 64 - max a (64 * u)) := by
  simp [inUnit, Nat.min_comm]
theorem inUnit_getElem (ha : a ≤ j) (hu : j / 64 = u) (hj : j - a < v.length) :
    (inUnit a v u).1 ≤ j ∧ ∃ h : j - (inUnit a v u).1 < (inUnit a v u).2.length, (inUnit a v u).2[j - (inUnit a v u).1] = v[j - a] := by
  have hfst : (inUnit a v u).1 = max a (64 * u) := rfl
  have hlo : max a (64 * u) ≤ j := by omega
  refine ⟨hfst ▸ hlo, by rw [inUnit_length, hfst]; omega, ?_⟩
  simp only [inUnit, List.getElem_take, List.getElem_drop]
  congr 1
  omega
/-- Outside a write, or in another unit, nothing of it falls. -/
theorem inUnit_out (h : j / 64 ≠ u ∨ j < a ∨ a + v.length ≤ j) : j < (inUnit a v u).1 ∨ (inUnit a v u).1 + (inUnit a v u).2.length ≤ j := by
  rw [inUnit_length, show (inUnit a v u).1 = max a (64 * u) from rfl]
  omega

/-- No unit that a write covers only in part is uncorrectable, the memory is in its form, and the key in force marks units. -/
structure Blk.writable (b : Blk) (p a : Nat) (v : List Byte) (l : List Nat) : Prop where
  wf : Memory.wf b.mem
  key : b.keyMark p ≠ []
  whole : ∀ u ∈ l, b.ueUnits.contains u = true → coversUnit a v.length u = true

theorem Blk.writable.tail {l : List Nat} (h : b.writable p a v (u :: l)) : b.writable p a v l :=
  ⟨h.wf, h.key, fun w hw => h.whole w (List.mem_cons_of_mem _ hw)⟩

/-! One unit of a write. -/

@[simp] theorem rekeyUnit_mem : (b.rekeyUnit p u).mem = (b.pokeN (64 * u) (b.hbmRead p (64 * u) 64)).mem := by simp [Blk.rekeyUnit]
@[simp] theorem rekeyUnit_unitKeys : (b.rekeyUnit p u).unitKeys = sset (fun _ => []) b.unitKeys u (b.keyMark p) := by simp [Blk.rekeyUnit]
@[simp] theorem rekeyUnit_parts : (b.rekeyUnit p u).parts = b.parts := by simp [Blk.rekeyUnit]
@[simp] theorem rekeyUnit_zeroed : (b.rekeyUnit p u).zeroed = b.zeroed := by simp [Blk.rekeyUnit]
@[simp] theorem rekeyUnit_ueUnits : (b.rekeyUnit p u).ueUnits = b.ueUnits := by simp [Blk.rekeyUnit]
theorem rekeyUnit_peek_in (hw : Memory.wf b.mem) (hu : j / 64 = u) : (b.rekeyUnit p u).peek j = b.hbmByte p j := by
  have hj : 64 * u ≤ j := by omega
  have hn : j - 64 * u < (b.hbmRead p (64 * u) 64).length := by rw [hbmRead_length]; omega
  rw [peek_congr rekeyUnit_mem, peek_pokeN_in hw hj hn, hbmRead_getElem, Nat.add_sub_cancel' hj]
theorem rekeyUnit_peek_out (hu : j / 64 ≠ u) : (b.rekeyUnit p u).peek j = b.peek j := by
  rw [peek_congr rekeyUnit_mem, peek_pokeN_out]
  rw [hbmRead_length]
  omega

/-- A unit covered whole is replaced. -/
theorem hbmUnit_whole (hc : coversUnit a v.length u = true) : b.hbmUnit p a v u =
    ({ b with unitKeys := sset (fun _ => []) b.unitKeys u (b.keyMark p), ueUnits := b.ueUnits.filter (· != u) }).pokeN (inUnit a v u).1 (inUnit a v u).2 := by
  unfold Blk.hbmUnit
  exact if_pos hc
/-- A unit covered in part is brought under the key first. -/
theorem hbmUnit_rekeyed (hc : coversUnit a v.length u = false) (he : b.ueUnits.contains u = false) :
    b.hbmUnit p a v u = (b.rekeyUnit p u).pokeN (inUnit a v u).1 (inUnit a v u).2 := by
  simp only [Blk.hbmUnit, hc, he, Bool.false_eq_true, if_false]
/-- The unit whole, or in part and not uncorrectable. -/
theorem Blk.writable.unit {l : List Nat} (h : b.writable p a v l) (hu : u ∈ l) :
    coversUnit a v.length u = true ∨ coversUnit a v.length u = false ∧ b.ueUnits.contains u = false := by
  have hw := h.whole u hu
  revert hw
  cases coversUnit a v.length u <;> cases b.ueUnits.contains u <;> simp
/-- What one unit of a write leaves. -/
theorem hbmUnit_frame {l : List Nat} (h : b.writable p a v l) (hu : u ∈ l) : (b.hbmUnit p a v u).parts = b.parts ∧
    (b.hbmUnit p a v u).zeroed = b.zeroed ∧ (b.hbmUnit p a v u).unitKeys = sset (fun _ => []) b.unitKeys u (b.keyMark p) ∧
    ∀ w, (b.hbmUnit p a v u).ueUnits.contains w = true → b.ueUnits.contains w = true := by
  obtain hc | ⟨hc, he⟩ := h.unit hu
  · rw [hbmUnit_whole hc]
    simp only [pokeN_frame, List.contains_iff_mem, List.mem_filter, true_and]
    exact fun _ hw => hw.1
  · rw [hbmUnit_rekeyed hc he]
    simp
theorem hbmUnit_writable {l : List Nat} (h : b.writable p a v l) (hu : u ∈ l) : (b.hbmUnit p a v u).writable p a v l := by
  obtain ⟨hparts, -, -, hue⟩ := hbmUnit_frame h hu
  exact ⟨hbmUnit_wf h.wf, by rw [keyMark_congr hparts]; exact h.key, fun w hw he => h.whole w hw (hue w he)⟩
/-- A byte of the unit reads as stored. -/
theorem hbmUnit_stored {l : List Nat} (h : b.writable p a v l) (hu : u ∈ l) (hju : j / 64 = u) :
    (b.hbmUnit p a v u).hbmByte p j = (b.hbmUnit p a v u).peek j := by
  obtain ⟨hparts, -, hkeys, -⟩ := hbmUnit_frame h hu
  have hmark := keyMark_congr (p := p) hparts
  refine hbmByte_marked ?_ (by rw [hmark]; exact h.key)
  rw [hju, hkeys, hmark]
  exact sget_sset_new (d := fun _ => ([] : List Byte)) h.key
/-- The bytes of a write that fall in a unit read as written. -/
theorem hbmUnit_in {l : List Nat} (h : b.writable p a v l) (hu : u ∈ l) (ha : a ≤ j) (hj : j - a < v.length) (hju : j / 64 = u) :
    (b.hbmUnit p a v u).hbmByte p j = v[j - a] := by
  obtain ⟨hlo, hlen, hval⟩ := inUnit_getElem ha hju hj
  rw [hbmUnit_stored h hu hju, ← hval]
  obtain hc | ⟨hc, he⟩ := h.unit hu
  · rw [hbmUnit_whole hc]
    exact peek_pokeN_in h.wf hlo hlen
  · rw [hbmUnit_rekeyed hc he]
    exact peek_pokeN_in (rekeyUnit_wf h.wf) hlo hlen
/-- Every other byte reads as before. -/
theorem hbmUnit_out {l : List Nat} (h : b.writable p a v l) (hu : u ∈ l) (hj : j / 64 ≠ u ∨ j < a ∨ a + v.length ≤ j) :
    (b.hbmUnit p a v u).hbmByte p j = b.hbmByte p j := by
  have hout := inUnit_out hj
  by_cases hju : j / 64 = u
  · have hc : coversUnit a v.length u = false := by
      simp only [coversUnit, Bool.and_eq_false_iff, decide_eq_false_iff_not]
      omega
    obtain hc' | ⟨-, he⟩ := h.unit hu
    · exact absurd (hc.symm.trans hc') Bool.false_ne_true
    · rw [hbmUnit_stored h hu hju, hbmUnit_rekeyed hc he, peek_pokeN_out hout, rekeyUnit_peek_in h.wf hju]
  · obtain ⟨hparts, hz, hkeys, -⟩ := hbmUnit_frame h hu
    refine hbmByte_congr (by rw [hkeys]; exact sget_sset_ne hju) hz hparts ?_
    obtain hc | ⟨hc, he⟩ := h.unit hu
    · rw [hbmUnit_whole hc]
      exact peek_pokeN_out hout
    · rw [hbmUnit_rekeyed hc he, peek_pokeN_out hout, rekeyUnit_peek_out hju]

/-- A write of some units: outside it bytes read as before. -/
theorem hbmUnits_out {l : List Nat} (h : b.writable p a v l) (hj : j / 64 ∉ l ∨ j < a ∨ a + v.length ≤ j) :
    (l.foldl (fun b u => b.hbmUnit p a v u) b).hbmByte p j = b.hbmByte p j := by
  induction l generalizing b with
  | nil => rfl
  | cons u l ih =>
    have hu : u ∈ u :: l := List.mem_cons_self
    rw [List.foldl_cons, ih ((hbmUnit_writable h hu).tail), hbmUnit_out h hu]
    · exact hj.imp_left fun hn e => hn (e ▸ hu)
    · exact hj.imp_left fun hn hm => hn (List.mem_cons_of_mem _ hm)
/-- Inside it, in one of its units, they read as written. -/
theorem hbmUnits_in {l : List Nat} (h : b.writable p a v l) (ha : a ≤ j) (hj : j - a < v.length)
    (hl : j / 64 ∈ l ∨ b.hbmByte p j = v[j - a]) : (l.foldl (fun b u => b.hbmUnit p a v u) b).hbmByte p j = v[j - a] := by
  induction l generalizing b with
  | nil => exact hl.resolve_left List.not_mem_nil
  | cons u l ih =>
    have hu : u ∈ u :: l := List.mem_cons_self
    rw [List.foldl_cons]
    refine ih (hbmUnit_writable h hu).tail ?_
    by_cases hju : j / 64 = u
    · exact .inr (hbmUnit_in h hu ha hj hju)
    · rw [hbmUnit_out h hu (.inl hju)]
      exact hl.imp_left fun hm => (List.mem_cons.mp hm).resolve_left hju
theorem mem_unitsOf (ha : a ≤ j) (hj : j < a + n) : j / 64 ∈ unitsOf a n := by
  rw [unitsOf, if_neg (by omega), List.mem_map]
  exact ⟨j / 64 - a / 64, by rw [List.mem_range]; omega, by omega⟩
/-- No unit written in part is uncorrectable. -/
theorem writable_of_partialUe (hw : Memory.wf b.mem) (hk : b.keyMark p ≠ []) (h : b.partialUe a v.length = none) : b.writable p a v (unitsOf a v.length) := by
  refine ⟨hw, hk, fun u hu he => ?_⟩
  have := List.find?_eq_none.mp h u hu
  simpa only [he, Bool.true_and, Bool.not_eq_true', Bool.not_eq_false] using this

end Sys2Proof.Machine
end

section
/-! SUPPORT. CMD_MEM_WRITE and CMD_MEM_READ (R58, R219, R348). -/
namespace Sys2Proof.Machine

variable {b x y : Blk} {c : Cmd} {m : Msg} {p a n : Nat} {v : List Byte}

/-! ### Operations on memory leave the host side alone -/

/-- An operation that neither reads nor changes the host side, and leaves Bays, channels, the slice and spans. -/
structure MemOp (f : Blk → Blk) : Prop where
  same : ∀ {x y : Blk}, x.SameButHost y → (f x).SameButHost (f y)
  host : ∀ x, (f x).host = x.host
  rest : ∀ x, (f x).bays = x.bays ∧ (f x).chans = x.chans ∧ (f x).slice = x.slice ∧ (f x).spans = x.spans

namespace MemOp

variable {f g : Blk → Blk}

theorem refl : MemOp fun b => b := ⟨id, fun _ => rfl, fun _ => ⟨rfl, rfl, rfl, rfl⟩⟩
theorem comp (hg : MemOp g) (hf : MemOp f) : MemOp fun b => g (f b) where
  same h := hg.same (hf.same h)
  host x := (hg.host _).trans (hf.host x)
  rest x := by simp only [hf.rest x, hg.rest (f x), and_self]
theorem foldl {α : Type} {f : Blk → α → Blk} (hf : ∀ q, MemOp fun b => f b q) (l : List α) : MemOp fun b => l.foldl f b := by
  induction l with
  | nil => exact refl
  | cons q l ih => exact ih.comp (hf q)
/-- An operation that a host side can be put into before or after. -/
theorem of_comm (hf : ∀ (b : Blk) (h : HostSide), f { b with host := h } = { f b with host := h })
    (hr : ∀ x, (f x).bays = x.bays ∧ (f x).chans = x.chans ∧ (f x).slice = x.slice ∧ (f x).spans = x.spans) : MemOp f where
  same {x y} h := ⟨by
    have e := hf x y.host
    rw [h.eq] at e
    rw [e]⟩
  host x := by
    have e : f x = { f x with host := x.host } := hf x x.host
    rw [e]
  rest := hr

/-- A choice that does not look at the host side. -/
theorem ite {d : Blk → Prop} [∀ b, Decidable (d b)] (hd : ∀ (b : Blk) (h : HostSide), d { b with host := h } ↔ d b) (hf : MemOp f) (hg : MemOp g) :
    MemOp fun b => if d b then f b else g b where
  same {x y} h := by
    have e := hd x y.host
    rw [h.eq] at e
    by_cases hx : d x
    · simpa only [if_pos hx, if_pos (e.mpr hx)] using hf.same h
    · simpa only [if_neg hx, if_neg (hx ∘ e.mp)] using hg.same h
  host x := by
    split
    · exact hf.host x
    · exact hg.host x
  rest x := by
    split
    · exact hf.rest x
    · exact hg.rest x

end MemOp

theorem ringTouch_memOp (d : Nat) (w : Bool) : MemOp fun b => b.ringTouch d w a n := by
  unfold Blk.ringTouch
  exact .ite (fun _ _ => .rfl) .refl (.of_comm (fun _ _ => rfl) fun _ => by simp)
theorem bankTouch_memOp (d r : Nat) : MemOp fun b => b.bankTouch d r a n := by
  unfold Blk.bankTouch
  exact .ite (fun _ _ => .rfl) .refl (.of_comm (fun _ _ => rfl) fun _ => by simp)
theorem tpWriteFar_memOp (d : Nat) : MemOp fun b => b.tpWriteFar d a v := by
  unfold Blk.tpWriteFar
  split
  · exact .refl
  · exact .comp (f := fun b => (b.ringTouch d true a v.length)) (g := fun b => (b.pokeN (tpAddr d a) v).inboxArrive d a v.length)
      (.of_comm (fun _ _ => rfl) fun _ => ⟨rfl, rfl, rfl, rfl⟩) (ringTouch_memOp d true)
/-- A write into the window region that is local to no Cove. -/
theorem winWrite_memOp : MemOp fun b => b.winWrite none a v := by
  refine .foldl (fun d => ?_) _
  simp only [reduceCtorEq, if_false]
  exact .ite (fun _ _ => .rfl) (.of_comm (fun _ _ => rfl) fun _ => by simp) (tpWriteFar_memOp d)
theorem hbmRead_congr (h : x.SameButHost y) : y.hbmRead p a n = x.hbmRead p a n := by
  induction n generalizing a with
  | zero => rfl
  | succ n ih =>
    simp only [Blk.hbmRead, ih]
    rw [← h.eq]
    rfl
theorem pokeN_memOp : MemOp fun b => b.pokeN a v := .of_comm (fun _ _ => rfl) fun _ => by simp
theorem rekeyUnit_memOp (u : Nat) : MemOp fun b => b.rekeyUnit p u := by
  unfold Blk.rekeyUnit
  refine .of_comm (fun b h => ?_) fun x => by simp
  simp only
  rw [hbmRead_congr (.of_host h)]
  generalize b.hbmRead p (64 * u) 64 = w
  rfl
theorem hbmUnit_memOp (u : Nat) : MemOp fun b => b.hbmUnit p a v u := by
  unfold Blk.hbmUnit
  exact .ite (fun _ _ => .rfl) (.of_comm (fun _ _ => rfl) fun _ => by simp)
    (.ite (fun _ _ => .rfl) .refl (.comp (g := fun b => b.pokeN _ _) pokeN_memOp (rekeyUnit_memOp u)))
theorem memWrite_memOp : MemOp fun b => b.memWrite p none a v := by
  unfold Blk.memWrite
  split
  · exact .refl
  · split
    · exact .foldl (fun u => hbmUnit_memOp u) _
    · exact winWrite_memOp

/-! ### Judging an access looks at nothing of the host side -/

theorem access_congr (h : x.SameButHost y) : y.globalStatus = x.globalStatus ∧ y.isLocal = x.isLocal ∧ y.spanInput = x.spanInput ∧
    y.hbmHeld = x.hbmHeld ∧ y.partialUe = x.partialUe ∧ y.rangeUe = x.rangeUe ∧ y.rangeLost = x.rangeLost := by
  rw [← h.eq]
  exact ⟨rfl, rfl, rfl, rfl, rfl, rfl, rfl⟩
theorem peekN_congr (h : x.SameButHost y) : y.peekN a n = x.peekN a n := by
  induction n generalizing a with
  | zero => rfl
  | succ n ih =>
    simp only [Blk.peekN, ih]
    rw [← h.eq]
    rfl
theorem memRead_congr (h : x.SameButHost y) : y.memRead p a n = x.memRead p a n := by
  unfold Blk.memRead
  rw [hbmRead_congr h, peekN_congr h, ← h.eq]
  rfl
@[simp] theorem peekN_length : (b.peekN a n).length = n := by
  induction n generalizing a with
  | zero => rfl
  | succ n ih => simp [Blk.peekN, ih]
@[simp] theorem memRead_length : (b.memRead p a n).length = n := by
  unfold Blk.memRead
  split
  · exact hbmRead_length
  · split
    · simp
    · exact peekN_length

/-! ### Memory commands end as they start -/

/-- A final reply leaves the frames that a port's buffer holds. -/
theorem finalReply_grows (s : Bool) (st det q : Nat) (pay : List Byte) : (x.port q).grows ((x.finalReply m s st det pay).port q) := by
  unfold Blk.finalReply
  simp only
  split
  · exact (replyTo_sends (x := x.setCtx _ _) _ _ _).port q
  · exact (replyTo_sends _ _ _).port q
/-- A command of kind D, accepted, that ends in ST_OK as it starts. -/
theorem command_ends_D {pay : List Byte} (h : b.takes m = true) (hk : dKind m.opcode = true) (hop : m.opcode ≠ 1)
    (hr : (b.entered m).runOp (b.asCmd m) = x.finish (b.accepted m) stOK 0 pay) (hc : x.host.cmds = [b.accepted m])
    (hst : (x.ctx m.ctx).st ≠ 0) (hs : x.still = true) (hl : x.logged m.ctx m.seq = false) :
    b.command m = x.finish (b.accepted m) stOK 0 pay ∧ (b.command m).answered m stOK 0 pay ∧ x.SameButHost (b.command m) ∧
    x.hostBut (b.command m) [m.ctx] ∧ ∀ q, (x.port q).grows ((b.command m).port q) := by
  have h13 : (b.accepted m).flag 13 = false := (takes_facts h).2.2.2.1
  have he := (command_ends_as (c := b.accepted m) h rfl hr (fun d hd => by
    rw [hc, List.mem_singleton] at hd
    rw [hd]; rfl) hs hl).1
  rw [he]
  refine ⟨rfl, finish_answered h13 hl hop hst (by decide), finish_ok_D_same h13 hl hk, finish_hostBut h13 hl, fun q => ?_⟩
  rw [finish_ok_D (c := b.accepted m) h13 hl hk]
  exact finalReply_grows (x := x.dropCmd (b.accepted m)) _ _ _ q _
/-- A memory command as it was accepted: nothing beside the host side changed. -/
theorem accepted_sameButHost {pay : List Byte} (hop : m.opcode / 256 = 3) : b.SameButHost ((b.entered m).accept (b.asCmd m) pay) := by
  have := accept_entered_sameButHost (b := b) (m := m) (pay := pay)
  rwa [measureCmd_of_not_measured (.inr (.inr (.inr hop)))] at this
theorem accepted_ctx_open {pay : List Byte} (h : b.takes m = true) : (((b.entered m).accept (b.asCmd m) pay).ctx m.ctx).st ≠ 0 := by
  rw [(accept_entered_ctx h).1, (entered_ctx_self h).1]
  simp
/-- Operations on memory after the command was accepted. -/
theorem memOp_accepted {f : Blk → Blk} (h : b.takes m = true) (hop : m.opcode / 256 = 3) (hf : MemOp f) (hx : x = f ((b.entered m).accept (b.asCmd m))) :
    (f b).SameButHost x ∧ b.hostBut x [m.ctx] ∧ x.host.cmds = [b.accepted m] ∧ (x.ctx m.ctx).st ≠ 0 ∧ x.still = true ∧
    x.logged m.ctx m.seq = false := by
  obtain ⟨-, hstill, hlog, -⟩ := takes_facts h
  have hhost : x.host = ((b.entered m).accept (b.asCmd m)).host := hx ▸ hf.host _
  have hsame : (f b).SameButHost x := hx ▸ hf.same (accepted_sameButHost hop)
  have hctx : x.ctx m.ctx = ((b.entered m).accept (b.asCmd m)).ctx m.ctx := by unfold Blk.ctx; rw [hhost]
  obtain ⟨hb, hc, hs, hp⟩ := hf.rest b
  refine ⟨hsame, accept_entered_hostBut.trans (hostBut_of_host hhost), by rw [hhost, accept_entered_cmds], by rw [hctx]; exact accepted_ctx_open h, ?_, ?_⟩
  · rw [still_congr (b := b) (by rw [← hsame.eq]; exact hb) (by rw [← hsame.eq]; exact hc) (by rw [← hsame.eq]; exact hs), hstill]
  · rw [logged_congr (b := b) (by rw [← hsame.eq]; exact hp), hlog]

/-! ### CMD_MEM_WRITE -/

/-- A local write with nothing in its way. -/
theorem memWriteGo_done (h0 : regionOf (gLocal c.m.param) = 0 → x.hbmHeld (gLocal c.m.param) c.data.length = none ∧
      x.partialUe (gLocal c.m.param) c.data.length = none) (hl : x.rangeLost (gLocal c.m.param) c.data.length = false) :
    x.memWriteGo c = (x.memWrite c.part none (gLocal c.m.param) c.data).finish c stOK 0 [] := by
  have e1 : (if regionOf (gLocal c.m.param) = 0 then x.hbmHeld (gLocal c.m.param) c.data.length else none) = none := by
    split
    · next h => exact (h0 h).1
    · rfl
  have e2 : (if regionOf (gLocal c.m.param) = 0 then x.partialUe (gLocal c.m.param) c.data.length else none) = none := by
    split
    · next h => exact (h0 h).2
    · rfl
  unfold Blk.memWriteGo
  simp only [e1, e2, hl, Bool.false_eq_true, if_false]
/-- The command, accepted, writes its payload. -/
theorem runOp_memWrite (hop : m.opcode = 0x0300) (hf : tbit m.flags 2 = false) (hne : m.payload ≠ [])
    (hst : b.globalStatus m.partition m.param m.payload.length = (0, 0)) (hlocal : b.isLocal m.param = true)
    (hspan : b.spanInput m.param m.payload.length = false)
    (h0 : regionOf (gLocal m.param) = 0 → b.hbmHeld (gLocal m.param) m.payload.length = none ∧ b.partialUe (gLocal m.param) m.payload.length = none)
    (hl : b.rangeLost (gLocal m.param) m.payload.length = false) :
    (b.entered m).runOp (b.asCmd m) =
      (((b.entered m).accept (b.asCmd m)).memWrite m.partition none (gLocal m.param) m.payload).finish (b.accepted m) stOK 0 [] := by
  obtain ⟨e1, e2, e3, -⟩ := access_congr (entered_sameButHost (b := b) (m := m))
  obtain ⟨-, -, -, f4, f5, -, f7⟩ := access_congr (accepted_sameButHost (b := b) (m := m) (pay := []) (by omega))
  have hflag : (b.asCmd m).flag 14 = false := hf
  have hdata : (b.asCmd m).data = m.payload := by unfold Cmd.data; rw [hflag]; rfl
  have hgo := memWriteGo_done (x := (b.entered m).accept (b.asCmd m)) (c := b.accepted m)
    (by rw [f4, f5, show (b.accepted m).data = m.payload from hdata]; exact h0) (by rw [f7, show (b.accepted m).data = m.payload from hdata]; exact hl)
  rw [show (b.accepted m).data = m.payload from hdata] at hgo
  rw [runOp_eq (op := 0x0300) hop rfl]
  unfold Blk.doMemWrite
  simp only [hflag, hdata, e1, e2, e3, show (b.asCmd m).part = m.partition from rfl, show (b.asCmd m).m = m from rfl, hst, hlocal, hspan,
    bne_self_eq_false, Bool.false_and, Bool.false_eq_true, if_false, if_true, List.length_eq_zero_iff, hne]
  exact hgo
theorem command_memWrite (h : b.takes m = true) (hop : m.opcode = 0x0300) (hf : tbit m.flags 2 = false) (hne : m.payload ≠ [])
    (hst : b.globalStatus m.partition m.param m.payload.length = (0, 0)) (hlocal : b.isLocal m.param = true)
    (hspan : b.spanInput m.param m.payload.length = false)
    (h0 : regionOf (gLocal m.param) = 0 → b.hbmHeld (gLocal m.param) m.payload.length = none ∧ b.partialUe (gLocal m.param) m.payload.length = none)
    (hl : b.rangeLost (gLocal m.param) m.payload.length = false) :
    (b.command m).answered m stOK 0 [] ∧
    { b.memWrite m.partition none (gLocal m.param) m.payload with host := (b.command m).host } = b.command m ∧ b.hostFor (b.command m) m := by
  have hr := runOp_memWrite hop hf hne hst hlocal hspan h0 hl
  obtain ⟨hsame, hbut, hcmds, hctx, hstill, hlog⟩ := memOp_accepted h (by omega) (memWrite_memOp (p := m.partition) (a := gLocal m.param) (v := m.payload)) rfl
  obtain ⟨-, hans, hend, hhost, -⟩ := command_ends_D h (by rw [hop]; rfl) (by omega) hr hcmds hctx hstill hlog
  exact ⟨hans, (hsame.trans hend).eq, hbut.trans hhost⟩

/-! ### A frame for a context whose home port has room -/

/-- The bytes of the frames in a port's replay buffer (R38). -/
def Port.load (q : Port) : Nat := q.txBuf.foldl (fun a r => a + frameBytes r.2) 0
theorem room_iff (q : Port) (o : Out) : q.room o = true ↔ q.load + frameBytes o ≤ 8388608 := decide_eq_true_iff
theorem load_push (q : Port) (o : Out) : (q.push o).load = q.load + frameBytes o := by simp [Port.load, Port.push]
/-- A context holds nothing, and its home port h is up with at most k bytes in its replay buffer. -/
structure Blk.clear (x : Blk) (n h k : Nat) : Prop where
  held : (x.ctx n).held = []
  homeSet : (x.ctx n).homeSet = true
  home : (x.ctx n).home = h
  up : (x.port h).up = true
  load : (x.port h).load ≤ k

theorem Blk.clear.of_ctx {h k : Nat} (g : x.clear n h k) (hh : (y.ctx n).held = (x.ctx n).held) (hs : (y.ctx n).homeSet = (x.ctx n).homeSet)
    (hm : (y.ctx n).home = (x.ctx n).home) (hA : y.host.portA = x.host.portA) (hB : y.host.portB = x.host.portB) : y.clear n h k := by
  have hp : y.port h = x.port h := by unfold Blk.port; rw [hA, hB]
  exact ⟨hh.trans g.held, hs.trans g.homeSet, hm.trans g.home, by rw [hp, g.up], by rw [hp]; exact g.load⟩
theorem Blk.clear.of_host {h k : Nat} (g : x.clear n h k) (e : y.host = x.host) : y.clear n h k := by
  have hc : y.ctx n = x.ctx n := by unfold Blk.ctx; rw [e]
  exact g.of_ctx (by rw [hc]) (by rw [hc]) (by rw [hc]) (by rw [e]) (by rw [e])
/-- The next frame leaves at once. -/
theorem Blk.clear.sendOut {h k : Nat} {o : Out} (g : x.clear o.ctx h k) (j : Nat) (hk : k + frameBytes o ≤ 8388608) :
    x.sendOut o j = x.setPort h ((x.port h).push o) ∧ (x.sendOut o j).clear o.ctx h (k + frameBytes o) := by
  have hhome : x.homeOf o.ctx = h := (homeOf_set g.homeSet).trans g.home
  have hroom : (x.port h).room o = true := (room_iff _ _).mpr (by have := g.load; omega)
  have hs : x.sendOut o j = x.setPort h ((x.port h).push o) := by
    rw [sendOut_canSend j (by simp [Blk.canSend, hhome, g.up, g.held, hroom]), hhome]
  rw [hs]
  refine ⟨rfl, by simpa using g.held, by simpa using g.homeSet, by simpa using g.home, ?_, ?_⟩
  · rw [port_setPort]; exact g.up
  · rw [port_setPort, load_push]
    exact Nat.add_le_add_right g.load _
/-- The frame of the reply ST_QUEUED (R48). -/
def queuedFrame (m : Msg) (tide : Nat) : Out := { kind := 1, ctx := m.ctx, event := false, body := msgBytes m.opcode m.ctx false false m.seq stQUEUED 0 tide [] }
theorem queuedFrame_bytes (tide : Nat) : frameBytes (queuedFrame m tide) = 52 := by simp [frameBytes, queuedFrame, msgBytes_length]
/-- After a command was accepted, at most the reply ST_QUEUED is in the buffer. -/
theorem accepted_clear {h : Nat} (ht : b.takes m = true) (g : b.clear m.ctx h 0) : ((b.entered m).accept (b.asCmd m)).clear m.ctx h 52 := by
  obtain ⟨hst, hh, hhs, hd⟩ := entered_ctx_self ht
  have hctx : (((b.entered m).measureCmd m).setCmd (b.accepted m)).ctx m.ctx = (b.entered m).ctx m.ctx := by simp [Blk.ctx, Blk.setCmd]
  have hw : (((b.entered m).measureCmd m).setCmd (b.accepted m)).clear m.ctx h 0 :=
    g.of_ctx (by rw [hctx, hd]) (by rw [hctx, hhs]) (by rw [hctx, hh]) (by simp [Blk.setCmd]) (by simp [Blk.setCmd])
  rw [accept_eq rfl]
  split
  · exact ⟨hw.held, hw.homeSet, hw.home, hw.up, Nat.le_trans hw.load (by decide)⟩
  · unfold Blk.replyTo
    simp only
    rw [if_neg]
    · have hq := (Blk.clear.sendOut (o := queuedFrame m (b.entered m).tide) hw 0 (by rw [queuedFrame_bytes]; decide)).2
      rw [queuedFrame_bytes] at hq
      exact hq
    · show ((((b.entered m).measureCmd m).setCmd (b.accepted m)).ctx m.ctx).st ≠ 0
      rw [hctx, hst]
      simp

/-! ### CMD_MEM_READ -/

/-- The BULK frame of the data returned for a message (R40). -/
def bulkFrame (m : Msg) (v : List Byte) : Out :=
  { kind := 2, ctx := m.ctx, event := false, body := leBytes 2 (m.ctx % 4096) ++ zeros 2 ++ leBytes 4 m.seq ++ leBytes 8 0 ++ v }
/-- Data of at most 1 MiB is returned in one frame. -/
theorem returnData_one {st det : Nat} (h0 : 0 < v.length) (h1 : v.length ≤ 1048576) :
    x.returnData (b.accepted m) v st det = (x.sendOut (bulkFrame m v) 0).finish (b.accepted m) st det (leBytes 4 v.length ++ zeros 4) := by
  have hc : cdiv v.length 1048576 = 1 := by unfold cdiv; omega
  unfold Blk.returnData
  rw [hc]
  simp only [List.range_one, List.foldl_cons, List.foldl_nil, Nat.mul_zero, List.drop_zero, List.take_of_length_le h1]
  rfl
/-- The out-of-turn reads and bank grants of a read, when it is one of a Tidepool. -/
def Blk.readTouch (b : Blk) (a n : Nat) : Blk :=
  if regionOf a = 1 then b.tpTouchReads ((a - tpBase) / tpSize) 6 [((a - tpBase) % tpSize, n)] else b
theorem readTouch_memOp : MemOp fun b => b.readTouch a n := by
  unfold Blk.readTouch
  split
  · exact .comp (g := fun b => b.bankTouch _ _ _ _) (bankTouch_memOp _ _) (ringTouch_memOp _ false)
  · exact .refl
theorem readTouch_hbm (h : regionOf a = 0) : b.readTouch a n = b := by
  unfold Blk.readTouch
  rw [if_neg (by omega)]
theorem ringTouch_cfg (d : Nat) (w : Bool) : ∃ cfg, b.ringTouch d w a n = { b with cfg := cfg } := by
  unfold Blk.ringTouch
  simp only
  split
  · exact ⟨_, rfl⟩
  · exact ⟨_, rfl⟩
theorem bankTouch_coves (d r : Nat) : ∃ coves, b.bankTouch d r a n = { b with coves := coves } := by
  unfold Blk.bankTouch
  simp only
  split
  · exact ⟨_, rfl⟩
  · exact ⟨_, rfl⟩
/-- A read touches counters and bank pointers only. -/
theorem readTouch_frame : ∃ cfg coves, b.readTouch a n = { b with cfg := cfg, coves := coves } := by
  unfold Blk.readTouch
  split
  · obtain ⟨cfg, hr⟩ := ringTouch_cfg (b := b) (a := (a - tpBase) % tpSize) (n := n) ((a - tpBase) / tpSize) false
    obtain ⟨coves, hb⟩ := bankTouch_coves (b := { b with cfg := cfg }) (a := (a - tpBase) % tpSize) (n := n) ((a - tpBase) / tpSize) 6
    refine ⟨cfg, coves, ?_⟩
    show (b.ringTouch _ false _ n).bankTouch _ 6 _ n = _
    rw [hr, hb]
  · exact ⟨_, _, rfl⟩
/-- A local read with nothing in its way. -/
theorem memReadGo_done {k : Nat} (hn : leAt c.m.payload 0 4 = k) (h0 : regionOf (gLocal c.m.param) = 0 → x.hbmHeld (gLocal c.m.param) k = none)
    (hu : x.rangeUe (gLocal c.m.param) k = none) (hl : x.rangeLost (gLocal c.m.param) k = false) :
    x.memReadGo c = (x.readTouch (gLocal c.m.param) k).returnData c (x.memRead c.part (gLocal c.m.param) k) stOK 0 := by
  have e1 : (if regionOf (gLocal c.m.param) = 0 then x.hbmHeld (gLocal c.m.param) k else none) = none := by
    split
    · next h => exact h0 h
    · rfl
  unfold Blk.memReadGo
  simp only [hn, e1, hu, hl, Bool.false_eq_true, if_false]
  rfl
/-- The command, accepted, returns the bytes read and ends. -/
theorem runOp_memRead {k : Nat} (hop : m.opcode = 0x0301) (h4 : leAt m.payload 4 4 = 0) (hn : leAt m.payload 0 4 = k) (hk : 0 < k) (hk' : k ≤ 1048576)
    (hst : b.globalStatus m.partition m.param k = (0, 0)) (hlocal : b.isLocal m.param = true)
    (h0 : regionOf (gLocal m.param) = 0 → b.hbmHeld (gLocal m.param) k = none) (hu : b.rangeUe (gLocal m.param) k = none)
    (hl : b.rangeLost (gLocal m.param) k = false) :
    (b.entered m).runOp (b.asCmd m) =
      ((((b.entered m).accept (b.asCmd m)).readTouch (gLocal m.param) k).sendOut (bulkFrame m (b.memRead m.partition (gLocal m.param) k)) 0).finish
        (b.accepted m) stOK 0 (leBytes 4 k ++ zeros 4) := by
  have hacc := accepted_sameButHost (b := b) (m := m) (pay := []) (by omega)
  obtain ⟨e1, e2, -⟩ := access_congr (entered_sameButHost (b := b) (m := m))
  obtain ⟨-, -, -, f4, -, f6, f7⟩ := access_congr hacc
  have hgo := memReadGo_done (x := (b.entered m).accept (b.asCmd m)) (c := b.accepted m) hn (by rw [f4]; exact h0) (by rw [f6]; exact hu)
    (by rw [f7]; exact hl)
  rw [memRead_congr hacc] at hgo
  have hret := returnData_one (b := b) (m := m) (x := ((b.entered m).accept (b.asCmd m)).readTouch (gLocal m.param) k)
    (v := b.memRead m.partition (gLocal m.param) k) (st := stOK) (det := 0) (by rw [memRead_length]; exact hk) (by rw [memRead_length]; exact hk')
  rw [memRead_length] at hret
  rw [runOp_eq (op := 0x0301) hop rfl]
  unfold Blk.doMemRead
  simp only [show (b.asCmd m).part = m.partition from rfl, show (b.asCmd m).m = m from rfl, h4, hn, e1, e2, hst, hlocal,
    bne_self_eq_false, Bool.false_eq_true, if_false, if_true, Nat.ne_of_gt hk]
  exact hgo.trans hret
theorem command_memRead {k h : Nat} (ht : b.takes m = true) (hop : m.opcode = 0x0301) (h4 : leAt m.payload 4 4 = 0) (hn : leAt m.payload 0 4 = k)
    (hh : b.homeOf m.ctx = h) (hk : 0 < k) (hk' : k ≤ 1048576)
    (hst : b.globalStatus m.partition m.param k = (0, 0)) (hlocal : b.isLocal m.param = true)
    (h0 : regionOf (gLocal m.param) = 0 → b.hbmHeld (gLocal m.param) k = none) (hu : b.rangeUe (gLocal m.param) k = none)
    (hl : b.rangeLost (gLocal m.param) k = false) (hup : (b.port h).up = true) (htx : (b.port h).txBuf = []) (hheld : (b.ctx m.ctx).held = []) :
    (b.command m).answered m stOK 0 (leBytes 4 k ++ zeros 4) ∧ (b.readTouch (gLocal m.param) k).SameButHost (b.command m) ∧
    b.hostFor (b.command m) m ∧ ∃ q, (q, bulkFrame m (b.memRead m.partition (gLocal m.param) k)) ∈ ((b.command m).port h).txBuf := by
  have hr := runOp_memRead hop h4 hn hk hk' hst hlocal h0 hu hl
  obtain ⟨hsame, hbut, hcmds, hctx, hstill, hlog⟩ := memOp_accepted ht (by omega) (readTouch_memOp (a := gLocal m.param) (n := k)) rfl
  have hclear0 : b.clear m.ctx h 0 :=
    ⟨hheld, takes_homeSet ht, by rw [← hh, homeOf_set (takes_homeSet ht)], hup, by simp [Port.load, htx]⟩
  have hclear : (((b.entered m).accept (b.asCmd m)).readTouch (gLocal m.param) k).clear m.ctx h 52 :=
    (accepted_clear ht hclear0).of_host (readTouch_memOp.host _)
  generalize ((b.entered m).accept (b.asCmd m)).readTouch (gLocal m.param) k = x at hr hsame hbut hcmds hctx hstill hlog hclear
  have hbytes : frameBytes (bulkFrame m (b.memRead m.partition (gLocal m.param) k)) = 36 + k := by
    simp [frameBytes, bulkFrame]
    omega
  generalize hv : b.memRead m.partition (gLocal m.param) k = v at hr hbytes ⊢
  have hsend := (Blk.clear.sendOut (o := bulkFrame m v) hclear 0 (by rw [hbytes]; omega)).1
  have hsends := sendOut_sends (x := x) (bulkFrame m v) 0
  have hsb := sendOut_sameButHost (x := x) (bulkFrame m v) 0
  obtain ⟨-, hans, hend, hhost, hgrows⟩ := command_ends_D (x := x.sendOut (bulkFrame m v) 0) ht (by rw [hop]; rfl) (by omega) hr
    (hsends.cmds.trans hcmds) (by rw [(hsends.ctx m.ctx hctx).1]; exact hctx)
    (by rw [still_congr (b := x) (by rw [← hsb.eq]) (by rw [← hsb.eq]) (by rw [← hsb.eq]), hstill]) (by rw [logged_congr (b := x) (by rw [← hsb.eq]), hlog])
  refine ⟨hans, hsame.trans (hsb.trans hend), hbut.trans ((sendOut_hostBut _ 0).trans hhost), (x.port h).txNext, ?_⟩
  obtain ⟨-, -, -, -, hprefix⟩ := hgrows h
  refine hprefix.subset ?_
  rw [hsend, port_setPort]
  exact List.mem_append_right _ (List.mem_singleton.mpr rfl)

/-! ### O16 -/

/-- Settles O16: a write and a read run to their final reply; and HBM is written a unit at a time, each under the key in force. -/
theorem memoryWritesAndReads : Obligations.MemoryWritesAndReads := by
  unfold Obligations.MemoryWritesAndReads
  refine ⟨fun s m ht hop hf hne hst hlocal hspan h0 hl => ?_, fun s m ht hop h4 hk hk' hst hlocal h0 hu hl hup htx hheld => ?_,
    fun b p a v hw hkey hue => ⟨fun i hi => ?_, fun j hj => ?_⟩⟩
  · exact does_of_updIf rfl (isFor_takes ht hop) (command_memWrite ht hop hf hne hst hlocal hspan h0 hl)
  · obtain ⟨hans, hsame, hhost, hframe⟩ := command_memRead ht hop h4 rfl rfl hk hk' hst hlocal h0 hu hl hup htx hheld
    obtain ⟨cfg, coves, htouch⟩ := readTouch_frame (b := s.blk) (a := gLocal m.param) (n := leAt m.payload 0 4)
    refine does_of_updIf rfl (isFor_takes ht hop) ⟨hans, ?_, fun hr => ?_, hhost, hframe⟩
    · rw [htouch] at hsame
      rw [← hsame.eq]
    · rw [readTouch_hbm hr] at hsame
      exact hsame.eq
  · have := hbmUnits_in (j := a + i) (writable_of_partialUe hw hkey hue) (Nat.le_add_right a i) (by omega) (.inl (mem_unitsOf (Nat.le_add_right a i) (by omega)))
    simpa only [Blk.hbmWrite, Nat.add_sub_cancel_left] using this
  · exact hbmUnits_out (writable_of_partialUe hw hkey hue) (.inr hj)

end Sys2Proof.Machine
end

section
/-! SUPPORT. The generators' arithmetic on naturals is that of machine words (R88, R89), and the whitening loses nothing. -/
namespace Sys2Proof.Machine

/-! ### Words as naturals -/

theorem nxor_toNat {n : Nat} (x y : BitVec n) : nxor x.toNat y.toNat = (x ^^^ y).toNat := (BitVec.toNat_xor x y).symm
theorem div_pow_toNat {n : Nat} (x : BitVec n) (k : Nat) : x.toNat / 2 ^ k = (x >>> k).toNat := by
  rw [BitVec.toNat_ushiftRight, Nat.shiftRight_eq_div_pow]
theorem mul_mod_toNat {n : Nat} (x : BitVec n) (c : Nat) : x.toNat * c % 2 ^ n = (x * BitVec.ofNat n c).toNat := by
  rw [BitVec.toNat_mul, BitVec.toNat_ofNat, Nat.mul_mod_mod]
/-- A word with its upper bits folded onto its lower ones, as naturals. -/
theorem fold_toNat {n : Nat} (x : BitVec n) (k : Nat) : nxor x.toNat (x.toNat / 2 ^ k) = (x ^^^ x >>> k).toNat := by
  rw [div_pow_toNat, nxor_toNat]

/-! ### lane_seed (R89) -/

theorem laneSeed_eq (S g : Nat) :
    let z0 := BitVec.ofNat 64 S + BitVec.ofNat 64 (g + 1) * 0x9E3779B97F4A7C15#64
    let z1 := (z0 ^^^ z0 >>> 30) * 0xBF58476D1CE4E5B9#64
    let z2 := (z1 ^^^ z1 >>> 27) * 0x94D049BB133111EB#64
    let z3 := z2 ^^^ z2 >>> 31
    let x := (z3 ^^^ z3 >>> 32).setWidth 32
    laneSeed S g = if x = 0#32 then 1 else x.toNat := by
  intro z0 z1 z2 z3 x
  have hz : (S + (g + 1) * 0x9E3779B97F4A7C15) % 2 ^ 64 = z0.toNat := by
    rw [← BitVec.toNat_ofNat, BitVec.ofNat_add, BitVec.ofNat_mul]
  have h1 : nxor z0.toNat (z0.toNat / 2 ^ 30) * 0xBF58476D1CE4E5B9 % 2 ^ 64 = z1.toNat := by rw [fold_toNat, mul_mod_toNat]
  have h2 : nxor z1.toNat (z1.toNat / 2 ^ 27) * 0x94D049BB133111EB % 2 ^ 64 = z2.toNat := by rw [fold_toNat, mul_mod_toNat]
  have h3 : nxor z2.toNat (z2.toNat / 2 ^ 31) = z3.toNat := fold_toNat z2 31
  have hx : nxor z3.toNat (z3.toNat / 2 ^ 32) % 2 ^ 32 = x.toNat := by rw [fold_toNat, BitVec.toNat_setWidth]
  have h0 : x.toNat = 0 ↔ x = 0#32 := BitVec.toNat_eq (y := 0#32).symm
  simp only [laneSeed, hz, h1, h2, h3, hx, h0]

/-! ### A draw (R88) -/

/-- One step of the Galois register on a word. -/
def galois (x : BitVec 32) : BitVec 32 := x >>> 1 ^^^ (if x.getLsbD 0 then 0x80200003#32 else 0#32)

theorem lfsrStep_toNat (x : BitVec 32) : lfsrStep x.toNat = (galois x).toNat := by
  have hlow : x.getLsbD 0 = (x.toNat % 2 == 1) := by simp [BitVec.getLsbD, Nat.testBit_zero]; rfl
  have hhalf : x.toNat / 2 = (x >>> 1).toNat := div_pow_toNat x 1
  unfold lfsrStep galois
  rw [hlow, hhalf]
  cases x.toNat % 2 == 1 with
  | true => exact nxor_toNat _ 0x80200003#32
  | false => simp
theorem lfsrRun_toNat (k : Nat) (x : BitVec 32) : lfsrRun k x.toNat = (galois^[k] x).toNat := by
  induction k generalizing x with
  | zero => rfl
  | succ k ih => rw [lfsrRun, lfsrStep_toNat, ih, Function.iterate_succ_apply]

/-- The bit that the register feeds back stands above every bit of a halved word. -/
theorem galois_ne_zero {x : BitVec 32} (h : x ≠ 0#32) : galois x ≠ 0#32 := by
  have hhalf : (x >>> 1).toNat = x.toNat / 2 := (div_pow_toNat x 1).symm
  have hlt := x.isLt
  unfold galois
  split
  · intro e
    have : (x >>> 1).toNat = 0x80200003 := congrArg BitVec.toNat (BitVec.xor_eq_zero_iff.mp e)
    omega
  · next hlow =>
    intro e
    refine h (BitVec.eq_of_toNat_eq ?_)
    have hz : (x >>> 1).toNat = 0 := by rw [BitVec.xor_zero] at e; rw [e]; rfl
    have hb : x.toNat % 2 ≠ 1 := by simpa [BitVec.getLsbD, Nat.testBit_zero] using hlow
    show x.toNat = 0
    omega
theorem galois_iterate_ne_zero {x : BitVec 32} (k : Nat) (h : x ≠ 0#32) : galois^[k] x ≠ 0#32 := by
  induction k generalizing x with
  | zero => exact h
  | succ k ih => rw [Function.iterate_succ_apply]; exact ih (galois_ne_zero h)

/-- The whitening on a word. -/
def mixWord (x : BitVec 32) : BitVec 32 :=
  let y := (x ^^^ x >>> 16) * 0x2C1B3C6D#32
  y ^^^ y >>> 15

theorem whiten_toNat (x : BitVec 32) : whiten x.toNat = (mixWord x).toNat := by
  simp only [whiten, fold_toNat, mul_mod_toNat, mixWord]

/-! ### Whitening is one to one (R88) -/

/-- Folding loses nothing: the bits are recovered from the top down. -/
theorem fold_injective {n k : Nat} (hk : 0 < k) : Function.Injective fun x : BitVec n => x ^^^ x >>> k := by
  intro x y h
  have hbit : ∀ d i, n ≤ i + d → x.getLsbD i = y.getLsbD i := by
    intro d
    induction d with
    | zero => intro i hi; rw [BitVec.getLsbD_of_ge x i hi, BitVec.getLsbD_of_ge y i hi]
    | succ d ih =>
      intro i hi
      have hi' := congrArg (BitVec.getLsbD · i) h
      simp only [BitVec.getLsbD_xor, BitVec.getLsbD_ushiftRight, ih (k + i) (by omega)] at hi'
      exact Bool.xor_left_inj.mp hi'
  exact BitVec.eq_of_getLsbD_eq fun i _ => hbit n i (by omega)
/-- The multiplier is odd, so it has an inverse. -/
theorem mul_whitener_injective : Function.Injective fun x : BitVec 32 => x * 0x2C1B3C6D#32 := by
  intro x y h
  have hinv : 0x2C1B3C6D#32 * 0x64EA2D65#32 = 1#32 := by decide
  simpa [BitVec.mul_assoc, hinv] using congrArg (· * 0x64EA2D65#32) h
theorem mixWord_injective : Function.Injective mixWord :=
  (fold_injective (by decide)).comp (mul_whitener_injective.comp (fold_injective (k := 16) (by decide)))
theorem whiten_injective {x y : Nat} (hx : x < 2 ^ 32) (hy : y < 2 ^ 32) (h : whiten x = whiten y) : x = y := by
  have hw := whiten_toNat (BitVec.ofNat 32 x)
  rw [BitVec.toNat_ofNat, Nat.mod_eq_of_lt hx, h] at hw
  have hv := whiten_toNat (BitVec.ofNat 32 y)
  rw [BitVec.toNat_ofNat, Nat.mod_eq_of_lt hy, hw] at hv
  have he := congrArg BitVec.toNat (mixWord_injective (BitVec.eq_of_toNat_eq hv))
  rwa [BitVec.toNat_ofNat, BitVec.toNat_ofNat, Nat.mod_eq_of_lt hx, Nat.mod_eq_of_lt hy] at he

end Sys2Proof.Machine
end

section
/-! SUPPORT. Elements and trits read back as they were packed (R69, R73, R74), and balanced ternary spells its integer (R76). -/
namespace Sys2Proof.Machine

/-! ### Little-endian bytes and packed elements (R69) -/

theorem leNat_leBytes (k v : Nat) : leNat (leBytes k v) = v % 256 ^ k := by
  induction k generalizing v with
  | zero => simp [leBytes, leNat, Nat.mod_one]
  | succ k ih => rw [leBytes, leNat, ih, BitVec.toNat_ofNat, Nat.mod_mod, Nat.pow_succ', Nat.mod_mul]
/-- A piece of a string is found at its place. -/
theorem bytesAt_append (u v r : List Byte) : bytesAt (u ++ (v ++ r)) u.length v.length = v := by
  simp [bytesAt, zeros]
theorem packNat_lt (b : Nat) (l : List Nat) : packNat b l < 2 ^ (b * l.length) := by
  induction l with
  | nil => simp [packNat]
  | cons x r ih =>
    have hx : x % 2 ^ b < 2 ^ b := Nat.mod_lt _ (Nat.two_pow_pos b)
    calc packNat b (x :: r) = x % 2 ^ b + 2 ^ b * packNat b r := rfl
      _ < 2 ^ b * (packNat b r + 1) := by rw [Nat.mul_add]; omega
      _ ≤ 2 ^ b * 2 ^ (b * r.length) := Nat.mul_le_mul_left _ ih
      _ = 2 ^ (b * (x :: r).length) := by rw [← Nat.pow_add, List.length_cons, Nat.mul_add, Nat.mul_one, Nat.add_comm]
theorem unpackNat_packNat {b : Nat} {l : List Nat} (h : ∀ x ∈ l, x < 2 ^ b) : unpackNat b l.length (packNat b l) = l := by
  induction l with
  | nil => rfl
  | cons x r ih =>
    have hx := h x List.mem_cons_self
    have hlow : packNat b (x :: r) % 2 ^ b = x := by
      rw [packNat, Nat.add_mul_mod_self_left, Nat.mod_mod, Nat.mod_eq_of_lt hx]
    have hhigh : packNat b (x :: r) / 2 ^ b = packNat b r := by
      rw [packNat, Nat.mod_eq_of_lt hx, Nat.add_mul_div_left _ _ (Nat.two_pow_pos b), Nat.div_eq_of_lt hx, Nat.zero_add]
    rw [List.length_cons, unpackNat, hlow, hhigh, ih fun y hy => h y (List.mem_cons_of_mem _ hy)]
/-- A number of n bits survives the n / 8 bytes, rounded up, that spell it. -/
theorem leNat_leBytes_of_bits {n v : Nat} (h : v < 2 ^ n) : leNat (leBytes (cdiv n 8) v) = v := by
  have hle : n ≤ 8 * cdiv n 8 := by unfold cdiv; omega
  rw [leNat_leBytes, show 256 = 2 ^ 8 from rfl, ← Nat.pow_mul]
  exact Nat.mod_eq_of_lt (Nat.lt_of_lt_of_le h (Nat.pow_le_pow_right (by decide) hle))

theorem unpackEls_packEls {f : Nat} {l : List Nat} (h : ∀ x ∈ l, x < 2 ^ elBits f) : unpackEls f l.length (packEls f l) = l := by
  have hb := bytesAt_append [] (packEls f l) []
  rw [List.nil_append, List.append_nil, List.length_nil, packEls, leBytes_length] at hb
  have hlt := packNat_lt (elBits f) l
  rw [Nat.mul_comm] at hlt
  rw [unpackEls, packEls, hb, elBytes, leNat_leBytes_of_bits hlt, unpackNat_packNat h]

/-! ### T2 (R74) -/

/-- Bit i of packed flags is flag i. -/
theorem tbit_packNat_one (l : List Nat) (i : Nat) : tbit (packNat 1 l) i = (nth l i 0 % 2 == 1) := by
  induction l generalizing i with
  | nil => simp [packNat, nth, tbit]
  | cons x r ih =>
    cases i with
    | zero => simp [packNat, nth, tbit]
    | succ i =>
      have hr : nth (x :: r) (i + 1) 0 = nth r i 0 := by simp [nth]
      have hs : packNat 1 (x :: r) >>> (i + 1) = packNat 1 r >>> i := by
        rw [Nat.add_comm, Nat.shiftRight_add, packNat, Nat.shiftRight_one]
        congr 1
        omega
      rw [hr, ← ih, tbit, tbit, hs]
theorem t2Unpack_t2Pack {l : List Int} (h : ∀ t ∈ l, t = -1 ∨ t = 0 ∨ t = 1) : t2Unpack l.length (t2Pack l) = l := by
  have hplane : ∀ p : Int → Nat, leNat (leBytes (cdiv l.length 8) (packNat 1 (l.map p))) = packNat 1 (l.map p) := fun p =>
    leNat_leBytes_of_bits (by simpa using packNat_lt 1 (l.map p))
  have hmask := bytesAt_append [] (leBytes (cdiv l.length 8) (packNat 1 (l.map fun t => if t = 0 then 0 else 1)))
    (leBytes (cdiv l.length 8) (packNat 1 (l.map fun t => if t < 0 then 1 else 0)))
  have hsign := bytesAt_append (leBytes (cdiv l.length 8) (packNat 1 (l.map fun t => if t = 0 then 0 else 1)))
    (leBytes (cdiv l.length 8) (packNat 1 (l.map fun t => if t < 0 then 1 else 0))) []
  simp only [List.nil_append, List.append_nil, List.length_nil, leBytes_length] at hmask hsign
  simp only [t2Unpack, t2Pack, hmask, hsign, hplane, tbit_packNat_one]
  refine List.ext_getElem (by simp) fun i _ hi => ?_
  have ht := h l[i] (List.getElem_mem hi)
  simp only [List.getElem_map, List.getElem_range, nth, List.getElem?_map, List.getElem?_eq_getElem hi, Option.map_some, Option.getD_some]
  obtain h | h | h := ht <;> simp [h]

/-! ### T5: five trits in a byte (R73) -/

theorem t5Len_eq (n : Nat) : t5Len n = (n + 4) / 5 := rfl
/-- A trit is its digit less one. -/
theorem tritDigit_cast {t : Int} (h : t = -1 ∨ t = 0 ∨ t = 1) : (tritDigit t : Int) = t + 1 ∧ tritDigit t < 3 := by
  obtain rfl | rfl | rfl := h <;> decide
/-- The digits of a byte, where a missing trit counts as trit 0, whose digit is 1. -/
theorem t5Byte_eq (l : List Int) : t5Byte l = tritDigit (nth l 0 0) + tritDigit (nth l 1 0) * 3 + tritDigit (nth l 2 0) * 3 ^ 2 +
    tritDigit (nth l 3 0) * 3 ^ 3 + tritDigit (nth l 4 0) * 3 ^ 4 := by
  have hfold : t5Byte l = (List.range 5).foldl (fun a k => a + tritDigit (nth l k 0) * 3 ^ k) 0 :=
    congrArg (fun f => (List.range 5).foldl f 0) (funext₂ fun a k => by unfold nth; cases l[k]? <;> rfl)
  simp [hfold, List.range_succ]
theorem nth_trit {l : List Int} (h : ∀ t ∈ l, t = -1 ∨ t = 0 ∨ t = 1) (i : Nat) : nth l i 0 = -1 ∨ nth l i 0 = 0 ∨ nth l i 0 = 1 := by
  unfold nth
  cases e : l[i]? with
  | none => simp
  | some t => exact h t (List.mem_of_getElem? e)
/-- The trits that byte i of a run holds. -/
theorem nth_chunk (l : List Int) (i : Nat) {k : Nat} (hk : k < 5) : nth ((l.drop (5 * i)).take 5) k 0 = nth l (5 * i + k) 0 := by
  simp [nth, List.getElem?_drop, hk]

section
variable {l : List Int} (h : ∀ t ∈ l, t = -1 ∨ t = 0 ∨ t = 1)
include h

theorem t5Byte_digits : t5Byte l < 243 ∧ ∀ k, k < 5 → t5Byte l / 3 ^ k % 3 = tritDigit (nth l k 0) := by
  have hd := fun k => (tritDigit_cast (nth_trit h k)).2
  have h0 := hd 0
  have h1 := hd 1
  have h2 := hd 2
  have h3 := hd 3
  have h4 := hd 4
  rw [t5Byte_eq]
  refine ⟨by omega, fun k hk => ?_⟩
  interval_cases k <;> omega
theorem t5Byte_cast : (t5Byte l : Int) = ((List.range 5).map fun k => (nth l k 0 + 1) * 3 ^ k).sum := by
  have hd := fun k => (tritDigit_cast (nth_trit h k)).1
  simp [t5Byte_eq, List.range_succ, hd, add_assoc]

theorem chunk_trits (i : Nat) : ∀ t ∈ (l.drop (5 * i)).take 5, t = -1 ∨ t = 0 ∨ t = 1 :=
  fun t ht => h t (List.mem_of_mem_drop (List.mem_of_mem_take ht))
/-- Byte i of a packed run is the byte of its five trits. -/
theorem nth_t5Pack_toNat {i : Nat} (hi : i < t5Len l.length) : (nth (t5Pack l) i 0).toNat = t5Byte ((l.drop (5 * i)).take 5) := by
  have hlt := (t5Byte_digits (chunk_trits h i)).1
  simp only [nth, t5Pack, List.getElem?_map, List.getElem?_range hi, Option.map_some, Option.getD_some, BitVec.toNat_ofNat]
  omega
end

/-- What a run of bytes unpacks to: trit j is digit j mod 5 of byte j / 5. -/
def t5Digit (b : List Byte) (j : Nat) : Int := (((nth b (j / 5) 0).toNat / 3 ^ (j % 5) % 3 : Nat) : Int) - 1

theorem t5Trits_flatMap (b : List Byte) : (b.flatMap fun x => t5Trits x.toNat) = (List.range (5 * b.length)).map (t5Digit b) := by
  induction b with
  | nil => rfl
  | cons x r ih =>
    have hfirst : t5Trits x.toNat = (List.range 5).map (t5Digit (x :: r)) := rfl
    have hrest : (List.range (5 * r.length)).map (t5Digit r) = (List.range (5 * r.length)).map fun j => t5Digit (x :: r) (5 + j) := by
      refine List.map_congr_left fun j _ => ?_
      have hq : (5 + j) / 5 = j / 5 + 1 := by omega
      have hm : (5 + j) % 5 = j % 5 := by omega
      simp [t5Digit, hq, hm, nth]
    rw [List.flatMap_cons, ih, hfirst, hrest, List.length_cons, Nat.mul_add, Nat.mul_one, Nat.add_comm, List.range_add, List.map_append, List.map_map]
    rfl
theorem t5Unpack_eq {n : Nat} {b : List Byte} (h : t5Len n ≤ b.length) : t5Unpack n b = (List.range n).map (t5Digit b) := by
  have hn : min n (5 * b.length) = n := by rw [t5Len_eq] at h; omega
  rw [t5Unpack, t5Trits_flatMap, ← List.map_take, List.take_range, hn]

@[simp] theorem t5Pack_length (l : List Int) : (t5Pack l).length = t5Len l.length := by simp [t5Pack]
theorem t5Unpack_t5Pack {l : List Int} (h : ∀ t ∈ l, t = -1 ∨ t = 0 ∨ t = 1) : t5Unpack l.length (t5Pack l) = l := by
  rw [t5Unpack_eq (by simp)]
  refine List.ext_getElem (by simp) fun j _ hj => ?_
  have hbyte : j / 5 < t5Len l.length := by rw [t5Len_eq]; omega
  have hk : j % 5 < 5 := Nat.mod_lt _ (by decide)
  have hj5 : 5 * (j / 5) + j % 5 = j := by omega
  have ht : nth l j 0 = l[j] := by simp [nth, hj]
  simp only [List.getElem_map, List.getElem_range, t5Digit]
  rw [nth_t5Pack_toNat h hbyte, (t5Byte_digits (chunk_trits h _)).2 _ hk, nth_chunk l _ hk, hj5, ht, (tritDigit_cast (h _ (List.getElem_mem hj))).1]
  omega

/-! ### Reading a run (R73, R81) -/

theorem firstIdx_none {α : Type} {p : α → Bool} {l : List α} (h : ∀ x ∈ l, p x = false) (k : Nat) : firstIdx p l k = none := by
  induction l generalizing k with
  | nil => rfl
  | cons x r ih => rw [firstIdx, h x List.mem_cons_self, if_neg (by simp), ih fun y hy => h y (List.mem_cons_of_mem _ hy)]
theorem firstIdx_some {α : Type} {p : α → Bool} {l : List α} {i : Nat} (hi : i < l.length) (hp : p l[i] = true)
    (h : ∀ j (hj : j < i), p l[j] = false) (k : Nat) : firstIdx p l k = some (k + i) := by
  induction l generalizing i k with
  | nil => simp at hi
  | cons x r ih =>
    cases i with
    | zero => exact if_pos hp
    | succ i =>
      have hx : p x = false := h 0 (by omega)
      rw [firstIdx, hx, if_neg (by simp), ih (by simpa using hi) hp (fun j hj => h (j + 1) (by omega)), Nat.add_assoc, Nat.add_comm 1]
@[simp] theorem bytesAt_length (b : List Byte) (off n : Nat) : (bytesAt b off n).length = n := by
  simp [bytesAt, zeros]

section
variable {b : List Byte} {off n : Nat}

theorem t5Bad_getElem {r : List Byte} {i : Nat} (hi : i < r.length) : t5Bad r[i] = decide (243 ≤ (nth r i 0).toNat) := by
  simp [t5Bad, nth, hi]
theorem t5Read_valid (h : ∀ i, i < t5Len n → (nth (bytesAt b off (t5Len n)) i 0).toNat < 243) :
    t5Read b off n = .ok ((List.range n).map (t5Digit (bytesAt b off (t5Len n)))) := by
  have hgood : ∀ x ∈ bytesAt b off (t5Len n), t5Bad x = false := by
    intro x hx
    obtain ⟨i, hi, rfl⟩ := List.getElem_of_mem hx
    rw [t5Bad_getElem hi, decide_eq_false_iff_not, Nat.not_le]
    exact h i (by simpa using hi)
  simp only [t5Read, firstIdx_none hgood]
  rw [t5Unpack_eq (by simp)]
theorem t5Read_fault {i : Nat} (hi : i < t5Len n) (hbad : 243 ≤ (nth (bytesAt b off (t5Len n)) i 0).toNat)
    (h : ∀ j, j < i → (nth (bytesAt b off (t5Len n)) j 0).toNat < 243) : t5Read b off n = .error (off + i) := by
  have hlen : i < (bytesAt b off (t5Len n)).length := by simpa using hi
  have hfirst : firstIdx t5Bad (bytesAt b off (t5Len n)) 0 = some (0 + i) := by
    refine firstIdx_some hlen ?_ (fun j hj => ?_) 0
    · rw [t5Bad_getElem hlen]; exact decide_eq_true hbad
    · rw [t5Bad_getElem (Nat.lt_trans hj hlen), decide_eq_false_iff_not, Nat.not_le]; exact h j hj
  simp only [t5Read, hfirst, Nat.zero_add]
end

/-! ### Balanced ternary (R76) -/

theorem btDigits_length (k : Nat) (x : Int) : (btDigits k x).length = k := by
  induction k generalizing x with
  | zero => rfl
  | succ k ih => simp [btDigits, ih]
theorem btDigits_trits (k : Nat) (x : Int) : ∀ d ∈ btDigits k x, d = -1 ∨ d = 0 ∨ d = 1 := by
  induction k generalizing x with
  | zero => simp [btDigits]
  | succ k ih =>
    rw [btDigits, List.forall_mem_cons]
    exact ⟨by omega, ih _⟩
/-- Half a power of three is no integer, so what is left after the lowest digit is below half the next power. -/
theorem btVal_btDigits (k : Nat) (x : Int) (h : 2 * |x| < 3 ^ k) : btVal (btDigits k x) = x := by
  induction k generalizing x with
  | zero =>
    rw [Int.pow_zero, Int.abs_eq_natAbs] at h
    show 0 = x
    omega
  | succ k ih =>
    obtain ⟨m, hm⟩ : Odd ((3 : Int) ^ k) := Odd.pow (by decide)
    rw [Int.pow_succ, hm, Int.abs_eq_natAbs] at h
    have hrest : btVal (btDigits k ((x - ((x + 1) % 3 - 1)) / 3)) = (x - ((x + 1) % 3 - 1)) / 3 := ih _ (by rw [hm, Int.abs_eq_natAbs]; omega)
    rw [btDigits, btVal, hrest]
    omega

end Sys2Proof.Machine
end

section
/-! SUPPORT. The rounding of a magnitude is that of an exact fraction to the integers (R86, R87). -/
namespace Sys2Proof.Machine

/-- The grid of a rounding only scales the fraction. -/
theorem roundMag_grid (num : Nat) {den : Nat} (e g : Int) (hden : 0 < den) : ∃ n d : Nat, 0 < d ∧ (num / den * 2 ^ (e - g) : Rat) = n / d ∧
    ∀ mode draw, roundMag mode draw num den e g = roundMag mode draw n d 0 0 := by
  by_cases h : g ≤ e
  · refine ⟨num * 2 ^ (e - g).toNat, den, hden, ?_, fun mode draw => by simp [roundMag, h]⟩
    obtain ⟨k, hk⟩ := Int.eq_ofNat_of_zero_le (Int.sub_nonneg_of_le h)
    rw [hk, Int.toNat_natCast, zpow_natCast]
    push_cast
    ring
  · refine ⟨num, den * 2 ^ (g - e).toNat, Nat.mul_pos hden (Nat.two_pow_pos _), ?_, fun mode draw => by simp [roundMag, h]⟩
    obtain ⟨k, hk⟩ := Int.eq_ofNat_of_zero_le (Int.sub_nonneg_of_le (Int.le_of_not_le h))
    rw [← neg_sub g e, hk, Int.toNat_natCast, zpow_neg, zpow_natCast]
    push_cast
    rw [div_mul_eq_mul_div, ← div_eq_mul_inv, div_div, mul_comm]

section
variable {n d : Nat} (hd : 0 < d)

theorem roundMag_rne (draw : Nat) : roundMag 0 draw n d 0 0 = if d < 2 * (n % d) ∨ 2 * (n % d) = d ∧ n / d % 2 = 1 then n / d + 1 else n / d := by
  simp [roundMag]
theorem roundMag_rtz (draw : Nat) : roundMag 1 draw n d 0 0 = n / d := by simp [roundMag]
theorem roundMag_sr (draw : Nat) : roundMag 2 draw n d 0 0 = if 2 ^ 32 ≤ n % d * 2 ^ 32 / d + draw then n / d + 1 else n / d := by
  simp [roundMag]

theorem floor_div_nat : ⌊(n / d : Rat)⌋ = ((n / d : Nat) : Int) := by
  rw [Rat.floor_natCast_div_natCast]; rfl

include hd
/-- A fraction is its whole part and the remainder's share. -/
theorem div_eq_whole_add : (n / d : Rat) = (n / d : Nat) + (n % d : Nat) / d := by
  have hne : (d : Rat) ≠ 0 := by exact_mod_cast hd.ne'
  have h : (n : Rat) = (d : Rat) * (n / d : Nat) + (n % d : Nat) := by exact_mod_cast (Nat.div_add_mod n d).symm
  field_simp
  linarith

/-- RNE goes to a nearest integer, and to an even one from halfway (R86). -/
theorem roundMag_rne_nearest (draw : Nat) : |(n / d : Rat) - (roundMag 0 draw n d 0 0 : Nat)| ≤ 1 / 2 ∧
    (|(n / d : Rat) - (roundMag 0 draw n d 0 0 : Nat)| = 1 / 2 → roundMag 0 draw n d 0 0 % 2 = 0) := by
  have hpos : (0 : Rat) < d := by exact_mod_cast hd
  have hlt : n % d < d := Nat.mod_lt n hd
  have hhalf : ∀ k : Nat, ((k : Rat) / d ≤ 1 / 2 ↔ 2 * k ≤ d) ∧ ((k : Rat) / d = 1 / 2 ↔ 2 * k = d) := by
    intro k
    rw [div_le_div_iff₀ hpos (by norm_num), div_eq_div_iff hpos.ne' (by norm_num)]
    constructor <;> norm_cast <;> omega
  rw [roundMag_rne, div_eq_whole_add hd]
  split
  · next hup =>
    have habs : |((n / d : Nat) : Rat) + (n % d : Nat) / d - ((n / d + 1 : Nat) : Rat)| = ((d - n % d : Nat) : Rat) / d := by
      have hle : ((n % d : Nat) : Rat) / d ≤ 1 := (div_le_one hpos).mpr (by exact_mod_cast hlt.le)
      rw [abs_of_nonpos (by push_cast; linarith), Nat.cast_sub hlt.le, sub_div, div_self hpos.ne']
      push_cast
      ring
    rw [habs, (hhalf _).1, (hhalf _).2]
    omega
  · next hdown =>
    have habs : |((n / d : Nat) : Rat) + (n % d : Nat) / d - ((n / d : Nat) : Rat)| = ((n % d : Nat) : Rat) / d := by
      rw [add_sub_cancel_left, abs_of_nonneg (by positivity)]
    rw [habs, (hhalf _).1, (hhalf _).2]
    omega

/-- What SR adds the draw to is the fraction, in steps of 2^-32, rounded down (R87). -/
theorem floor_fract_scaled : ⌊((n / d : Rat) - ⌊(n / d : Rat)⌋) * 2 ^ 32⌋ = ((n % d * 2 ^ 32 / d : Nat) : Int) := by
  have hfrac : ((n / d : Rat) - ⌊(n / d : Rat)⌋) * 2 ^ 32 = ((n % d * 2 ^ 32 : Nat) : Rat) / d := by
    rw [floor_div_nat, Int.cast_natCast, div_eq_whole_add hd, add_sub_cancel_left, Nat.cast_mul, div_mul_eq_mul_div]
    norm_cast
  rw [hfrac, floor_div_nat]
theorem roundMag_sr_carries (draw : Nat) : ((roundMag 2 draw n d 0 0 : Nat) : Int) =
    if 2 ^ 32 ≤ ⌊((n / d : Rat) - ⌊(n / d : Rat)⌋) * 2 ^ 32⌋ + (draw : Int) then ⌊(n / d : Rat)⌋ + 1 else ⌊(n / d : Rat)⌋ := by
  rw [floor_fract_scaled hd, floor_div_nat, roundMag_sr, Nat.cast_ite]
  exact if_congr (by norm_cast) (Nat.cast_succ _) rfl
end

end Sys2Proof.Machine
end

section
/-! SUPPORT. The number formats as R69, R73, R74, R76 and R86 to R88 state them. -/
namespace Sys2Proof.Machine

/-- Settles O24, from the packing of runs and elements, the digits, the rounding of fractions and the word forms of the generators. -/
theorem numbersPackAndRound : Obligations.NumbersPackAndRound := by
  unfold Obligations.NumbersPackAndRound
  refine ⟨fun b off n => ⟨t5Len_eq n, t5Read_valid, fun i => t5Read_fault⟩, fun l h => ?_, fun f l => unpackEls_packEls,
    fun k x => ⟨btDigits_length k x, btDigits_trits k x, btVal_btDigits k x⟩, fun draw num den e g hden => ?_, fun s => ?_, fun x y => whiten_injective⟩
  · refine ⟨t5Pack_length l, t5Unpack_t5Pack h, t2Unpack_t2Pack h, fun i hi => ?_⟩
    rw [nth_t5Pack_toNat h hi, t5Byte_cast (chunk_trits h i)]
    exact congrArg List.sum (List.map_congr_left fun k hk => by rw [nth_chunk l i (List.mem_range.mp hk)])
  · obtain ⟨n, d, hd, hx, hround⟩ := roundMag_grid num e g hden
    intro x
    rw [show x = n / d from hx]
    simp only [hround]
    exact ⟨by rw [roundMag_rtz, floor_div_nat], roundMag_rne_nearest hd draw, roundMag_sr_carries hd draw⟩
  · intro shift x y
    have hnext : drawNext s.toNat = x.toNat := lfsrRun_toNat 32 s
    exact ⟨hnext, by rw [drawVal, hnext]; exact whiten_toNat x, galois_iterate_ne_zero 32⟩

end Sys2Proof.Machine
end

section
/-! SUPPORT. CMD_CFG_WRITE of one word of a CV_ block that changes a Cove (R62, R63). -/
namespace Sys2Proof.Machine

variable {b x : Blk} {m : Msg} {off w : Nat}

/-! ### A write that a register group takes -/

/-- A write of one word that is accepted does what its register group does, and is measured and answered; of the machine the register
group may change all that no check of the command's end looks at. -/
theorem command_groupPut (h : b.writesOne m off w = true) (hput : (b.entered m).groupPut (cfgGroup off) [(off, w)] = .ok x)
    (hhost : x.host = (b.entered m).host) (hfw : x.fw = b.fw) (hparts : x.parts = b.parts) (hspans : x.spans = b.spans)
    (hstill : x.still = b.still) :
    (b.command m).answered m stOK 0 [] ∧ b.hostFor (b.command m) m ∧
    { x with host := (b.command m).host, fw := (b.measureWrite m [off]).fw, parts := (b.measureWrite m [off]).parts } = b.command m := by
  obtain ⟨ht, -, hop, -⟩ := writesOne_facts h
  obtain ⟨-, hs, hlog, h13, -⟩ := takes_facts ht
  have hmw := measureWrite_eq (b := x) (m := m) (l := [off])
  rw [(measureWrite_congr hfw hparts).1, (measureWrite_congr hfw hparts).2] at hmw
  have hr := runOp_cfgWrite h hput
  generalize x.measureWrite m [off] = y at hmw hr
  have hyh : y.host = (b.entered m).host := by rw [hmw, ← hhost]
  have hyl : y.logged m.ctx m.seq = false := by rw [logged_congr (b := b) (by rw [hmw, ← hspans]), hlog]
  have hys : y.still = true := by rw [still_congr (b := x) (by rw [hmw]) (by rw [hmw]) (by rw [hmw]), hstill, hs]
  have hyc : (y.ctx m.ctx).st ≠ 0 := by
    rw [show y.ctx m.ctx = (b.entered m).ctx m.ctx by unfold Blk.ctx; rw [hyh], (entered_ctx_self ht).1]
    decide
  have hk : dKind (b.asCmd m).m.opcode = false := by show dKind m.opcode = false; rw [hop]; rfl
  obtain ⟨he, -⟩ := command_ends_as ht rfl hr (by rw [hyh]; simp [Blk.asCmd]) hys hyl
  have hsame := finish_ok_I_same (pay := []) h13 hyl hk
  rw [measureCmd_of_not_measured (by show _ ∨ _ ∨ m.opcode / 256 = 1 ∨ _; omega), ← he] at hsame
  refine ⟨?_, ?_, by rw [← hsame.eq, hmw]⟩
  · rw [he]
    exact finish_answered h13 hyl (by show m.opcode ≠ 1; omega) hyc (by decide)
  · rw [he]
    exact entered_hostBut.trans ((hostBut_of_host hyh).trans (finish_hostBut h13 hyl))

@[simp] theorem entered_cove (c : Nat) : (b.entered m).cove c = b.cove c := by unfold Blk.cove; simp
@[simp] theorem entered_seq (c : Nat) : (b.entered m).seq c = b.seq c := congrArg Cove.seq (entered_cove c)

/-- A write that sets one Cove. -/
theorem command_setCove {c : Nat} {v : Cove} (h : b.writesOne m off w = true) (hc : b.canon)
    (hput : (b.entered m).groupPut (cfgGroup off) [(off, w)] = .ok ((b.entered m).setCove c v)) :
    (b.command m).answered m stOK 0 [] ∧ (b.command m).cove c = v ∧ b.covesBut (b.command m) [c] ∧
    { b.measureWrite m [off] with host := (b.command m).host, coves := (b.command m).coves } = b.command m ∧ b.hostFor (b.command m) m := by
  obtain ⟨hans, hhost, hfr⟩ := command_groupPut h hput (by simp) (by simp) (by simp) (by simp)
    (by rw [still_congr (b := b.entered m) (by simp) (by simp) (by simp), entered_still])
  have hcoves : (b.command m).coves = (b.setCove c v).coves := by rw [← hfr]; simp [Blk.setCove]
  have hcove : ∀ d, (b.command m).cove d = (b.setCove c v).cove d := fun d => by unfold Blk.cove; rw [hcoves]
  refine ⟨hans, ?_, fun d hd => ?_, ?_, hhost⟩
  · rw [hcove, cove_setCove _ _ _ hc.2.2.1]
  · rw [hcove, cove_setCove_ne _ _ (by simpa using hd)]
  · rw [measureWrite_eq, ← hfr, ← entered_host (b := b) (m := m)]
    rfl

/-! ### The words of a CV_ block -/

section
variable {c o : Nat} (hc : c < 4096) (ho : o < 0x4000)
include hc ho

theorem cfgWhere_cv : cfgWhere (cfgCV c + o) = (7, c, o) := by
  unfold cfgWhere cfgCV
  have h1 : (0x4000000 + c * 0x4000 + o - 0x4000000) / 0x4000 = c := by omega
  have h2 : (0x4000000 + c * 0x4000 + o) % 0x4000 = o := by omega
  repeat rw [if_neg (by simp; omega)]
  rw [if_pos (by simp; omega), h1, h2]
/-- A word of a CV_ block that belongs to no ring is a group of its own. -/
theorem groupPut_cv (hr : o < 0x3A00 ∨ 0x3E00 ≤ o) : x.groupPut (cfgGroup (cfgCV c + o)) [(cfgCV c + o, w)] = x.cvPut c o w := by
  have hw := cfgWhere_cv hc ho
  have hring : ¬ (0x3A00 ≤ o ∧ o < 0x3E00) := by omega
  have hg : cfgGroup (cfgCV c + o) = cfgCV c + o := by simp [cfgGroup, hw, hring]
  simp [Blk.groupPut, hg, hw, hring]
/-- The row of a write of a word of a CV_ block. -/
theorem writes_cv {lo hi : Nat} (h : b.writesOne m (cfgCV c + o) w = true) (hlo : lo ≤ o) (hhi : o < hi) : writes m 7 lo hi = true :=
  writes_of_writesOne h (cfgWhere_cv hc ho) hlo hhi
end

/-- A Cove of a canonical machine keeps its generators and its scalar registers in canonical form. -/
theorem canon_cove (h : b.canon) (c : Nat) : swf (laneSeed c) (b.cove c).gens = true ∧ swf (fun _ => 0) (b.seq c).sregs = true := by
  obtain ⟨-, -, -, -, -, -, -, hall⟩ := h
  by_cases e : b.cove c = {}
  · simp [Blk.seq, e, swf]
  · have := List.all_eq_true.mp hall (c, b.cove c) (mem_of_sget e)
    simpa [Blk.seq] using this

end Sys2Proof.Machine
end

section
/-! SUPPORT. Writes to the generators and the scalar registers of a Cove (R91, R197). -/
namespace Sys2Proof.Machine

variable {b x : Blk} {m : Msg} {c w k : Nat}

/-! ### Generators -/

@[simp] theorem gens_length : (b.gens c).length = 64 := by simp [Blk.gens]
/-- A Cove whose 64 generators are set to the values of a list. -/
def Cove.withGens (v : Cove) (c : Nat) (l : List Nat) : Cove := { v with gens := ssetRun (laneSeed c) v.gens 0 l }
theorem setGens_eq (l : List Nat) : x.setGens c l = x.setCove c ((x.cove c).withGens c l) := rfl
theorem gen_withGens {v : Cove} {l : List Nat} {g : Nat} (hv : swf (laneSeed c) v.gens = true) (hg : g < l.length) :
    sget (laneSeed c) (v.withGens c l).gens g = l[g] := sget_ssetRun_in l hv (Nat.zero_le g) hg

/-- A write that sets the generators of a Cove. -/
theorem command_setGens {off : Nat} {l : List Nat} (h : b.writesOne m off w = true) (hc : b.canon)
    (hput : (b.entered m).groupPut (cfgGroup off) [(off, w)] = .ok ((b.entered m).setGens c l)) :
    (b.command m).answered m stOK 0 [] ∧ (∀ g (hg : g < l.length), (b.command m).gen c g = l[g]) ∧ b.covesBut (b.command m) [c] ∧
    { b.cove c with gens := ((b.command m).cove c).gens } = (b.command m).cove c ∧
    { b.measureWrite m [off] with host := (b.command m).host, coves := (b.command m).coves } = b.command m ∧ b.hostFor (b.command m) m := by
  rw [setGens_eq, entered_cove] at hput
  obtain ⟨hans, hself, hbut, hfr, hhost⟩ := command_setCove h hc hput
  refine ⟨hans, fun g hg => ?_, hbut, by rw [hself]; rfl, hfr, hhost⟩
  unfold Blk.gen
  rw [hself]
  exact gen_withGens (canon_cove hc c).1 hg

theorem groupPut_reseed (hlt : c < 4096) (hw : tbit w 0 = true) : x.groupPut (cfgGroup (cfgCV c + 0x3008)) [(cfgCV c + 0x3008, w)] =
    .ok (x.setGens c ((List.range 64).map (laneSeed (x.cfgGet (cfgCV c + 0x3000))))) := by
  rw [groupPut_cv hlt (by decide) (by decide)]
  simp [Blk.cvPut, hw]
theorem groupPut_srState (hlt : c < 4096) (hk : k < 32) (h0 : w % 2 ^ 32 ≠ 0) (h1 : w / 2 ^ 32 ≠ 0) :
    x.groupPut (cfgGroup (cfgCV c + (0x3100 + 8 * k))) [(cfgCV c + (0x3100 + 8 * k), w)] =
      .ok (x.setGens c (((x.gens c).set (2 * k) (w % 2 ^ 32)).set (2 * k + 1) (w / 2 ^ 32))) := by
  have hidx : (0x3100 + 8 * k - 0x3100) / 8 = k := by omega
  rw [groupPut_cv hlt (by omega) (by omega), Blk.cvPut, if_neg (by simp; omega), if_neg (by omega), if_pos (by simp; omega), if_neg h0, if_neg h1, hidx]

/-! ### Scalar registers -/

theorem groupPut_sreg (hlt : c < 4096) (hk : k < 32) (hr : x.runs c = false) :
    x.groupPut (cfgGroup (cfgCV c + (0x100 + 8 * k))) [(cfgCV c + (0x100 + 8 * k), w)] = .ok (x.setSeq c ((x.seq c).setSreg k w)) := by
  have hidx : (0x100 + 8 * k - 0x100) / 8 = k := by omega
  rw [groupPut_cv hlt (by omega) (by omega), Blk.cvPut, if_pos (by simp; omega), hr, if_neg (by simp), hidx]
theorem sreg_setSreg {q : Seq} (h0 : 0 < k) (hq : swf (fun _ => 0) q.sregs = true) (hw : w < 2 ^ 64) : sreg (q.setSreg k w).sregs k = w := by
  rw [Seq.setSreg, if_neg h0.ne', sreg, if_neg h0.ne', sget_sset_same hq, Nat.mod_eq_of_lt hw]
theorem sreg_setSreg_ne (q : Seq) {j : Nat} (hj : j ≠ k) : sreg (q.setSreg k w).sregs j = sreg q.sregs j := by
  unfold Seq.setSreg
  split
  · rfl
  · simp [sreg, sget_sset_ne hj]
theorem setSreg_frame (q : Seq) : { q with sregs := (q.setSreg k w).sregs } = q.setSreg k w := by
  unfold Seq.setSreg
  split <;> rfl

/-- A write that sets a scalar register of a Cove. -/
theorem command_setSreg {off : Nat} (h : b.writesOne m off w = true) (hc : b.canon) (h0 : 0 < k)
    (hput : (b.entered m).groupPut (cfgGroup off) [(off, w)] = .ok ((b.entered m).setSeq c (((b.entered m).seq c).setSreg k w))) :
    (b.command m).answered m stOK 0 [] ∧ sreg ((b.command m).seq c).sregs k = w ∧
    (∀ j, j ≠ k → sreg ((b.command m).seq c).sregs j = sreg (b.seq c).sregs j) ∧ b.covesBut (b.command m) [c] ∧
    { b.cove c with seq := { b.seq c with sregs := ((b.command m).seq c).sregs } } = (b.command m).cove c ∧
    { b.measureWrite m [off] with host := (b.command m).host, coves := (b.command m).coves } = b.command m ∧ b.hostFor (b.command m) m := by
  rw [Blk.setSeq, entered_cove, entered_seq] at hput
  obtain ⟨hans, hself, hbut, hfr, hhost⟩ := command_setCove h hc hput
  have hnew : (b.command m).seq c = (b.seq c).setSreg k w := congrArg Cove.seq hself
  refine ⟨hans, ?_, fun j hj => ?_, hbut, ?_, hfr, hhost⟩
  · rw [hnew, sreg_setSreg h0 (canon_cove hc c).2 (writesOne_lt h)]
  · rw [hnew, sreg_setSreg_ne _ hj]
  · rw [hnew, setSreg_frame, hself]

/-! ### O6 -/

/-- Settles O6: lane_seed on words, the reset state's empty map of Coves, and the three writes of a Cove's words. -/
theorem generatorAndRegisterWrites : Obligations.GeneratorAndRegisterWrites := by
  unfold Obligations.GeneratorAndRegisterWrites
  refine ⟨fun S g _ _ => laneSeed_eq S g, fun c g _ _ => rfl, fun s m c w g h hlt hw hg hc => ?_, fun s m c w k h hlt hk h0 h1 hc => ?_,
    fun s m c w k h hlt h0 hk hr hc => ?_⟩
  · obtain ⟨hans, hgen, hrest⟩ := command_setGens h hc (groupPut_reseed hlt hw)
    refine does_of_updIf rfl (writes_cv hlt (by decide) h (by decide) (by decide)) ⟨hans, ?_, hrest⟩
    rw [hgen g (by simpa using hg)]
    simp [Blk.cfgGet]
  · rw [Nat.add_assoc] at h ⊢
    obtain ⟨hans, hgen, hrest⟩ := command_setGens h hc (groupPut_srState hlt hk h0 h1)
    refine does_of_updIf rfl (writes_cv hlt (by omega) h (by omega) (by omega)) ⟨hans, ?_, ?_, fun g hg hg0 hg1 => ?_, hrest⟩
    · rw [hgen _ (by simp; omega)]; simp
    · rw [hgen _ (by simp; omega)]; simp
    · rw [hgen _ (by simpa using hg), List.getElem_set_ne hg1.symm, List.getElem_set_ne hg0.symm]
      simp [Blk.gens, Blk.gen]
  · rw [Nat.add_assoc] at h ⊢
    have hr' : (s.blk.entered m).runs c = false := by rw [Blk.runs, entered_seq]; exact hr
    exact does_of_updIf rfl (writes_cv hlt (by omega) h (by omega) (by omega)) (command_setSreg h hc h0 (groupPut_sreg hlt hk hr'))

end Sys2Proof.Machine
end

section
/-! SUPPORT. Writes of the control words of a Tidepool and of the array (R119, R201, R205, R214). -/
namespace Sys2Proof.Machine

variable {b x : Blk} {m : Msg} {c w : Nat}

/-! ### Words that are plain -/

/-- A CV_TP_CTL that keeps CACHE is a plain word. -/
theorem groupPut_tpArb (hlt : c < 4096) (hr : x.runs c = false) (h3 : fld w 1 0 ≠ 3)
    (hcache : fld w 3 2 = fld (x.cfgGet (cfgCV c + 0x3800)) 3 2) :
    x.groupPut (cfgGroup (cfgCV c + 0x3800)) [(cfgCV c + 0x3800, w)] = .ok (x.cfgSet (cfgCV c + 0x3800) w) := by
  rw [groupPut_cv hlt (by decide) (by decide)]
  simp [Blk.cvPut, Blk.tpCtlPut, h3, hr, hcache]
/-- A slot map is valid when the local groups stay 0, every other group has a slot code, one has the first and one ends the map (R205). -/
theorem groupPut_slotmap (hlt : c < 4096) (hr : x.runs c = false) (h0 : mapCode w 0 = 0) (h4 : mapCode w 4 = 0)
    (hcode : ∀ g ∈ [1, 2, 3, 5, 6, 7], mapCode w g ≠ 0 ∧ (mapCode w g ≤ 10 ∨ mapCode w g = 15))
    (hone : ∃ g ∈ [1, 2, 3, 5, 6, 7], mapCode w g = 1) (hend : ∃ g ∈ [1, 2, 3, 5, 6, 7], mapCode w g = 15 ∨ mapCode w g = 6) :
    x.groupPut (cfgGroup (cfgCV c + 0x3808)) [(cfgCV c + 0x3808, w)] = .ok (x.cfgSet (cfgCV c + 0x3808) w) := by
  have hvalid : ([1, 2, 3, 5, 6, 7].any fun g => mapCode w g == 0 || (decide (10 < mapCode w g) && decide (mapCode w g < 15))) = false := by
    rw [List.any_eq_false]
    intro g hg
    obtain ⟨hne, hle⟩ := hcode g hg
    simp only [Bool.or_eq_true, Bool.and_eq_true, beq_iff_eq, decide_eq_true_eq]
    omega
  have hfirst : ([1, 2, 3, 5, 6, 7].all fun g => mapCode w g != 1) = false := by
    obtain ⟨g, hg, e⟩ := hone
    exact List.all_eq_false.mpr ⟨g, hg, by simp [e]⟩
  have hlast : ([1, 2, 3, 5, 6, 7].all fun g => mapCode w g != 15 && mapCode w g != 6) = false := by
    obtain ⟨g, hg, e⟩ := hend
    exact List.all_eq_false.mpr ⟨g, hg, by rcases e with e | e <;> simp [e]⟩
  have hput : x.slotmapPut c w = .ok (x.cfgSet (cfgCV c + 0x3808) w) := by
    unfold Blk.slotmapPut
    simp only [hvalid, hfirst, hlast, h0, h4, hr, bne_self_eq_false, Bool.or_self, Bool.false_eq_true, if_false]
  rw [groupPut_cv hlt (by decide) (by decide), ← hput]
  simp [Blk.cvPut]
theorem groupPut_arrCtl (hlt : c < 4096) :
    x.groupPut (cfgGroup (cfgCV c + 0x1000)) [(cfgCV c + 0x1000, w)] = .ok (x.cfgSet (cfgCV c + 0x1000) w) := by
  rw [groupPut_cv hlt (by decide) (by decide)]
  simp [Blk.cvPut, Blk.cvWord]

/-! ### A change of the cache portion (R214) -/

/-- The bytes that move into or out of a cache portion of w's size: from the larger portion's first byte to the smaller one's. -/
def Blk.cacheMove (b : Blk) (c w : Nat) : Nat × Nat :=
  (tpAddr c (tpSize - max (b.cachePortion c) (cacheBytes (fld w 3 2))), tpAddr c (tpSize - min (b.cachePortion c) (cacheBytes (fld w 3 2))))
/-- A machine whose cache portion takes w's size: the bytes that move are gone, the lines invalid, the word written. -/
def Blk.cacheResized (b : Blk) (c w : Nat) : Blk :=
  ({ b with mem := sclear b.mem (b.cacheMove c w).1 (b.cacheMove c w).2 }.setCove c { b.cove c with lines := [], cacheChanging := true }).cfgSet
    (cfgCV c + 0x3800) w

/-- A CV_TP_CTL that changes CACHE is taken when the program region that is left holds what is configured and no window or descriptor
touches what becomes cache. -/
theorem groupPut_cacheResize (hlt : c < 4096) (hr : x.runs c = false) (h3 : fld w 1 0 ≠ 3) (hne : x.cachePortion c ≠ cacheBytes (fld w 3 2))
    (htaken : ((x.cove c).taken 16 64).all (fun r => r.1 + r.2 ≤ tpSize - cacheBytes (fld w 3 2)) = true)
    (hwin : x.windowMeets (tpAddr c (tpSize - cacheBytes (fld w 3 2))) (cacheBytes (fld w 3 2)) = false)
    (hdesc : ((x.bay (bayOf c)).descs.any fun d => d.cove == c && d.cached) = false) :
    x.groupPut (cfgGroup (cfgCV c + 0x3800)) [(cfgCV c + 0x3800, w)] = .ok (x.cacheResized c w) := by
  have hfits : (((x.cove c).taken 16 64).any fun r => decide (tpSize - cacheBytes (fld w 3 2) < r.1 + r.2)) = false := by
    rw [List.any_eq_false]
    intro r hmem
    simpa using List.all_eq_true.mp htaken r hmem
  have hput : x.tpCtlPut c w = .ok (x.cacheResized c w) := by
    unfold Blk.tpCtlPut
    unfold Blk.cachePortion at hne
    simp only [h3, hr, hne, hdesc, hfits, hwin, Bool.false_eq_true, Bool.or_self, if_false]
    rfl
  rw [groupPut_cv hlt (by decide) (by decide), ← hput]
  simp [Blk.cvPut]

theorem cacheResized_frame : { b with cfg := (b.cacheResized c w).cfg, mem := (b.cacheResized c w).mem, coves := (b.cacheResized c w).coves } =
    b.cacheResized c w := rfl
theorem cacheResized_cove (hc : swf (fun _ => ({} : Cove)) b.coves = true) :
    (b.cacheResized c w).cove c = { b.cove c with lines := [], cacheChanging := true } := cove_setCove _ c _ hc
theorem cacheResized_covesBut : b.covesBut (b.cacheResized c w) [c] := fun d hd => cove_setCove_ne _ _ (by simpa using hd)
theorem cacheResized_cfgGet (hc : swf cfgReset b.cfg = true) (hw : w < 2 ^ 64) : (b.cacheResized c w).cfgGet (cfgCV c + 0x3800) = w :=
  (cfgGet_cfgSet _ _ w hc).trans (Nat.mod_eq_of_lt hw)
theorem cacheResized_cfgBut : b.cfgBut (b.cacheResized c w) [cfgCV c + 0x3800] := fun q hq => cfgGet_cfgSet_ne _ _ (by simpa using hq)
/-- What moves into or out of the cache portion reads zero. -/
theorem cacheResized_peek_in {a : Nat} (h0 : (b.cacheMove c w).1 ≤ a) (h1 : a < (b.cacheMove c w).2) : (b.cacheResized c w).peek a = 0#8 := by
  show sget memReset (sclear b.mem _ _) a = memReset a
  by_contra hne
  obtain ⟨p, hp, e⟩ := sget_pos rfl hne
  have := (List.mem_filter.mp hp).2
  simp only [Bool.or_eq_true, decide_eq_true_eq] at this
  omega
theorem cacheResized_peek_out {a : Nat} (h : a < (b.cacheMove c w).1 ∨ (b.cacheMove c w).2 ≤ a) : (b.cacheResized c w).peek a = b.peek a :=
  sget_filter fun _ => by simpa using h

/-- A write that changes the cache portion. -/
theorem command_cacheResize (h : b.writesOne m (cfgCV c + 0x3800) w = true)
    (hput : (b.entered m).groupPut (cfgGroup (cfgCV c + 0x3800)) [(cfgCV c + 0x3800, w)] = .ok ((b.entered m).cacheResized c w)) :
    (b.command m).answered m stOK 0 [] ∧ (b.command m).cfg = (b.cacheResized c w).cfg ∧ (b.command m).mem = (b.cacheResized c w).mem ∧
    (b.command m).coves = (b.cacheResized c w).coves ∧
    { b.measureWrite m [cfgCV c + 0x3800] with
      host := (b.command m).host, cfg := (b.command m).cfg, mem := (b.command m).mem, coves := (b.command m).coves } = b.command m ∧
    b.hostFor (b.command m) m := by
  have hx : (b.entered m).cacheResized c w = { b.cacheResized c w with host := (b.entered m).host } := by
    rw [← entered_host (b := b) (m := m)]; rfl
  obtain ⟨hans, hhost, hfr⟩ := command_groupPut h hput (by rw [hx]) (by rw [hx]; rfl) (by rw [hx]; rfl) (by rw [hx]; rfl) (by rw [hx]; rfl)
  rw [hx] at hfr
  refine ⟨hans, by rw [← hfr], by rw [← hfr], by rw [← hfr], ?_, hhost⟩
  rw [measureWrite_eq, ← hfr, ← cacheResized_frame]

/-! ### O4 -/

/-- Settles O4: the plain words by their register groups' rules; the change of the cache portion read off the machine that it gives. -/
theorem tidepoolControlWrites : Obligations.TidepoolControlWrites := by
  unfold Obligations.TidepoolControlWrites
  have hget : ∀ (b : Blk) (m : Msg) (o : Nat), (b.entered m).cfgGet o = b.cfgGet o := fun b m => cfgGet_congr (by simp)
  have hruns : ∀ {b : Blk} {m : Msg} {c : Nat}, b.runs c = false → (b.entered m).runs c = false := fun h => by
    rw [Blk.runs, entered_seq]; exact h
  refine ⟨fun s m c w h hlt hr h3 hcache hc => ?_, fun s m c w a h hlt hr h3 => ?_, fun s m c w h hlt hr h0 h4 hcode hone hend hc => ?_,
    fun s m c w h hlt hc => ?_⟩
  · exact does_of_updIf rfl (writes_cv hlt (by decide) h (by decide) (by decide))
      (command_cfgSet h hc (groupPut_tpArb hlt (hruns hr) h3 (by rw [hget]; exact hcache)) (writesOne_lt h))
  · intro c0 c1 hne htaken hwin hdesc ha0 ha1 hc
    have hport : (s.blk.entered m).cachePortion c = s.blk.cachePortion c := by unfold Blk.cachePortion; rw [hget]
    obtain ⟨hans, hcfg, hmem, hcoves, hfr, hhost⟩ := command_cacheResize h (groupPut_cacheResize hlt (hruns hr) h3
      (by rw [hport]; exact hne) (by rw [entered_cove]; exact htaken) (by unfold Blk.windowMeets at hwin ⊢; simpa using hwin)
      (by unfold Blk.bay at hdesc ⊢; simpa using hdesc))
    have hcove : ∀ d, (s.blk.command m).cove d = (s.blk.cacheResized c w).cove d := fun d => by unfold Blk.cove; rw [hcoves]
    have hself := (hcove c).trans (cacheResized_cove hc.2.2.1)
    have hword := (cfgGet_congr hcfg _).trans (cacheResized_cfgGet hc.2.1 (writesOne_lt h))
    refine does_of_updIf rfl (writes_cv hlt (by decide) h (by decide) (by decide)) ⟨hans, ?_, by rw [hself], by rw [hself], ?_, fun q hq => ?_,
      fun d hd => ?_, hself.symm, fun q hq => ?_, hfr, hhost⟩
    · rw [Blk.cachePortion, hword]
    · rw [peek_congr hmem]
      exact cacheResized_peek_in (Nat.add_le_add_left ha0 _) (Nat.add_lt_add_left ha1 _)
    · rw [peek_congr hmem]
      exact cacheResized_peek_out hq
    · rw [hcove, cacheResized_covesBut d hd]
    · rw [cfgGet_congr hcfg, cacheResized_cfgBut q hq]
  · exact does_of_updIf rfl (writes_cv hlt (by decide) h (by decide) (by decide))
      (command_cfgSet h hc (groupPut_slotmap hlt (hruns hr) h0 h4 hcode hone hend) (writesOne_lt h))
  · exact does_of_updIf rfl (writes_cv hlt (by decide) h (by decide) (by decide)) (command_cfgSet h hc (groupPut_arrCtl hlt) (writesOne_lt h))

end Sys2Proof.Machine
end

section
/-! SUPPORT. Accumulator rows: their codes, landing within the range of a domain, and reading logical rows after one is written (R120 to R124). -/
namespace Sys2Proof.Machine

/-! ### Two's complement codes -/

/-- Reading a two's complement code is reducing to the residue nearest zero. -/
theorem sx_eq_bmod {n : Nat} (hn : 0 < n) (x : Nat) : sx n x = Int.bmod x (2 ^ n) := by
  obtain ⟨k, rfl⟩ := Nat.exists_eq_succ_of_ne_zero hn.ne'
  have hsplit : x % 2 ^ (k + 1) = x % 2 ^ k + 2 ^ k * (x / 2 ^ k % 2) := Nat.mod_pow_succ
  have hlow : x % 2 ^ k < 2 ^ k := Nat.mod_lt _ (by positivity)
  have hhalf : (2 ^ (k + 1) + 1) / 2 = 2 ^ k := by omega
  have hcast : ((x : Int) % (2 ^ (k + 1) : Nat)) = ((x % 2 ^ (k + 1) : Nat) : Int) := (Int.natCast_mod _ _).symm
  unfold sx tbit Int.bmod
  simp only [Nat.succ_eq_add_one, Nat.add_sub_cancel, Nat.shiftRight_eq_div_pow, hcast, beq_iff_eq]
  rcases Nat.mod_two_eq_zero_or_one (x / 2 ^ k) with h | h
  · rw [h] at hsplit ⊢
    rw [if_neg (by decide), if_pos (by omega)]
  · rw [h] at hsplit ⊢
    rw [if_pos rfl, if_neg (by omega)]

/-- The numbers that an entry of a domain can hold (R122). -/
def InDom (dom : Nat) (v : Int) : Prop := -(2 ^ (domBits dom - 1) : Int) ≤ v ∧ v < 2 ^ (domBits dom - 1)

theorem sx_inDom (dom x : Nat) : InDom dom (sx (domBits dom) x) := by
  unfold InDom domBits
  split <;> rw [sx_eq_bmod (by decide)]
  · have h1 := Int.le_bmod (x := x) (m := 2 ^ 64) (by decide)
    have h2 := Int.bmod_lt (x := x) (m := 2 ^ 64) (by decide)
    omega
  · have h1 := Int.le_bmod (x := x) (m := 2 ^ 128) (by decide)
    have h2 := Int.bmod_lt (x := x) (m := 2 ^ 128) (by decide)
    omega
theorem sx_toTwos {dom : Nat} {v : Int} (h : InDom dom v) : sx (domBits dom) (toTwos (domBits dom) v) = v := by
  have hn : 0 < domBits dom := by unfold domBits; split <;> decide
  have hpos : (0 : Int) < (2 ^ domBits dom : Nat) := by positivity
  rw [sx_eq_bmod hn, toTwos, Int.toNat_of_nonneg (Int.emod_nonneg _ hpos.ne'), Int.emod_bmod]
  unfold InDom domBits at *
  split at h
  · next e => simp only [e, if_true]; exact Int.bmod_eq_of_le (by omega) (by omega)
  · next e => simp only [e, if_false]; exact Int.bmod_eq_of_le (by omega) (by omega)

/-! ### Landing stays in range (R124) -/

theorem infVal_inDom (dom : Nat) : InDom dom (infVal dom) := by
  have : (0 : Int) < 2 ^ (domBits dom - 1) := by positivity
  exact ⟨le_refl _, by unfold infVal; omega⟩
theorem inDom_of_not_outside {dom : Nat} {v : Int} (h : outside dom v = false) : InDom dom v := by
  have hlt : v.natAbs < 2 ^ (domBits dom - 1) := by simpa [outside] using h
  have hcast : ((2 ^ (domBits dom - 1) : Nat) : Int) = 2 ^ (domBits dom - 1) := by push_cast; rfl
  unfold InDom
  omega
/-- What a contribution leaves: INF, or a sum that is not outside. -/
theorem land_cases (dom : Nat) (l p x : Int) (s : Landed) : (land dom l p x s).v = s.v ∨ (land dom l p x s).v = infVal dom ∨
    outside dom (land dom l p x s).v = false := by
  have key : ∀ (beyond : Bool) (c : Int) (s1 : Landed),
      let r : Landed := if beyond then { s with v := infVal dom, inf := s.inf + 1 }
        else if outside dom (s.v + c) then { s1 with v := infVal dom, inf := s.inf + 1 } else { s1 with v := s.v + c }
      r.v = s.v ∨ r.v = infVal dom ∨ outside dom r.v = false := by
    intro beyond c s1
    cases beyond
    · cases ho : outside dom (s.v + c)
      · exact .inr (.inr (by simpa using ho))
      · exact .inr (.inl rfl)
    · exact .inr (.inl rfl)
  unfold land
  split
  · exact .inl rfl
  · exact key _ _ _
theorem land_inDom (dom : Nat) (l p x : Int) {s : Landed} (h : InDom dom s.v) : InDom dom (land dom l p x s).v := by
  rcases land_cases dom l p x s with e | e | e
  · rw [e]; exact h
  · rw [e]; exact infVal_inDom dom
  · exact inDom_of_not_outside e
theorem landAll_inDom (dom : Nat) (l : Int) (cs : List (Int × Int)) {s : Landed} (h : InDom dom s.v) : InDom dom (landAll dom l cs s).v := by
  induction cs generalizing s with
  | nil => exact h
  | cons q cs ih => exact ih (land_inDom dom l q.1 q.2 h)

/-! ### Physical rows -/

/-- Physical rows of a logical row (R121). -/
def rowSpan (dom : Nat) : Nat := if dom = 0 then 1 else 2
theorem physOf_eq (dom f q : Nat) : physOf dom f q = f + rowSpan dom * q := by
  unfold physOf rowSpan; split <;> omega
theorem physRows_length (dom f n : Nat) : (physRows dom f n).length = rowSpan dom * n := by
  unfold physRows rowSpan; split <;> simp

/-- The ACM of a Cove in canonical form, every row of 32 words. -/
def Cove.rowsOk (x : Cove) : Prop := swf (fun _ => List.replicate 32 0) x.acm = true ∧ ∀ r, (x.accRow r).length = 32

variable {x y : Cove} {dom r q : Nat} {v : List Int}

theorem accRow_setAccRow (h : x.rowsOk) (u : List Nat) : (x.setAccRow r u).accRow r = u := sget_sset_same h.1
theorem accRow_setAccRow_ne (u : List Nat) (h : q ≠ r) : (x.setAccRow r u).accRow q = x.accRow q := sget_sset_ne h
theorem setAccRow_rowsOk (h : x.rowsOk) {u : List Nat} (hu : u.length = 32) : (x.setAccRow r u).rowsOk := by
  refine ⟨swf_sset h.1, fun q => ?_⟩
  by_cases e : q = r
  · rw [e, accRow_setAccRow h, hu]
  · rw [accRow_setAccRow_ne _ e, h.2]
/-- Coves with the same ACM have the same rows. -/
theorem accRow_congr (h : x.acm = y.acm) (r : Nat) : x.accRow r = y.accRow r := by unfold Cove.accRow; rw [h]
theorem rowsOk_congr (h : x.acm = y.acm) (hy : y.rowsOk) : x.rowsOk := ⟨by rw [h]; exact hy.1, fun r => by rw [accRow_congr h]; exact hy.2 r⟩

/-! ### Logical rows -/

/-- A logical row is read from its own physical rows. -/
theorem logical_congr (h : ∀ q, r ≤ q → q < r + rowSpan dom → x.accRow q = y.accRow q) : x.logical dom r = y.logical dom r := by
  unfold Cove.logical
  unfold rowSpan at h
  split
  · next e => rw [h r (le_refl _) (by simp [e])]
  · next e => rw [h r (le_refl _) (by simp [e]), h (r + 1) (by omega) (by simp [e])]
theorem logical_length (h : x.rowsOk) : (x.logical dom r).length = 32 := by
  unfold Cove.logical; split <;> simp [h.2]
theorem logical_inDom : ∀ a ∈ x.logical dom r, InDom dom a := by
  intro a ha
  unfold Cove.logical at ha
  split at ha
  · next e =>
    obtain ⟨n, -, rfl⟩ := List.mem_map.mp ha
    have := sx_inDom dom n
    rwa [show domBits dom = 64 by simp [domBits, e]] at this
  · next e =>
    obtain ⟨n, -, rfl⟩ := List.mem_map.mp ha
    have := sx_inDom dom (n.1 + n.2 * 2 ^ 64)
    rwa [show domBits dom = 128 by simp [domBits, e]] at this

theorem setLogical_rowsOk (h : x.rowsOk) (hv : v.length = 32) : (x.setLogical dom r v).rowsOk := by
  unfold Cove.setLogical
  split
  · exact setAccRow_rowsOk h (by simpa using hv)
  · exact setAccRow_rowsOk (setAccRow_rowsOk h (by simpa using hv)) (by simpa using hv)
theorem accRow_setLogical_ne (h : q < r ∨ r + rowSpan dom ≤ q) : (x.setLogical dom r v).accRow q = x.accRow q := by
  unfold Cove.setLogical
  unfold rowSpan at h
  split
  · next e => rw [if_pos e] at h; exact accRow_setAccRow_ne _ (by omega)
  · next e => rw [if_neg e] at h; rw [accRow_setAccRow_ne _ (by omega), accRow_setAccRow_ne _ (by omega)]
theorem map_eq_self {α : Type} {f : α → α} {l : List α} (h : ∀ a ∈ l, f a = a) : l.map f = l := (List.map_congr_left h).trans (List.map_id l)
/-- Codes cut into low and high halves, and read whole again. -/
theorem map_zip_halves {α : Type} (base : Nat) (code : α → Nat) (value : Nat → Int) (l : List α) :
    ((l.map fun a => code a % base).zip (l.map fun a => code a / base)).map (fun p => value (p.1 + p.2 * base)) = l.map fun a => value (code a) := by
  rw [List.zip_map', List.map_map]
  exact List.map_congr_left fun a _ => congrArg value (Nat.mod_add_div' _ _)
/-- A logical row reads as it was written. -/
theorem logical_setLogical (h : x.rowsOk) (hv : v.length = 32) (hin : ∀ a ∈ v, InDom dom a) : (x.setLogical dom r v).logical dom r = v := by
  have hcode : ∀ a ∈ v, sx (domBits dom) (toTwos (domBits dom) a) = a := fun a ha => sx_toTwos (hin a ha)
  unfold Cove.setLogical Cove.logical
  split
  · next e =>
    rw [show domBits dom = 64 by simp [domBits, e]] at hcode
    rw [accRow_setAccRow h, List.map_map]
    exact map_eq_self hcode
  · next e =>
    rw [show domBits dom = 128 by simp [domBits, e]] at hcode
    have hlow := setAccRow_rowsOk h (r := r) (u := v.map fun a => toTwos 128 a % 2 ^ 64) (by simpa using hv)
    rw [accRow_setAccRow_ne _ (by omega), accRow_setAccRow h, accRow_setAccRow hlow, map_zip_halves]
    exact map_eq_self hcode

theorem foldl_setTag_acm (f : RowTag → RowTag) (l : List Nat) (x : Cove) : (l.foldl (fun x q => x.setTag q (f (x.tag q))) x).acm = x.acm := by
  induction l generalizing x with
  | nil => rfl
  | cons q l ih => exact ih _
/-- Flags are no part of the rows. -/
theorem raise_acm (ine inf : Bool) : (x.raise dom r ine inf).acm = x.acm :=
  foldl_setTag_acm (fun t => { t with inexact := t.inexact || ine, inf := t.inf || inf }) _ x

end Sys2Proof.Machine
end

section
/-! SUPPORT. A pass of the array lands one token in each logical row of its range (R103, R105, R124). -/
namespace Sys2Proof.Machine

variable {b t u : Blk} {c dom anchor r : Nat} {cols : List (List (Int × Int))}

/-! ### What the array leaves as it was -/

/-- Nothing changes but one Cove and the counters, and the Coves stay in canonical form. -/
structure Blk.ArrayWork (b t : Blk) (c : Nat) : Prop where
  frame : { b with coves := t.coves, cfg := t.cfg } = t
  others : b.covesBut t [c]
  canon : swf (fun _ => ({} : Cove)) t.coves = true

theorem Blk.ArrayWork.refl (h : swf (fun _ => ({} : Cove)) b.coves = true) : b.ArrayWork b c := ⟨rfl, fun _ _ => rfl, h⟩
theorem Blk.ArrayWork.trans (h : b.ArrayWork t c) (g : t.ArrayWork u c) : b.ArrayWork u c :=
  ⟨by rw [← g.frame, ← h.frame], fun d hd => (g.others d hd).trans (h.others d hd), g.canon⟩
theorem Blk.ArrayWork.cvCount (h : b.ArrayWork t c) (o n : Nat) : b.ArrayWork (t.cvCount c o n) c :=
  h.trans ⟨rfl, fun _ _ => rfl, h.canon⟩
theorem Blk.ArrayWork.setCove (h : swf (fun _ => ({} : Cove)) b.coves = true) (v : Cove) : b.ArrayWork (b.setCove c v) c :=
  ⟨rfl, fun _ hd => cove_setCove_ne b v (by simpa using hd), swf_sset h⟩
@[simp] theorem cove_cvCount (d o n : Nat) : (b.cvCount c o n).cove d = b.cove d := rfl

/-! ### One token -/

/-- A logical row after the contributions of one token, column by column. -/
def landedRow (dom : Nat) (l : Int) (v : List Int) (cols : List (List (Int × Int))) : List Int :=
  (v.zip cols).map fun p => (landAll dom l p.2 { v := p.1 }).v
theorem landedRow_inDom {l : Int} {v : List Int} (h : ∀ a ∈ v, InDom dom a) : ∀ a ∈ landedRow dom l v cols, InDom dom a := by
  intro a ha
  obtain ⟨p, hp, rfl⟩ := List.mem_map.mp ha
  exact landAll_inDom _ _ _ (h _ (List.of_mem_zip hp).1)
theorem nth_landedRow {l : Int} {v : List Int} {col : Nat} (hv : col < v.length) (hc : col < cols.length) :
    nth (landedRow dom l v cols) col 0 = (landAll dom l (nth cols col []) { v := nth v col 0 }).v := by
  simp [landedRow, nth, hv, hc]

theorem landRow_work (h : swf (fun _ => ({} : Cove)) b.coves = true) : b.ArrayWork (b.landRow c dom anchor r cols) c :=
  ((Blk.ArrayWork.setCove h _).cvCount _ _).cvCount _ _
theorem landRow_acm (h : swf (fun _ => ({} : Cove)) b.coves = true) : ((b.landRow c dom anchor r cols).cove c).acm =
    ((b.cove c).setLogical dom r (landedRow dom (unitL dom anchor) ((b.cove c).logical dom r) cols)).acm := by
  unfold Blk.landRow
  simp only [cove_cvCount]
  rw [cove_setCove _ _ _ h, raise_acm, List.map_map]
  rfl

/-! ### A pass -/

/-- Tokens landing in the logical rows of a range from f on, the k-th with contributions cols k. -/
def Blk.landRows (b : Blk) (c dom anchor f : Nat) (cols : Nat → List (List (Int × Int))) (n : Nat) : Blk :=
  (List.range n).foldl (fun b k => b.landRow c dom anchor (physOf dom f k) (cols k)) b
theorem landRows_succ (f : Nat) (cols : Nat → List (List (Int × Int))) (n : Nat) :
    b.landRows c dom anchor f cols (n + 1) = (b.landRows c dom anchor f cols n).landRow c dom anchor (physOf dom f n) (cols n) := by
  simp [Blk.landRows, List.range_succ]

/-- Each token lands in its own logical row, and no other row changes. -/
theorem landRows_rows {f : Nat} {cols : Nat → List (List (Int × Int))} (hb : swf (fun _ => ({} : Cove)) b.coves = true) (hrows : (b.cove c).rowsOk)
    (hcols : ∀ k, (cols k).length = 32) (n : Nat) :
    b.ArrayWork (b.landRows c dom anchor f cols n) c ∧ ((b.landRows c dom anchor f cols n).cove c).rowsOk ∧
    (∀ q, q < f ∨ f + rowSpan dom * n ≤ q → ((b.landRows c dom anchor f cols n).cove c).accRow q = (b.cove c).accRow q) ∧
    ∀ k, k < n → ((b.landRows c dom anchor f cols n).cove c).logical dom (physOf dom f k) =
      landedRow dom (unitL dom anchor) ((b.cove c).logical dom (physOf dom f k)) (cols k) := by
  induction n with
  | zero => exact ⟨.refl hb, hrows, fun _ _ => rfl, fun k hk => absurd hk (Nat.not_lt_zero k)⟩
  | succ n ih =>
    obtain ⟨hwork, hok, hout, hin⟩ := ih
    rw [landRows_succ]
    generalize b.landRows c dom anchor f cols n = t at hwork hok hout hin
    have hacm := landRow_acm (c := c) (dom := dom) (anchor := anchor) (r := physOf dom f n) (cols := cols n) hwork.canon
    have hlen : (landedRow dom (unitL dom anchor) ((t.cove c).logical dom (physOf dom f n)) (cols n)).length = 32 := by
      simp [landedRow, logical_length hok, hcols]
    have hkept : ∀ q, q < f + rowSpan dom * n ∨ f + rowSpan dom * n + rowSpan dom ≤ q →
        ((t.landRow c dom anchor (physOf dom f n) (cols n)).cove c).accRow q = (t.cove c).accRow q := fun q hq => by
      rw [accRow_congr hacm, accRow_setLogical_ne (by rw [physOf_eq]; exact hq)]
    refine ⟨hwork.trans (landRow_work hwork.canon), rowsOk_congr hacm (setLogical_rowsOk hok hlen), fun q hq => ?_, fun k hk => ?_⟩
    · rw [Nat.mul_succ] at hq
      rw [hkept q (by omega), hout q (by omega)]
    · rcases Nat.lt_succ_iff_lt_or_eq.mp hk with hlt | rfl
      · have hspan : rowSpan dom * k + rowSpan dom ≤ rowSpan dom * n := by rw [← Nat.mul_succ]; exact Nat.mul_le_mul_left _ hlt
        rw [← hin k hlt]
        refine logical_congr fun q _ hq => hkept q (.inl ?_)
        rw [physOf_eq] at hq
        omega
      · have hbefore : (t.cove c).logical dom (physOf dom f k) = (b.cove c).logical dom (physOf dom f k) :=
          logical_congr fun q hq _ => hout q (.inr (by rw [physOf_eq] at hq; exact hq))
        rw [logical_congr fun q _ _ => accRow_congr hacm q, logical_setLogical hok hlen (landedRow_inDom logical_inDom), hbefore]

end Sys2Proof.Machine
end

section
/-! SUPPORT. MACC of a slot of trits (R94 to R96, R103 to R106). -/
namespace Sys2Proof.Machine

/-! ### The products of a block -/

theorem everyNth_one (n : Nat) (l : List Int) : everyNth 1 n l = l.take n := by
  induction n generalizing l with
  | zero => simp [everyNth]
  | succ n ih => cases l <;> simp [everyNth, ih]
/-- The sum of the products of two lists' first n elements, those beyond an end being zero. -/
theorem dot_take (n : Nat) (l x : List Int) : dot (l.take n) (x.take n) = ((List.range n).map fun i => nth l i 0 * nth x i 0).sum := by
  induction n generalizing l x with
  | zero => simp [dot]
  | succ n ih =>
    rw [List.range_succ_eq_map, List.map_cons, List.sum_cons, List.map_map]
    cases l with
    | nil => simp [dot, nth, Function.comp_def]
    | cons a l =>
      cases x with
      | nil => simp [dot, nth, Function.comp_def]
      | cons y x => simpa [dot, nth, Function.comp_def] using ih l x
theorem nth_drop (l : List Int) (m i : Nat) : nth (l.drop m) i 0 = nth l (m + i) 0 := by simp [nth]
/-- Of one plane, block k of column c meets the block's 32 elements with its 32 trits (R94). -/
theorem blockPartial_one (plane x : List Int) (c k : Nat) :
    blockPartial [plane] 1 c k x = ((List.range 32).map fun i => nth plane (64 * c + 32 * k + i) 0 * nth x i 0).sum := by
  have hplace : c * 64 + k * 32 = 64 * c + 32 * k := by omega
  have hplane : nth [plane] 0 [] = plane := rfl
  simp [blockPartial, everyNth_one, dot_take, nth_drop, hplace, hplane]

/-- The contributions of a token to a column: the products of each block at the block's exponent. -/
def tritCols (plane : List Int) (col : Nat) (tok : List (List Int × Int)) : List (Int × Int) :=
  tok.zipIdx.map fun q => (((List.range 32).map fun i => nth plane (64 * col + 32 * q.2 + i) 0 * nth q.1.1 i 0).sum, q.1.2)
@[simp] theorem tokenCols_length (s : Slot) (planes : List (List Int)) (q i : Nat) (tok : List (List Int × Int)) :
    (tokenCols s planes q i tok).length = 32 := by simp [tokenCols]
/-- A slot of trits has no exponents of its own, and its pass weighs 1 (R96). -/
theorem nth_tokenCols_trit {s : Slot} (h : s.layout = 0) (plane : List Int) (tok : List (List Int × Int)) {col : Nat} (hc : col < 32) :
    nth (tokenCols s [plane] 1 0 tok) col [] = tritCols plane col tok := by
  have hcol : nth (tokenCols s [plane] 1 0 tok) col [] = (List.range tok.length).map fun k =>
      (blockPartial [plane] 1 col k (nth tok k ([], 0)).1, (nth tok k ([], 0)).2) := by
    simp [tokenCols, nth, hc, h]
  rw [hcol]
  refine List.ext_getElem (by simp [tritCols]) fun k hk _ => ?_
  have hk' : k < tok.length := by simpa using hk
  simp [tritCols, blockPartial_one, nth, hk']

/-! ### The instruction -/

variable {b : Blk} {c w m : Nat} {regs : List (Nat × Nat)}

/-- Without a fault every token is there. -/
theorem streamTokens_length {n : Nat} (h : (b.streamTokens c w regs n m).2 = none) : (b.streamTokens c w regs n m).1.length = n := by
  induction n generalizing m with
  | zero => rfl
  | succ n ih =>
    rw [Blk.streamTokens] at h ⊢
    split at h
    · cases h
    · simp only [List.length_cons, ih h]

/-- A MACC of a READY slot of trits is one pass of its plane over all its tokens, unless the plane is skipped (R105, R106). -/
theorem runMacc_trit (hst : ((b.cove c).slot (arrSlot w)).st = 2) (hf : wFmtB w = 0) (hm : 0 < arrM w regs)
    (htok : (b.streamTokens c w regs (arrM w regs) 0).2 = none)
    (hskip : b.cfgGet (cfgCV c + 0x1000) % 2 = 0 ∨ tbit ((b.cove c).slot (arrSlot w)).zero (arrDepth w) = false) :
    b.runMacc c w regs = ((((b.runPass c w ((b.cove c).slot (arrSlot w)) [nth ((b.cove c).slot (arrSlot w)).planes (arrDepth w) []] 1 0
      (b.streamTokens c w regs (arrM w regs) 0).1).cvCount c 0x1010 1).cvCount c 0x1018 0).cvCount c 0x1020 (arrM w regs), okDone) := by
  have hkeep : (b.cfgGet (cfgCV c + 0x1000) % 2 == 1 && tbit ((b.cove c).slot (arrSlot w)).zero (arrDepth w)) = false := by
    rcases hskip with h | h <;> simp [h]
  have hpass : maccPasses w = [(arrDepth w, 0)] := by simp [maccPasses, hf]
  unfold Blk.runMacc
  simp only [hst, hm.ne', bne_self_eq_false, Bool.false_eq_true, if_false, hpass, hkeep, Bool.not_false, List.filter_cons, List.filter_nil, if_true, htok,
    List.foldl_cons, List.foldl_nil, List.length_cons, List.length_nil, Nat.sub_self, Nat.zero_add, Nat.one_mul]
theorem runPass_eq (s : Slot) (planes : List (List Int)) (q i : Nat) (toks : List (List (List Int × Int))) :
    b.runPass c w s planes q i toks =
      b.landRows c (arrDom w) (arrAnchor w) (arrRow w) (fun k => tokenCols s planes q i (nth toks k [])) toks.length := rfl

/-- Settles O26: the one pass of MACC lands each token in its row; a landed row reads as landed, since it stays within its domain. -/
theorem arrayAccumulates : Obligations.ArrayAccumulates := by
  unfold Obligations.ArrayAccumulates
  intro b c w regs hcoves hop y s m toks dom hacm hlen hst hlayout hf hm htok hskip z plane
  have hz : z = ((((b.runPass c w s [plane] 1 0 toks.1).cvCount c 0x1010 1).cvCount c 0x1018 0).cvCount c 0x1020 m, okDone) := by
    show b.runUnit c w regs = _
    rw [Blk.runUnit, if_pos hop]
    exact runMacc_trit hst hf hm htok hskip
  have hn : toks.1.length = m := streamTokens_length htok
  have hrows : (b.cove c).rowsOk := ⟨hacm, hlen⟩
  obtain ⟨hwork, -, hout, hin⟩ := landRows_rows (dom := dom) (anchor := arrAnchor w) (f := arrRow w) hcoves hrows
    (fun k => tokenCols_length s [plane] 1 0 (nth toks.1 k [])) m
  have hpass : b.runPass c w s [plane] 1 0 toks.1 = b.landRows c dom (arrAnchor w) (arrRow w) (fun k => tokenCols s [plane] 1 0 (nth toks.1 k [])) m := by
    rw [runPass_eq, hn]
  rw [← hpass] at hwork hout hin
  have hcove : z.1.cove c = (b.runPass c w s [plane] 1 0 toks.1).cove c := by rw [hz]; simp only [cove_cvCount]
  have hdone : b.ArrayWork z.1 c := by rw [hz]; exact ((hwork.cvCount _ _).cvCount _ _).cvCount _ _
  refine ⟨by rw [hz], hdone.frame, hdone.others, fun k col hk hcol => ?_, fun r hr => ?_⟩
  · rw [hcove, hin k hk, nth_landedRow (by rw [logical_length hrows]; exact hcol) (by simpa using hcol), nth_tokenCols_trit hlayout _ _ hcol]
    rfl
  · rw [hcove, hout r (by rwa [physRows_length] at hr)]

end Sys2Proof.Machine
end

section
/-! SUPPORT. A completion that ends a program withdraws the arrival of its Cove at a barrier (R181, R194): the machine changes beyond the Coves. -/
namespace Sys2Proof.Machine

/-- A VEW of Cove 3 whose work is done and ended in ST_FORMAT_FAULT, without CONT. -/
def badVew : Entry :=
  { serial := 0, index := 0, queue := 3, word := 0x303 * 2 ^ 116, regs := [], rd := [], wr := [], started := true, done := some (fault stFORMAT 7) }
/-- The sequencer that has issued that VEW and then the BAR behind it, at which it holds while the VEW is uncompleted. -/
def seqBehindBar : Seq where
  st := 1
  pc := 1
  count := 2
  prog := [(0, badVew.word), (1, 0x808 * 2 ^ 116 + 2 * 2 ^ 77)]
  inflight := [badVew]
  nextSerial := 1
  issuedHere := 1
  hold := .bar 0 0 0
/-- A machine whose Cove 3 is the first of two to arrive at barrier 0 of its Bay. -/
def vewBehindBar : State where
  blk := { State.reset.blk with coves := [(3, { seq := seqBehindBar })], barriers := [(barKey 0 0 0, { k := 2, arrived := [3] })] }
  pending := []

/-- The fault of the VEW ends the program, and the Cove's arrival is withdrawn. -/
theorem vewBehindBar_completes :
    ((vewBehindBar.blk.unitComplete 3 3).seq 3).st = 4 ∧ (vewBehindBar.blk.unitComplete 3 3).barriers = [] := by decide +kernel

/-- What a row does, read off its rule. -/
theorem updated_of_does {s : State} {i : Instr} {f : Blk → Blk} {P : Blk → Prop} (he : exec i s = s.updIf true f) (h : s.does i P) : P (f s.blk) := by
  obtain ⟨t, ht, hP⟩ := h
  rw [he, updIf_true] at ht
  have e : f s.blk = t := congrArg State.blk (Host.Outcome.next.inj ht)
  rwa [e]

/-- Refutes O28: the completion clause has nothing beside the Cove change, but a fault of a Cove that holds at a BAR also takes its arrival out
of the barrier (R181, R194). -/
theorem not_loadsAndCompletions : ¬ Obligations.LoadsAndCompletions := by
  unfold Obligations.LoadsAndCompletions
  rintro ⟨-, -, -, hcompletes⟩
  have hrow : ∀ s : State, exec (.unitInstrComplete 3 3) s = s.updIf true fun b => b.unitComplete 3 3 := fun _ => rfl
  obtain ⟨-, -, hframe, -⟩ := updated_of_does (hrow _) (hcompletes vewBehindBar 3 3 badVew (fault stFORMAT 7) (by decide) (by decide) (by decide)
    rfl rfl (by decide) (by decide) (by decide) (by decide) (by decide) (by decide))
  have hkept : (vewBehindBar.blk.unitComplete 3 3).barriers = vewBehindBar.blk.barriers := by rw [← hframe]
  rw [vewBehindBar_completes.2] at hkept
  exact absurd hkept (by decide)

end Sys2Proof.Machine
end

section
/-! SUPPORT. A contribution lands as its exact value says, in rational arithmetic (R124, R125). -/
namespace Sys2Proof.Machine

/-! ### Truncation toward zero -/

/-- A number truncated toward zero. -/
def truncated (e : Rat) : Int := if e < 0 then ⌈e⌉ else ⌊e⌋

@[simp] theorem truncated_intCast (n : Int) : truncated n = n := by simp [truncated]
/-- The quotient that the model takes truncates the exact one. -/
theorem truncated_div (p : Int) {d : Nat} (hd : 0 < d) : truncated (p / d) = Int.tdiv p d := by
  have hpos : (0 : Rat) < d := by exact_mod_cast hd
  have hsign : (p / d : Rat) < 0 ↔ p < 0 := by rw [div_lt_iff₀ hpos, zero_mul, Int.cast_lt_zero]
  unfold truncated
  split
  · next h =>
    have hneg : 0 ≤ -p := by have := hsign.mp h; omega
    rw [Rat.ceil_intCast_div_natCast, ← Int.tdiv_eq_ediv_of_nonneg hneg, Int.neg_tdiv, neg_neg]
  · next h =>
    have hnonneg : 0 ≤ p := not_lt.mp (mt hsign.mpr h)
    rw [Rat.floor_intCast_div_natCast, Int.tdiv_eq_ediv_of_nonneg hnonneg]
theorem abs_truncated (e : Rat) : |truncated e| = ⌊|e|⌋ := by
  unfold truncated
  split
  · next h =>
    have hceil : ⌈e⌉ ≤ 0 := Int.ceil_le.mpr (by exact_mod_cast h.le)
    rw [abs_of_nonpos hceil, abs_of_neg h, Int.floor_neg]
  · next h =>
    have hfloor : 0 ≤ ⌊e⌋ := Int.floor_nonneg.mpr (not_lt.mp h)
    rw [abs_of_nonneg hfloor, abs_of_nonneg (not_lt.mp h)]
/-- Truncation does not bring a number below a whole bound. -/
theorem le_abs_truncated {n : Int} {e : Rat} : n ≤ |truncated e| ↔ (n : Rat) ≤ |e| := by rw [abs_truncated, Int.le_floor]

/-! ### One contribution (R124) -/

/-- What the magnitudes of an entry's values and contributions stay below (R122, R124). -/
def window (dom : Nat) : Int := 2 ^ (domBits dom - 1)
/-- A contribution P × 2^X exactly, in units 2^L. -/
def exactUnits (l : Int) (q : Int × Int) : Rat := q.1 * (2 : Rat) ^ (q.2 - l)
/-- An entry after a contribution of exact value e: the tests of R124 in their order. -/
def Landed.plus (dom : Nat) (e : Rat) (s : Landed) : Landed :=
  if s.v = infVal dom then s
  else if (window dom : Rat) ≤ |e| then { s with v := infVal dom, inf := s.inf + 1 }
  else
    let k := if (truncated e : Rat) = e then s.inexact else s.inexact + 1
    if -window dom < s.v + truncated e ∧ s.v + truncated e < window dom then { s with v := s.v + truncated e, inexact := k }
    else { v := infVal dom, inexact := k, inf := s.inf + 1 }

variable {dom : Nat} {l p x : Int} {e : Rat} {s : Landed} {q : Int × Int} {cs : List (Int × Int)}

theorem outside_iff {v : Int} : outside dom v = true ↔ window dom ≤ |v| := by
  rw [outside, decide_eq_true_iff, window, Int.abs_eq_natAbs]
  exact_mod_cast Iff.rfl
theorem abs_infVal : |infVal dom| = window dom := by
  rw [infVal, abs_neg, abs_of_nonneg (by positivity), window]

/-- From the unit up, a contribution is whole. -/
theorem exactUnits_of_le (h : 0 ≤ x - l) : exactUnits l (p, x) = ((p * 2 ^ (x - l).toNat : Int) : Rat) := by
  obtain ⟨n, hn⟩ := Int.eq_ofNat_of_zero_le h
  simp [exactUnits, hn]
/-- Below the unit it is a quotient. -/
theorem exactUnits_of_lt (h : ¬ 0 ≤ x - l) : exactUnits l (p, x) = p / ((2 ^ (-(x - l)).toNat : Nat) : Rat) := by
  obtain ⟨n, hn⟩ := Int.eq_ofNat_of_zero_le (show 0 ≤ -(x - l) by omega)
  have hexp : x - l = -(n : Int) := by omega
  simp [exactUnits, hexp, div_eq_mul_inv]

/-- The model's tests, on whole numbers, are those of the exact value. -/
theorem land_eq_plus : land dom l p x s = s.plus dom (exactUnits l (p, x)) := by
  have hrange : ∀ v, (-window dom < v ∧ v < window dom) ↔ ¬ outside dom v = true := fun v => by
    rw [outside_iff, not_le, abs_lt]
  unfold land Landed.plus
  simp only [isInfVal, beq_iff_eq, hrange]
  by_cases h : 0 ≤ x - l
  · have hbeyond : ((window dom : Rat) ≤ |exactUnits l (p, x)|) ↔ outside dom (p * 2 ^ (x - l).toNat) = true := by
      rw [exactUnits_of_le h, outside_iff]
      exact_mod_cast Iff.rfl
    have hc : truncated (exactUnits l (p, x)) = p * 2 ^ (x - l).toNat := by rw [exactUnits_of_le h, truncated_intCast]
    have hexact : ((p * 2 ^ (x - l).toNat : Int) : Rat) = exactUnits l (p, x) := (exactUnits_of_le h).symm
    simp only [h, hbeyond, hc, hexact, if_true, decide_true, Bool.true_or, ite_not]
  · have hd : 0 < 2 ^ (-(x - l)).toNat := Nat.two_pow_pos _
    have hpos : (0 : Rat) < ((2 ^ (-(x - l)).toNat : Nat) : Rat) := by exact_mod_cast hd
    have hbeyond : ((window dom : Rat) ≤ |exactUnits l (p, x)|) ↔ p.natAbs ≥ 2 ^ (domBits dom - 1 + (-(x - l)).toNat) := by
      rw [exactUnits_of_lt h, abs_div, abs_of_pos hpos, le_div_iff₀ hpos, window, ge_iff_le, pow_add, ← Int.ofNat_le, Int.natCast_natAbs]
      exact_mod_cast Iff.rfl
    have hc : truncated (exactUnits l (p, x)) = Int.tdiv p (2 ^ (-(x - l)).toNat) := by
      rw [exactUnits_of_lt h, truncated_div p hd]
      push_cast
      rfl
    have hexact : ((Int.tdiv p (2 ^ (-(x - l)).toNat) : Int) : Rat) = exactUnits l (p, x) ↔ Int.tdiv p (2 ^ (-(x - l)).toNat) * 2 ^ (-(x - l)).toNat = p := by
      rw [exactUnits_of_lt h, eq_div_iff hpos.ne']
      exact_mod_cast Iff.rfl
    simp only [h, hbeyond, hc, hexact, if_false, decide_false, Bool.false_or, decide_eq_true_iff, ite_not]
    split_ifs <;> rfl

/-! ### One contribution, case by case -/

theorem plus_of_inf (h : s.v = infVal dom) : s.plus dom e = s := if_pos h
theorem plus_of_beyond (hs : s.v ≠ infVal dom) (he : (window dom : Rat) ≤ |e|) : s.plus dom e = { s with v := infVal dom, inf := s.inf + 1 } := by
  rw [Landed.plus, if_neg hs, if_pos he]
theorem plus_of_lt (hs : s.v ≠ infVal dom) (he : |e| < (window dom : Rat)) :
    s.plus dom e =
      if -window dom < s.v + truncated e ∧ s.v + truncated e < window dom then
        { s with v := s.v + truncated e, inexact := if (truncated e : Rat) = e then s.inexact else s.inexact + 1 }
      else { v := infVal dom, inexact := if (truncated e : Rat) = e then s.inexact else s.inexact + 1, inf := s.inf + 1 } := by
  rw [Landed.plus, if_neg hs, if_neg (not_le.mpr he)]

/-- A contribution beyond the window leaves INF, whatever the entry held. -/
theorem plus_v_of_beyond (he : (window dom : Rat) ≤ |e|) : (s.plus dom e).v = infVal dom := by
  by_cases hs : s.v = infVal dom
  · rw [plus_of_inf hs, hs]
  · rw [plus_of_beyond hs he]
/-- Magnitudes that together stay below the window just add. -/
theorem plus_v_of_small (h : |s.v| + |truncated e| < window dom) : (s.plus dom e).v = s.v + truncated e := by
  have hv : 0 ≤ |s.v| := abs_nonneg _
  have ht : 0 ≤ |truncated e| := abs_nonneg _
  have hs : s.v ≠ infVal dom := fun hinf => by rw [hinf, abs_infVal] at h; omega
  have he : |e| < (window dom : Rat) := not_le.mp (mt le_abs_truncated.mpr (by omega))
  have hsum : -window dom < s.v + truncated e ∧ s.v + truncated e < window dom := abs_lt.mp ((abs_add_le _ _).trans_lt h)
  rw [plus_of_lt hs he, if_pos hsum]

/-! ### Several contributions, in whatever order (R125) -/

theorem landAll_cons : landAll dom l (q :: cs) s = landAll dom l cs (s.plus dom (exactUnits l q)) := congrArg (landAll dom l cs) land_eq_plus
theorem landAll_of_inf (h : s.v = infVal dom) : landAll dom l cs s = s := by
  induction cs with
  | nil => rfl
  | cons q cs ih => rw [landAll_cons, plus_of_inf h, ih]
theorem landAll_v_of_beyond (h : ∃ q ∈ cs, (window dom : Rat) ≤ |exactUnits l q|) : (landAll dom l cs s).v = infVal dom := by
  induction cs generalizing s with
  | nil => simp at h
  | cons a cs ih =>
    rw [landAll_cons]
    obtain ⟨q, hq, hbeyond⟩ := h
    rcases List.mem_cons.mp hq with rfl | hq
    · have hinf := plus_v_of_beyond (s := s) hbeyond
      rw [landAll_of_inf hinf, hinf]
    · exact ih ⟨q, hq, hbeyond⟩
theorem landAll_v_of_small (h : |s.v| + (cs.map fun q => |truncated (exactUnits l q)|).sum < window dom) :
    (landAll dom l cs s).v = s.v + (cs.map fun q => truncated (exactUnits l q)).sum := by
  induction cs generalizing s with
  | nil => simp [landAll]
  | cons q cs ih =>
    rw [List.map_cons, List.sum_cons] at h
    have hrest : 0 ≤ (cs.map fun q => |truncated (exactUnits l q)|).sum := List.sum_nonneg fun a ha => by
      obtain ⟨q, -, rfl⟩ := List.mem_map.mp ha
      exact abs_nonneg _
    have hv : (s.plus dom (exactUnits l q)).v = s.v + truncated (exactUnits l q) := plus_v_of_small (by omega)
    have hle : |s.v + truncated (exactUnits l q)| ≤ |s.v| + |truncated (exactUnits l q)| := abs_add_le _ _
    rw [landAll_cons, ih (by rw [hv]; omega), hv, List.map_cons, List.sum_cons, add_assoc]

end Sys2Proof.Machine
end

section
/-! SUPPORT. One token's contributions in a logical row, and the counters they raise (R123, R124). -/
namespace Sys2Proof.Machine

variable {b : Blk} {c dom anchor r off k : Nat} {cols : List (List (Int × Int))} {x y : Cove} {v : List Int}

theorem accRow_setAccRow_of_swf (h : swf (fun _ => List.replicate 32 0) x.acm = true) (u : List Nat) : (x.setAccRow r u).accRow r = u := sget_sset_same h
/-- The physical rows of a logical row that was written do not show what the Cove held before. -/
theorem accRow_setLogical_same {q : Nat} (hx : swf (fun _ => List.replicate 32 0) x.acm = true) (hy : swf (fun _ => List.replicate 32 0) y.acm = true)
    (hle : r ≤ q) (hlt : q < r + rowSpan dom) : (x.setLogical dom r v).accRow q = (y.setLogical dom r v).accRow q := by
  unfold Cove.setLogical
  unfold rowSpan at hlt
  split
  · next e =>
    obtain rfl : q = r := by rw [if_pos e] at hlt; omega
    rw [accRow_setAccRow_of_swf hx, accRow_setAccRow_of_swf hy]
  · next e =>
    rw [if_neg e] at hlt
    rcases (by omega : q = r ∨ q = r + 1) with rfl | rfl
    · rw [accRow_setAccRow_ne _ (Nat.succ_ne_self q).symm, accRow_setAccRow_ne _ (Nat.succ_ne_self q).symm, accRow_setAccRow_of_swf hx,
        accRow_setAccRow_of_swf hy]
    · exact (accRow_setAccRow_of_swf (swf_sset hx) _).trans (accRow_setAccRow_of_swf (swf_sset hy) _).symm
/-- A logical row reads as it was written, whatever the other rows hold. -/
theorem logical_setLogical_of_swf (hx : swf (fun _ => List.replicate 32 0) x.acm = true) (hv : v.length = 32) (hin : ∀ a ∈ v, InDom dom a) :
    (x.setLogical dom r v).logical dom r = v := by
  have hblank : ({ x with acm := [] } : Cove).rowsOk := ⟨rfl, fun _ => rfl⟩
  rw [logical_congr fun q => accRow_setLogical_same hx hblank.1, logical_setLogical hblank hv hin]
theorem logical_length_of_rows (h0 : (x.accRow r).length = 32) (h1 : (x.accRow (r + 1)).length = 32) : (x.logical dom r).length = 32 := by
  unfold Cove.logical; split <;> simp [h0, h1]

theorem swf_cfg_count (h : swf cfgReset b.cfg = true) : swf cfgReset (b.count off k).cfg = true := by
  unfold Blk.count
  split
  · exact h
  · exact swf_sset h

/-- What one token leaves in the 32 entries of a logical row, with the counts of its contributions. -/
def rowLandings (b : Blk) (c dom anchor r : Nat) (cols : List (List (Int × Int))) : List Landed :=
  (((b.cove c).logical dom r).zip cols).map fun q => landAll dom (unitL dom anchor) q.2 { v := q.1 }
theorem landRow_cfg : ∃ x, b.landRow c dom anchor r cols =
    ((b.setCove c x).cvCount c 0x1800 ((rowLandings b c dom anchor r cols).map (·.inexact)).sum).cvCount c 0x1808
      ((rowLandings b c dom anchor r cols).map (·.inf)).sum := by
  simp only [List.sum_eq_foldl, List.foldl_map]
  exact ⟨_, rfl⟩
theorem landRow_counts (h : swf cfgReset b.cfg = true) :
    (b.landRow c dom anchor r cols).cfgGet (cfgCV c + 0x1800) % 2 ^ 64 =
      (b.cfgGet (cfgCV c + 0x1800) + ((rowLandings b c dom anchor r cols).map (·.inexact)).sum) % 2 ^ 64 ∧
    (b.landRow c dom anchor r cols).cfgGet (cfgCV c + 0x1808) % 2 ^ 64 =
      (b.cfgGet (cfgCV c + 0x1808) + ((rowLandings b c dom anchor r cols).map (·.inf)).sum) % 2 ^ 64 ∧
    b.cfgBut (b.landRow c dom anchor r cols) [cfgCV c + 0x1800, cfgCV c + 0x1808] := by
  obtain ⟨x, hx⟩ := landRow_cfg (b := b) (c := c) (dom := dom) (anchor := anchor) (r := r) (cols := cols)
  rw [hx]
  unfold Blk.cvCount
  refine ⟨?_, ?_, fun q hq => ?_⟩
  · rw [cfgGet_count_ne (by omega)]
    exact cfgGet_count (x := b.setCove c x) _ _ h
  · rw [cfgGet_count (x := (b.setCove c x).count _ _) _ _ (swf_cfg_count h), cfgGet_count_ne (by omega)]
    rfl
  · simp only [List.mem_cons, List.not_mem_nil, or_false, not_or] at hq
    rw [cfgGet_count_ne hq.2, cfgGet_count_ne hq.1]
    rfl
theorem landRow_rows (hc : swf (fun _ => ({} : Cove)) b.coves = true) (ha : swf (fun _ => List.replicate 32 0) (b.cove c).acm = true)
    (h0 : ((b.cove c).accRow r).length = 32) (h1 : ((b.cove c).accRow (r + 1)).length = 32) (hcols : cols.length = 32) :
    ((b.landRow c dom anchor r cols).cove c).logical dom r = (rowLandings b c dom anchor r cols).map (·.v) ∧
    ∀ q, q < r ∨ r + (physRows dom r 1).length ≤ q → ((b.landRow c dom anchor r cols).cove c).accRow q = (b.cove c).accRow q := by
  have hacm := landRow_acm (c := c) (dom := dom) (anchor := anchor) (r := r) (cols := cols) hc
  have hrow : landedRow dom (unitL dom anchor) ((b.cove c).logical dom r) cols = (rowLandings b c dom anchor r cols).map (·.v) := by
    rw [rowLandings, List.map_map]
    rfl
  have hlen : (landedRow dom (unitL dom anchor) ((b.cove c).logical dom r) cols).length = 32 := by
    simp [landedRow, logical_length_of_rows h0 h1, hcols]
  constructor
  · rw [← hrow, logical_congr fun q _ _ => accRow_congr hacm q, logical_setLogical_of_swf ha hlen (landedRow_inDom logical_inDom)]
  · intro q hq
    rw [physRows_length, mul_one] at hq
    rw [accRow_congr hacm, accRow_setLogical_ne hq]

/-- Settles O25: a contribution lands as its exact value says, and the contributions of a token follow one by one in each entry of a row. -/
theorem contributionsLand : Obligations.ContributionsLand := by
  unfold Obligations.ContributionsLand
  refine ⟨fun dom l p x s => ?_, fun dom l cs s => ?_, fun b c dom anchor r cols hc => ?_⟩
  · intro big e c
    rw [land_eq_plus]
    exact ⟨plus_of_inf, plus_of_beyond, plus_of_lt⟩
  · intro big e c _
    exact ⟨landAll_v_of_small, landAll_v_of_beyond⟩
  · intro y hcfg hacm h0 h1 hcols z out
    obtain ⟨hlogical, hout⟩ := landRow_rows (dom := dom) (anchor := anchor) hc hacm h0 h1 hcols
    obtain ⟨hinexact, hinf, hbut⟩ := landRow_counts (c := c) (dom := dom) (anchor := anchor) (r := r) (cols := cols) hcfg
    obtain ⟨hframe, hothers, -⟩ := landRow_work (c := c) (dom := dom) (anchor := anchor) (r := r) (cols := cols) hc
    exact ⟨hlogical, hout, hinexact, hinf, hothers, hbut, hframe⟩

end Sys2Proof.Machine
end

section
/-! SUPPORT. Samples of the Surge watch close: their norm, the judgement of their slot, and what the slot then holds (R150, R151). -/
namespace Sys2Proof.Machine

variable {b : Blk} {k : Watch} {n : Int} {p slot ind : Nat}

/-! ### The norm of a sample (R150) -/

/-- The powers of two up to a number are those up to its binary logarithm. -/
theorem zpow_two_le_iff {x : Nat} (hx : x ≠ 0) (T : Int) : (2 : Rat) ^ T ≤ (x : Rat) ↔ T ≤ (Nat.log2 x : Int) := by
  rw [Nat.log2_eq_log_two, ← Int.log_natCast (R := Rat), ← Int.zpow_le_iff_le_log (by decide) (by positivity)]
  rfl
theorem sampleNorm_of_ne_zero {sumsq : Nat} (h : sumsq ≠ 0) (sl : Int) : sampleNorm sumsq sl = Nat.log2 (sumsq ^ 8) + 16 * sl := if_neg h

/-! ### The judgement of a slot (R151) -/

theorem ema16_eq_shift : k.ema16 = k.ema >>> (8 : Int) :=
  ((Int.shiftRight_natCast_right k.ema 8).trans (Int.shiftRight_eq_div_pow k.ema 8)).symm
theorem emaStep_eq_shift (ema : Int) (alpha : Nat) : emaStep ema n alpha = ema + (n * 256 - ema) >>> alpha := by
  rw [emaStep, Int.shiftRight_eq_div_pow]
/-- A sample that cannot initialise its slot (R151 step 1). -/
def oddSample (ind : Nat) : Prop := (tbit ind 0 = true ∨ tbit ind 3 = true) ∨ tbit ind 2 = true
/-- A sample is an up-crossing, and its slot raises surges for them (R151 step 3). -/
abbrev Watch.surgesUp (k : Watch) (n : Int) (ind : Nat) : Prop :=
  tbit k.ctl 2 = true ∧ (k.ema16 + (fld k.ctl 15 8 : Nat) < n ∨ tbit ind 0 = true ∨ tbit ind 3 = true)
/-- A sample is a down-crossing, and its slot raises surges for them (R151 step 4). -/
abbrev Watch.surgesDown (k : Watch) (n : Int) (ind : Nat) : Prop :=
  tbit k.ctl 3 = true ∧ (n < k.ema16 - (fld k.ctl 23 16 : Nat) ∨ tbit ind 2 = true)

theorem oddSample_iff : (tbit ind 0 || tbit ind 2 || tbit ind 3) = true ↔ oddSample ind := by
  simp only [oddSample, Bool.or_eq_true, or_right_comm]
theorem judge_odd (hi : k.init = false) (ho : oddSample ind) : k.judge n ind = ⟨false, k.warmLeft, k.ema, 0, 0⟩ := by
  simp [Watch.judge, hi, oddSample_iff.mpr ho]
theorem judge_first (hi : k.init = false) (ho : ¬ oddSample ind) : k.judge n ind = ⟨true, k.warmLeft, n * 256, 0, 0⟩ := by
  simp [Watch.judge, hi, Bool.eq_false_iff.mpr (oddSample_iff.not.mpr ho)]
theorem judge_warming (hi : k.init = true) (hw : k.warmLeft ≠ 0) :
    k.judge n ind = ⟨true, k.warmLeft - 1, emaStep k.ema n (fld k.ctl 7 4), 0, 0⟩ := by
  simp [Watch.judge, hi, hw]

/-- Past its warm-up a slot compares: a surge leaves EMA, and no surge moves it. -/
theorem judge_compared (hi : k.init = true) (hw : k.warmLeft = 0) : ∃ r, k.judge n ind =
    if k.surgesUp n ind then ⟨true, 0, k.ema, r, 1⟩ else if k.surgesDown n ind then ⟨true, 0, k.ema, r, 2⟩
    else ⟨true, 0, emaStep k.ema n (fld k.ctl 7 4), r, 0⟩ := by
  have hu : ((k.ema16 + (fld k.ctl 15 8 : Nat) < n || tbit ind 0 || tbit ind 3) && tbit k.ctl 2) = decide (k.surgesUp n ind) := by
    simp [Watch.surgesUp, Bool.and_comm, Bool.or_assoc]
  have hd : ((n < k.ema16 - (fld k.ctl 23 16 : Nat) || tbit ind 2) && tbit k.ctl 3) = decide (k.surgesDown n ind) := by
    simp [Watch.surgesDown, Bool.and_comm]
  exact ⟨_, by simp only [Watch.judge, hi, hw, hu, hd, decide_eq_true_eq]; rfl⟩

/-! ### A slot whose sample closes -/

theorem watch_setWatch_ne {i : Nat} (v : Watch) (h : i ≠ slot) : (b.setWatch p slot v).watch p i = b.watch p i := sget_sset_ne (by omega)
theorem watch_setWatch_new {v : Watch} (h : v ≠ {}) : (b.setWatch p slot v).watch p slot = v := sget_sset_new h
theorem watch_setWatch (v : Watch) (h : swf (fun _ => ({} : Watch)) b.watches = true) : (b.setWatch p slot v).watch p slot = v := sget_sset_same h
theorem watch_congr {x : Blk} (h : x.watches = b.watches) (i : Nat) : x.watch p i = b.watch p i := by unfold Blk.watch; rw [h]

/-- A slot that has no delivery waiting, after its sample closed with a verdict. -/
def Watch.closedAs (k : Watch) (v : Verdict) : Watch :=
  { k.empty with
    init := v.init, warmLeft := v.warm, ema := v.ema, lastN := sampleNorm k.sumsq k.sl, lastMax := k.maxlog, lastInd := k.closeInd,
    lastResult := v.result, closed := (k.closed + 1) % 2 ^ 32, surges := if v.surge = 0 then k.surges else min (k.surges + 1) 65535 }
/-- The verdict of a slot's open sample. -/
abbrev Watch.verdict (k : Watch) : Verdict := k.judge (sampleNorm k.sumsq k.sl) k.closeInd

theorem refill_of_late_nil (h : k.late = []) : k.refill = k := by
  cases k
  subst h
  simp [Watch.refill]
theorem close_of_late_nil (h : k.late = []) : k.close = (k.closedAs k.verdict, k.verdict) :=
  Prod.ext (refill_of_late_nil h) rfl
/-- A slot that is not OFF is no slot as reset. -/
theorem closedAs_ne_reset (v : Verdict) (h : fld k.ctl 1 0 ≠ 0) : k.closedAs v ≠ {} := fun e => by
  have hctl : (k.closedAs v).ctl = ({} : Watch).ctl := by rw [e]
  rw [show k.ctl = _ from hctl] at h
  exact h (by decide)
/-- A slot with ACTION REPORT reports its surges (R152). -/
theorem surge_report (dir : Nat) (h : fld k.ctl 1 0 = 1) : ∃ pay, b.surge p slot k dir = b.eventP p evSURGE pay := by
  simp [Blk.surge, h]
/-- A complete sample closes: its slot is set, and a surge that it raises is reported. -/
theorem sampleClose_facts (ha : fld (b.watch p slot).ctl 1 0 ≠ 0) (h0 : 0 < (b.watch p slot).samples)
    (hc : (b.watch p slot).samples ≤ (b.watch p slot).count) (hl : (b.watch p slot).late = [])
    (hs : (b.watch p slot).verdict.surge = 0 ∨ fld (b.watch p slot).ctl 1 0 = 1) :
    (b.setWatch p slot ((b.watch p slot).closedAs (b.watch p slot).verdict)).SameButHost (b.sampleClose p slot) ∧
    ((b.watch p slot).verdict.surge = 0 → (b.sampleClose p slot).host = b.host) := by
  unfold Blk.sampleClose
  simp only [close_of_late_nil hl]
  rw [if_neg (by simp; omega)]
  split
  · exact ⟨.refl, fun _ => by simp⟩
  · next hne =>
    obtain ⟨pay, he⟩ := surge_report (b := b.setWatch p slot ((b.watch p slot).closedAs (b.watch p slot).verdict)) (p := p) (slot := slot)
      (b.watch p slot).verdict.surge (hs.resolve_left hne)
    rw [he]
    exact ⟨eventTo_sameButHost _ _ _, fun e => absurd e hne⟩

/-! ### O15 -/

/-- Settles O15: the norm by the binary logarithm, the judgement by its steps, and the close read off the slot that it sets. -/
theorem sampleCloses : Obligations.SampleCloses := by
  unfold Obligations.SampleCloses
  refine ⟨fun sumsq sl => ⟨rfl, fun h => ?_⟩, fun k n ind => ?_, fun s p slot hp hslot => ?_⟩
  · have hlog := zpow_two_le_iff (x := sumsq ^ 8) (by positivity)
    push_cast at hlog
    exact ⟨_, sampleNorm_of_ne_zero h sl, (hlog _).mpr le_rfl, fun T => (hlog T).mp⟩
  · simp only [← ema16_eq_shift, ← emaStep_eq_shift]
    refine ⟨fun hi ho => ?_, fun hi ho => ?_, fun hi hw => ?_, fun hi hw => ?_⟩
    · simp [judge_odd hi ho]
    · simp [judge_first hi ho]
    · simp [judge_warming hi hw]
    · obtain ⟨r, h⟩ := judge_compared (n := n) (ind := ind) hi hw
      rw [h]
      refine ⟨?_, ?_, fun hu => ?_, fun hu hd => ?_, fun hu hd => ?_⟩
      · split_ifs <;> rfl
      · split_ifs <;> rfl
      · rw [if_pos hu]; exact ⟨rfl, rfl⟩
      · rw [if_neg hu, if_pos hd]; exact ⟨rfl, rfl⟩
      · rw [if_neg hu, if_neg hd]; exact ⟨rfl, rfl⟩
  · intro k v ha h0 hc hl hs
    obtain ⟨hsame, hhost⟩ := sampleClose_facts ha h0 hc hl hs
    have hw : (s.blk.sampleClose p slot).watches = (s.blk.setWatch p slot (k.closedAs v)).watches := by rw [← hsame.eq]
    refine does_of_updIf rfl (by simp [nParts, hp, hslot]) ⟨?_, fun i _ hi => ?_, ?_, hhost⟩
    · rw [watch_congr hw, watch_setWatch_new (closedAs_ne_reset v ha)]
      exact ⟨rfl, rfl, rfl, rfl, rfl, rfl, rfl, rfl, rfl, rfl, rfl⟩
    · rw [watch_congr hw, watch_setWatch_ne _ hi]
    · rw [← hsame.eq]
      rfl

end Sys2Proof.Machine
end

section
/-! SUPPORT. Replay spans open and start to close (R155, R156, R160), and CMD_WATCH_SET rewrites a slot (R154). -/
namespace Sys2Proof.Machine

variable {b x y : Blk} {m : Msg} {c : Cmd} {p n : Nat}

/-! ### Spans -/

theorem span_setSpan_ne {i : Nat} (v : Span) (h : i ≠ n) : (b.setSpan p n v).span p i = b.span p i := sget_sset_ne (by omega)
theorem span_setSpan_new {v : Span} (h : v ≠ {}) : (b.setSpan p n v).span p n = v := sget_sset_new h
theorem span_congr (h : x.spans = b.spans) (i : Nat) : x.span p i = b.span p i := by unfold Blk.span; rw [h]
/-- An open span is no free one. -/
theorem Span.ne_free {v : Span} (h : v.opened = true) : v ≠ {} := fun e => by rw [e] at h; exact absurd h (by decide)
/-- Writing a key adds no other entry. -/
theorem mem_sset {α : Type} [DecidableEq α] {d : Nat → α} {l : List (Nat × α)} {k : Nat} {v : α} {q : Nat × α} (h : q ∈ sset d l k v) :
    q = (k, v) ∨ q ∈ l := by
  induction l with
  | nil =>
    unfold sset at h
    split at h <;> simp_all
  | cons r l ih =>
    obtain ⟨a, u⟩ := r
    unfold sset at h
    split_ifs at h <;> grind
/-- A span without a log holds no command. -/
theorem setSpan_logged {v : Span} {k q : Nat} (hv : v.log = []) (h : b.logged k q = false) : (b.setSpan p n v).logged k q = false := by
  unfold Blk.logged at h ⊢
  rw [List.any_eq_false] at h ⊢
  intro r hr
  rcases mem_sset hr with rfl | hr
  · simp [hv]
  · exact h r hr

theorem Blk.SameButHost.coves (h : x.SameButHost y) : y.coves = x.coves := by rw [← h.eq]
theorem Blk.SameButHost.spans (h : x.SameButHost y) : y.spans = x.spans := by rw [← h.eq]
theorem Blk.SameButHost.watches (h : x.SameButHost y) : y.watches = x.watches := by rw [← h.eq]
theorem Blk.SameButHost.still (h : x.SameButHost y) : y.still = x.still := by rw [← h.eq]; rfl

/-! ### A command accepted after an effect beside the host side -/

/-- CMD_SPAN_OPEN and CMD_SPAN_CLOSE are not measured (R493). -/
theorem measureCmd_span (hop : m.opcode = 0x0203 ∨ m.opcode = 0x0204) : x.measureCmd m = x := by
  unfold Blk.measureCmd
  simp only [Bool.or_eq_true, decide_eq_true_eq]
  rw [if_neg (by omega), if_neg (by omega)]

section
variable (hy : y.host = (b.entered m).host)
include hy
theorem accept_cmds_of_host : (y.accept (b.asCmd m)).host.cmds = [b.accepted m] := by
  rw [(accept_sends rfl).cmds]
  simp [Blk.setCmd, hy, Blk.accepted, Blk.asCmd, Cmd.ctx, Cmd.seq]
theorem accept_hostBut_of_host : b.hostBut (y.accept (b.asCmd m)) [m.ctx] :=
  entered_hostBut.trans ((hostBut_of_host hy).trans (accept_hostBut (c := b.asCmd m) rfl))
theorem accept_open_of_host (h : b.takes m = true) : ((y.accept (b.asCmd m)).ctx m.ctx).st ≠ 0 := by
  have hc : ((y.measureCmd m).setCmd (b.accepted m)).ctx m.ctx = (b.entered m).ctx m.ctx := by simp [Blk.ctx, Blk.setCmd, hy]
  have hst : (((y.measureCmd m).setCmd (b.accepted m)).ctx m.ctx).st ≠ 0 := by rw [hc, (entered_ctx_self h).1]; decide
  rw [((accept_sends (x := y) (c := b.asCmd m) (pay := []) rfl).ctx m.ctx hst).1]
  exact hst
end

/-- A command of a partition that exists and awaits no scrub acts for it. -/
theorem withPart_open (hp : c.m.partition < 16) (hst : (x.part c.m.partition).st = 1 ∨ (x.part c.m.partition).st = 2) (go : Nat → Blk) :
    x.withPart c go = go c.m.partition := by
  unfold Blk.withPart
  rw [if_neg, if_neg]
  · rfl
  · show ¬ (x.part c.m.partition).st = 3
    omega
  · show ¬ (decide (16 ≤ c.m.partition) || decide ((x.part c.m.partition).st = 0)) = true
    rw [Bool.or_eq_true, decide_eq_true_eq, decide_eq_true_eq]
    omega
theorem entered_part : (b.entered m).part p = b.part p := by unfold Blk.part; simp
theorem entered_span (i : Nat) : (b.entered m).span p i = b.span p i := span_congr (by simp) i

/-! ### The checkpoint (R156) -/

/-- The checkpoints of the generators of Coves are taken. -/
def Blk.checkpointed (b : Blk) (l : List Nat) : Blk := l.foldl (fun b v => b.setCove v { b.cove v with checkpoint := b.gens v }) b
theorem checkpointed_eq (l : List Nat) : { x with coves := (x.checkpointed l).coves } = x.checkpointed l := by
  unfold Blk.checkpointed
  induction l generalizing x with
  | nil => rfl
  | cons v l ih => rw [List.foldl_cons, ← ih]; rfl
theorem checkpointed_cove_out {d : Nat} {l : List Nat} (h : d ∉ l) : (x.checkpointed l).cove d = x.cove d := by
  unfold Blk.checkpointed
  induction l generalizing x with
  | nil => rfl
  | cons v l ih =>
    rw [List.mem_cons, not_or] at h
    rw [List.foldl_cons, ih h.2, cove_setCove_ne _ _ h.1]
/-- A Cove with its checkpoint taken: 64 states are no empty checkpoint. -/
theorem cove_setCheckpoint (v : Nat) :
    (x.setCove v { x.cove v with checkpoint := x.gens v }).cove v = { x.cove v with checkpoint := x.gens v } := by
  apply cove_setCove_new
  intro e
  have : (x.gens v).length = ([] : List Nat).length := congrArg List.length (congrArg Cove.checkpoint e)
  simp at this
theorem checkpointed_cove_in {d : Nat} {l : List Nat} (h : d ∈ l) (hl : l.Nodup) :
    (x.checkpointed l).cove d = { x.cove d with checkpoint := x.gens d } := by
  induction l generalizing x with
  | nil => simp at h
  | cons v l ih =>
    rw [List.nodup_cons] at hl
    show ((x.setCove v { x.cove v with checkpoint := x.gens v }).checkpointed l).cove d = _
    by_cases e : d = v
    · subst e
      rw [checkpointed_cove_out hl.1, cove_setCheckpoint]
    · rw [ih ((List.mem_cons.mp h).resolve_left e) hl.2]
      simp [Blk.gens, Blk.gen, cove_setCove_ne _ _ e]
theorem mem_setCoves {f v : Nat} : v ∈ setCoves (f, n) ↔ f ≤ v ∧ v < f + n := by
  simp only [setCoves, List.mem_map, List.mem_range]
  exact ⟨fun ⟨i, hi, e⟩ => by omega, fun h => ⟨v - f, by omega, by omega⟩⟩
theorem nodup_setCoves (s : Nat × Nat) : (setCoves s).Nodup := List.nodup_range.map fun i j (h : s.1 + i = s.1 + j) => by omega

/-! ### CMD_SPAN_OPEN -/

/-- The span that a payload opens for a context, over the n Coves from f. -/
def openedSpan (ctx f n : Nat) (pay : List Byte) : Span where
  opened := true
  ctx := ctx
  first := f
  count := n
  cap := fld (leAt pay 8 8) 1 0
  inputs := (List.range (fld (leAt pay 8 8) 15 8)).map (spanIn pay)
  outputs := (List.range (fld (leAt pay 8 8) 23 16)).map (spanOut pay (fld (leAt pay 8 8) 15 8))
theorem spanFault_congr (h : x.SameButHost y) : y.spanFault = x.spanFault := by rw [← h.eq]; rfl
/-- The machine with a message's span opened and its checkpoint taken, before the command is accepted. -/
def Blk.spanOpened (b : Blk) (m : Msg) (f n : Nat) : Blk :=
  ((b.entered m).setSpan m.partition m.param (openedSpan m.ctx f n m.payload)).checkpointed (setCoves (f, n))

section
variable {f : Nat}
theorem spanOpened_eq : { b with coves := (b.spanOpened m f n).coves, spans := (b.spanOpened m f n).spans, host := (b.entered m).host } = b.spanOpened m f n := by
  unfold Blk.spanOpened
  rw [← checkpointed_eq, ← entered_host]
  rfl
theorem spanOpened_spans : (b.spanOpened m f n).spans = (b.setSpan m.partition m.param (openedSpan m.ctx f n m.payload)).spans := by
  unfold Blk.spanOpened
  rw [← checkpointed_eq, ← entered_host]
  rfl
theorem spanOpened_cove_in {v : Nat} (hv : f ≤ v ∧ v < f + n) : (b.spanOpened m f n).cove v = { b.cove v with checkpoint := b.gens v } := by
  unfold Blk.spanOpened
  rw [checkpointed_cove_in (mem_setCoves.mpr hv) (nodup_setCoves _), ← entered_host]
  rfl
theorem spanOpened_cove_out {v : Nat} (hv : v < f ∨ f + n ≤ v) : (b.spanOpened m f n).cove v = b.cove v := by
  unfold Blk.spanOpened
  rw [checkpointed_cove_out (fun h => by have := mem_setCoves.mp h; omega), ← entered_host]
  rfl

variable (h : b.takes m = true) (hop : m.opcode = 0x0203) (hp : m.partition < 16)
  (hst : (b.part m.partition).st = 1 ∨ (b.part m.partition).st = 2) (hn : m.param < 16) (hfree : (b.span m.partition m.param).opened = false)
  (hf : b.spanFault m.partition m.payload = none) (hs : coveSet (leAt m.payload 0 8) = some (f, n))
include h hop hp hst hn hfree hf hs

omit h in
theorem runOp_spanOpen : (b.entered m).runOp (b.asCmd m) = ((b.spanOpened m f n).accept (b.asCmd m)).finish (b.accepted m) stOK 0 [] := by
  rw [runOp_eq (op := 0x0203) hop rfl]
  show (b.entered m).doSpanOpen (b.asCmd m) = _
  unfold Blk.doSpanOpen
  rw [withPart_open (c := b.asCmd m) hp (by rw [entered_part]; exact hst)]
  simp only [show (b.asCmd m).m = m from rfl, entered_span, hfree, spanFault_congr entered_sameButHost, hf, hs, Option.getD_some]
  rw [if_neg (by simp [hn])]
  rfl
theorem command_spanOpen : (b.command m).answered m stOK 0 [] ∧ (b.spanOpened m f n).SameButHost (b.command m) ∧ b.hostFor (b.command m) m := by
  obtain ⟨-, hstill, hlog, -⟩ := takes_facts h
  have hhost : (b.spanOpened m f n).host = (b.entered m).host := by rw [← spanOpened_eq]
  have hacc : (b.spanOpened m f n).SameButHost ((b.spanOpened m f n).accept (b.asCmd m)) := by
    have := accept_sameButHost (x := b.spanOpened m f n) (c := b.asCmd m) (pay := []) rfl
    rwa [measureCmd_span (m := (b.asCmd m).m) (.inl hop)] at this
  have hstill' : ((b.spanOpened m f n).accept (b.asCmd m)).still = true := by
    rw [hacc.still, ← spanOpened_eq]
    exact hstill
  have hlog' : ((b.spanOpened m f n).accept (b.asCmd m)).logged m.ctx m.seq = false := by
    rw [logged_congr (hacc.spans.trans spanOpened_spans)]
    exact setSpan_logged rfl hlog
  obtain ⟨-, hans, hend, hbut, -⟩ := command_ends_D h (by rw [hop]; rfl) (by omega) (runOp_spanOpen hop hp hst hn hfree hf hs)
    (accept_cmds_of_host hhost) (accept_open_of_host hhost h) hstill' hlog'
  exact ⟨hans, hacc.trans hend, (accept_hostBut_of_host hhost).trans hbut⟩
end

/-! ### CMD_SPAN_CLOSE -/

section
variable (h : b.takes m = true) (hop : m.opcode = 0x0204) (hp : m.partition < 16)
  (hst : (b.part m.partition).st = 1 ∨ (b.part m.partition).st = 2) (hn : m.param < 16) (hopen : (b.span m.partition m.param).opened = true)
  (hctx : (b.span m.partition m.param).ctx = m.ctx) (hcl : (b.span m.partition m.param).closing = none)
include h hop hp hst hn hopen hctx hcl

omit h in
theorem runOp_spanClose : (b.entered m).runOp (b.asCmd m) =
    ((b.entered m).setSpan m.partition m.param { b.span m.partition m.param with closing := some m.seq }).accept (b.asCmd m) := by
  rw [runOp_eq (op := 0x0204) hop rfl]
  show (b.entered m).doSpanClose (b.asCmd m) = _
  unfold Blk.doSpanClose
  rw [withPart_open (c := b.asCmd m) hp (by rw [entered_part]; exact hst)]
  simp only [show (b.asCmd m).m = m from rfl, show (b.asCmd m).ctx = m.ctx from rfl, entered_span]
  rw [if_neg (by omega), if_neg (by simp [hopen, hctx, hcl])]
  rfl
/-- The command waits: it is accepted, and its span closing. -/
theorem command_spanClose : (b.command m).awaits m ∧
    (b.setSpan m.partition m.param { b.span m.partition m.param with closing := some m.seq }).SameButHost (b.command m) ∧
    b.hostFor (b.command m) m := by
  obtain ⟨-, hstill, -⟩ := takes_facts h
  have hr := runOp_spanClose hop hp hst hn hopen hctx hcl
  generalize hv : ({ b.span m.partition m.param with closing := some m.seq } : Span) = v at hr ⊢
  have hhost : ((b.entered m).setSpan m.partition m.param v).host = (b.entered m).host := rfl
  have hacc := accept_sameButHost (x := (b.entered m).setSpan m.partition m.param v) (c := b.asCmd m) (pay := []) rfl
  rw [measureCmd_span (m := (b.asCmd m).m) (.inr hop)] at hacc
  have hsame : (b.setSpan m.partition m.param v).SameButHost (((b.entered m).setSpan m.partition m.param v).accept (b.asCmd m)) :=
    .trans ⟨by rw [← entered_host]; rfl⟩ hacc
  have hcmds := accept_cmds_of_host hhost
  rw [command_waits h hr (by simp [Blk.noneReady, hcmds, Blk.accepted]) (by rw [hsame.still]; exact hstill)]
  refine ⟨?_, hsame, accept_hostBut_of_host hhost⟩
  rw [Blk.awaits, hcmds]
  simp [Blk.accepted, Blk.asCmd]
end

/-! ### CMD_WATCH_SET -/

/-- A slot rewritten with four words. -/
def Watch.rewritten (k : Watch) (ctl pol ts bs : Nat) : Watch :=
  { k with ctl := ctl, policy := pol, tsaddr := ts, bsaddr := bs, init := false, warmLeft := fld ctl 31 24, closed := 0, surges := 0, count := 0,
           sumsq := 0, maxlog := -32768, ind := 0, span := 0xFF, late := [] }
theorem watchPut_eq (i ctl pol ts bs : Nat) : x.watchPut p i ctl pol ts bs = x.setWatch p i ((x.watch p i).rewritten ctl pol ts bs) := rfl
/-- CMD_WATCH_SET is measured by its partition (R493), beside the slots. -/
theorem measureCmd_setWatch {i : Nat} {v : Watch} (hop : m.opcode = 0x0205) :
    (x.setWatch p i v).measureCmd m = (x.measureCmd m).setWatch p i v := by
  have hm : ∀ y : Blk, y.measureCmd m = y.extendPm m.partition m [] := fun y => by simp [Blk.measureCmd, hop]
  rw [hm, hm]
  unfold Blk.extendPm
  rw [show (x.setWatch p i v).part m.partition = x.part m.partition from rfl]
  split <;> rfl
theorem watchFault_congr (h : x.SameButHost y) : y.watchFault = x.watchFault := by rw [← h.eq]; rfl

section
variable (h : b.takes m = true) (hop : m.opcode = 0x0205) (hp : m.partition < 16)
  (hst : (b.part m.partition).st = 1 ∨ (b.part m.partition).st = 2) (hn : m.param < 256)
  (hf : b.watchFault m.partition (leAt m.payload 0 8) (leAt m.payload 8 8) (leAt m.payload 16 8) (leAt m.payload 24 8) = none)
include h hop hp hst hn hf

omit h in
theorem runOp_watchSet : (b.entered m).runOp (b.asCmd m) = ((b.entered m).setWatch m.partition m.param ((b.watch m.partition m.param).rewritten
    (leAt m.payload 0 8) (leAt m.payload 8 8) (leAt m.payload 16 8) (leAt m.payload 24 8))).finish (b.asCmd m) stOK 0 [] := by
  rw [runOp_eq (op := 0x0205) hop rfl]
  show (b.entered m).doWatchSet (b.asCmd m) = _
  unfold Blk.doWatchSet
  rw [withPart_open (c := b.asCmd m) hp (by rw [entered_part]; exact hst)]
  simp only [show (b.asCmd m).m = m from rfl, watchFault_congr entered_sameButHost, Nat.mul_zero, Nat.mul_one, Nat.reduceMul, hf, watchPut_eq]
  rw [if_neg (by omega), watch_congr (b := b) (by simp)]
theorem command_watchSet : (b.command m).answered m stOK 0 [] ∧ ((b.measureCmd m).setWatch m.partition m.param
    ((b.watch m.partition m.param).rewritten (leAt m.payload 0 8) (leAt m.payload 8 8) (leAt m.payload 16 8) (leAt m.payload 24 8))).SameButHost
      (b.command m) ∧ b.hostFor (b.command m) m := by
  obtain ⟨-, hstill, hlog, h13, -⟩ := takes_facts h
  have hr := runOp_watchSet hop hp hst hn hf
  generalize (b.watch m.partition m.param).rewritten _ _ _ _ = v at hr ⊢
  have hx : (b.setWatch m.partition m.param v).SameButHost ((b.entered m).setWatch m.partition m.param v) := ⟨by rw [← entered_host]; rfl⟩
  have hxh : ((b.entered m).setWatch m.partition m.param v).host = (b.entered m).host := rfl
  have hxl : ((b.entered m).setWatch m.partition m.param v).logged m.ctx m.seq = false := by rw [logged_congr hx.spans]; exact hlog
  have hxc : (((b.entered m).setWatch m.partition m.param v).ctx m.ctx).st ≠ 0 := by
    show ((b.entered m).ctx m.ctx).st ≠ 0
    rw [(entered_ctx_self h).1]; decide
  have hk : dKind (b.asCmd m).m.opcode = false := by show dKind m.opcode = false; rw [hop]; rfl
  obtain ⟨he, -⟩ := command_ends_as h rfl hr (by rw [hxh]; simp [Blk.asCmd]) (by rw [hx.still]; exact hstill) hxl
  have hend := (measureCmd_sameButHost hx).trans (finish_ok_I_same (pay := []) h13 hxl hk)
  rw [← he, show (b.asCmd m).m = m from rfl, measureCmd_setWatch hop] at hend
  refine ⟨?_, hend, ?_⟩
  · rw [he]
    exact finish_answered h13 hxl (by show m.opcode ≠ 1; omega) hxc (by decide)
  · rw [he]
    exact entered_hostBut.trans ((hostBut_of_host hxh).trans (finish_hostBut h13 hxl))
end

/-! ### O13 -/

/-- Settles O13: each command runs on the machine as it was entered, and is answered or waits. -/
theorem spansOpenAndClose : Obligations.SpansOpenAndClose := by
  unfold Obligations.SpansOpenAndClose
  refine ⟨fun s m f n v h hop hp hst hn hfree hf hs hv0 hv1 => ?_, fun s m h hop hp hst hn => ?_, fun s m h hop hp hst hn => ?_⟩
  · obtain ⟨hans, hsame, hhost⟩ := command_spanOpen h hop hp hst hn hfree hf hs
    have hspans : (s.blk.command m).spans = (s.blk.setSpan m.partition m.param (openedSpan m.ctx f n m.payload)).spans := by
      rw [hsame.spans, spanOpened_spans]
    have hcove : ∀ d, (s.blk.command m).cove d = (s.blk.spanOpened m f n).cove d := fun d => by unfold Blk.cove; rw [hsame.coves]
    refine does_of_updIf rfl (isFor_takes h hop) ⟨hans, ?_, ?_, fun d hd => ?_, fun k _ hk => ?_, ?_, hhost⟩
    · rw [span_congr hspans, span_setSpan_new (Span.ne_free rfl)]
      exact ⟨rfl, rfl, rfl, rfl, rfl, rfl, rfl⟩
    · rw [hcove, spanOpened_cove_in ⟨hv0, hv1⟩]
    · rw [hcove, spanOpened_cove_out hd]
    · rw [span_congr hspans, span_setSpan_ne _ hk]
    · rw [← hsame.eq, ← spanOpened_eq]
  · intro x hopen hctx hcl
    obtain ⟨hwait, hsame, hhost⟩ := command_spanClose h hop hp hst hn hopen hctx hcl
    refine does_of_updIf rfl (isFor_takes h hop) ⟨hwait, ?_, fun k _ hk => ?_, ?_, hhost⟩
    · rw [span_congr hsame.spans]
      exact span_setSpan_new (Span.ne_free hopen)
    · rw [span_congr hsame.spans, span_setSpan_ne _ hk]
    · rw [← hsame.eq]
      rfl
  · intro w hf hc
    obtain ⟨hans, hsame, hhost⟩ := command_watchSet h hop hp hst hn hf
    refine does_of_updIf rfl (isFor_takes h hop) ⟨hans, ?_, fun k _ hk => ?_, ?_, hhost⟩
    · rw [watch_congr hsame.watches, watch_setWatch _ (by simpa using hc.2.2.2.2.2.2.1)]
      exact ⟨rfl, rfl, rfl, rfl, rfl, rfl, rfl, rfl, rfl, rfl, rfl⟩
    · rw [watch_congr hsame.watches, watch_setWatch_ne _ hk, watch_congr (b := s.blk) (by simp)]
    · rw [← hsame.eq]
      rfl

end Sys2Proof.Machine
end

section
/-! SUPPORT. The commit of a replay span, and its replay (R160, R163). -/
namespace Sys2Proof.Machine

variable {b x : Blk} {p n : Nat} {c : Cmd}

/-! ### The commit point (R160) -/

/-- A CMD_SPAN_CLOSE that waits does not go on by itself. -/
theorem pump_spanClose (hs : x.still = true) (hc : x.host.cmds = [c]) (hst : c.started = true) (hop : c.m.opcode = 0x0204) : x.pump = x := by
  have hfind : x.cmdOf c.ctx c.seq = some c := by simp [Blk.cmdOf, hc]
  have hpoll : x.pollCmds = x := by simp [Blk.pollCmds, hc, hst, hfind, Blk.pollCmd, hop]
  have hcmds : x.pumpCmds = x := by
    unfold Blk.pumpCmds
    split
    · rfl
    · rw [hpoll, startReady_none _ (by simp [Blk.noneReady, hc, hst])]
  rw [Blk.pump, hcmds, still_tail hs]

/-- The machine at the commit point of a span: its close keeps the Tide value, its staging ranges are being copied. -/
def Blk.committed (b : Blk) (p n : Nat) (c : Cmd) : Blk :=
  (b.setCmd { c with vars := [b.tide] }).setSpan p n { b.span p n with phase := 2 }
/-- The commit point of a span that reached no cap. -/
theorem commitPoint_eq (ho : (b.span p n).opened = true) (hctx : (b.span p n).ctx = c.ctx) (hcl : (b.span p n).closing = some c.seq)
    (hc : b.host.cmds = [c]) (hph : (b.span p n).phase = 0) (hcap : (b.span p n).capped = false)
    (hl : ((b.span p n).log.all fun l => l.done.isSome) = true) :
    b.commitPoint p n = b.committed p n c := by
  have hfind : b.cmdOf (b.span p n).ctx c.seq = some c := by simp [Blk.cmdOf, hc, hctx]
  unfold Blk.commitPoint
  simp [hcl, ho, hph, hl, hfind, hcap, Blk.committed]

/-! ### The staging copies (R163) -/

/-- One output range without an uncorrectable unit is copied, and the close of a span without a log ends in ST_OK. -/
theorem stagingDone_eq {src dst len : Nat} (ho : (b.span p n).opened = true) (hph : (b.span p n).phase = 2) (hl : (b.span p n).log = [])
    (hout : (b.span p n).outputs = [(src, dst, len)]) (hue : b.rangeUe src len = none) :
    b.stagingDone p n = (b.memWrite p none dst (b.memRead p src len)).spanEnd p n stOK 0 := by
  unfold Blk.stagingDone
  simp [ho, hph, hout, hl, hue]
/-- The close of a span that alone is open, without a log: the span is free, and the close's reply carries the commit point t0. -/
theorem spanEnd_ok {v : Span} {t0 : Nat} (hsp : x.spans = [(p * 16 + n, v)]) (hl : v.log = []) (hctx : v.ctx = c.ctx) (hcl : v.closing = some c.seq)
    (hc : x.host.cmds = [c]) (hop : c.m.opcode = 0x0204) (h13 : c.flag 13 = false) (hv : c.vars = [t0]) (hst : (x.ctx c.ctx).st = 1) :
    (x.spanEnd p n stOK 0).spans = [] ∧ (x.spanEnd p n stOK 0).host.cmds = [] ∧
    ((x.spanEnd p n stOK 0).ctx c.ctx).replies.getLast? = some (c.seq, msgBytes 0x0204 c.ctx true false c.seq stOK 0 t0 []) ∧
    { x with spans := [], host := (x.spanEnd p n stOK 0).host } = x.spanEnd p n stOK 0 := by
  have hspan : x.span p n = v := by simp [Blk.span, hsp, sget]
  have hfree : x.setSpan p n {} = { x with spans := [] } := by simp [Blk.setSpan, hsp, sset]
  have hfind : ({ x with spans := [] } : Blk).cmdOf c.ctx c.seq = some c := by simp [Blk.cmdOf, hc]
  have he : x.spanEnd p n stOK 0 = { ({ x with spans := [], tide := t0 } : Blk).finish c stOK 0 [] with tide := x.tide } := by
    unfold Blk.spanEnd
    simp only [hspan, hl, hctx, hcl, hfree, Blk.logReplies, List.foldl_nil, hfind, hv, List.headD_cons]
  have hlog : ({ x with spans := [], tide := t0 } : Blk).logged c.ctx c.seq = false := rfl
  have hsame := finish_ok_D_same (pay := []) h13 hlog (by rw [hop]; rfl)
  have hans := finish_answered (st := stOK) (pay := []) h13 hlog (by omega) (by show (x.ctx c.ctx).st ≠ 0; omega) (by decide : 0 < openDet)
  have hcmds := finish_cmds (st := stOK) (det := 0) (pay := []) h13 hlog
  generalize ({ x with spans := [], tide := t0 } : Blk).finish c stOK 0 [] = y at he hsame hans hcmds
  rw [he]
  refine ⟨hsame.spans, ?_, ?_, ?_⟩
  · show y.host.cmds = []
    rw [hcmds]
    simp [hc]
  · have htide : y.tide = t0 := by rw [← hsame.eq]
    rw [Blk.answered, htide, hop] at hans
    exact hans
  · rw [← hsame.eq]

/-! ### A drained span replays (R160) -/

/-- The generators of Coves are set back to their checkpoints. -/
def Blk.restored (b : Blk) (l : List Nat) : Blk := l.foldl (fun b v => b.setGens v (b.cove v).checkpoint) b
theorem mem_coves {v : Span} {d : Nat} : d ∈ v.coves ↔ v.first ≤ d ∧ d < v.first + v.count := mem_setCoves
theorem nodup_coves (v : Span) : v.coves.Nodup := nodup_setCoves (v.first, v.count)
/-- The span after a replay in which nothing is reissued. -/
def Span.replayed (v : Span) : Span := { v with phase := 0, surging := [], replays := v.replays + 1, log := [] }
/-- With no logged command to withdraw, entries that read as idle Bays are no longer listed, and nothing else changes. -/
theorem withdraw_nil : x.withdraw [] = { x with bays := smap (fun _ => {}) (fun _ y => y) x.bays } := by
  unfold Blk.withdraw
  dsimp only
  congr 1
  · congr 1
    funext _ y
    exact congrArg (fun l => ({ y with descs := l } : Bay)) (List.filter_eq_self.mpr fun d _ => by split <;> rfl)
  · exact congrArg (fun l => ({ x.host with cmds := l } : HostSide)) (List.filter_eq_self.mpr fun _ _ => rfl)
  · exact congrArg (fun l => ({ x.slice with remotes := l } : Slice)) (List.filter_eq_self.mpr fun r _ => by split <;> rfl)
/-- A replay of a span without a logged command and without a policy to apply. -/
theorem replayDrained_eq (ho : (b.span p n).opened = true) (hph : (b.span p n).phase = 1) (hd : b.spanDrained (b.span p n) = true)
    (hl : (b.span p n).log = []) (hs : (b.span p n).surging = []) :
    b.replayDrained p n = ((b.restored (b.span p n).coves).withdraw []).setSpan p n (b.span p n).replayed := by
  have hslots : ((List.range 256).filter fun s => ([] : List (Nat × Int × List Byte)).any fun q => q.1 == s) = [] := by simp
  unfold Blk.replayDrained
  rw [if_neg (by simp [ho, hph, hd])]
  simp only [hl, hs, hslots]
  rfl
theorem restored_eq (l : List Nat) : { x with coves := (x.restored l).coves } = x.restored l := by
  unfold Blk.restored
  induction l generalizing x with
  | nil => rfl
  | cons v l ih => rw [List.foldl_cons, ← ih]; rfl
theorem restored_cove_out {d : Nat} {l : List Nat} (h : d ∉ l) : (x.restored l).cove d = x.cove d := by
  unfold Blk.restored
  induction l generalizing x with
  | nil => rfl
  | cons v l ih =>
    rw [List.mem_cons, not_or] at h
    rw [List.foldl_cons, ih h.2, setGens_eq, cove_setCove_ne _ _ h.1]
theorem restored_cove_in {d : Nat} {l : List Nat} (hw : swf (fun _ => ({} : Cove)) x.coves = true) (h : d ∈ l) (hl : l.Nodup) :
    (x.restored l).cove d = (x.cove d).withGens d (x.cove d).checkpoint := by
  induction l generalizing x with
  | nil => simp at h
  | cons v l ih =>
    rw [List.nodup_cons] at hl
    show ((x.setGens v (x.cove v).checkpoint).restored l).cove d = _
    rw [setGens_eq]
    by_cases e : d = v
    · subst e
      rw [restored_cove_out hl.1, cove_setCove _ _ _ hw]
    · rw [ih (swf_sset hw) ((List.mem_cons.mp h).resolve_left e) hl.2, cove_setCove_ne _ _ e]
/-- In canonical form a map lists no entry that reads as its default. -/
theorem smap_self {α : Type} [DecidableEq α] {d : Nat → α} {l : List (Nat × α)} (h : swf d l = true) : smap d (fun _ v => v) l = l := by
  induction l with
  | nil => rfl
  | cons q l ih =>
    obtain ⟨a, v⟩ := q
    simp only [swf, Bool.and_eq_true, bne_iff_ne, ne_eq] at h
    unfold smap at ih ⊢
    simp [h.1.1, ih h.2]

/-! ### What of O14 holds -/

/-- The first clause of O14: the commit point (R160). -/
theorem spanCommitPoint_commits (s : State) (hp : p < 16) (hn : n < 16) (hs : s.blk.still = true) (hc : s.blk.host.cmds = [c])
    (hst : c.started = true) (hop : c.m.opcode = 0x0204) (ho : (s.blk.span p n).opened = true) (hph : (s.blk.span p n).phase = 0)
    (hcap : (s.blk.span p n).capped = false) (hctx : (s.blk.span p n).ctx = c.ctx) (hcl : (s.blk.span p n).closing = some c.seq)
    (hl : ((s.blk.span p n).log.all fun l => l.done.isSome) = true) :
    s.does (.spanCommitPoint p n) fun t => (t.span p n).phase = 2 ∧ t.host.cmds = [{ c with vars := [s.blk.tide] }] ∧
      t.host.ctxs = s.blk.host.ctxs ∧ { s.blk with spans := t.spans, host := t.host } = t := by
  refine does_of_updIf rfl (by simp [nParts, hp, hn]) ?_
  have hcmds : (s.blk.committed p n c).host.cmds = [{ c with vars := [s.blk.tide] }] := setCmd_single hc rfl rfl
  have hspan : (s.blk.committed p n c).span p n = { s.blk.span p n with phase := 2 } := span_setSpan_new (Span.ne_free ho)
  rw [commitPoint_eq ho hctx hcl hc hph hcap hl, pump_spanClose (x := s.blk.committed p n c) hs hcmds hst hop]
  exact ⟨by rw [hspan], hcmds, rfl, rfl⟩
/-- The second clause of O14: the copy of a staging range, and the end of the close (R163). -/
theorem spanStagingCopyDone_copies {src dst len t0 : Nat} (s : State) (hp : p < 16) (hn : n < 16) (hs : s.blk.still = true)
    (hc : s.blk.host.cmds = [c]) (hop : c.m.opcode = 0x0204) (h13 : c.flag 13 = false) (hst : (s.blk.ctx c.ctx).st = 1) (hv : c.vars = [t0])
    (ho : (s.blk.span p n).opened = true) (hph : (s.blk.span p n).phase = 2) (hctx : (s.blk.span p n).ctx = c.ctx)
    (hcl : (s.blk.span p n).closing = some c.seq) (hl : (s.blk.span p n).log = []) (hout : (s.blk.span p n).outputs = [(src, dst, len)])
    (hue : s.blk.rangeUe src len = none) (hsp : s.blk.spans = [(p * 16 + n, s.blk.span p n)]) :
    s.does (.spanStagingCopyDone p n) fun t => t.mem = (s.blk.memWrite p none dst (s.blk.memRead p src len)).mem ∧ t.spans = [] ∧ t.host.cmds = [] ∧
      (t.ctx c.ctx).replies.getLast? = some (c.seq, msgBytes 0x0204 c.ctx true false c.seq stOK 0 t0 []) ∧
      { s.blk.memWrite p none dst (s.blk.memRead p src len) with spans := t.spans, host := t.host } = t := by
  refine does_of_updIf rfl (by simp [nParts, hp, hn]) ?_
  rw [stagingDone_eq ho hph hl hout hue]
  obtain ⟨hbays, hchans, hslice, hspans⟩ := (memWrite_memOp (p := p) (a := dst) (v := s.blk.memRead p src len)).rest s.blk
  have hhost := (memWrite_memOp (p := p) (a := dst) (v := s.blk.memRead p src len)).host s.blk
  generalize s.blk.memWrite p none dst (s.blk.memRead p src len) = w at hbays hchans hslice hspans hhost ⊢
  obtain ⟨hfree, hcmds, hrep, hfr⟩ := spanEnd_ok (hspans.trans hsp) hl hctx hcl (hhost ▸ hc) hop h13 hv (by unfold Blk.ctx; rw [hhost]; exact hst)
  have hstill : (w.spanEnd p n stOK 0).still = true := by rw [← hfr]; exact (still_congr (x := w) hbays hchans hslice).trans hs
  rw [pump_rests (by simp [Blk.rests, hstill, hcmds])]
  exact ⟨by rw [← hfr], hfree, hcmds, hrep, by rw [hfree, hfr]⟩
/-- The third clause of O14, where the map of Bays too is in canonical form: the replay (R160). -/
theorem replayDrained_replays {v g : Nat} (s : State) (hp : p < 16) (hn : n < 16) (hr : s.blk.rests = true) (ho : (s.blk.span p n).opened = true)
    (hph : (s.blk.span p n).phase = 1) (hd : s.blk.spanDrained (s.blk.span p n) = true) (hl : (s.blk.span p n).log = [])
    (hs : (s.blk.span p n).surging = []) (hv0 : (s.blk.span p n).first ≤ v) (hv1 : v < (s.blk.span p n).first + (s.blk.span p n).count)
    (hg : g < 64) (hlen : (s.blk.cove v).checkpoint.length = 64) (hc : s.blk.canon) (hb : swf (fun _ => ({} : Bay)) s.blk.bays = true) :
    s.does (.replayDrained p n) fun t => (t.span p n).replays = (s.blk.span p n).replays + 1 ∧ (t.span p n).phase = 0 ∧
      t.gen v g = nth (s.blk.cove v).checkpoint g 0 ∧
      (∀ d, d < (s.blk.span p n).first ∨ (s.blk.span p n).first + (s.blk.span p n).count ≤ d → t.cove d = s.blk.cove d) ∧
      { s.blk.cove v with gens := (t.cove v).gens } = t.cove v ∧ s.blk.baysBut t [] ∧
      { s.blk with coves := t.coves, spans := t.spans, bays := t.bays } = t := by
  refine does_of_updIf rfl (by simp [nParts, hp, hn]) ?_
  have he : s.blk.replayDrained p n = (s.blk.restored (s.blk.span p n).coves).setSpan p n (s.blk.span p n).replayed := by
    rw [replayDrained_eq ho hph hd hl hs, withdraw_nil, smap_self (by rw [← restored_eq]; exact hb)]
  have hcove : ∀ d, ((s.blk.restored (s.blk.span p n).coves).setSpan p n (s.blk.span p n).replayed).cove d =
    (s.blk.restored (s.blk.span p n).coves).cove d := fun _ => rfl
  have hspan : ((s.blk.restored (s.blk.span p n).coves).setSpan p n (s.blk.span p n).replayed).span p n = (s.blk.span p n).replayed :=
    span_setSpan_new (Span.ne_free ho)
  have hself := restored_cove_in hc.2.2.1 (mem_coves.mpr ⟨hv0, hv1⟩) (nodup_coves _)
  rw [he, pump_rests (by rw [← restored_eq]; exact hr)]
  refine ⟨?_, ?_, ?_, fun d hout => ?_, ?_, fun d _ => ?_, ?_⟩
  · rw [hspan]; rfl
  · rw [hspan]; rfl
  · rw [Blk.gen, hcove, hself, gen_withGens (canon_cove hc v).1 (by omega)]
    simp [nth, hlen, hg]
  · rw [hcove]
    exact restored_cove_out fun h => by have := mem_coves.mp h; omega
  · rw [hcove, hself]
    rfl
  · rw [← restored_eq]; rfl
  · rw [← restored_eq]; rfl

/-! ### What of O14 fails -/

/-- A machine whose span 0 of partition 0, over Cove 0, drains for a replay, and whose map of Bays lists Bay 3 twice, idle first. -/
def bayTwice : State where
  blk := { State.reset.blk with
    bays := [(3, {}), (3, { nextDesc := 1 })], coves := [(0, { checkpoint := List.range 64 })], spans := [(0, { opened := true, count := 1, phase := 1 })] }
  pending := []

/-- The replay no longer lists the idle entry, and Bay 3 reads as the other one. -/
theorem bayTwice_replays : ((bayTwice.blk.replayDrained 0 0).pump.bay 3).nextDesc = 1 ∧ (bayTwice.blk.bay 3).nextDesc = 0 := by decide +kernel

/-! ### O14 -/

/-- Refutes O14: a replay keeps every Bay in a map of Bays in canonical form, but the canonical form of the statement leaves that map out, and of a
Bay listed twice the replay drops an idle first entry. -/
theorem not_spansCommitAndReplay : ¬ Obligations.SpansCommitAndReplay := by
  unfold Obligations.SpansCommitAndReplay
  rintro ⟨-, -, hreplays⟩
  have hrow : ∀ s : State, exec (.replayDrained 0 0) s = s.updIf true fun b => (b.replayDrained 0 0).pump := fun _ => rfl
  obtain ⟨-, -, -, -, -, hbays, -⟩ := updated_of_does (hrow _) (hreplays bayTwice 0 0 0 0 (by decide) (by decide) rfl
    rfl rfl rfl rfl rfl (by decide) (by decide) (by decide) rfl (by decide))
  have hread := congrArg Bay.nextDesc (hbays 3 (by simp))
  rw [bayTwice_replays.1, bayTwice_replays.2] at hread
  exact absurd hread (by decide)

end Sys2Proof.Machine
end

section
/-! SUPPORT. The sequencer of a Cove: what setting it changes, when its next instruction issues, and what an instruction that it executes
itself does (R165, R166, R174, R177, R184). -/
namespace Sys2Proof.Machine

variable {b t u : Blk} {c op : Nat} {q r : Seq}

/-! ### One sequencer set -/

/-- Nothing changes but the sequencer of one Cove, which becomes q, and its count of issued instructions. -/
structure Blk.SeqBecomes (b t : Blk) (c : Nat) (q : Seq) : Prop where
  only : b.seqOnly t c
  seq : t.seq c = q

theorem Blk.SeqBecomes.trans (h : b.SeqBecomes t c q) (g : t.SeqBecomes u c r) : b.SeqBecomes u c r := by
  obtain ⟨hframe, hothers, hcove, hcfg⟩ := h.only
  obtain ⟨gframe, gothers, gcove, gcfg⟩ := g.only
  exact ⟨⟨by rw [← gframe, ← hframe], fun d hd => (gothers d hd).trans (hothers d hd), by rw [← gcove, ← hcove],
    fun k hk => (gcfg k hk).trans (hcfg k hk)⟩, g.seq⟩
theorem Blk.SeqBecomes.bay (h : b.SeqBecomes t c q) (y : Nat) : t.bay y = b.bay y := by rw [← h.only.1]; rfl
theorem Blk.SeqBecomes.tide (h : b.SeqBecomes t c q) : t.tide = b.tide := by rw [← h.only.1]

/-- A sequencer that a program has is no idle one. -/
theorem Seq.ne_idle_of_st (h : q.st ≠ 0) : q ≠ {} := fun e => h (by rw [e])
/-- Nor is one that has issued an instruction. -/
theorem Seq.ne_idle_of_serial (h : q.nextSerial ≠ 0) : q ≠ {} := fun e => h (by rw [e])

theorem becomes_of_cove (h : (b.setSeq c q).cove c = { b.cove c with seq := q }) : b.SeqBecomes (b.setSeq c q) c q := by
  have hseq : (b.setSeq c q).seq c = q := congrArg Cove.seq h
  exact ⟨⟨rfl, fun d hd => cove_setCove_ne b _ hd, by rw [hseq, h], fun _ _ => rfl⟩, hseq⟩
theorem setSeq_becomes (h : q ≠ {}) : b.SeqBecomes (b.setSeq c q) c q :=
  becomes_of_cove (cove_setCove_new b c _ fun e => h (congrArg Cove.seq e))
theorem setSeq_becomes_of_swf (h : swf (fun _ => ({} : Cove)) b.coves = true) : b.SeqBecomes (b.setSeq c q) c q :=
  becomes_of_cove (cove_setCove b c _ h)
theorem cvCount_becomes (n : Nat) : b.SeqBecomes (b.cvCount c 0x20 n) c (b.seq c) := by
  refine ⟨⟨rfl, fun _ _ => rfl, rfl, fun k hk => ?_⟩, rfl⟩
  unfold Blk.cvCount Blk.count
  split
  · rfl
  · exact cfgGet_cfgSet_ne b _ hk

/-! ### What an issued instruction does (R170, R177) -/

/-- A sequencer that has counted an issued instruction. -/
def Seq.counted (q : Seq) : Seq := { q with nextSerial := q.nextSerial + 1, issuedHere := (q.issuedHere + 1) % 2 ^ 32 }
theorem Seq.did_eq (f : Seq → Seq) : q.did f = (f q.counted).next := rfl
theorem Seq.counted_ne_idle : q.counted ≠ {} := Seq.ne_idle_of_serial (Nat.succ_ne_zero _)
theorem issued_becomes : b.SeqBecomes (b.issued c) c (b.seq c).counted := by
  have hset := setSeq_becomes (b := b) (c := c) (Seq.counted_ne_idle (q := b.seq c))
  have hcount := cvCount_becomes (b := b.setSeq c (b.seq c).counted) (c := c) 1
  rw [hset.seq] at hcount
  exact hset.trans hcount
/-- An instruction that sets the sequencer outright. -/
theorem issued_set_becomes (h : r.nextSerial ≠ 0) : b.SeqBecomes ((b.issued c).setSeq c r) c r :=
  issued_becomes.trans (setSeq_becomes (Seq.ne_idle_of_serial h))
theorem advance_becomes (h : (b.seq c).next ≠ {}) : b.SeqBecomes (b.advance c) c (b.seq c).next := setSeq_becomes h
/-- An instruction that the sequencer executes itself, whatever it does to it, short of its serial. -/
theorem seqOp_becomes {f : Seq → Seq} (hf : (f (b.seq c).counted).nextSerial = (b.seq c).nextSerial + 1) :
    b.SeqBecomes (b.seqOp c f) c ((b.seq c).did f) := by
  have hne : (f (b.seq c).counted).nextSerial ≠ 0 := by omega
  have hset := issued_set_becomes (b := b) (c := c) hne
  have hadv := advance_becomes (b := (b.issued c).setSeq c (f (b.seq c).counted)) (c := c) (by
    rw [hset.seq]; exact Seq.ne_idle_of_serial hne)
  rw [hset.seq] at hadv
  have he : b.seqOp c f = ((b.issued c).setSeq c (f (b.seq c).counted)).advance c := by
    simp only [Blk.seqOp, issued_becomes.seq]
  rw [he, Seq.did_eq]
  exact hset.trans hadv

/-! ### When an instruction issues (R166, R174, R182) -/

theorem canIssue_facts (h : b.canIssue c = true) :
    (b.seq c).st = 1 ∧ (b.seq c).stopping = 0 ∧ (b.seq c).hold = .none ∧ (b.seq c).fault = none := by
  simp only [Blk.canIssue, Bool.and_eq_true, beq_iff_eq, Option.isNone_iff_eq_none] at h
  obtain ⟨⟨⟨⟨⟨⟨hst, hstop⟩, hhold⟩, hfault⟩, -⟩, -⟩, -⟩ := h
  exact ⟨hst, hstop, hhold, hfault⟩
theorem canIssue_ne_idle (h : b.canIssue c = true) : b.seq c ≠ {} := Seq.ne_idle_of_st (by rw [(canIssue_facts h).1]; decide)
theorem comes_facts (h : b.comes c op = true) : c < nCoves ∧ b.canIssue c = true ∧ (b.seq c).pc < (b.seq c).count ∧
    wOpcode (b.seq c).word = op ∧ (b.seq c).guardOk (b.seq c).word = true ∧ (b.seq c).inflight = [] := by
  simp only [Blk.comes, Bool.and_eq_true, decide_eq_true_eq, beq_iff_eq, List.isEmpty_iff] at h
  obtain ⟨⟨⟨⟨⟨hc, hissue⟩, hpc⟩, hop⟩, hguard⟩, hfly⟩ := h
  exact ⟨hc, hissue, hpc, hop, hguard, hfly⟩
theorem p7Held_nil (h : q.inflight = []) (w : Nat) : q.p7Held w = false := by simp [Seq.p7Held, h]
/-- Whether the next instruction acts or is skipped is its guard's to say (R174). -/
theorem issueIf_eq (act : Blk → Nat → Blk) (hissue : b.canIssue c = true) (hpc : (b.seq c).pc < (b.seq c).count)
    (hop : wOpcode (b.seq c).word = op) (hfly : (b.seq c).inflight = []) :
    b.issueIf c (fun w => wOpcode w == op) act = if (b.seq c).guardOk (b.seq c).word then act b (b.seq c).word else b.advance c := by
  unfold Blk.issueIf
  simp only [hissue, Nat.not_le.mpr hpc, hop, p7Held_nil hfly, Bool.not_true, decide_false, Bool.or_self, Bool.false_eq_true, if_false, beq_self_eq_true]
/-- The row of an instruction to which a Cove comes: it acts. -/
theorem does_of_comes {s : State} {i : Instr} {act : Blk → Nat → Blk} {P : Blk → Prop} (h : s.blk.comes c op = true)
    (he : exec i s = s.updIf (c < nCoves) fun b => b.issueIf c (fun w => wOpcode w == op) act)
    (hP : P (act s.blk (s.blk.seq c).word)) : s.does i P := by
  obtain ⟨hc, hissue, hpc, hop, hguard, hfly⟩ := comes_facts h
  refine does_of_updIf he (by simpa using hc) ?_
  rw [issueIf_eq act hissue hpc hop hfly, if_pos hguard]
  exact hP
/-- The row of an instruction that sets the sequencer of its Cove alone. -/
theorem does_of_becomes {s : State} {i : Instr} {act : Blk → Nat → Blk} {P : Blk → Prop} (h : s.blk.comes c op = true)
    (he : exec i s = s.updIf (c < nCoves) fun b => b.issueIf c (fun w => wOpcode w == op) act)
    (hq : s.blk.SeqBecomes (act s.blk (s.blk.seq c).word) c q) (hP : ∀ t, s.blk.seqOnly t c → t.seq c = q → P t) : s.does i P :=
  does_of_comes h he (hP _ hq.only hq.seq)
theorem doNop_becomes : b.SeqBecomes (b.doNop c) c ((b.seq c).did id) := seqOp_becomes rfl

end Sys2Proof.Machine
end

section
/-! SUPPORT. The instructions on scalar registers and predicates (R174, R184). -/
namespace Sys2Proof.Machine

variable {b t : Blk} {c op k v : Nat} {q : Seq}

/-! ### One bit of a number set -/

theorem fld_lt (x hi lo : Nat) : fld x hi lo < 2 ^ (hi + 1 - lo) := Nat.mod_lt _ (Nat.two_pow_pos _)
theorem tbit_eq_testBit (x i : Nat) : tbit x i = x.testBit i := by
  simp [tbit, Nat.testBit, Nat.and_comm, Nat.and_one_is_mod]
/-- A bit of a number split at place j: below j it is the low part's, at j the middle bit's, above it the high part's. -/
theorem testBit_split {j l : Nat} (hl : l < 2 ^ j) (m : Bool) (h i : Nat) :
    (2 ^ j * (bnat m + 2 * h) + l).testBit i = if i < j then l.testBit i else if i = j then m else h.testBit (i - j - 1) := by
  rw [Nat.testBit_two_pow_mul_add _ hl]
  split
  · rfl
  · split
    · next hij => subst hij; cases m <;> simp [bnat, Nat.testBit_zero]
    · obtain ⟨n, hn⟩ : ∃ n, i - j = n + 1 := ⟨i - j - 1, by omega⟩
      have hm : bnat m < 2 := by cases m <;> decide
      rw [hn, Nat.testBit_succ, show (bnat m + 2 * h) / 2 = h by omega]
      rfl
/-- One bit replaced reads as the flag put there, and every other bit as before. -/
theorem tbit_setFld (x j : Nat) (v : Bool) (i : Nat) : tbit (setFld x j j (bnat v)) i = if i = j then v else tbit x i := by
  have hl : x % 2 ^ j < 2 ^ j := Nat.mod_lt _ (Nat.two_pow_pos _)
  have hbit : x / 2 ^ j % 2 = bnat (tbit x j) := by
    rw [tbit, Nat.shiftRight_eq_div_pow]
    rcases Nat.mod_two_eq_zero_or_one (x / 2 ^ j) with h | h <;> simp [h, bnat]
  have hx : x = 2 ^ j * (bnat (tbit x j) + 2 * (x / 2 ^ j / 2)) + x % 2 ^ j := by
    rw [← hbit, Nat.mod_add_div, Nat.div_add_mod]
  have hset : setFld x j j (bnat v) = 2 ^ j * (bnat v + 2 * (x / 2 ^ j / 2)) + x % 2 ^ j := by
    have hone : j + 1 - j = 1 := by omega
    have hv : bnat v % 2 = bnat v := by cases v <;> rfl
    rw [setFld, fld, hone, Nat.pow_one, Nat.shiftRight_eq_div_pow, hbit, hv]
    generalize tbit x j = m at hx
    generalize bnat v = w
    generalize x / 2 ^ j / 2 = h at hx ⊢
    generalize x % 2 ^ j = l at hx ⊢
    subst hx
    have e1 : 2 ^ j * (bnat m + 2 * h) + l = bnat m * 2 ^ j + (2 ^ j * (2 * h) + l) := by ring
    rw [e1, Nat.add_sub_cancel_left]
    ring
  rw [tbit_eq_testBit, tbit_eq_testBit, hset, testBit_split hl]
  conv_rhs => rw [hx, testBit_split hl]
  rcases lt_trichotomy i j with hi | hi | hi
  · simp [hi, hi.ne]
  · simp [hi]
  · simp [hi.not_gt, hi.ne']

/-! ### Registers -/

theorem setSreg_reads (hq : swf (fun _ => 0) q.sregs = true) (hv : v < 2 ^ 64) (r : Nat) :
    sreg (q.setSreg k v).sregs r = if r = k ∧ r ≠ 0 then v else sreg q.sregs r := by
  by_cases hr : r = k
  · subst hr
    by_cases h0 : r = 0
    · simp [h0, sreg]
    · rw [if_pos ⟨rfl, h0⟩, sreg_setSreg (Nat.pos_of_ne_zero h0) hq hv]
  · rw [if_neg (by simp [hr]), sreg_setSreg_ne q hr]
/-- An instruction that sets a scalar register and nothing else of the sequencer goes on at the next instruction. -/
theorem did_setSreg {f : Seq → Seq} (hf : f q.counted = q.counted.setSreg k v) :
    (f q.counted).nextSerial = q.nextSerial + 1 ∧ (q.did f).pc = q.next.pc ∧ (q.did f).preds = q.preds ∧
    (q.did f).sregs = (q.setSreg k v).sregs := by
  rw [Seq.did_eq, hf]
  unfold Seq.setSreg
  split <;> exact ⟨rfl, rfl, rfl, rfl⟩
/-- The machine after an instruction that sets a scalar register. -/
theorem seqOp_setSreg {f : Seq → Seq} (hf : f (b.seq c).counted = (b.seq c).counted.setSreg k v) (hb : swf (fun _ => 0) (b.seq c).sregs = true)
    (hv : v < 2 ^ 64) : b.seqOnly (b.seqOp c f) c ∧ ((b.seqOp c f).seq c).pc = (b.seq c).next.pc ∧ ((b.seqOp c f).seq c).preds = (b.seq c).preds ∧
    ∀ r, sreg ((b.seqOp c f).seq c).sregs r = if r = k ∧ r ≠ 0 then v else sreg (b.seq c).sregs r := by
  obtain ⟨hserial, hpc, hpreds, hregs⟩ := did_setSreg hf
  have h := seqOp_becomes hserial
  rw [h.seq]
  exact ⟨h.only, hpc, hpreds, fun r => by rw [hregs, setSreg_reads hb hv]⟩

theorem sopFn_lt (fn a d : Nat) : sopFn fn a d < 2 ^ 64 := Nat.mod_lt _ (Nat.two_pow_pos _)
/-- SGET's value is the one of its selector, of those that are no free value. -/
theorem sgetVal_eq {sel : Nat} (h : sel < 5) :
    b.sgetVal c sel = (nth [c, b.slice.devid, b.tide, (b.seq c).cont, b.partNum c] sel 0, b) := by
  rcases sel with _ | _ | _ | _ | _ | n
  · rfl
  · rfl
  · rfl
  · rfl
  · rfl
  · omega
theorem setSreg_mod : q.setSreg k (v % 2 ^ 64) = q.setSreg k v := by
  unfold Seq.setSreg
  rw [Nat.mod_mod]

/-- SCMP sets the predicate that it names to the comparison and its other operand (R184). -/
theorem tbit_scmp (q : Seq) (w i : Nat) : tbit (q.scmp w).preds i = if i = fld w 95 93 then
    (ccFn (fld w 82 80) (sreg q.sregs (fld w 92 88)) (operandB q (tbit w 79) (fld w 87 83) (fld w 78 47)) &&
      (!tbit w 46 || (tbit q.preds (fld w 45 43) != tbit w 42))) else tbit q.preds i := by
  unfold Seq.scmp
  rw [tbit_setFld]
  cases tbit w 46 <;> simp

theorem doScmp_becomes (w : Nat) : b.SeqBecomes (b.doScmp c w) c ((b.seq c).did fun q => q.scmp w) := seqOp_becomes rfl

/-! ### O20 -/

/-- Settles O20: each instruction is an operation of the sequencer alone. -/
theorem registerInstructions : Obligations.RegisterInstructions := by
  unfold Obligations.RegisterInstructions
  intro s c hcanon q w
  have hregs : swf (fun _ => 0) q.sregs = true := (canon_cove hcanon c).2
  refine ⟨fun h => ?_, fun h => ?_, fun h => ?_, fun h => ?_, fun h hsel => ?_⟩
  · exact does_of_becomes h rfl doNop_becomes fun t honly hseq => ⟨hseq, honly⟩
  · exact does_of_comes h rfl (seqOp_setSreg rfl hregs (fld_lt _ 63 0))
  · exact does_of_comes h rfl (seqOp_setSreg rfl hregs (sopFn_lt _ _ _))
  · exact does_of_becomes h rfl (doScmp_becomes w) fun t honly hseq => by
      rw [hseq]
      exact ⟨honly, rfl, rfl, fun i _ => tbit_scmp q w i⟩
  · refine does_of_comes h rfl ?_
    show s.blk.seqOnly (s.blk.doSget c w) c ∧ _
    unfold Blk.doSget
    rw [sgetVal_eq hsel]
    exact seqOp_setSreg setSreg_mod.symm hregs (Nat.mod_lt _ (Nat.two_pow_pos _))

end Sys2Proof.Machine
end

section
/-! SUPPORT. Branches, loops, guards and the ends of programs (R166, R170, R171, R174, R178, R181, R184, R185). -/
namespace Sys2Proof.Machine

variable {b x : Blk} {c op k start n : Nat} {q : Seq}

/-! ### Branches and loops -/

theorem doBr_becomes (w : Nat) : b.SeqBecomes (b.doBr c w) c { (b.seq c).counted with pc := brTarget w } := by
  have he : b.doBr c w = (b.issued c).setSeq c { (b.seq c).counted with pc := brTarget w } := by
    simp only [Blk.doBr, issued_becomes.seq]
  rw [he]
  exact issued_set_becomes (Nat.succ_ne_zero _)
/-- The count of a LOOP: a register, or its field (R184). -/
def loopCount (q : Seq) (w : Nat) : Nat := if tbit w 93 then sreg q.sregs (fld w 81 77) else fld w 92 77
/-- A LOOP with passes to make enters its body (R185). -/
theorem doLoop_enters {w : Nat} (hn : loopCount (b.seq c) w = n) (h0 : n ≠ 0) (h : n ≤ 65535) :
    b.SeqBecomes (b.doLoop c w) c { (b.seq c).counted with
      pc := (b.seq c).pc + 1, lregs := sset (fun _ => 0) (b.seq c).lregs (loopCtr w) n,
      loops := (loopCtr w, (b.seq c).pc + 1, loopEnd w) :: (b.seq c).loops } := by
  unfold loopCount at hn
  unfold Blk.doLoop
  simp only [hn, if_neg (Nat.not_lt.mpr h), if_neg h0, issued_becomes.seq]
  exact issued_set_becomes (Nat.succ_ne_zero _)
/-- A LOOP without a pass goes on after the end of its body (R185). -/
theorem doLoop_passes {w : Nat} (hn : loopCount (b.seq c) w = 0) (hl : (b.seq c).loops = []) :
    b.SeqBecomes (b.doLoop c w) c { (b.seq c).counted with
      pc := loopEnd w + 1, lregs := sset (fun _ => 0) (b.seq c).lregs (loopCtr w) 0, loops := [] } := by
  have hcl : (b.seq c).counted.loops = [] := hl
  unfold loopCount at hn
  unfold Blk.doLoop
  simp only [hn, if_neg (Nat.not_lt_zero 65535), if_true, issued_becomes.seq, hcl, loopNext]
  exact issued_set_becomes (Nat.succ_ne_zero _)

/-- At the end of a body with passes left its counter falls, and issue goes back to its start (R185). -/
theorem next_body_again {rest : List (Nat × Nat × Nat)} (hl : q.loops = (k, start, q.pc) :: rest) (hk : 1 < q.lreg k) :
    q.next.pc = start ∧ q.next.lreg k = q.lreg k - 1 ∧ q.next.loops = q.loops := by
  have hpos : 0 < sget (fun _ => 0) q.lregs k - 1 := Nat.sub_pos_of_lt hk
  have he : loopNext q.pc q.lregs q.loops = (start, (k, start, q.pc) :: rest, sset (fun _ => 0) q.lregs k (q.lreg k - 1)) := by
    rw [hl, loopNext]
    simp [hpos, Seq.lreg]
  simp only [Seq.next, he, Seq.lreg]
  exact ⟨trivial, sget_sset_new hpos.ne', hl.symm⟩
/-- After the last pass of the only body its counter is zero, and issue goes on past it (R185). -/
theorem next_body_last (hl : q.loops = [(k, start, q.pc)]) (hk : q.lreg k = 1) (hw : swf (fun _ => 0) q.lregs = true) :
    q.next.pc = q.pc + 1 ∧ q.next.lreg k = 0 ∧ q.next.loops = [] := by
  have he : loopNext q.pc q.lregs q.loops = (q.pc + 1, [], sset (fun _ => 0) q.lregs k 0) := by
    rw [hl, loopNext]
    simp [show sget (fun _ => 0) q.lregs k = 1 from hk, loopNext]
  simp only [Seq.next, he, Seq.lreg]
  exact ⟨trivial, sget_sset_same hw, trivial⟩

/-! ### The end of a program -/

/-- A sequencer that has left RUN with an exit record (R170). -/
def Seq.left (q : Seq) (tide st status det index rows : Nat) : Seq :=
  { q with st := st, exit := { state := st, flags := q.exitFlags, st := status, det := det, index := index, rows := rows, issued := q.issuedHere,
                               tide := tide },
           exitLost := false, stopping := 0, hold := .none, fault := none, loops := [] }
theorem leave_eq {st status det index rows : Nat} (hst : st ≠ 0) (hm : (b.bay (bayOf c)).matchHolder ≠ some c) :
    b.leave c st status det index rows = b.setSeq c ((b.seq c).left b.tide st status det index rows) := by
  have hset := setSeq_becomes (b := b) (c := c) (q := (b.seq c).left b.tide st status det index rows) (Seq.ne_idle_of_st hst)
  show (b.setSeq c ((b.seq c).left b.tide st status det index rows)).releaseMatch c = _
  unfold Blk.releaseMatch
  rw [hset.bay, if_neg hm]
theorem leave_becomes {st status det index rows : Nat} (hst : st ≠ 0) (hm : (b.bay (bayOf c)).matchHolder ≠ some c) :
    b.SeqBecomes (b.leave c st status det index rows) c ((b.seq c).left b.tide st status det index rows) := by
  rw [leave_eq hst hm]
  exact setSeq_becomes (Seq.ne_idle_of_st hst)
/-- A hold that is none is given up without a trace. -/
theorem dropHold_none (h : (b.seq c).hold = .none) : b.dropHold c = b.setSeq c (b.seq c) := by
  have hq : ({ b.seq c with hold := .none } : Seq) = b.seq c := by rw [← h]
  unfold Blk.dropHold
  simp only [h, hq]
/-- A Cove with no instruction uncompleted starts none. -/
theorem startAll_idle (h : (b.seq c).inflight = []) : b.startAll c = b := by
  unfold Blk.startAll
  simp [h]
/-- With no instruction uncompleted and no match table held, what is left is the end of the program. -/
theorem kick_idle (h : (b.seq c).inflight = []) (hm : (b.bay (bayOf c)).matchHolder ≠ some c) : b.kick c = b.settle c := by
  unfold Blk.kick
  simp [startAll_idle h, hm]
section
variable (hst : (b.seq c).st = 1) (hfly : (b.seq c).inflight = [])
include hst hfly
theorem settle_fault {f : SeqFault} (hstop : (b.seq c).stopping ≠ 3) (hf : (b.seq c).fault = some f) :
    b.settle c = b.leave c 4 f.st f.det f.index f.rows := by
  unfold Blk.settle
  simp [hst, hfly, hstop, hf]
theorem settle_halt (hstop : (b.seq c).stopping = 1) (hf : (b.seq c).fault = none) : b.settle c = b.leave c 3 0 0 (b.seq c).haltIndex 0 := by
  unfold Blk.settle
  simp [hst, hfly, hstop, hf]
theorem settle_stop (hstop : (b.seq c).stopping = 2) (hf : (b.seq c).fault = none) : b.settle c = b.leave c 5 0 0 (b.seq c).pc 0 := by
  unfold Blk.settle
  simp [hst, hfly, hstop, hf]
end

section
variable (hissue : b.canIssue c = true) (hfly : (b.seq c).inflight = []) (hm : (b.bay (bayOf c)).matchHolder ≠ some c)
include hissue hfly hm

/-- HALT with nothing uncompleted ends the program at once (R170, R184). -/
theorem doHalt_becomes : b.SeqBecomes (b.doHalt c) c
    (({ (b.seq c).counted with stopping := 1, haltIndex := (b.seq c).pc } : Seq).left b.tide 3 stOK 0 (b.seq c).pc 0) := by
  obtain ⟨hst, -, -, hfault⟩ := canIssue_facts hissue
  have hset := issued_set_becomes (b := b) (c := c) (r := { (b.seq c).counted with stopping := 1, haltIndex := (b.seq c).pc }) (Nat.succ_ne_zero _)
  have he : b.doHalt c = ((b.issued c).setSeq c { (b.seq c).counted with stopping := 1, haltIndex := (b.seq c).pc }).kick c := by
    simp only [Blk.doHalt, issued_becomes.seq]
    rfl
  generalize (b.issued c).setSeq c { (b.seq c).counted with stopping := 1, haltIndex := (b.seq c).pc } = x at he hset
  have hmx : (x.bay (bayOf c)).matchHolder ≠ some c := by rw [hset.bay]; exact hm
  have hleave := hset.trans (leave_becomes (status := 0) (det := 0) (index := (b.seq c).pc) (rows := 0) (by decide : (3 : Nat) ≠ 0) hmx)
  rw [hset.seq, hset.tide] at hleave
  rw [he, kick_idle (by rw [hset.seq]; exact hfly) hmx,
    settle_halt (by rw [hset.seq]; exact hst) (by rw [hset.seq]; exact hfly) (by rw [hset.seq]) (by rw [hset.seq]; exact hfault), hset.seq]
  exact hleave

/-- The fault of a sequencer that comes to issue beyond its loaded count (R178). -/
def Seq.runoffFault (q : Seq) : SeqFault := { serial := q.nextSerial, st := stFORMAT, det := 0xD * 4096 + q.count, index := q.pc, rows := 0 }
/-- It ends the program at once when nothing is uncompleted. -/
theorem runoff_becomes (hpc : (b.seq c).count ≤ (b.seq c).pc) : b.SeqBecomes (b.runoff c) c
    (({ b.seq c with fault := some (b.seq c).runoffFault } : Seq).left b.tide 4 stFORMAT (0xD * 4096 + (b.seq c).count) (b.seq c).pc 0) := by
  obtain ⟨hst, hstop, hhold, hfault⟩ := canIssue_facts hissue
  have hkept := setSeq_becomes (b := b) (c := c) (canIssue_ne_idle hissue)
  have hset := hkept.trans (setSeq_becomes (c := c) (q := { b.seq c with fault := some (b.seq c).runoffFault })
    (Seq.ne_idle_of_st (by rw [hst]; decide)))
  have he : b.runoff c = ((b.setSeq c (b.seq c)).setSeq c { b.seq c with fault := some (b.seq c).runoffFault }).kick c := by
    unfold Blk.runoff Blk.addFault
    simp only [hissue, hpc, decide_true, Bool.and_self, if_true, dropHold_none hhold, hkept.seq, hfault]
    rfl
  generalize (b.setSeq c (b.seq c)).setSeq c { b.seq c with fault := some (b.seq c).runoffFault } = x at he hset
  have hmx : (x.bay (bayOf c)).matchHolder ≠ some c := by rw [hset.bay]; exact hm
  have hleave := hset.trans (leave_becomes (status := stFORMAT) (det := 0xD * 4096 + (b.seq c).count) (index := (b.seq c).pc) (rows := 0)
    (by decide : (4 : Nat) ≠ 0) hmx)
  rw [hset.seq, hset.tide] at hleave
  rw [he, kick_idle (by rw [hset.seq]; exact hfly) hmx,
    settle_fault (by rw [hset.seq]; exact hst) (by rw [hset.seq]; exact hfly) (by rw [hset.seq]; simp [hstop]) (by rw [hset.seq])]
  exact hleave
end

/-! ### O21 -/

/-- Settles O21: each instruction is an operation of the sequencer alone, and an end of the program the exit of one. -/
theorem controlInstructions : Obligations.ControlInstructions := by
  unfold Obligations.ControlInstructions
  intro s c q w
  refine ⟨fun h => ?_, fun h hf hn => ?_, fun h hf hn hl => ?_, fun k start rest h hl hk => ?_, fun k start h hl hk hw => ?_,
    fun hc hissue hpc hop hguard hfly => ?_, fun h hm => ?_, fun hc hissue hpc _ hfly hm => ?_⟩
  · exact does_of_becomes h rfl (doBr_becomes w) fun t honly hseq => by rw [hseq]; exact ⟨honly, rfl, rfl, rfl⟩
  · have hcount : loopCount q w = fld w 92 77 := by simp [loopCount, hf]
    exact does_of_becomes h rfl (doLoop_enters hcount hn (Nat.le_of_lt_succ (fld_lt w 92 77))) fun t honly hseq => by
      rw [hseq]
      exact ⟨honly, rfl, sget_sset_new hn, rfl, rfl, rfl⟩
  · have hcount : loopCount q w = 0 := by simpa [loopCount, hf] using hn
    exact does_of_becomes h rfl (doLoop_passes hcount hl) fun t honly hseq => by rw [hseq]; exact ⟨honly, rfl, rfl, rfl, rfl⟩
  · obtain ⟨hpc, hctr, hloops⟩ := next_body_again (q := q.counted) hl hk
    exact does_of_becomes h rfl doNop_becomes fun t honly hseq => by rw [hseq]; exact ⟨honly, hpc, hctr, hloops, rfl, rfl⟩
  · obtain ⟨hpc, hctr, hloops⟩ := next_body_last (q := q.counted) hl hk hw
    exact does_of_becomes h rfl doNop_becomes fun t honly hseq => by rw [hseq]; exact ⟨honly, hpc, hctr, hloops, rfl, rfl⟩
  · have hst : q.next.st = 1 := (canIssue_facts hissue).1
    have hskip := advance_becomes (b := s.blk) (c := c) (Seq.ne_idle_of_st (by rw [hst]; decide))
    refine does_of_updIf rfl (by simpa using hc) ?_
    rw [issueIf_eq _ hissue hpc hop hfly, if_neg (by rw [hguard]; decide)]
    exact ⟨hskip.seq, hskip.only⟩
  · obtain ⟨-, hissue, -, -, -, hfly⟩ := comes_facts h
    exact does_of_becomes h rfl (doHalt_becomes hissue hfly hm) fun t honly hseq => by
      rw [hseq]
      exact ⟨honly, rfl, rfl, rfl, rfl, rfl, rfl, rfl, rfl⟩
  · have hend := runoff_becomes hissue hfly hm hpc
    refine does_of_updIf rfl (by simpa using hc) ⟨hend.only, ?_⟩
    rw [hend.seq]
    exact ⟨rfl, rfl, rfl, rfl, rfl, rfl, rfl⟩

end Sys2Proof.Machine
end

section
/-! SUPPORT. SLD and SST: one aligned word of a Tidepool (R175, R179, R184). -/
namespace Sys2Proof.Machine

variable {b t u x : Blk} {c a n : Nat} {q : Seq} {v : List Byte}

/-! ### Operations on a Tidepool leave the sequencer alone -/

/-- Nothing changes but memory, the counters and one Cove, and that Cove's sequencer stays. -/
structure Blk.TidepoolWork (b t : Blk) (c : Nat) : Prop where
  frame : { b with cfg := t.cfg, mem := t.mem, coves := t.coves } = t
  others : b.covesBut t [c]
  seq : t.seq c = b.seq c

theorem Blk.TidepoolWork.refl : b.TidepoolWork b c := ⟨rfl, fun _ _ => rfl, rfl⟩
theorem Blk.TidepoolWork.trans (h : b.TidepoolWork t c) (g : t.TidepoolWork u c) : b.TidepoolWork u c :=
  ⟨by rw [← g.frame, ← h.frame], fun d hd => (g.others d hd).trans (h.others d hd), g.seq.trans h.seq⟩
theorem setCove_work {y : Cove} (hy : y.seq = b.seq c) (h : b.seq c ≠ {}) : b.TidepoolWork (b.setCove c y) c :=
  ⟨rfl, fun _ hd => cove_setCove_ne b y (by simpa using hd),
    (congrArg Cove.seq (cove_setCove_new b c y fun e => h (by rw [← hy, e]))).trans hy⟩
theorem ringTouch_work (w : Bool) : b.TidepoolWork (b.ringTouch c w a n) c := by
  obtain ⟨cfg, h⟩ := ringTouch_cfg (b := b) (a := a) (n := n) c w
  rw [h]
  exact ⟨rfl, fun _ _ => rfl, rfl⟩
theorem bankTouch_work (r : Nat) (h : b.seq c ≠ {}) : b.TidepoolWork (b.bankTouch c r a n) c := by
  unfold Blk.bankTouch
  split
  · exact .refl
  · exact setCove_work rfl h
/-- Setting inboxes one after another leaves a Cove's sequencer. -/
theorem foldl_inboxes_seq {α : Type} (f : Cove → α → Cove) (hf : ∀ y p, (f y p).seq = y.seq) (l : List α) (y : Cove) : (l.foldl f y).seq = y.seq := by
  induction l generalizing y with
  | nil => rfl
  | cons p l ih => rw [List.foldl_cons, ih, hf]
theorem inboxArrive_work (h : b.seq c ≠ {}) : b.TidepoolWork (b.inboxArrive c a n) c :=
  setCove_work (foldl_inboxes_seq (fun (x : Cove) (p : Nat × Inbox) => x.setInbox p.1 (p.2.arrive a n)) (fun _ _ => rfl) _ _) h
theorem grantLocal_work (h : b.seq c ≠ {}) : b.TidepoolWork (b.grantLocal c a n) c :=
  setCove_work (by exact foldl_inboxes_seq _ (fun _ _ => by split <;> rfl) _ _) h
theorem tpWrite_work (h : b.seq c ≠ {}) : b.TidepoolWork (b.tpWrite c a v) c := by
  have hring := ringTouch_work (b := b) (c := c) (a := a) (n := v.length) true
  unfold Blk.tpWrite Blk.tpWriteQuiet
  generalize b.ringTouch c true a v.length = x at hring
  split
  · exact hring
  · have hpoke : b.TidepoolWork (x.pokeN (tpAddr c a) v) c := hring.trans ⟨rfl, fun _ _ => rfl, rfl⟩
    have harrive := hpoke.trans (inboxArrive_work (a := a) (n := v.length) (by rw [hpoke.seq]; exact h))
    exact harrive.trans (grantLocal_work (by rw [harrive.seq]; exact h))
theorem tpTouchReads_work (r : Nat) (h : b.seq c ≠ {}) : b.TidepoolWork (b.tpTouchReads c r [(a, n)]) c :=
  (ringTouch_work false).trans (bankTouch_work r (by rw [(ringTouch_work false).seq]; exact h))

/-! ### Bytes -/

theorem peekN_of_mem (h : x.mem = b.mem) : x.peekN a n = b.peekN a n := by
  induction n generalizing a with
  | zero => rfl
  | succ n ih => rw [Blk.peekN, Blk.peekN, peek_congr h, ih]
theorem getElem_peekN {i : Nat} (hi : i < (b.peekN a n).length) : (b.peekN a n)[i] = b.peek (a + i) := by
  induction n generalizing a i with
  | zero => simp [Blk.peekN] at hi
  | succ n ih =>
    cases i with
    | zero => rfl
    | succ i =>
      have := ih (a := a + 1) (i := i) (by simpa [Blk.peekN] using hi)
      simpa [Blk.peekN, Nat.add_assoc, Nat.add_comm 1] using this
/-- Bytes written to a Tidepool read back. -/
theorem tpRead_tpWrite (h : Memory.wf b.mem) : (b.tpWrite c a v).tpRead c a v.length = v := by
  unfold Blk.tpRead
  refine List.ext_getElem (by simp) fun i hi hv => ?_
  rw [getElem_peekN, peek_tpWrite_in h (by omega) (by omega)]
  simp
theorem leNat_lt (l : List Byte) : leNat l < 256 ^ l.length := by
  induction l with
  | nil => simp [leNat]
  | cons y l ih =>
    have := y.isLt
    rw [leNat, List.length_cons, Nat.pow_succ]
    omega

/-! ### The two instructions -/

section
variable {w : Nat} (hfly : (b.seq c).inflight = []) (ha : xaddr w (b.seq c).sregs 85 64 = a) (hal : a % 8 = 0) (hend : a + 8 ≤ b.progEnd c)
include hfly ha hal hend

omit hfly in
/-- A load or store of a word that is aligned and within the program's region passes its check (R175). -/
theorem rangesOk_word (hop : wOpcode w = 0x07 ∨ wOpcode w = 0x08) : b.rangesOk c w (b.seq c).sregs = true := by
  rcases hop with h | h <;> simp [Blk.rangesOk, tileRanges, alignOk, farRange, h, ha, hal, hend]
theorem doSld_eq (hop : wOpcode w = 0x07) :
    b.doSld c w = (b.tpTouchReads c 10 [(a, 8)]).seqOp c fun q => q.setSreg (fld w 90 86) (b.tpNat c a 8) := by
  unfold Blk.doSld
  simp [Seq.extentHeld, hfly, ha, rangesOk_word ha hal hend (.inl hop)]
theorem doSst_eq (hop : wOpcode w = 0x08) :
    b.doSst c w = ((b.bankTouch c 10 a 8).tpWrite c a (leBytes 8 (sreg (b.seq c).sregs (fld w 90 86)))).seqOp c id := by
  unfold Blk.doSst
  simp [Seq.extentHeld, hfly, ha, rangesOk_word ha hal hend (.inr hop)]

variable (hrun : b.seq c ≠ {})
include hrun

/-- SLD sets its register to the word at its address, and memory stays. -/
theorem doSld_reads (hop : wOpcode w = 0x07) (hregs : swf (fun _ => 0) (b.seq c).sregs = true) :
    { b with cfg := (b.doSld c w).cfg, coves := (b.doSld c w).coves } = b.doSld c w ∧ ((b.doSld c w).seq c).pc = (b.seq c).next.pc ∧
    ((b.doSld c w).seq c).preds = (b.seq c).preds ∧ (∀ r, sreg ((b.doSld c w).seq c).sregs r =
      if r = fld w 90 86 ∧ r ≠ 0 then leNat (b.tpRead c a 8) else sreg (b.seq c).sregs r) ∧ ∀ d, d ≠ c → (b.doSld c w).cove d = b.cove d := by
  have hread := tpTouchReads_work (a := a) (n := 8) 10 hrun
  have hmem : (b.tpTouchReads c 10 [(a, 8)]).mem = b.mem := tpTouchReads_mem _ _
  have hvalue : b.tpNat c a 8 < 2 ^ 64 := by
    have := leNat_lt (b.tpRead c a 8)
    rwa [Blk.tpRead, peekN_length] at this
  rw [doSld_eq hfly ha hal hend hop]
  generalize b.tpTouchReads c 10 [(a, 8)] = x at hread hmem
  have hx : { b with cfg := x.cfg, coves := x.coves } = x := by
    have := hread.frame
    rwa [hmem] at this
  obtain ⟨⟨hframe, hothers, -⟩, hpc, hpreds, hsregs⟩ := seqOp_setSreg (b := x) (c := c) (k := fld w 90 86)
    (f := fun q => q.setSreg (fld w 90 86) (b.tpNat c a 8)) rfl (by rw [hread.seq]; exact hregs) hvalue
  rw [hread.seq] at hpc hpreds hsregs
  exact ⟨by rw [← hframe, ← hx], hpc, hpreds, hsregs, fun d hd => (hothers d hd).trans (hread.others d (by simpa using hd))⟩

/-- SST puts its register at its address, and no other byte changes. -/
theorem doSst_writes (hop : wOpcode w = 0x08) (hwf : Memory.wf b.mem) :
    (b.doSst c w).tpRead c a 8 = leBytes 8 (sreg (b.seq c).sregs (fld w 90 86)) ∧
    (∀ j, j < tpAddr c a ∨ tpAddr c a + 8 ≤ j → (b.doSst c w).peek j = b.peek j) ∧ (b.doSst c w).seq c = (b.seq c).did id ∧
    { b with cfg := (b.doSst c w).cfg, mem := (b.doSst c w).mem, coves := (b.doSst c w).coves } = b.doSst c w ∧
    ∀ d, d ≠ c → (b.doSst c w).cove d = b.cove d := by
  have hbank := bankTouch_work (a := a) (n := 8) 10 hrun
  rw [← bankTouch_mem (b := b) (c := c) (a := a) (n := 8) 10] at hwf
  have hpeek : ∀ j, (b.bankTouch c 10 a 8).peek j = b.peek j := fun j => peek_congr (bankTouch_mem _)
  rw [doSst_eq hfly ha hal hend hop]
  generalize hv : leBytes 8 (sreg (b.seq c).sregs (fld w 90 86)) = v
  have hlen : v.length = 8 := by rw [← hv, leBytes_length]
  generalize b.bankTouch c 10 a 8 = y at hbank hwf hpeek
  have hwrite := hbank.trans (tpWrite_work (a := a) (v := v) (by rw [hbank.seq]; exact hrun))
  have hin := tpRead_tpWrite (c := c) (a := a) (v := v) hwf
  have hout := fun j => peek_tpWrite_out (b := y) (c := c) (a := a) (j := j) (v := v)
  rw [hlen] at hin hout
  have hdid := seqOp_becomes (b := y.tpWrite c a v) (c := c) (f := id) rfl
  generalize y.tpWrite c a v = x at hwrite hin hout hdid
  rw [hwrite.seq] at hdid
  obtain ⟨hframe, hothers, -⟩ := hdid.only
  have hmem : (x.seqOp c id).mem = x.mem := by rw [← hframe]
  refine ⟨(peekN_of_mem hmem).trans hin, fun j hj => (peek_congr hmem).trans ((hout j hj).trans (hpeek j)), hdid.seq, ?_,
    fun d hd => (hothers d hd).trans (hwrite.others d (by simpa using hd))⟩
  rw [← hframe, ← hwrite.frame]
end

/-! ### O22 -/

/-- Settles O22: each instruction is its access to the Tidepool, and then an operation of the sequencer. -/
theorem tidepoolWordInstructions : Obligations.TidepoolWordInstructions := by
  unfold Obligations.TidepoolWordInstructions
  intro s c hcanon q w a hal hend
  refine ⟨fun h => ?_, fun h => ?_⟩
  · obtain ⟨-, hissue, -, hop, -, hfly⟩ := comes_facts h
    exact does_of_comes h rfl (doSld_reads hfly rfl hal hend (canIssue_ne_idle hissue) hop (canon_cove hcanon c).2)
  · obtain ⟨-, hissue, -, hop, -, hfly⟩ := comes_facts h
    exact does_of_comes h rfl (doSst_writes hfly rfl hal hend (canIssue_ne_idle hissue) hop hcanon.1)

end Sys2Proof.Machine
end

section
/-! SUPPORT. WAIT, DMAW, TWAIT and barriers (R192, R194). -/
namespace Sys2Proof.Machine

variable {b t x y : Blk} {c i scope bid k : Nat} {q : Seq}

/-! ### Waits that hold nothing -/

section
variable (hfly : (b.seq c).inflight = [])
include hfly
theorem doWait_becomes (w : Nat) : b.SeqBecomes (b.doWait c w) c ((b.seq c).did id) := by
  unfold Blk.doWait
  simp only [hfly, List.any_nil, Bool.false_eq_true, if_false]
  exact seqOp_becomes rfl
theorem doDmaw_becomes (w : Nat) : b.SeqBecomes (b.doDmaw c w) c ((b.seq c).did id) := by
  unfold Blk.doDmaw
  simp only [hfly, List.any_nil, Bool.false_eq_true, if_false]
  exact seqOp_becomes rfl
end

/-! ### Holds (R194) -/

/-- A sequencer that nothing holds any more. -/
def Seq.released (q : Seq) : Seq := { q with hold := .none }
theorem doTwait_becomes (w : Nat) : b.SeqBecomes (b.doTwait c w) c (if sreg (b.seq c).sregs (fld w 95 91) ≤ b.tide then (b.seq c).did id
    else { b.seq c with hold := .twait (sreg (b.seq c).sregs (fld w 95 91)) }) := by
  unfold Blk.doTwait
  simp only
  split
  · exact seqOp_becomes rfl
  · exact setSeq_becomes fun e => by simpa using congrArg Seq.hold e
/-- The end of a hold, where the released sequencer is listed: its instruction has issued. -/
theorem endHold_becomes (h : b.SeqBecomes (b.setSeq c (b.seq c).released) c (b.seq c).released) :
    b.SeqBecomes (b.endHold c) c ((b.seq c).released.did id) := by
  have hdid := seqOp_becomes (b := b.setSeq c (b.seq c).released) (c := c) (f := id) rfl
  rw [h.seq] at hdid
  exact h.trans hdid

/-! ### Barriers (R194) -/

theorem barrier_setBarrier_ne {j : Nat} (v : Barrier) (h : j ≠ k) : (b.setBarrier k v).barrier j = b.barrier j := sget_sset_ne h
theorem barrier_setBarrier_new {v : Barrier} (h : v ≠ {}) : (b.setBarrier k v).barrier k = v := sget_sset_new h
theorem barrier_congr (h : x.barriers = b.barriers) (k : Nat) : x.barrier k = b.barrier k := by unfold Blk.barrier; rw [h]
/-- A barrier at which one more Cove has arrived, of n. -/
def Barrier.arrive (v : Barrier) (c n : Nat) : Barrier := { v with k := n, arrived := v.arrived ++ [c], due := (v.arrived ++ [c]).length == n }
/-- BAR arrives at its scope's barrier and holds its Cove there. -/
theorem doBar_eq {w : Nat} (hk : fld w 89 77 ≤ (b.scopeOf c (fld w 95 94)).2)
    (hdue : (b.barrier (barKey (fld w 95 94) (b.scopeOf c (fld w 95 94)).1 (fld w 93 90))).due = false)
    (hsame : (b.barrier (barKey (fld w 95 94) (b.scopeOf c (fld w 95 94)).1 (fld w 93 90))).k = 0 ∨
      (b.barrier (barKey (fld w 95 94) (b.scopeOf c (fld w 95 94)).1 (fld w 93 90))).k = fld w 89 77) :
    b.doBar c w = (b.setBarrier (barKey (fld w 95 94) (b.scopeOf c (fld w 95 94)).1 (fld w 93 90))
      ((b.barrier (barKey (fld w 95 94) (b.scopeOf c (fld w 95 94)).1 (fld w 93 90))).arrive c (fld w 89 77))).setSeq c
        { b.seq c with hold := .bar (fld w 95 94) (b.scopeOf c (fld w 95 94)).1 (fld w 93 90) } := by
  unfold Blk.doBar
  simp only
  generalize b.barrier _ = v at hdue hsame ⊢
  rw [if_neg (Nat.not_lt.mpr hk), if_neg (by simp [hdue]), if_neg (by rcases hsame with h | h <;> simp [h])]
  rfl

/-- The holds of Coves end, one after another. -/
def Blk.released (b : Blk) (scope i bid : Nat) (l : List Nat) : Blk :=
  l.foldl (fun b c => if (b.seq c).hold = .bar scope i bid then b.endHold c else b) b
/-- In a map of Coves in canonical form, each of some Coves that hold at a barrier goes on, and no other Cove changes. -/
theorem released_facts {l : List Nat} (hb : swf (fun _ => ({} : Cove)) b.coves = true) (hl : l.Nodup)
    (hold : ∀ c ∈ l, (b.seq c).hold = .bar scope i bid) :
    { b with cfg := (b.released scope i bid l).cfg, coves := (b.released scope i bid l).coves } = b.released scope i bid l ∧
    (∀ c ∈ l, (b.released scope i bid l).seq c = (b.seq c).released.did id) ∧ ∀ c, c ∉ l → (b.released scope i bid l).cove c = b.cove c := by
  induction l generalizing b with
  | nil => exact ⟨rfl, by simp, fun _ _ => rfl⟩
  | cons d l ih =>
    obtain ⟨hd, hl⟩ := List.nodup_cons.mp hl
    have hend := endHold_becomes (setSeq_becomes_of_swf (c := d) (q := (b.seq d).released) hb)
    have hwf : swf (fun _ => ({} : Cove)) (b.endHold d).coves = true := swf_sset (swf_sset (swf_sset (swf_sset hb)))
    have he : b.released scope i bid (d :: l) = (b.endHold d).released scope i bid l := by
      unfold Blk.released
      rw [List.foldl_cons, if_pos (hold d (by simp))]
    obtain ⟨hframe, hothers, -⟩ := hend.only
    have hseq : ∀ c, c ≠ d → (b.endHold d).seq c = b.seq c := fun c hc => congrArg Cove.seq (hothers c hc)
    obtain ⟨iframe, iin, iout⟩ := ih hwf hl fun c hc => by
      rw [hseq c (fun e => hd (e ▸ hc))]; exact hold c (by simp [hc])
    rw [he]
    refine ⟨by rw [← iframe, ← hframe], fun c hc => ?_, fun c hc => ?_⟩
    · rcases List.mem_cons.mp hc with rfl | hc
      · exact (congrArg Cove.seq (iout c hd)).trans hend.seq
      · rw [iin c hc, hseq c (fun e => hd (e ▸ hc))]
    · rw [List.mem_cons, not_or] at hc
      rw [iout c hc.2, hothers c hc.1]

/-! ### What of O23 holds -/

section
variable {s : State}

/-- WAIT and DMAW issue at once. -/
theorem does_wait (h : s.blk.comes c 0x81 = true) : s.does (.wait c) fun t => t.seq c = (s.blk.seq c).did id ∧ s.blk.seqOnly t c := by
  obtain ⟨-, -, -, -, -, hfly⟩ := comes_facts h
  exact does_of_becomes h rfl (doWait_becomes hfly _) fun t honly hseq => ⟨hseq, honly⟩
theorem does_dmaw (h : s.blk.comes c 0x61 = true) : s.does (.dmaw c) fun t => t.seq c = (s.blk.seq c).did id ∧ s.blk.seqOnly t c := by
  obtain ⟨-, -, -, -, -, hfly⟩ := comes_facts h
  exact does_of_becomes h rfl (doDmaw_becomes hfly _) fun t honly hseq => ⟨hseq, honly⟩
/-- TWAIT issues, or holds until its value is reached. -/
theorem does_twait (h : s.blk.comes c 0x82 = true) :
    let q := s.blk.seq c
    let v := sreg q.sregs (fld q.word 95 91)
    s.does (.twait c) fun t => s.blk.seqOnly t c ∧ t.seq c = if v ≤ s.blk.tide then q.did id else { q with hold := .twait v } :=
  does_of_becomes h rfl (doTwait_becomes _) fun _ honly hseq => ⟨honly, hseq⟩
/-- A TWAIT that holds issues at its value. -/
theorem does_twaitRelease {v : Nat} (hc : c < nCoves) (hst : (s.blk.seq c).st = 1) (hhold : (s.blk.seq c).hold = .twait v) :
    s.does (.twaitRelease c) fun t => t.tide = max s.blk.tide v ∧ t.seq c = (s.blk.seq c).released.did id ∧ s.blk.covesBut t [c] ∧
      { s.blk with tide := t.tide, cfg := t.cfg, coves := t.coves } = t := by
  have hend := endHold_becomes (b := { s.blk with tide := max s.blk.tide v }) (c := c)
    (setSeq_becomes (Seq.ne_idle_of_st (by show (s.blk.seq c).st ≠ 0; rw [hst]; decide)))
  have he : s.blk.twaitRelease c = ({ s.blk with tide := max s.blk.tide v } : Blk).endHold c := by
    simp only [Blk.twaitRelease, hhold, hst, if_true]
  refine does_of_updIf rfl (by simpa using hc) ?_
  rw [he]
  obtain ⟨hframe, hothers, -⟩ := hend.only
  exact ⟨hend.tide, hend.seq, fun d hd => hothers d (by simpa using hd), by rw [← hframe]⟩
/-- BAR holds its Cove in its scope's barrier. -/
theorem does_bar (h : s.blk.comes c 0x80 = true) :
    let w := (s.blk.seq c).word
    let r := s.blk.scopeOf c (fld w 95 94)
    let key := barKey (fld w 95 94) r.1 (fld w 93 90)
    let x := s.blk.barrier key
    fld w 89 77 ≤ r.2 → x.due = false → (x.k = 0 ∨ x.k = fld w 89 77) →
    s.does (.bar c) fun t => t.seq c = { s.blk.seq c with hold := .bar (fld w 95 94) r.1 (fld w 93 90) } ∧
      t.barrier key = x.arrive c (fld w 89 77) ∧ (∀ k, k ≠ key → t.barrier k = s.blk.barrier k) ∧ s.blk.covesBut t [c] ∧
      { s.blk with coves := t.coves, barriers := t.barriers } = t := by
  intro w r key x hk hdue hsame
  have hset := setSeq_becomes (b := s.blk.setBarrier key (x.arrive c (fld w 89 77))) (c := c)
    (q := { s.blk.seq c with hold := .bar (fld w 95 94) r.1 (fld w 93 90) }) (fun e => by simpa using congrArg Seq.hold e)
  obtain ⟨-, hothers, -⟩ := hset.only
  refine does_of_comes h rfl ?_
  rw [doBar_eq hk hdue hsame]
  refine ⟨hset.seq, ?_, fun k hk => ?_, fun d hd => hothers d (by simpa using hd), rfl⟩
  · exact barrier_setBarrier_new (b := s.blk) fun e => by simpa [Barrier.arrive] using congrArg Barrier.arrived e
  · exact barrier_setBarrier_ne (b := s.blk) _ hk
end
/-- The clause of O23 on a release, where the map of Coves is in canonical form. -/
theorem barRelease_releases (s : State) (hs : scope < 3) (hi : i < 256) (hbid : bid < 16) (hb : swf (fun _ => ({} : Cove)) s.blk.coves = true)
    (hdue : (s.blk.barrier (barKey scope i bid)).due = true) (hl : (s.blk.barrier (barKey scope i bid)).arrived.Nodup)
    (hold : ∀ c ∈ (s.blk.barrier (barKey scope i bid)).arrived, (s.blk.seq c).hold = .bar scope i bid) :
    s.does (.barRelease scope i bid) fun t => t.barrier (barKey scope i bid) = { gen := (s.blk.barrier (barKey scope i bid)).gen + 1 } ∧
      (∀ k, k ≠ barKey scope i bid → t.barrier k = s.blk.barrier k) ∧ { s.blk with cfg := t.cfg, coves := t.coves, barriers := t.barriers } = t ∧
      (∀ c ∈ (s.blk.barrier (barKey scope i bid)).arrived, t.seq c = ({ s.blk.seq c with hold := .none } : Seq).did id) ∧
      ∀ c, c ∉ (s.blk.barrier (barKey scope i bid)).arrived → t.cove c = s.blk.cove c := by
  obtain ⟨hframe, hin, hout⟩ := released_facts hb hl hold
  have he : s.blk.barRelease scope i bid = (s.blk.released scope i bid (s.blk.barrier (barKey scope i bid)).arrived).setBarrier (barKey scope i bid)
      { gen := (s.blk.barrier (barKey scope i bid)).gen + 1 } := by
    unfold Blk.barRelease
    simp only [hdue, Bool.not_true, Bool.false_eq_true, if_false]
    rfl
  refine does_of_updIf rfl (by simp [hs, hi, hbid]) ?_
  rw [he]
  generalize s.blk.released scope i bid _ = x at hframe hin hout
  refine ⟨barrier_setBarrier_new fun e => by simpa using congrArg Barrier.gen e, fun k hk => ?_, ?_, hin, hout⟩
  · rw [barrier_setBarrier_ne _ hk, barrier_congr (b := s.blk) (by rw [← hframe])]
  · rw [← hframe]
    rfl

/-! ### What of O23 fails -/

/-- A machine whose map of Coves lists Cove 0 twice: first held at barrier 0 of its Bay and idle otherwise, then at instruction 5. Its barrier is due. -/
def coveTwice : State where
  blk := { State.reset.blk with
    coves := [(0, { seq := { hold := .bar 0 0 0 } }), (0, { seq := { pc := 5 } })], barriers := [(barKey 0 0 0, { k := 1, arrived := [0], due := true })] }
  pending := []

/-- With its hold given up the first entry is no longer listed, and the Cove goes on from the other one. -/
theorem coveTwice_released : ((coveTwice.blk.barRelease 0 0 0).seq 0).pc = 6 := by decide +kernel

/-! ### O23 -/

/-- Refutes O23: a release gives up the hold of each Cove that arrived, but the clause does not ask for a map of Coves in canonical form, and of
a Cove listed twice the release drops a first entry that is idle but for its hold. -/
theorem not_waitingInstructions : ¬ Obligations.WaitingInstructions := by
  unfold Obligations.WaitingInstructions
  rintro ⟨-, hrelease⟩
  have hrow : ∀ s : State, exec (.barRelease 0 0 0) s = s.updIf true fun b => b.barRelease 0 0 0 := fun _ => rfl
  obtain ⟨-, -, -, hgoes, -⟩ := updated_of_does (hrow _) (hrelease coveTwice 0 0 0 (by decide) (by decide) (by decide)
    (by decide) (by decide) (by decide))
  have hpc := congrArg Seq.pc (hgoes 0 (by decide))
  rw [coveTwice_released] at hpc
  exact absurd hpc (by decide)

end Sys2Proof.Machine
end

section
/-! SUPPORT. Loading and starting programs (R52, R56, R167 to R169, R493). -/
namespace Sys2Proof.Machine

variable {b x y : Blk} {m : Msg} {c : Cmd} {f n d : Nat}

/-! ### Sequencers set one after another -/

/-- The sequencers of Coves set, each from what it was. -/
def Blk.seqsSet (b : Blk) (g : Nat → Seq → Seq) (l : List Nat) : Blk := l.foldl (fun b v => b.setSeq v (g v (b.seq v))) b

section
variable {g : Nat → Seq → Seq} {l : List Nat}
theorem seqsSet_eq : { x with coves := (x.seqsSet g l).coves } = x.seqsSet g l := by
  unfold Blk.seqsSet
  induction l generalizing x with
  | nil => rfl
  | cons v l ih => rw [List.foldl_cons, ← ih]; rfl
theorem seqsSet_cove_out (h : d ∉ l) : (x.seqsSet g l).cove d = x.cove d := by
  unfold Blk.seqsSet
  induction l generalizing x with
  | nil => rfl
  | cons v l ih =>
    rw [List.mem_cons, not_or] at h
    rw [List.foldl_cons, ih h.2, Blk.setSeq, cove_setCove_ne _ _ h.1]
theorem seqsSet_cove_in (h : d ∈ l) (hl : l.Nodup) (hg : g d (x.seq d) ≠ {}) : (x.seqsSet g l).cove d = { x.cove d with seq := g d (x.seq d) } := by
  induction l generalizing x with
  | nil => simp at h
  | cons v l ih =>
    rw [List.nodup_cons] at hl
    show ((x.setSeq v (g v (x.seq v))).seqsSet g l).cove d = _
    by_cases e : d = v
    · subst e
      rw [seqsSet_cove_out hl.1, Blk.setSeq, cove_setCove_new _ _ _ fun e => hg (congrArg Cove.seq e)]
    · have hcove : (x.setSeq v (g v (x.seq v))).cove d = x.cove d := cove_setCove_ne _ _ e
      have hseq : (x.setSeq v (g v (x.seq v))).seq d = x.seq d := congrArg Cove.seq hcove
      rw [ih ((List.mem_cons.mp h).resolve_left e) hl.2 (by rw [hseq]; exact hg), hcove, hseq]
end

/-! ### The Coves of a command (R52, R56, R455, R469, R487) -/

theorem coveSet_eq (hf : f < 4096) (hn : f + n ≤ 4096) : coveSet (f + n * 2 ^ 16) = some (f, n) := by
  have h1 : fld (f + n * 2 ^ 16) 11 0 = f := by
    simp only [fld, Nat.shiftRight_eq_div_pow]
    omega
  have h2 : fld (f + n * 2 ^ 16) 28 16 = n := by
    simp only [fld, Nat.shiftRight_eq_div_pow]
    omega
  unfold coveSet
  simp only [h1, h2]
  rw [if_neg (by simp; omega)]
/-- What a message's free Coves are. -/
structure Blk.FreeCoves (x : Blk) (m : Msg) (f n : Nat) : Prop where
  set : coveSet m.param = some (f, n)
  pos : 0 < n
  ok : x.covesOk m.partition (setCoves (f, n)) = true
  scrub : (setCoves (f, n)).any x.coveScrub = false
  ready : x.covesReady (setCoves (f, n)) = none
  serving : x.servingBars (setCoves (f, n)) false = false
  runs : (setCoves (f, n)).any x.runs = false
  awake : ((none :: (List.range nParts).map some).all fun k => !x.slackAt k) = true

theorem freeCoves_of (h : x.covesFree m f n = true) : x.FreeCoves m f n := by
  simp only [Blk.covesFree, Bool.and_eq_true, beq_iff_eq, decide_eq_true_eq, Bool.not_eq_true', Option.isNone_iff_eq_none] at h
  obtain ⟨⟨⟨⟨⟨⟨⟨⟨⟨hp, hsum⟩, hf⟩, h0⟩, hok⟩, hscrub⟩, hready⟩, hserv⟩, hruns⟩, hawake⟩ := h
  exact ⟨by rw [hp, coveSet_eq hf hsum], h0, hok, hscrub, hready, hserv, hruns, hawake⟩
/-- Whether Coves are free is no matter of the host side. -/
theorem covesFree_congr (h : x.SameButHost y) : y.covesFree = x.covesFree := by rw [← h.eq]; rfl
/-- A command that may use its Coves acts on them. -/
theorem withCoves_ready {go : List Nat → Blk} {s : Nat × Nat} (hs : coveSet c.m.param = some s) (hok : x.covesOk c.m.partition (setCoves s) = true)
    (hscrub : (setCoves s).any x.coveScrub = false) (hready : x.covesReady (setCoves s) = none) : x.withCoves c go = go (setCoves s) := by
  unfold Blk.withCoves
  simp [hs, show x.covesOk c.part (setCoves s) = true from hok, hscrub, hready]
/-- With no scope in SLACK no Cove is woken. -/
theorem wakeCoves_awake (h : ((none :: (List.range nParts).map some).all fun k => !x.slackAt k) = true) (cs : List Nat) : x.wakeCoves cs = x := by
  have hnone : ((none :: (List.range nParts).map some).filter fun k => cs.any fun c => x.partOfCove c == k).filter x.slackAt = [] := by
    rw [List.filter_eq_nil_iff]
    intro k hk
    simpa using List.all_eq_true.mp h k (List.mem_of_mem_filter hk)
  simp only [Blk.wakeCoves, Blk.wakeParts, hnone]
/-- A serving engine that bars no start bars no load (R321). -/
theorem servingBars_load {cs : List Nat} (h : x.servingBars cs false = false) : x.servingBars cs true = false := by
  unfold Blk.servingBars at h ⊢
  rw [List.any_eq_false] at h ⊢
  intro v hv
  have hv := h v hv
  cases e : x.partOfCove v with
  | none => simp
  | some p =>
    simp only [e, Bool.not_false, Bool.and_true, Bool.or_eq_true, beq_iff_eq, not_or] at hv
    simp [hv.1]

/-! ### A command of programs, accepted -/

/-- The commands of programs are not measured by their opcode alone (R493). -/
theorem measureCmd_program (hop : m.opcode = 0x0200 ∨ m.opcode = 0x0201 ∨ m.opcode = 0x0202) : x.measureCmd m = x := by
  unfold Blk.measureCmd
  simp only [Bool.or_eq_true, decide_eq_true_eq]
  rw [if_neg (by omega), if_neg (by omega)]
/-- A command of kind D, accepted after its effect, that ends in ST_OK as it starts. -/
theorem command_accept_ends {pay : List Byte} (h : b.takes m = true) (hk : dKind m.opcode = true) (hop : m.opcode ≠ 1)
    (hmeas : y.measureCmd m = y) (hy : y.host = (b.entered m).host) (hs : y.still = true) (hl : y.logged m.ctx m.seq = false)
    (hr : (b.entered m).runOp (b.asCmd m) = (y.accept (b.asCmd m)).finish (b.accepted m) stOK 0 pay) :
    (b.command m).answered m stOK 0 pay ∧ y.SameButHost (b.command m) ∧ b.hostFor (b.command m) m := by
  have hacc : y.SameButHost (y.accept (b.asCmd m)) := by
    have := accept_sameButHost (x := y) (c := b.asCmd m) (pay := []) rfl
    rwa [show y.measureCmd (b.asCmd m).m = y from hmeas] at this
  obtain ⟨-, hans, hend, hbut, -⟩ := command_ends_D h hk hop hr (accept_cmds_of_host hy) (accept_open_of_host hy h)
    (by rw [hacc.still]; exact hs) (by rw [logged_congr hacc.spans]; exact hl)
  exact ⟨hans, hacc.trans hend, (accept_hostBut_of_host hy).trans hbut⟩

/-! ### CMD_PROG_LOAD -/

/-- The machine with the images that Coves hold in their Tidepools loaded. -/
def Blk.loaded (b : Blk) (addr k : Nat) (l : List Nat) : Blk := b.seqsSet (fun v q => q.load (b.imageOf v addr k)) l
theorem imageOf_of_mem (h : x.mem = b.mem) (v addr k : Nat) : x.imageOf v addr k = b.imageOf v addr k :=
  congrArg (imageWords k) (peekN_of_mem h)
/-- A load changes no image that is still to be loaded. -/
theorem foldl_load_eq {addr k : Nat} (l : List Nat) :
    l.foldl (fun b v => b.setSeq v ((b.seq v).load (b.imageOf v addr k))) b = b.loaded addr k l := by
  suffices H : ∀ x : Blk, x.mem = b.mem →
      l.foldl (fun b v => b.setSeq v ((b.seq v).load (b.imageOf v addr k))) x = x.seqsSet (fun v q => q.load (b.imageOf v addr k)) l from H b rfl
  induction l with
  | nil => exact fun _ _ => rfl
  | cons v l ih =>
    intro x hx
    rw [List.foldl_cons, imageOf_of_mem hx]
    exact ih _ hx
theorem imageWords_length (k : Nat) (v : List Byte) : (imageWords k v).length = k := by
  induction k generalizing v with
  | zero => rfl
  | succ k ih => simp [imageWords, ih]
theorem loaded_eq {addr k : Nat} {l : List Nat} : { x with coves := (x.loaded addr k l).coves } = x.loaded addr k l := seqsSet_eq
/-- A loaded Cove holds its image, and is IDLE. -/
theorem loaded_cove_in {addr k : Nat} {l : List Nat} (hk : 0 < k) (h : d ∈ l) (hl : l.Nodup) :
    (x.loaded addr k l).cove d = { x.cove d with seq := { x.seq d with
      prog := ssetRun (fun _ => 0) (x.seq d).prog 0 (x.imageOf d addr k), count := k, st := 0 } } := by
  have hload : (x.seq d).load (x.imageOf d addr k) = { x.seq d with
      prog := ssetRun (fun _ => 0) (x.seq d).prog 0 (x.imageOf d addr k), count := k, st := 0 } := by
    simp [Seq.load, Blk.imageOf, imageWords_length]
  rw [← hload]
  exact seqsSet_cove_in h hl (by rw [hload]; exact fun e => hk.ne' (congrArg Seq.count e))

/-- Only measurements of partitions change. -/
structure Blk.Measures (b t : Blk) : Prop where
  frame : { b with parts := t.parts } = t
  pm : ∀ q, { b.part q with pm := (t.part q).pm } = t.part q
theorem extendPm_measures (p : Nat) (v : List Byte) : b.Measures (b.extendPm p m v) := by
  refine ⟨(extendPm_eq p v).symm, fun q => ?_⟩
  unfold Blk.extendPm
  split
  · next h =>
    have hst : (b.part p).st ≠ 0 := by simp at h; exact h.2
    by_cases e : q = p
    · subst e
      have hread := part_setPart_new b q { b.part q with pm := measureStep (b.part q).pm m (m.payload ++ v) m.plen } fun e => hst (congrArg Part.st e)
      rw [hread]
    · rw [part_setPart_ne _ _ e]
  · rfl
/-- A load extends measurements of partitions, and nothing else (R493). -/
theorem measureLoad_measures (cs : List Nat) (v : List Byte) : b.Measures (b.measureLoad c cs v) := by
  unfold Blk.measureLoad
  split
  · exact ⟨rfl, fun _ => rfl⟩
  · generalize (List.range nParts).filter _ = l
    induction l generalizing b with
    | nil => exact ⟨rfl, fun _ => rfl⟩
    | cons p l ih =>
      obtain ⟨hframe, hpm⟩ := extendPm_measures (b := b) (m := c.m) p v
      obtain ⟨iframe, ipm⟩ := ih (b := b.extendPm p c.m v)
      exact ⟨by rw [List.foldl_cons, ← iframe, ← hframe], fun q => by rw [List.foldl_cons, ← ipm q, ← hpm q]⟩

/-- The machine with a message's images loaded and measured, before the command is accepted. -/
def Blk.progLoaded (b : Blk) (m : Msg) (addr k f n : Nat) : Blk :=
  ((b.entered m).loaded addr k (setCoves (f, n))).measureLoad (b.asCmd m) (setCoves (f, n))
    ((setCoves (f, n)).flatMap fun v => (b.entered m).tpRead v addr (16 * k))

section
variable {addr k : Nat} (hfree : b.covesFree m f n = true)

theorem progLoaded_measures : ((b.entered m).loaded addr k (setCoves (f, n))).Measures (b.progLoaded m addr k f n) := measureLoad_measures _ _
theorem progLoaded_eq : { b with coves := (b.progLoaded m addr k f n).coves, parts := (b.progLoaded m addr k f n).parts, host := (b.entered m).host } =
    b.progLoaded m addr k f n := by
  rw [← progLoaded_measures.frame, ← loaded_eq, ← entered_host]
theorem progLoaded_cove : (b.progLoaded m addr k f n).cove d = ((b.entered m).loaded addr k (setCoves (f, n))).cove d := by
  rw [← progLoaded_measures.frame]
  rfl
theorem progLoaded_cove_in (hk : 0 < k) (hd : f ≤ d ∧ d < f + n) : (b.progLoaded m addr k f n).cove d = { b.cove d with seq := { b.seq d with
    prog := ssetRun (fun _ => 0) (b.seq d).prog 0 (b.imageOf d addr k), count := k, st := 0 } } := by
  rw [progLoaded_cove, loaded_cove_in hk (mem_setCoves.mpr hd) (nodup_setCoves _), entered_cove, entered_seq, imageOf_of_mem (b := b) (by simp)]
theorem progLoaded_cove_out (hd : d < f ∨ f + n ≤ d) : (b.progLoaded m addr k f n).cove d = b.cove d := by
  rw [progLoaded_cove, ← entered_cove (b := b) (m := m)]
  exact seqsSet_cove_out fun h => by have := mem_setCoves.mp h; omega
theorem progLoaded_pm (q : Nat) : { b.part q with pm := ((b.progLoaded m addr k f n).part q).pm } = (b.progLoaded m addr k f n).part q := by
  have := (progLoaded_measures (b := b) (m := m) (addr := addr) (k := k) (f := f) (n := n)).pm q
  rwa [show ((b.entered m).loaded addr k (setCoves (f, n))).part q = b.part q by rw [← loaded_eq]; exact entered_part] at this

variable (h : b.takes m = true) (hop : m.opcode = 0x0200) (hal : leAt m.payload 0 8 % 16 = 0) (h0 : 0 < leAt m.payload 8 8)
  (h1 : leAt m.payload 8 8 ≤ 1024) (hend : leAt m.payload 0 8 + 16 * leAt m.payload 8 8 ≤ tpSize) (hlt : leAt m.payload 0 8 < 2 ^ 22)
  (hvalid : ∀ v, f ≤ v → v < f + n → imageFault (b.imageOf v (leAt m.payload 0 8) (leAt m.payload 8 8)) = none)
include hfree hop hal h0 h1 hend hlt hvalid

theorem runOp_progLoad : (b.entered m).runOp (b.asCmd m) =
    ((b.progLoaded m (leAt m.payload 0 8) (leAt m.payload 8 8) f n).accept (b.asCmd m)).finish (b.accepted m) stOK 0 [] := by
  have hx : (b.entered m).FreeCoves m f n := freeCoves_of (by rw [covesFree_congr entered_sameButHost]; exact hfree)
  have himages : (setCoves (f, n)).findSome? (fun v => imageFault ((b.entered m).imageOf v (leAt m.payload 0 8) (leAt m.payload 8 8))) = none := by
    rw [List.findSome?_eq_none_iff]
    intro v hv
    obtain ⟨hv0, hv1⟩ := mem_setCoves.mp hv
    rw [imageOf_of_mem (b := b) (by simp)]
    exact hvalid v hv0 hv1
  rw [runOp_eq (op := 0x0200) hop rfl]
  show (b.entered m).doProgLoad (b.asCmd m) = _
  unfold Blk.doProgLoad
  rw [withCoves_ready (c := b.asCmd m) hx.set hx.ok hx.scrub hx.ready]
  simp only [show (b.asCmd m).m = m from rfl]
  rw [if_neg (by rw [hal]; simpa using hlt), if_neg (by omega), if_neg (by omega), if_neg (by rw [servingBars_load hx.serving, hx.runs]; decide),
    wakeCoves_awake hx.awake, if_neg h0.ne', himages]
  simp only [foldl_load_eq]
  rfl
include h
theorem command_progLoad : (b.command m).answered m stOK 0 [] ∧
    (b.progLoaded m (leAt m.payload 0 8) (leAt m.payload 8 8) f n).SameButHost (b.command m) ∧ b.hostFor (b.command m) m := by
  obtain ⟨-, hstill, hlog, -⟩ := takes_facts h
  exact command_accept_ends h (by rw [hop]; rfl) (by omega) (measureCmd_program (.inl hop)) (by rw [← progLoaded_eq])
    (by rw [← progLoaded_eq]; exact hstill) (by rw [logged_congr (b := b) (by rw [← progLoaded_eq])]; exact hlog)
    (runOp_progLoad hfree hop hal h0 h1 hend hlt hvalid)
end

/-! ### CMD_PROG_START -/

/-- The start instant of a program: a free one within 5 µs (R169). -/
def Blk.startAt (b : Blk) : Nat := b.tide + (b.freeVal 0x169).1 % 5001
/-- The machine with a message entered and the free value of its start taken. -/
def Blk.startDrawn (b : Blk) (m : Msg) : Blk := { b.entered m with free := b.free + 1 }
/-- A message's command with its start instant, accepted. -/
def Blk.startAccepted (b : Blk) (m : Msg) : Cmd := { b.accepted m with vars := [b.startAt] }

section
variable (hfree : b.covesFree m f n = true) (hop : m.opcode = 0x0201) (hentry : leAt m.payload 0 8 < 1024)
  (hmask0 : tbit (leAt m.payload 8 8) 0 = false) (hmask : leAt m.payload 8 8 < 2 ^ 32)
  (hcount : ∀ v, f ≤ v → v < f + n → leAt m.payload 0 8 < (b.seq v).count)
include hfree hop hentry hmask0 hmask hcount

theorem runOp_progStart (hcls : m.cls = 0) :
    (b.entered m).runOp (b.asCmd m) = (b.startDrawn m).accept { b.asCmd m with vars := [b.startAt] } := by
  have hx : (b.entered m).FreeCoves m f n := freeCoves_of (by rw [covesFree_congr entered_sameButHost]; exact hfree)
  have hne : (setCoves (f, n)).isEmpty = false := by
    rw [List.isEmpty_eq_false_iff]
    exact List.ne_nil_of_mem (mem_setCoves.mpr ⟨Nat.le_refl f, Nat.lt_add_of_pos_right hx.pos⟩)
  have hcounts : ((setCoves (f, n)).any fun v => decide (((b.entered m).seq v).count ≤ leAt m.payload 0 8)) = false := by
    rw [List.any_eq_false]
    intro v hv
    obtain ⟨hv0, hv1⟩ := mem_setCoves.mp hv
    rw [entered_seq, decide_eq_true_eq, Nat.not_le]
    exact hcount v hv0 hv1
  have hclaimed : (setCoves (f, n)).any (b.entered m).claimed = false := by
    rw [List.any_eq_false]
    intro v _
    simp [Blk.claimed, Blk.asCmd]
  rw [runOp_eq (op := 0x0201) hop rfl]
  show (b.entered m).doProgStart (b.asCmd m) = _
  unfold Blk.doProgStart
  rw [withCoves_ready (c := b.asCmd m) hx.set hx.ok hx.scrub hx.ready]
  simp only [show (b.asCmd m).m = m from rfl]
  rw [if_neg (by omega), if_neg (by simp [hmask0]; omega), if_neg (by rw [hne]; decide), if_neg (by rw [hx.serving]; decide),
    if_neg (by rw [hcounts]; decide), if_neg (by rw [hx.runs, hclaimed]; decide), if_neg (by simp [hcls])]
  rw [wakeCoves_awake (by exact hx.awake)]
  simp only [Blk.freeVal, Blk.startDrawn, Blk.startAt, entered_fields]
end

/-- A message that the device takes at once is of class NONE. -/
theorem takes_cls (h : b.takes m = true) : m.cls = 0 := by
  simp only [Blk.takes, msgPlain, Bool.and_eq_true, beq_iff_eq] at h
  obtain ⟨⟨⟨⟨⟨⟨⟨⟨⟨⟨⟨⟨⟨⟨⟨⟨⟨⟨-, -⟩, hcls⟩, -⟩, -⟩, -⟩, -⟩, -⟩, -⟩, -⟩, -⟩, -⟩, -⟩, -⟩, -⟩, -⟩, -⟩, -⟩, -⟩ := h
  exact hcls
/-- The start is accepted and waits for its instant. -/
theorem command_progStart (h : b.takes m = true) (hop : m.opcode = 0x0201)
    (hr : (b.entered m).runOp (b.asCmd m) = (b.startDrawn m).accept { b.asCmd m with vars := [b.startAt] }) :
    (b.command m).host.cmds = [b.startAccepted m] ∧ ({ b with free := b.free + 1 } : Blk).SameButHost (b.command m) ∧ b.hostFor (b.command m) m := by
  obtain ⟨-, hstill, -⟩ := takes_facts h
  have hcmds : ((b.startDrawn m).accept { b.asCmd m with vars := [b.startAt] }).host.cmds = [b.startAccepted m] := by
    rw [(accept_sends rfl).cmds]
    simp [Blk.setCmd, measureCmd_program, hop, Blk.startDrawn, Blk.startAccepted, Blk.accepted, Blk.asCmd, Cmd.ctx, Cmd.seq]
  have hsame : ({ b with free := b.free + 1 } : Blk).SameButHost ((b.startDrawn m).accept { b.asCmd m with vars := [b.startAt] }) := by
    have hdrawn : ({ b with free := b.free + 1 } : Blk).SameButHost (b.startDrawn m) := ⟨by unfold Blk.startDrawn; rw [← entered_host]⟩
    have hacc := accept_sameButHost (x := b.startDrawn m) (c := { b.asCmd m with vars := [b.startAt] }) (pay := []) rfl
    rw [show (b.startDrawn m).measureCmd ({ b.asCmd m with vars := [b.startAt] } : Cmd).m = b.startDrawn m from
      measureCmd_program (.inr (.inl hop))] at hacc
    exact hdrawn.trans hacc
  rw [command_waits h hr (by simp [Blk.noneReady, hcmds, Blk.startAccepted, Blk.accepted]) (by rw [hsame.still]; exact hstill)]
  exact ⟨hcmds, hsame, entered_hostBut.trans ((hostBut_of_host rfl).trans (accept_hostBut (c := { b.asCmd m with vars := [b.startAt] }) rfl))⟩

/-! ### O11 -/

/-- Settles O11: both commands pass their checks; a load ends as it runs, and a start waits for its instant. -/
theorem programsLoadAndStart : Obligations.ProgramsLoadAndStart := by
  unfold Obligations.ProgramsLoadAndStart
  refine ⟨?_, fun s m f n h hop hfree hentry hmask0 hmask hcount => ?_⟩
  · intro s m f n h hop hfree addr k hal h0 h1 hend hlt hvalid
    obtain ⟨hans, hsame, hhost⟩ := command_progLoad hfree h hop hal h0 h1 hend hlt hvalid
    have hcove : ∀ d, (s.blk.command m).cove d = (s.blk.progLoaded m addr k f n).cove d := fun d => by unfold Blk.cove; rw [hsame.coves]
    have hpart : ∀ q, (s.blk.command m).part q = (s.blk.progLoaded m addr k f n).part q := fun q => by unfold Blk.part; rw [← hsame.eq]
    refine does_of_updIf rfl (isFor_takes h hop) ⟨hans, fun v hv0 hv1 => ?_, fun v hv => ?_, fun q => ?_, ?_, hhost⟩
    · unfold Blk.seq
      rw [hcove, progLoaded_cove_in h0 ⟨hv0, hv1⟩]
      exact ⟨rfl, rfl, rfl, rfl⟩
    · rw [hcove, progLoaded_cove_out hv]
    · rw [hpart, progLoaded_pm]
    · rw [← hsame.eq, ← progLoaded_eq]
  · obtain ⟨hcmds, hsame, hhost⟩ := command_progStart h hop (runOp_progStart hfree hop hentry hmask0 hmask hcount (takes_cls h))
    refine does_of_updIf rfl (isFor_takes h hop) ⟨?_, ?_, hhost, s.blk.startAccepted m, s.blk.startAt, hcmds, rfl, rfl, ?_, ?_⟩
    · rw [Blk.awaits, hcmds]
      simp [Blk.startAccepted, Blk.accepted, Blk.asCmd]
    · rw [← hsame.eq]
    · exact Nat.le_add_right _ _
    · exact Nat.add_le_add_left (Nat.le_of_lt_succ (Nat.mod_lt _ (by decide))) _

end Sys2Proof.Machine
end

section
/-! SUPPORT. The run of a program from its start instant to its end (R169 to R171). -/
namespace Sys2Proof.Machine

variable {b x : Blk} {m : Msg} {c : Cmd} {f n k r v entry mask : Nat} {q : Seq} {image : Nat → Nat}

/-- The only uncompleted command is found by its context and sequence. -/
theorem cmdOf_only (h : b.host.cmds = [c]) : b.cmdOf c.ctx c.seq = some c := by simp [Blk.cmdOf, h]

/-! ### The registers of an image (R169) -/

/-- The first n registers after s0, where an image names them, set from it. -/
def Seq.imaged (q : Seq) (mask : Nat) (image : Nat → Nat) (n : Nat) : Seq :=
  (List.range n).foldl (fun q i => if tbit mask (i + 1) then q.setSreg (i + 1) (image i) else q) q
theorem imaged_succ : q.imaged mask image (n + 1) =
    if tbit mask (n + 1) then (q.imaged mask image n).setSreg (n + 1) (image n) else q.imaged mask image n := by
  simp [Seq.imaged, List.range_succ]
theorem swf_setSreg (h : swf (fun _ => 0) q.sregs = true) : swf (fun _ => 0) (q.setSreg k v).sregs = true := by
  unfold Seq.setSreg
  split
  · exact h
  · exact swf_sset h
theorem imaged_swf (h : swf (fun _ => 0) q.sregs = true) : swf (fun _ => 0) (q.imaged mask image n).sregs = true := by
  induction n with
  | zero => exact h
  | succ n ih =>
    rw [imaged_succ]
    split
    · exact swf_setSreg ih
    · exact ih
theorem imaged_reads (h : swf (fun _ => 0) q.sregs = true) (himage : ∀ i, image i < 2 ^ 64) (h0 : 0 < r) :
    sreg (q.imaged mask image n).sregs r = if tbit mask r ∧ r ≤ n then image (r - 1) else sreg q.sregs r := by
  induction n with
  | zero => rw [if_neg (by omega)]; rfl
  | succ n ih =>
    rw [imaged_succ]
    by_cases hn : r = n + 1
    · subst hn
      by_cases hbit : tbit mask (n + 1)
      · simp [hbit, setSreg_reads (imaged_swf h) (himage n)]
      · simp [hbit, ih]
    · have hle : r ≤ n + 1 ↔ r ≤ n := by omega
      simp only [hle]
      rw [← ih]
      split
      · rw [setSreg_reads (imaged_swf h) (himage n), if_neg (by simp [hn])]
      · rfl
theorem begin_sregs : (q.begin entry mask image).sregs = (q.imaged mask image 31).sregs := rfl

/-! ### The start instant (R169) -/

/-- The machine at the start instant of a program: the clock at the instant or later, and the Coves begun that hold an index to begin at. -/
def Blk.programsBegun (b : Blk) (c : Cmd) (f n t0 : Nat) : Blk :=
  ({ b with tide := max b.tide t0 } : Blk).seqsSet
    (fun _ q => q.begin (leAt c.m.payload 0 8) (leAt c.m.payload 8 8) fun i => leAt c.m.payload (0x10 + 8 * i) 8)
    ((setCoves (f, n)).filter fun v => leAt c.m.payload 0 8 < (b.seq v).count && !(b.cove v).clearing)

section
variable {t0 : Nat}
theorem programsBegun_eq : { b with tide := max b.tide t0, coves := (b.programsBegun c f n t0).coves } = b.programsBegun c f n t0 :=
  seqsSet_eq (x := { b with tide := max b.tide t0 })
theorem programsBegun_same : (b.programsBegun c f n t0).tide = max b.tide t0 ∧ (b.programsBegun c f n t0).host = b.host := by
  rw [← programsBegun_eq]
  exact ⟨rfl, rfl⟩
/-- Only the clock, the Coves and the commands are new. -/
theorem programsBegun_setCmd {t : Blk} {d : Cmd} (h : (b.programsBegun c f n t0).setCmd d = t) :
    { b with tide := t.tide, coves := t.coves, host := t.host } = t := by
  subst h
  have hframe : { b with tide := (b.programsBegun c f n t0).tide, coves := (b.programsBegun c f n t0).coves } = b.programsBegun c f n t0 := by
    rw [programsBegun_same.1]
    exact programsBegun_eq
  exact congrArg (fun x : Blk => { x with host := ((b.programsBegun c f n t0).setCmd d).host }) hframe
theorem startInstant_eq (hcmds : b.host.cmds = [c]) (hstart : c.started = true) (hop : c.m.opcode = 0x0201) (hvars : c.vars = [t0])
    (hset : coveSet c.m.param = some (f, n)) (hawake : ((none :: (List.range nParts).map some).all fun k => !b.slackAt k) = true) :
    b.startInstant c.ctx c.seq = (b.programsBegun c f n t0).setCmd { c with vars := [t0, 1] } := by
  unfold Blk.startInstant
  simp only [cmdOf_only hcmds, hset, hvars, hop, hstart]
  rw [wakeCoves_awake (x := { b with tide := max b.tide t0 }) hawake]
  rfl
theorem programsBegun_cove_out (h : v < f ∨ f + n ≤ v) : (b.programsBegun c f n t0).cove v = b.cove v :=
  seqsSet_cove_out fun hv => by have := mem_setCoves.mp (List.mem_of_mem_filter hv); omega
theorem programsBegun_cove_in (hv : f ≤ v ∧ v < f + n) (hcount : leAt c.m.payload 0 8 < (b.seq v).count) (hclear : (b.cove v).clearing = false) :
    (b.programsBegun c f n t0).cove v =
      { b.cove v with seq := (b.seq v).begin (leAt c.m.payload 0 8) (leAt c.m.payload 8 8) fun i => leAt c.m.payload (0x10 + 8 * i) 8 } :=
  seqsSet_cove_in (x := { b with tide := max b.tide t0 }) (List.mem_filter.mpr ⟨mem_setCoves.mpr hv, by simp [hcount, hclear]⟩)
    ((nodup_setCoves _).filter _) (Seq.ne_idle_of_st Nat.one_ne_zero)
end

/-! ### The end of all its Coves (R170) -/

/-- What a state holds where nothing goes on but one command. -/
theorem onlyWaits_facts (h : b.onlyWaits c = true) : b.still = true ∧ b.host.cmds = [c] ∧ c.started = true ∧ c.flag 13 = false ∧
    (b.ctx c.ctx).st = 1 ∧ b.spans = [] ∧ c.m.opcode ≠ 1 := by
  simp only [Blk.onlyWaits, Bool.and_eq_true, decide_eq_true_eq, Bool.not_eq_true', beq_iff_eq, List.isEmpty_iff, bne_iff_ne] at h
  obtain ⟨⟨⟨⟨⟨⟨hstill, hcmds⟩, hstart⟩, h13⟩, hctx⟩, hspans⟩, hop⟩ := h
  exact ⟨hstill, hcmds, hstart, h13, hctx, hspans, hop⟩
/-- The only uncompleted command ends, of kind D and in ST_OK: it is answered, and nothing else goes on. -/
theorem finish_only {pay : List Byte} (h : b.onlyWaits c = true) (hk : dKind c.m.opcode = true) :
    (b.finish c stOK 0 pay).pump.host.cmds = [] ∧ (b.finish c stOK 0 pay).pump.answered c.m stOK 0 pay ∧
    b.SameButHost (b.finish c stOK 0 pay).pump ∧ b.hostFor (b.finish c stOK 0 pay).pump c.m := by
  obtain ⟨hstill, hcmds, -, h13, hctx, hspans, hop⟩ := onlyWaits_facts h
  have hlog : b.logged c.ctx c.seq = false := by simp [Blk.logged, hspans]
  have hnone : (b.finish c stOK 0 pay).host.cmds = [] := by simp [finish_cmds h13 hlog, hcmds]
  have hsame : b.SameButHost (b.finish c stOK 0 pay) := finish_ok_D_same h13 hlog hk
  rw [pump_rests (by simp [Blk.rests, hnone, hsame.still, hstill])]
  exact ⟨hnone, finish_answered h13 hlog hop (by rw [show c.m.ctx = c.ctx from rfl, hctx]; decide) (by decide), hsame, finish_hostBut h13 hlog⟩
/-- Coves that end without an error of the hardware, of a start that is not BOUNDED, end it in ST_OK. -/
theorem startDone_ok {l : List Nat} (hctx : (b.ctx c.ctx).st = 1) (hcls : c.m.cls = 0)
    (hend : ∀ v ∈ l, (b.seq v).exit.st ≠ stHWERROR ∧ (b.seq v).exit.st ≠ stUNCONTAINED) :
    b.startDone c l = b.finish c stOK 0 (l.flatMap fun v => (b.seq v).exit.bytes v false) := by
  have hunc : (l.find? fun v => (b.seq v).exit.st == stUNCONTAINED) = none := by
    rw [List.find?_eq_none]
    exact fun v hv => by simpa using (hend v hv).2
  have herr : (l.find? fun v => (b.seq v).exit.st == stHWERROR) = none := by
    rw [List.find?_eq_none]
    exact fun v hv => by simpa using (hend v hv).1
  unfold Blk.startDone
  simp [hctx, hcls, hunc, herr]
theorem startComplete_eq {t0 k : Nat} (hcmds : b.host.cmds = [c]) (hstart : c.started = true) (hop : c.m.opcode = 0x0201) (hvars : c.vars = [t0, k])
    (hset : coveSet c.m.param = some (f, n)) (hruns : (setCoves (f, n)).any b.runs = false) :
    b.startComplete c.ctx c.seq = b.startDone c (setCoves (f, n)) := by
  unfold Blk.startComplete
  simp [cmdOf_only hcmds, hset, hvars, hop, hstart, hruns]

/-! ### A stop (R171) -/

/-- A Cove whose program has stopped. -/
def Blk.stopped (b : Blk) (v : Nat) : Blk :=
  ((b.setSeq v (b.seq v)).setSeq v { b.seq v with stopping := 2 }).setSeq v
    (({ b.seq v with stopping := 2 } : Seq).left b.tide 5 0 0 (b.seq v).pc 0)
theorem stopped_coves : { b with coves := (b.stopped v).coves } = b.stopped v := rfl

section
variable (hst : (b.seq v).st = 1)
include hst
theorem stopped_becomes : b.SeqBecomes (b.stopped v) v (({ b.seq v with stopping := 2 } : Seq).left b.tide 5 0 0 (b.seq v).pc 0) :=
  (((setSeq_becomes (Seq.ne_idle_of_st (by rw [hst]; decide))).trans (setSeq_becomes (Seq.ne_idle_of_st (by rw [hst]; decide)))).trans
    (setSeq_becomes (Seq.ne_idle_of_st (by decide : (5 : Nat) ≠ 0))))

variable (hfly : (b.seq v).inflight = []) (hhold : (b.seq v).hold = .none) (hfault : (b.seq v).fault = none) (hstop : (b.seq v).stopping = 0)
  (hm : (b.bay (bayOf v)).matchHolder = none)
include hfly hhold hfault hstop hm
/-- A Cove with nothing in flight stops at once. -/
theorem stopCove_eq : b.stopCove v = b.stopped v := by
  have hq : ({ b.seq v with st := 1, stopping := 2 } : Seq) = { b.seq v with stopping := 2 } := by rw [← hst]
  have hkept := setSeq_becomes (b := b) (c := v) (q := b.seq v) (Seq.ne_idle_of_st (by rw [hst]; decide))
  have hset := hkept.trans (setSeq_becomes (c := v) (q := { b.seq v with stopping := 2 }) (Seq.ne_idle_of_st (by rw [hst]; decide)))
  have hmx : (((b.setSeq v (b.seq v)).setSeq v { b.seq v with stopping := 2 }).bay (bayOf v)).matchHolder ≠ some v := by rw [hset.bay, hm]; simp
  have he : b.stopCove v = ((b.setSeq v (b.seq v)).setSeq v { b.seq v with stopping := 2 }).kick v := by
    unfold Blk.stopCove
    simp only [dropHold_none hhold, hkept.seq]
    rw [if_neg (by rw [hst]; decide), if_neg (by rw [hstop]; decide), hq]
  rw [he, kick_idle (by rw [hset.seq]; exact hfly) hmx, settle_stop (by rw [hset.seq]; exact hst) (by rw [hset.seq]; exact hfly)
    (by rw [hset.seq]) (by rw [hset.seq]; exact hfault), leave_eq (by decide) hmx, hset.seq, hset.tide]
  rfl
end

section
variable (h : b.takes m = true) (hop : m.opcode = 0x0202) (hset : coveSet m.param = some (v, 1)) (hok : b.covesOk m.partition [v] = true)
  (hscrub : b.coveScrub v = false) (hready : b.covesReady [v] = none) (hserv : b.servingBars [v] false = false)
  (hawake : ((none :: (List.range nParts).map some).all fun k => !b.slackAt k) = true) (hst : (b.seq v).st = 1)
  (hfly : (b.seq v).inflight = []) (hhold : (b.seq v).hold = .none) (hfault : (b.seq v).fault = none) (hstop : (b.seq v).stopping = 0)
  (hm : (b.bay (bayOf v)).matchHolder = none)
include hop hset hok hscrub hready hserv hawake hst hfly hhold hfault hstop hm

theorem runOp_progStop : (b.entered m).runOp (b.asCmd m) = (((b.entered m).stopped v).accept (b.asCmd m)).finish (b.accepted m) stOK 0 [] := by
  have hone : setCoves (v, 1) = [v] := rfl
  have hsame : ∀ x, b.SameButHost x → x.covesOk = b.covesOk ∧ x.coveScrub = b.coveScrub ∧ x.covesReady = b.covesReady ∧
      x.servingBars = b.servingBars ∧ x.slackAt = b.slackAt := fun x hx => by rw [← hx.eq]; exact ⟨rfl, rfl, rfl, rfl, rfl⟩
  obtain ⟨eok, escrub, eready, eserv, eslack⟩ := hsame _ (entered_sameButHost (b := b) (m := m))
  have hbecomes := stopped_becomes (b := b.entered m) (v := v) (by rw [entered_seq]; exact hst)
  have hacc : ((b.entered m).stopped v).SameButHost (((b.entered m).stopped v).accept (b.asCmd m)) := by
    have := accept_sameButHost (x := (b.entered m).stopped v) (c := b.asCmd m) (pay := []) rfl
    rwa [show ((b.entered m).stopped v).measureCmd (b.asCmd m).m = (b.entered m).stopped v from measureCmd_program (.inr (.inr hop))] at this
  have hcmd : (((b.entered m).stopped v).accept (b.asCmd m)).cmdOf (b.asCmd m).ctx (b.asCmd m).seq = some (b.accepted m) :=
    cmdOf_only (c := b.accepted m) (accept_cmds_of_host rfl)
  have hruns : (((b.entered m).stopped v).accept (b.asCmd m)).runs v = false := by
    rw [← hacc.eq]
    show ((b.entered m).stopped v).runs v = false
    rw [Blk.runs, hbecomes.seq]
    rfl
  rw [runOp_eq (op := 0x0202) hop rfl]
  show (b.entered m).doProgStop (b.asCmd m) = _
  unfold Blk.doProgStop
  rw [withCoves_ready (s := (v, 1)) hset (by rw [eok, hone]; exact hok) (by rw [escrub, hone]; simpa using hscrub)
    (by rw [eready, hone]; exact hready), hone]
  rw [eserv, hserv, wakeCoves_awake (by rw [eslack]; exact hawake)]
  have hfilter : [v].filter (b.entered m).runs = [v] := by simp [Blk.runs, entered_seq, hst]
  simp only [Bool.false_eq_true, if_false, hfilter, List.foldl_cons, List.foldl_nil]
  rw [stopCove_eq (by rw [entered_seq]; exact hst) (by rw [entered_seq]; exact hfly) (by rw [entered_seq]; exact hhold)
    (by rw [entered_seq]; exact hfault) (by rw [entered_seq]; exact hstop) (by rw [← entered_host]; exact hm)]
  simp [hcmd, Blk.pollProgStop, show (b.accepted m).m = m from rfl, hset, hone, hruns]
include h
theorem command_progStop : (b.command m).answered m stOK 0 [] ∧ ((b.entered m).stopped v).SameButHost (b.command m) ∧ b.hostFor (b.command m) m := by
  obtain ⟨-, hstill, hlog, -⟩ := takes_facts h
  exact command_accept_ends h (by rw [hop]; rfl) (by omega) (measureCmd_program (.inr (.inr hop))) rfl
    (by rw [← stopped_coves, ← entered_host]; exact hstill)
    (by rw [← stopped_coves, ← entered_host]; exact hlog)
    (runOp_progStop hop hset hok hscrub hready hserv hawake hst hfly hhold hfault hstop hm)
end

/-! ### O12 -/

/-- Settles O12: the start sets the sequencers of its Coves one after another; their end, and a stop with nothing in flight, answer the command. -/
theorem programsRunAndEnd : Obligations.ProgramsRunAndEnd := by
  unfold Obligations.ProgramsRunAndEnd
  refine ⟨fun s c f n t0 v hcmds hstart hop hvars hparam hsum hctx hawake hv0 hv1 hf hcount hclear hcanon => ?_,
    fun s c f n t0 h hop hcls hvars hparam hsum hf hctx hends => ?_,
    fun s m v h hop hparam hv hok hscrub hready hserv hawake hst hfly hhold hfault hstop hm => ?_⟩
  · have hset : coveSet c.m.param = some (f, n) := by rw [hparam, coveSet_eq hf hsum]
    have hbegun := programsBegun_cove_in (t0 := t0) ⟨hv0, hv1⟩ hcount hclear
    have hseq : (s.blk.programsBegun c f n t0).seq v = _ := congrArg Cove.seq hbegun
    refine does_of_updIf rfl (decide_eq_true hctx) ?_
    rw [startInstant_eq hcmds hstart hop hvars hset hawake]
    have hsetCmd : ∀ d, ((s.blk.programsBegun c f n t0).setCmd d).seq v = (s.blk.programsBegun c f n t0).seq v := fun _ => rfl
    rw [hsetCmd, hseq]
    refine ⟨programsBegun_same.1, rfl, rfl, rfl, rfl, rfl, rfl, fun r h0 hr => ?_, fun u hu => programsBegun_cove_out hu, hbegun.symm,
      show (s.blk.programsBegun c f n t0).host.ctxs = _ from congrArg HostSide.ctxs programsBegun_same.2, programsBegun_setCmd rfl⟩
    rw [begin_sregs, imaged_reads (canon_cove hcanon v).2 (fun i => leAt_lt _ _ 8) h0]
    simp only [show r ≤ 31 from Nat.le_of_lt_succ hr, and_true, show 0x10 + 8 * (r - 1) = 8 + 8 * r by omega]
  · obtain ⟨-, hcmds, hstart, -, hopen, -⟩ := onlyWaits_facts h
    have hends' : ∀ v ∈ setCoves (f, n), s.blk.runs v = false ∧ (s.blk.seq v).exit.st ≠ stHWERROR ∧ (s.blk.seq v).exit.st ≠ stUNCONTAINED :=
      fun v hv => hends v (mem_setCoves.mp hv).1 (mem_setCoves.mp hv).2
    have hruns : (setCoves (f, n)).any s.blk.runs = false := by
      rw [List.any_eq_false]
      exact fun v hv => by rw [(hends' v hv).1]; decide
    have hrecords : (setCoves (f, n)).flatMap (fun v => (s.blk.seq v).exit.bytes v false) =
        (List.range n).flatMap fun i => (s.blk.seq (f + i)).exit.bytes (f + i) false := List.flatMap_map ..
    refine does_of_updIf rfl (decide_eq_true hctx) ?_
    rw [startComplete_eq hcmds hstart hop hvars (by rw [hparam, coveSet_eq hf hsum]) hruns,
      startDone_ok hopen hcls fun v hv => (hends' v hv).2, hrecords]
    obtain ⟨hnone, hans, hsame, hhost⟩ := finish_only (pay := (List.range n).flatMap fun i => (s.blk.seq (f + i)).exit.bytes (f + i) false) h
      (by rw [hop]; rfl)
    exact ⟨hnone, hans, hsame.eq, hhost⟩
  · have hset : coveSet m.param = some (v, 1) := by
      rw [hparam, show v + 2 ^ 16 = v + 1 * 2 ^ 16 by omega, coveSet_eq hv hv]
    obtain ⟨hans, hsame, hhost⟩ := command_progStop h hop hset hok hscrub hready hserv hawake hst hfly hhold hfault hstop hm
    have hbecomes := stopped_becomes (b := s.blk.entered m) (v := v) (by rw [entered_seq]; exact hst)
    have hcove : ∀ u, (s.blk.command m).cove u = ((s.blk.entered m).stopped v).cove u := fun u => by unfold Blk.cove; rw [hsame.coves]
    have hseq : (s.blk.command m).seq v = _ := (congrArg Cove.seq (hcove v)).trans hbecomes.seq
    refine does_of_updIf rfl (isFor_takes h hop) ⟨hans, ?_, ?_, ?_, ?_, fun u hu => ?_, ?_, hhost⟩
    · rw [hseq]; rfl
    · rw [hseq]; rfl
    · rw [hseq, entered_seq]; rfl
    · rw [hseq]; rfl
    · rw [hcove, hbecomes.only.2.1 u (by simpa using hu), entered_cove]
    · rw [← hsame.eq, ← stopped_coves, ← entered_host]

end Sys2Proof.Machine
end


section
/-! SUPPORT. What leaves memory alone: one frame lemma for each operation of the machine that writes no byte, in the order of the model's files. -/
namespace Sys2Proof.Machine
variable {b : Blk}

@[simp] theorem mem_ite (p : Prop) [Decidable p] (x y : Blk) : (if p then x else y).mem = if p then x.mem else y.mem := apply_ite ..
@[simp] theorem snd_mem_ite {β : Type} (p : Prop) [Decidable p] (x y : β × Blk) :
    (if p then x else y).2.mem = if p then x.2.mem else y.2.mem := by split <;> rfl
@[simp] theorem fst_mem_ite {β : Type} (p : Prop) [Decidable p] (x y : Blk × β) :
    (if p then x else y).1.mem = if p then x.1.mem else y.1.mem := by split <;> rfl
/-- A fold of operations that leave memory alone leaves it alone. -/
@[simp] theorem foldl_mem {α : Type} (f : Blk → α → Blk) (l : List α) (hf : ∀ x q, (f x q).mem = x.mem) : (l.foldl f b).mem = b.mem := by
  induction l generalizing b with
  | nil => rfl
  | cons q l ih => exact (ih (b := f b q)).trans (hf b q)
@[simp] theorem foldl_snd_mem {α β : Type} (f : β × Blk → α → β × Blk) (l : List α) (s : β × Blk) (hf : ∀ s q, (f s q).2.mem = s.2.mem) :
    (l.foldl f s).2.mem = s.2.mem := by
  induction l generalizing s with
  | nil => rfl
  | cons q l ih => exact (ih (f s q)).trans (hf s q)
@[simp] theorem foldl_fst_mem {α β : Type} (f : Blk × β → α → Blk × β) (l : List α) (s : Blk × β) (hf : ∀ s q, (f s q).1.mem = s.1.mem) :
    (l.foldl f s).1.mem = s.1.mem := by
  induction l generalizing s with
  | nil => rfl
  | cons q l ih => exact (ih (f s q)).trans (hf s q)
theorem foldl_option_mem {α : Type} (f : Option Blk → α → Option Blk) (l : List α) (hf : ∀ z q w, f (some z) q = some w → w.mem = z.mem)
    (x : Blk) (h : l.foldl f (some b) = some x) (hn : ∀ q, f none q = none := by intros; rfl) : x.mem = b.mem := by
  induction l generalizing b with
  | nil => cases h; rfl
  | cons q l ih =>
    have hnone : l.foldl f none = none := by clear ih h; induction l with | nil => rfl | cons q l ih => rw [List.foldl_cons, hn, ih]
    rw [List.foldl_cons] at h
    cases e : f (some b) q with
    | none => rw [e, hnone] at h; cases h
    | some z => rw [e] at h; exact (ih h).trans (hf b q z e)

/-! ### Ops -/

@[simp] theorem freeVal_mem (site : Nat) : (b.freeVal site).2.mem = b.mem := by simp [Blk.freeVal]
@[simp] theorem countHold_mem (k : Nat) : (b.countHold k).mem = b.mem := by simp [Blk.countHold]
@[simp] theorem setGens_mem (c : Nat) (l : List Nat) : (b.setGens c l).mem = b.mem := by simp [Blk.setGens]
@[simp] theorem idle_mem : b.idle.mem = b.mem := by simp [Blk.idle]

/-! ### Flags -/

@[simp] theorem landRow_mem (c dom anchor r : Nat) (cols : List (List (Int × Int))) : (b.landRow c dom anchor r cols).mem = b.mem := by
  simp [Blk.landRow]
@[simp] theorem stampCheck_mem (c dom anchor f n : Nat) : (b.stampCheck c dom anchor f n).2.mem = b.mem := by unfold Blk.stampCheck; split <;> simp

/-! ### Array -/

@[simp] theorem startWload_mem (c w : Nat) (regs : List (Nat × Nat)) : (b.startWload c w regs).1.mem = b.mem := by
  unfold Blk.startWload
  split <;> simp
@[simp] theorem runPass_mem (c w : Nat) (s : Slot) (planes : List (List Int)) (q i : Nat) (toks : List (List (List Int × Int))) :
    (b.runPass c w s planes q i toks).mem = b.mem := by
  simp [Blk.runPass]
@[simp] theorem runMacc_mem (c w : Nat) (regs : List (Nat × Nat)) : (b.runMacc c w regs).1.mem = b.mem := by
  unfold Blk.runMacc
  simp only
  repeat' split
  all_goals simp
@[simp] theorem runOnePass_mem (c w : Nat) (regs : List (Nat × Nat)) : (b.runOnePass c w regs).1.mem = b.mem := by
  unfold Blk.runOnePass
  simp only
  repeat' split
  all_goals simp

/-! ### Acm -/

@[simp] theorem draws_mem (c mode n : Nat) : (b.draws c mode n).2.mem = b.mem := by unfold Blk.draws; split <;> simp
@[simp] theorem checkAclr_mem (c w : Nat) : (b.checkAclr c w).2.mem = b.mem := by unfold Blk.checkAclr; split <;> simp
@[simp] theorem runAclr_mem (c w : Nat) : (b.runAclr c w).1.mem = b.mem := by simp [Blk.runAclr]
@[simp] theorem checkAcvt_mem (c w : Nat) : (b.checkAcvt c w).2.mem = b.mem := by
  have h := stampCheck_mem (b := b) c (acvtDom1 w) (acvtAnchor1 w) (acvtSrc w) (acvtN w)
  unfold Blk.checkAcvt
  simp only
  repeat' split
  all_goals simp_all
@[simp] theorem runAcvt_mem (c w : Nat) : (b.runAcvt c w).1.mem = b.mem := by simp [Blk.runAcvt]
@[simp] theorem checkAread_mem (c w : Nat) (regs : List (Nat × Nat)) : (b.checkAread c w regs).2.mem = b.mem := by
  unfold Blk.checkAread
  simp only
  repeat' split
  all_goals simp
@[simp] theorem deliver_mem (c slot : Nat) (s : AcmStats) : (b.deliver c slot s).mem = b.mem := by unfold Blk.deliver; split <;> simp

/-! ### Movement -/

@[simp] theorem setCred_mem (kind src j : Nat) (v : Cred) : (b.setCred kind src j v).mem = b.mem := by simp [Blk.setCred]
theorem chargeInbox_mem {kind src owner inbox units : Nat} {x : Blk} (h : b.chargeInbox kind src owner inbox units = some x) : x.mem = b.mem := by
  unfold Blk.chargeInbox at h
  simp only at h
  repeat' split at h
  all_goals cases h
  all_goals simp
@[simp] theorem checkTput_mem (c w : Nat) : (b.checkTput c w).2.mem = b.mem := by
  unfold Blk.checkTput
  simp only
  repeat' split
  case h_2 h => exact chargeInbox_mem h
  all_goals simp
@[simp] theorem setRing_mem (c r : Nat) (v : Ring) : (b.setRing c r v).mem = b.mem := by simp [Blk.setRing]
@[simp] theorem setProd_mem (c j : Nat) (v : Prod) : (b.setProd c j v).mem = b.mem := by simp [Blk.setProd]
@[simp] theorem endRget_mem (c w : Nat) : (b.endRget c w).mem = b.mem := by simp [Blk.endRget]
@[simp] theorem creditRing_mem (owner ring : Nat) : (b.creditRing owner ring).mem = b.mem := by
  unfold Blk.creditRing
  simp only
  repeat' split
  all_goals simp

/-! ### Sparse -/

@[simp] theorem setSpill_mem (c : Nat) (s : Spill) : (b.setSpill c s).mem = b.mem := by simp [Blk.setSpill]
@[simp] theorem spResult_mem (c n s : Nat) : (b.spResult c n s).mem = b.mem := by simp [Blk.spResult]

/-! ### Table -/

@[simp] theorem setTab_mem (hl i : Nat) (t : TabSlot) : (b.setTab hl i t).mem = b.mem := by simp [Blk.setTab]
@[simp] theorem addRef_mem (hl i : Nat) : (b.addRef hl i).mem = b.mem := by simp [Blk.addRef]
@[simp] theorem dropRef_mem (hl i : Nat) : (b.dropRef hl i).mem = b.mem := by simp [Blk.dropRef]
theorem reserveTab_mem {hl table : Nat} {x} (h : b.reserveTab hl table = some x) : x.2.mem = b.mem := by
  unfold Blk.reserveTab at h
  simp only at h
  repeat' split at h
  all_goals cases h
  all_goals simp
@[simp] theorem installTab_mem (hl i : Nat) (lens : List Nat) (hold : Bool) : (b.installTab hl i lens hold).mem = b.mem := by
  unfold Blk.installTab
  simp only
  split <;> simp
@[simp] theorem bindDesc_mem (y : Nat) (raw : List Byte) : (b.bindDesc y raw).2.mem = b.mem := by
  unfold Blk.bindDesc
  simp only
  repeat' split
  all_goals simp

/-! ### Seq -/

@[simp] theorem issued_mem (c : Nat) : (b.issued c).mem = b.mem := by simp [Blk.issued]
@[simp] theorem advance_mem (c : Nat) : (b.advance c).mem = b.mem := by simp [Blk.advance]
@[simp] theorem dropHold_mem (c : Nat) : (b.dropHold c).mem = b.mem := by unfold Blk.dropHold; simp only; split <;> simp
@[simp] theorem releaseMatch_mem (c : Nat) : (b.releaseMatch c).mem = b.mem := by simp [Blk.releaseMatch]
@[simp] theorem leave_mem (c st status det index rows : Nat) : (b.leave c st status det index rows).mem = b.mem := by simp [Blk.leave]
@[simp] theorem addFault_mem (c : Nat) (f : SeqFault) : (b.addFault c f).mem = b.mem := by unfold Blk.addFault; simp only; split <;> simp
@[simp] theorem settle_mem (c : Nat) : (b.settle c).mem = b.mem := by
  unfold Blk.settle
  simp only
  repeat' split
  all_goals simp
@[simp] theorem statusOf_mem (c serial index w : Nat) (d : Done) : (b.statusOf c serial index w d).mem = b.mem := by simp [Blk.statusOf]
@[simp] theorem setEntry_mem (c : Nat) (e : Entry) : (b.setEntry c e).mem = b.mem := by simp [Blk.setEntry]
@[simp] theorem begun_mem (c : Nat) (e : Entry) (d : Option Done) : (b.begun c e d).mem = b.mem := by simp [Blk.begun]
@[simp] theorem dmaAccept_mem (c : Nat) (e : Entry) (n i : Nat) : (b.dmaAccept c e n i).mem = b.mem := by
  induction n generalizing b i with
  | zero => rfl
  | succ n ih => simp [Blk.dmaAccept, ih]
@[simp] theorem startDmaq_mem (c : Nat) (e : Entry) : (b.startDmaq c e).mem = b.mem := by simp [Blk.startDmaq]
@[simp] theorem touch_mem (c : Nat) (e : Entry) : (b.touch c e).mem = b.mem := by simp [Blk.touch]
@[simp] theorem issueCheck_mem (c w : Nat) (regs : List (Nat × Nat)) : (b.issueCheck c w regs).2.mem = b.mem := by
  unfold Blk.issueCheck
  cases b.streamCheck c w regs <;> simp
@[simp] theorem seqOp_mem (c : Nat) (f : Seq → Seq) : (b.seqOp c f).mem = b.mem := by simp [Blk.seqOp]
@[simp] theorem sgetVal_mem (c sel : Nat) : (b.sgetVal c sel).2.mem = b.mem := by
  unfold Blk.sgetVal
  repeat' split
  all_goals simp
@[simp] theorem doNop_mem (c : Nat) : (b.doNop c).mem = b.mem := by simp [Blk.doNop]
@[simp] theorem doBr_mem (c w : Nat) : (b.doBr c w).mem = b.mem := by simp [Blk.doBr]
@[simp] theorem doSli_mem (c w : Nat) : (b.doSli c w).mem = b.mem := by simp [Blk.doSli]
@[simp] theorem doSop_mem (c w : Nat) : (b.doSop c w).mem = b.mem := by simp [Blk.doSop]
@[simp] theorem doScmp_mem (c w : Nat) : (b.doScmp c w).mem = b.mem := by simp [Blk.doScmp]
@[simp] theorem doSget_mem (c w : Nat) : (b.doSget c w).mem = b.mem := by simp [Blk.doSget]
@[simp] theorem endHold_mem (c : Nat) : (b.endHold c).mem = b.mem := by simp [Blk.endHold]
@[simp] theorem barRelease_mem (scope idx bid : Nat) : (b.barRelease scope idx bid).mem = b.mem := by simp [Blk.barRelease]
@[simp] theorem doWait_mem (c w : Nat) : (b.doWait c w).mem = b.mem := by simp [Blk.doWait]
@[simp] theorem doDmaw_mem (c w : Nat) : (b.doDmaw c w).mem = b.mem := by simp [Blk.doDmaw]
@[simp] theorem doTwait_mem (c w : Nat) : (b.doTwait c w).mem = b.mem := by simp [Blk.doTwait]
@[simp] theorem twaitRelease_mem (c : Nat) : (b.twaitRelease c).mem = b.mem := by unfold Blk.twaitRelease; split <;> simp

/-! ### Host -/

@[simp] theorem sendOn_mem (p : Nat) (o : Out) : (b.sendOn p o).mem = b.mem := by simp [Blk.sendOn]
@[simp] theorem event0_mem (op : Nat) (payload : List Byte) : (b.event0 op payload).mem = b.mem := by simp [Blk.event0]
@[simp] theorem eventP_mem (p op : Nat) (payload : List Byte) : (b.eventP p op payload).mem = b.mem := by simp [Blk.eventP]
@[simp] theorem flushCtx_mem (p c : Nat) : (b.flushCtx p c).mem = b.mem := by simp [Blk.flushCtx]
@[simp] theorem flushPort_mem (p : Nat) : (b.flushPort p).mem = b.mem := by simp [Blk.flushPort]
@[simp] theorem errorEvent_mem (r : ErrRec) : (b.errorEvent r).mem = b.mem := by simp [Blk.errorEvent]
@[simp] theorem propose_mem (r : ErrRec) : (b.propose r).mem = b.mem := by simp [Blk.propose]
@[simp] theorem newError_mem (r : ErrRec) : (b.newError r).mem = b.mem := by simp [Blk.newError]
@[simp] theorem mergeError_mem (q : ErrRec) : (b.mergeError q).mem = b.mem := by simp [Blk.mergeError]
@[simp] theorem addError_mem (r : ErrRec) : (b.addError r).mem = b.mem := by unfold Blk.addError; split <;> simp
@[simp] theorem finish_mem (c : Cmd) (st det : Nat) (payload : List Byte) : (b.finish c st det payload).mem = b.mem := by simp [Blk.finish]
@[simp] theorem reject_mem (c : Cmd) (st : Nat) (det : optParam Nat openDet) : (b.reject c st det).mem = b.mem := by simp [Blk.reject]
@[simp] theorem accept_mem (c : Cmd) (payload : List Byte) : (b.accept c payload).mem = b.mem := by simp [Blk.accept]
@[simp] theorem takeMsg_mem (m0 : Msg) : (b.takeMsg m0).mem = b.mem := by
  unfold Blk.takeMsg
  simp only
  repeat' split
  all_goals simp
@[simp] theorem arrive_mem (m : Msg) : (b.arrive m).mem = b.mem := by simp [Blk.arrive]

/-! ### Fabric -/

@[simp] theorem transmit_mem (k : Nat) : (b.transmit k).mem = b.mem := by simp [Blk.transmit]
@[simp] theorem enterFace_mem (face : Nat) (p : Pkt) : (b.enterFace face p).mem = b.mem := by unfold Blk.enterFace; split <;> simp
@[simp] theorem sendHop_mem (p : Pkt) (face : Nat) : (b.sendHop p face).mem = b.mem := by simp [Blk.sendHop]
@[simp] theorem dropPkt_mem : b.dropPkt.mem = b.mem := by simp [Blk.dropPkt]
@[simp] theorem setFallback_mem (d : Nat) : (b.setFallback d).mem = b.mem := by simp [Blk.setFallback]
@[simp] theorem originate_mem (p0 : Pkt) : (b.originate p0).1.mem = b.mem := by
  unfold Blk.originate
  simp only
  repeat' split
  all_goals simp
@[simp] theorem sendReply_mem (p : Pkt) : (b.sendReply p).mem = b.mem := by unfold Blk.sendReply; simp only; split <;> simp
@[simp] theorem request_mem (who : Requester) (off : Nat) (p0 : Pkt) : (b.request who off p0).mem = b.mem := by simp [Blk.request]
@[simp] theorem setRemote_mem (r : Remote) : (b.setRemote r).mem = b.mem := by simp [Blk.setRemote]
@[simp] theorem dropRemotes_mem (w : Requester) : (b.dropRemotes w).mem = b.mem := by simp [Blk.dropRemotes]
@[simp] theorem requestReads_mem (who : Requester) (part a off n : Nat) : (b.requestReads who part a off n).mem = b.mem := by simp [Blk.requestReads]
@[simp] theorem requestWrites_mem (who : Requester) (part a off : Nat) (v : List Byte) : (b.requestWrites who part a off v).mem = b.mem := by
  simp [Blk.requestWrites]
@[simp] theorem noticeFor_mem (p : Pkt) (cause : Nat) : (b.noticeFor p cause).mem = b.mem := by
  unfold Blk.noticeFor
  repeat' split
  all_goals simp
@[simp] theorem discardAt_mem (face : Nat) (p : Pkt) : (b.discardAt face p).mem = b.mem := by simp [Blk.discardAt]
@[simp] theorem forward_mem (p0 : Pkt) : (b.forward p0).mem = b.mem := by
  unfold Blk.forward
  simp only
  repeat' split
  all_goals simp
@[simp] theorem reportFace_mem (face : Nat) : (b.reportFace face).mem = b.mem := by unfold Blk.reportFace; split <;> simp
@[simp] theorem linkState_mem (k st : Nat) : (b.linkState k st).mem = b.mem := by simp [Blk.linkState]
@[simp] theorem moveTraffic_mem (k : Nat) : (b.moveTraffic k).mem = b.mem := by
  unfold Blk.moveTraffic
  simp only
  split
  · simp only [count_frame, foldl_mem, transmit_mem, implies_true]
    rw [foldl_mem _ _ fun x q => by split <;> simp]
    simp
  · simp
@[simp] theorem linkLeave_mem (k st : Nat) : (b.linkLeave k st).mem = b.mem := by simp [Blk.linkLeave]
@[simp] theorem linkDown_mem (k : Nat) : (b.linkDown k).mem = b.mem := by simp [Blk.linkDown]

/-! ### Dma -/

@[simp] theorem setDesc_mem (y : Nat) (d : Desc) : (b.setDesc y d).mem = b.mem := by simp [Blk.setDesc]
@[simp] theorem descEnd_mem (y : Nat) (d : Desc) (o : DescOut) : (b.descEnd y d o).mem = b.mem := by simp [Blk.descEnd]
@[simp] theorem hbmUe_mem (u part ctx seq : Nat) : (b.hbmUe u part ctx seq).mem = b.mem := by simp [Blk.hbmUe]
theorem chargeAll_mem {d : Desc} {y : Nat} {ws : List (Nat × Nat)} {x : Blk} (h : b.chargeAll d y ws = some x) : x.mem = b.mem := by
  unfold Blk.chargeAll at h
  simp only at h
  split at h
  · cases h
  · refine foldl_option_mem _ _ (fun z q w hz => ?_) _ h
    exact chargeInbox_mem hz
@[simp] theorem freeRun_mem (site n : Nat) : (b.freeRun site n).2.mem = b.mem := by simp [Blk.freeRun]
@[simp] theorem freeTab_mem (hl i : Nat) : (b.freeTab hl i).mem = b.mem := by simp [Blk.freeTab]
@[simp] theorem readPieces_mem (y : Nat) (d : Desc) (runs : List (Nat × Nat × Nat)) : (b.readPieces y d runs).mem = b.mem := by simp [Blk.readPieces]
@[simp] theorem submitDone_mem (c : Cmd) : (b.submitDone c).mem = b.mem := by
  unfold Blk.submitDone
  simp only
  repeat' split
  all_goals simp

/-! ### BlkOp -/

@[simp] theorem countOp_mem (y : Nat) : (b.countOp y).mem = b.mem := by simp [Blk.countOp]

/-! ### Regs -/

@[simp] theorem cfgRead_mem (off : Nat) : (b.cfgRead off).2.mem = b.mem := by
  unfold Blk.cfgRead
  simp only
  repeat' split
  all_goals simp
@[simp] theorem addCred_mem (kind src owner inbox units : Nat) : (b.addCred kind src owner inbox units).mem = b.mem := by
  unfold Blk.addCred
  split <;> simp
@[simp] theorem dropCred_mem (kind src owner inbox : Nat) : (b.dropCred kind src owner inbox).mem = b.mem := by unfold Blk.dropCred; split <;> simp
theorem inboxPut_mem {c i w : Nat} {x : Blk} (h : b.inboxPut c i w = .ok x) : x.mem = b.mem := by
  unfold Blk.inboxPut at h
  extract_lets y old n srcOk busy b0 rs at h
  repeat' split at h
  all_goals cases h
  all_goals simp [b0]
@[simp] theorem addProd_mem (p owner ring n : Nat) : (b.addProd p owner ring n).mem = b.mem := by unfold Blk.addProd; split <;> simp
@[simp] theorem dropProd_mem (p owner ring : Nat) : (b.dropProd p owner ring).mem = b.mem := by unfold Blk.dropProd; split <;> simp
theorem ringPut_mem {c r w t : Nat} {x : Blk} (h : b.ringPut c r w t = .ok x) : x.mem = b.mem := by
  unfold Blk.ringPut at h
  extract_lets y old n b0 at h
  repeat' split at h
  all_goals cases h
  all_goals simp [b0]
theorem slotmapPut_mem {c w : Nat} {x : Blk} (h : b.slotmapPut c w = .ok x) : x.mem = b.mem := by
  unfold Blk.slotmapPut at h
  simp only at h
  repeat' split at h
  all_goals cases h
  all_goals simp
theorem spillPutCfg_mem {c w0 w1 w2 w3 : Nat} {x : Blk} (h : b.spillPutCfg c w0 w1 w2 w3 = .ok x) : x.mem = b.mem := by
  unfold Blk.spillPutCfg at h
  simp only at h
  repeat' split at h
  all_goals cases h
  all_goals simp
@[simp] theorem watchPut_mem (p s ctl pol ts bs : Nat) : (b.watchPut p s ctl pol ts bs).mem = b.mem := by simp [Blk.watchPut]
theorem dvPut_mem {o w : Nat} {x : Blk} (h : b.dvPut o w = .ok x) : x.mem = b.mem := by
  unfold Blk.dvPut at h
  repeat' split at h
  all_goals cases h
  all_goals simp
theorem midPut_mem {blk u o w off : Nat} {x : Blk} (h : b.midPut blk u o w off = .ok x) : x.mem = b.mem := by
  unfold Blk.midPut at h
  simp only at h
  repeat' split at h
  all_goals cases h
  all_goals simp
@[simp] theorem doCfgRead_mem (c : Cmd) : (b.doCfgRead c).mem = b.mem := by
  unfold Blk.doCfgRead
  simp only
  repeat' split
  all_goals simp
@[simp] theorem measureWrite_mem (m : Msg) (offs : List Nat) : (b.measureWrite m offs).mem = b.mem := by simp [Blk.measureWrite]

/-! ### Ctx -/

@[simp] theorem badAt_mem (c : Cmd) (det : Nat) : (b.badAt c det).mem = b.mem := by simp [Blk.badAt]
@[simp] theorem busy_mem (c : Cmd) : (b.busy c).mem = b.mem := by simp [Blk.busy]
@[simp] theorem doNopCmd_mem (c : Cmd) : (b.doNopCmd c).mem = b.mem := by simp [Blk.doNopCmd]
@[simp] theorem doHello_mem (c : Cmd) : (b.doHello c).mem = b.mem := by simp [Blk.doHello]
@[simp] theorem doCtxOpen_mem (c : Cmd) : (b.doCtxOpen c).mem = b.mem := by simp [Blk.doCtxOpen]
@[simp] theorem moveCtx_mem (port n : Nat) : (b.moveCtx port n).mem = b.mem := by simp [Blk.moveCtx]
@[simp] theorem doPortFailover_mem (c : Cmd) : (b.doPortFailover c).mem = b.mem := by simp [Blk.doPortFailover]
@[simp] theorem doErrlogRead_mem (c : Cmd) : (b.doErrlogRead c).mem = b.mem := by simp [Blk.doErrlogRead]

/-! ### Prog -/

@[simp] theorem acceptEnd_mem (c : Cmd) (st det : Nat) (payload : List Byte) : (b.acceptEnd c st det payload).mem = b.mem := by simp [Blk.acceptEnd]
@[simp] theorem withCoves_mem (c : Cmd) (go : List Nat → Blk) (h : ∀ l, (go l).mem = b.mem) : (b.withCoves c go).mem = b.mem := by
  unfold Blk.withCoves
  simp only
  repeat' split
  all_goals simp [h]
@[simp] theorem setSlack_mem (v : Bool) (k : Option Nat) : (b.setSlack v k).mem = b.mem := by unfold Blk.setSlack; split <;> simp
@[simp] theorem wakeEvent_mem (bitmap : Nat) : (b.wakeEvent bitmap).mem = b.mem := by simp [Blk.wakeEvent]
@[simp] theorem measureLoad_mem (c : Cmd) (cs : List Nat) (more : List Byte) : (b.measureLoad c cs more).mem = b.mem := by simp [Blk.measureLoad]
@[simp] theorem startDone_mem (c : Cmd) (cs : List Nat) : (b.startDone c cs).mem = b.mem := by
  unfold Blk.startDone
  simp only
  repeat' split
  all_goals simp
@[simp] theorem startComplete_mem (ctx seq : Nat) : (b.startComplete ctx seq).mem = b.mem := by
  unfold Blk.startComplete
  repeat' split
  all_goals simp
@[simp] theorem pollProgStop_mem (c : Cmd) : (b.pollProgStop c).mem = b.mem := by unfold Blk.pollProgStop; split <;> simp

/-! ### Spans -/

@[simp] theorem withPart_mem (c : Cmd) (go : Nat → Blk) (h : ∀ p, (go p).mem = b.mem) : (b.withPart c go).mem = b.mem := by
  unfold Blk.withPart
  repeat' split
  all_goals simp [h]
@[simp] theorem doWatchSet_mem (c : Cmd) : (b.doWatchSet c).mem = b.mem := by
  refine withPart_mem _ _ fun p => ?_
  dsimp only
  repeat' split
  all_goals simp
@[simp] theorem doSpanOpen_mem (c : Cmd) : (b.doSpanOpen c).mem = b.mem := by
  refine withPart_mem _ _ fun p => ?_
  dsimp only
  repeat' split
  all_goals simp
theorem logCmd_mem {c : Cmd} {x : Blk} (h : b.logCmd c = .ok x) : x.mem = b.mem := by
  unfold Blk.logCmd at h
  simp only at h
  repeat' split at h
  all_goals cases h
  all_goals simp
@[simp] theorem doSpanClose_mem (c : Cmd) : (b.doSpanClose c).mem = b.mem := by simp [Blk.doSpanClose]
@[simp] theorem logReplies_mem (l : List LogCmd) : (b.logReplies l).mem = b.mem := by simp [Blk.logReplies]
@[simp] theorem spanEnd_mem (p n st det : Nat) : (b.spanEnd p n st det).mem = b.mem := by
  unfold Blk.spanEnd
  simp only
  repeat' split
  all_goals simp
@[simp] theorem commitPoint_mem (p n : Nat) : (b.commitPoint p n).mem = b.mem := by
  unfold Blk.commitPoint
  simp only
  repeat' split
  all_goals simp
@[simp] theorem withdraw_mem (l : List LogCmd) : (b.withdraw l).mem = b.mem := by simp [Blk.withdraw]
@[simp] theorem freeSpans_mem (is : Nat → Span → Bool) : (b.freeSpans is).mem = b.mem := by simp [Blk.freeSpans]

/-! ### MemCmd -/

@[simp] theorem returnData_mem (c : Cmd) (v : List Byte) (st det : Nat) : (b.returnData c v st det).mem = b.mem := by simp [Blk.returnData]
@[simp] theorem memReadGo_mem (c : Cmd) : (b.memReadGo c).mem = b.mem := by
  unfold Blk.memReadGo
  simp only
  repeat' split
  all_goals simp
@[simp] theorem doMemRead_mem (c : Cmd) : (b.doMemRead c).mem = b.mem := by simp [Blk.doMemRead]
@[simp] theorem queueDescs_mem (c : Cmd) (y n : Nat) : (b.queueDescs c y n).mem = b.mem := by simp [Blk.queueDescs]
@[simp] theorem doDmaSubmit_mem (c : Cmd) : (b.doDmaSubmit c).mem = b.mem := by
  unfold Blk.doDmaSubmit
  simp only
  repeat' split
  all_goals simp
@[simp] theorem doTableBuild_mem (c : Cmd) : (b.doTableBuild c).mem = b.mem := by
  unfold Blk.doTableBuild
  dsimp only
  repeat' split
  case h_2 h => simp [reserveTab_mem h]
  all_goals simp
@[simp] theorem tableDone_mem (ctx seq : Nat) : (b.tableDone ctx seq).mem = b.mem := by
  unfold Blk.tableDone
  simp only
  repeat' split
  all_goals simp
@[simp] theorem doCacheInvalidate_mem (c : Cmd) : (b.doCacheInvalidate c).mem = b.mem := by simp [Blk.doCacheInvalidate]
@[simp] theorem grantArrive_mem (c i : Nat) : (b.grantArrive c i).mem = b.mem := by
  unfold Blk.grantArrive
  simp only
  repeat' split
  all_goals simp
@[simp] theorem spillStart_mem (c : Nat) : (b.spillStart c).mem = b.mem := by simp [Blk.spillStart]
@[simp] theorem cacheChangeDone_mem (c : Nat) : (b.cacheChangeDone c).mem = b.mem := by simp [Blk.cacheChangeDone]
@[simp] theorem hbmCe_mem (u part : Nat) : (b.hbmCe u part).mem = b.mem := by simp [Blk.hbmCe]
@[simp] theorem hbmRefresh_mem (k : Nat) : (b.hbmRefresh k).mem = b.mem := by simp [Blk.hbmRefresh]
@[simp] theorem hbmTemp_mem (k t : Nat) : (b.hbmTemp k t).mem = b.mem := by simp [Blk.hbmTemp]

/-! ### Serving -/

@[simp] theorem refillAll_mem (p : Nat) : (b.refillAll p).mem = b.mem := by simp [Blk.refillAll]
@[simp] theorem doAccountSet_mem (c : Cmd) : (b.doAccountSet c).mem = b.mem := by simp [Blk.doAccountSet]
@[simp] theorem endReq_mem (p : Nat) (r : Req) (st : Nat) : (b.endReq p r st).mem = b.mem := by unfold Blk.endReq; simp only; split <;> simp
@[simp] theorem cancelReq_mem (p : Nat) (r : Req) : (b.cancelReq p r).mem = b.mem := by simp [Blk.cancelReq]
@[simp] theorem doReqCancel_mem (c : Cmd) : (b.doReqCancel c).mem = b.mem := by
  refine withPart_mem _ _ fun p => ?_
  dsimp only
  repeat' split
  all_goals simp
@[simp] theorem doReqSubmit_mem (c : Cmd) : (b.doReqSubmit c).mem = b.mem := by
  refine withPart_mem _ _ fun p => ?_
  extract_lets x r a f
  clear_value f
  repeat' split
  all_goals simp
@[simp] theorem startPool_mem (p : Nat) (q : Plan) (s : Step) (prefill : Bool) : (b.startPool p q s prefill).mem = b.mem := by simp [Blk.startPool]
@[simp] theorem endCancelled_mem (p : Nat) : (b.endCancelled p).mem = b.mem := by simp [Blk.endCancelled]
@[simp] theorem stepOutput_mem (p : Nat) (s : Step) (at0 : Nat) (outs : List (Nat × Bool × List Byte)) (c : Nat) :
    (b.stepOutput p s at0 outs c).mem = b.mem := by
  simp [Blk.stepOutput]
@[simp] theorem cancelReqs_mem (is : Req → Bool) : (b.cancelReqs is).mem = b.mem := by simp [Blk.cancelReqs]
@[simp] theorem killServe_mem (p : Nat) : (b.killServe p).mem = b.mem := by simp [Blk.killServe]
@[simp] theorem haltServing_mem : b.haltServing.mem = b.mem := by simp [Blk.haltServing]

/-! ### Links -/

@[simp] theorem resetDone_mem (kind target bitmap : Nat) (part : Option Nat) : (b.resetDone kind target bitmap part).mem = b.mem := by
  unfold Blk.resetDone
  split <;> simp
@[simp] theorem linkSend_mem (k : Nat) (msg : List Byte) : (b.linkSend k msg).mem = b.mem := by simp [Blk.linkSend]
@[simp] theorem linkCmdEnd_mem (k : Nat) (kinds : List Nat) (st det : Nat) (payload : List Byte) :
    (b.linkCmdEnd k kinds st det payload).mem = b.mem := by
  unfold Blk.linkCmdEnd
  simp only
  repeat' split
  all_goals simp
@[simp] theorem applyCheck_mem (k : Nat) : (b.applyCheck k).mem = b.mem := by simp [Blk.applyCheck]
@[simp] theorem recheck_mem (k : Nat) : (b.recheck k).mem = b.mem := by simp [Blk.recheck]
@[simp] theorem linkSignal_mem (k : Nat) : (b.linkSignal k).mem = b.mem := by simp [Blk.linkSignal]
@[simp] theorem linkTrained_mem (k : Nat) : (b.linkTrained k).mem = b.mem := by simp [Blk.linkTrained]
@[simp] theorem linkTrainFail_mem (k : Nat) : (b.linkTrainFail k).mem = b.mem := by simp [Blk.linkTrainFail]
@[simp] theorem linkIdentity_mem (k serial devid port slice : Nat) : (b.linkIdentity k serial devid port slice).mem = b.mem := by
  simp [Blk.linkIdentity]
@[simp] theorem retrain_mem (k : Nat) : (b.retrain k).mem = b.mem := by simp [Blk.retrain]
@[simp] theorem linkWait_mem (k kind : Nat) (c : Cmd) : (b.linkWait k kind c).mem = b.mem := by simp [Blk.linkWait]
@[simp] theorem linkActivate_mem (k : Nat) : (b.linkActivate k).mem = b.mem := by simp [Blk.linkActivate]
@[simp] theorem doLinkSet_mem (c : Cmd) : (b.doLinkSet c).mem = b.mem := by simp [Blk.doLinkSet]
@[simp] theorem linkAskTimeout_mem (k : Nat) : (b.linkAskTimeout k).mem = b.mem := by simp [Blk.linkAskTimeout]
@[simp] theorem linkAskRx_mem (k : Nat) : (b.linkAskRx k).mem = b.mem := by simp [Blk.linkAskRx]
@[simp] theorem linkFenceRx_mem (k : Nat) : (b.linkFenceRx k).mem = b.mem := by simp [Blk.linkFenceRx]
@[simp] theorem disableLink_mem (k : Nat) : (b.disableLink k).mem = b.mem := by simp [Blk.disableLink]
@[simp] theorem doCablingPlan_mem (c : Cmd) : (b.doCablingPlan c).mem = b.mem := by
  unfold Blk.doCablingPlan
  repeat' split
  all_goals simp
@[simp] theorem startSwitch_mem (k kind arg : Nat) : (b.startSwitch k kind arg).mem = b.mem := by simp [Blk.startSwitch]
@[simp] theorem recoverLanes_mem (k : Nat) : (b.recoverLanes k).mem = b.mem := by
  unfold Blk.recoverLanes
  simp only
  repeat' split
  all_goals simp
@[simp] theorem laneRecord_mem (k lane : Nat) (spared : Bool) : (b.laneRecord k lane spared).mem = b.mem := by simp [Blk.laneRecord]
@[simp] theorem laneFail_mem (k lane : Nat) : (b.laneFail k lane).mem = b.mem := by simp [Blk.laneFail]
@[simp] theorem laneDark_mem (k lane : Nat) : (b.laneDark k lane).mem = b.mem := by simp [Blk.laneDark]
@[simp] theorem switchDone_mem (k : Nat) : (b.switchDone k).mem = b.mem := by unfold Blk.switchDone; simp only; split <;> simp
@[simp] theorem laneMsg_mem (k kind arg : Nat) : (b.laneMsg k kind arg).mem = b.mem := by simp [Blk.laneMsg]
@[simp] theorem doLaneSpareLink_mem (c : Cmd) : (b.doLaneSpareLink c).mem = b.mem := by simp [Blk.doLaneSpareLink]
@[simp] theorem resend_mem (k i : Nat) : (b.resend k i).mem = b.mem := by simp [Blk.resend]
@[simp] theorem linkNakRx_mem (k fseq : Nat) : (b.linkNakRx k fseq).mem = b.mem := by unfold Blk.linkNakRx; split <;> simp
@[simp] theorem replayTimeout_mem (k : Nat) : (b.replayTimeout k).mem = b.mem := by simp [Blk.replayTimeout]
@[simp] theorem flitNak_mem (k : Nat) : (b.flitNak k).mem = b.mem := by simp [Blk.flitNak]

/-! ### Slice -/

@[simp] theorem identities_mem : b.identities.mem = b.mem := by simp [Blk.identities]
@[simp] theorem join_mem (v : List Byte) : (b.join v).mem = b.mem := by simp [Blk.join]
@[simp] theorem leaveSlice_mem : b.leaveSlice.mem = b.mem := by simp [Blk.leaveSlice]
@[simp] theorem doSliceJoin_mem (c : Cmd) : (b.doSliceJoin c).mem = b.mem := by
  unfold Blk.doSliceJoin
  simp only
  repeat' split
  all_goals simp
@[simp] theorem doRouteShadow_mem (c : Cmd) : (b.doRouteShadow c).mem = b.mem := by simp [Blk.doRouteShadow]
@[simp] theorem setWindow_mem (i : Nat) (x : Window) : (b.setWindow i x).mem = b.mem := by simp [Blk.setWindow]
@[simp] theorem doWindowOpen_mem (c : Cmd) : (b.doWindowOpen c).mem = b.mem := by
  unfold Blk.doWindowOpen
  repeat' split
  all_goals simp
@[simp] theorem doWindowClose_mem (c : Cmd) : (b.doWindowClose c).mem = b.mem := by simp [Blk.doWindowClose]
@[simp] theorem closeWindows_mem (is : Window → Bool) : (b.closeWindows is).mem = b.mem := by simp [Blk.closeWindows]
@[simp] theorem pktHold_mem (p : Pkt) : (b.pktHold p).mem = b.mem := by
  unfold Blk.pktHold
  repeat' split
  all_goals simp
@[simp] theorem pktRead_mem (p : Pkt) : (b.pktRead p).mem = b.mem := by
  unfold Blk.pktRead
  simp only
  repeat' split
  all_goals simp
@[simp] theorem pktReply_mem (p : Pkt) (kind : Nat) : (b.pktReply p kind).mem = b.mem := by unfold Blk.pktReply; split <;> simp
@[simp] theorem pktNotice_mem (p : Pkt) : (b.pktNotice p).mem = b.mem := by
  unfold Blk.pktNotice
  simp only
  repeat' split
  all_goals simp
@[simp] theorem remoteTimeout_mem (tag : Nat) : (b.remoteTimeout tag).mem = b.mem := by unfold Blk.remoteTimeout; split <;> simp

/-! ### Coll -/

@[simp] theorem collSend_mem (p : Pkt) : (b.collSend p).mem = b.mem := by unfold Blk.collSend; simp only; split <;> simp
@[simp] theorem collAll_mem (ch : Nat) (x : Chan) (kind seq sig : Nat) (data : List Byte) : (b.collAll ch x kind seq sig data).mem = b.mem := by
  simp [Blk.collAll]
@[simp] theorem collChunk_mem (ch m chunk : Nat) (data : List Byte) : (b.collChunk ch m chunk data).mem = b.mem := by
  unfold Blk.collChunk
  simp only
  split <;> simp
@[simp] theorem flushOwed_mem (ch : Nat) : (b.flushOwed ch).mem = b.mem := by
  unfold Blk.flushOwed
  simp only [setChan_frame]
  refine foldl_fst_mem _ _ _ fun s q => ?_
  split <;> simp
@[simp] theorem collFail_mem (ch st det : Nat) (tell : Bool) : (b.collFail ch st det tell).mem = b.mem := by simp [Blk.collFail]
@[simp] theorem sendSum_mem (ch : Nat) : (b.sendSum ch).mem = b.mem := by
  unfold Blk.sendSum
  simp only
  repeat' split
  all_goals simp
@[simp] theorem collDone_mem (ch : Nat) : (b.collDone ch).mem = b.mem := by unfold Blk.collDone; simp only; split <;> simp
@[simp] theorem anyOrder_mem (n : Nat) (l : List (List Byte)) : (b.anyOrder n l).2.mem = b.mem := by
  induction n generalizing b l with
  | zero => rfl
  | succ n ih =>
    unfold Blk.anyOrder
    split
    · rfl
    · simp [ih]
@[simp] theorem engineRead_mem (part a n : Nat) : (b.engineRead part a n).2.mem = b.mem := by unfold Blk.engineRead; split <;> simp
@[simp] theorem deviceSum_mem (x : Chan) (recs : List (List Byte)) : (b.deviceSum x recs).2.mem = b.mem := by
  unfold Blk.deviceSum
  simp only
  split <;> simp
@[simp] theorem collNotice_mem (cause : Nat) (p : Pkt) : (b.collNotice cause p).mem = b.mem := by unfold Blk.collNotice; simp only; split <;> simp
@[simp] theorem collNotices_mem (n : Nat) : (b.collNotices n).mem = b.mem := by
  induction n generalizing b with
  | zero => rfl
  | succ n ih =>
    unfold Blk.collNotices
    split
    · rfl
    · simp [ih]
@[simp] theorem collResend_mem (ch : Nat) : (b.collResend ch).mem = b.mem := by
  unfold Blk.collResend
  simp only
  repeat' split
  all_goals simp
@[simp] theorem collTimeout_mem (ch : Nat) : (b.collTimeout ch).mem = b.mem := by simp [Blk.collTimeout]
@[simp] theorem collMissing_mem (d : Nat) : (b.collMissing d).mem = b.mem := by
  unfold Blk.collMissing
  exact foldl_mem _ _ fun x ch => by split <;> simp
@[simp] theorem collCoveLost_mem (c : Nat) : (b.collCoveLost c).mem = b.mem := by simp [Blk.collCoveLost]
@[simp] theorem doChanOpen_mem (c : Cmd) : (b.doChanOpen c).mem = b.mem := by
  refine withPart_mem _ _ fun p => ?_
  dsimp only
  repeat' split
  all_goals simp
@[simp] theorem closeChan_mem (ch : Nat) : (b.closeChan ch).mem = b.mem := by simp [Blk.closeChan]
@[simp] theorem closeChans_mem (part : Nat) : (b.closeChans part).mem = b.mem := by simp [Blk.closeChans]
@[simp] theorem doChanClose_mem (c : Cmd) : (b.doChanClose c).mem = b.mem := by simp [Blk.doChanClose]

/-! ### Sync -/

@[simp] theorem sendCtl_mem (p : Pkt) : (b.sendCtl p).mem = b.mem := by simp [Blk.sendCtl]
@[simp] theorem floodOn_mem (p : Pkt) (except : Option Nat) : (b.floodOn p except).mem = b.mem := by
  unfold Blk.floodOn
  exact foldl_mem _ _ fun x f => by split <;> simp
@[simp] theorem flood_mem (p : Pkt) : (b.flood p).mem = b.mem := by simp [Blk.flood]
@[simp] theorem forwardFlood_mem (k : Nat) (p : Pkt) : (b.forwardFlood k p).mem = b.mem := by simp [Blk.forwardFlood]
@[simp] theorem tideSend_mem : b.tideSend.mem = b.mem := by
  unfold Blk.tideSend
  exact foldl_mem _ _ fun x f => by split <;> simp
@[simp] theorem tideRx_mem (k : Nat) (p : Pkt) : (b.tideRx k p).mem = b.mem := by simp [Blk.tideRx]
@[simp] theorem tideHoldover_mem : b.tideHoldover.mem = b.mem := by simp [Blk.tideHoldover]
@[simp] theorem ppsEdge_mem : b.ppsEdge.mem = b.mem := by simp [Blk.ppsEdge]
@[simp] theorem ppsExpiry_mem : b.ppsExpiry.mem = b.mem := by simp [Blk.ppsExpiry]
@[simp] theorem trefLoss_mem : b.trefLoss.mem = b.mem := by simp [Blk.trefLoss]
@[simp] theorem trefReturn_mem : b.trefReturn.mem = b.mem := by simp [Blk.trefReturn]
@[simp] theorem barEnd_mem (n st det : Nat) (payload : List Byte) : (b.barEnd n st det payload).mem = b.mem := by
  unfold Blk.barEnd
  simp only
  repeat' split
  all_goals simp
@[simp] theorem barArrive_mem (dev n : Nat) : (b.barArrive dev n).mem = b.mem := by simp [Blk.barArrive]
@[simp] theorem barArriveRx_mem (p : Pkt) : (b.barArriveRx p).mem = b.mem := by simp [Blk.barArriveRx]
@[simp] theorem barReleaseRx_mem (k : Nat) (p : Pkt) : (b.barReleaseRx k p).mem = b.mem := by simp [Blk.barReleaseRx]
@[simp] theorem barMissing_mem (d : Nat) : (b.barMissing d).mem = b.mem := by simp [Blk.barMissing]
@[simp] theorem doSliceBarrier_mem (c : Cmd) : (b.doSliceBarrier c).mem = b.mem := by unfold Blk.doSliceBarrier; split <;> simp
@[simp] theorem releaseHeld_mem : b.releaseHeld.mem = b.mem := by
  unfold Blk.releaseHeld
  exact foldl_mem _ _ fun x p => by
    dsimp only
    repeat' split
    all_goals simp
@[simp] theorem modeDrop_mem (dev unit : Nat) : (b.modeDrop dev unit).mem = b.mem := by simp [Blk.modeDrop]
@[simp] theorem modeAbort_mem (dev unit st det : Nat) : (b.modeAbort dev unit st det).mem = b.mem := by
  unfold Blk.modeAbort
  simp only
  repeat' split
  all_goals simp
@[simp] theorem modeCommit_mem : b.modeCommit.mem = b.mem := by simp [Blk.modeCommit]
@[simp] theorem modeAcked_mem : b.modeAcked.mem = b.mem := by simp [Blk.modeAcked]
@[simp] theorem doModePrepare_mem (c : Cmd) : (b.doModePrepare c).mem = b.mem := by
  unfold Blk.doModePrepare
  simp only
  repeat' split
  all_goals simp
@[simp] theorem modePrepareRx_mem (k : Nat) (p : Pkt) : (b.modePrepareRx k p).mem = b.mem := by simp [Blk.modePrepareRx]
@[simp] theorem modeAckRx_mem (p : Pkt) : (b.modeAckRx p).mem = b.mem := by simp [Blk.modeAckRx]
@[simp] theorem modeAckTimeout_mem : b.modeAckTimeout.mem = b.mem := by simp [Blk.modeAckTimeout]
@[simp] theorem modeSwitch_mem (e : Nat) (v : List Byte) : (b.modeSwitch e v).mem = b.mem := by
  unfold Blk.modeSwitch
  simp only
  repeat' split
  all_goals simp
@[simp] theorem modeEpoch_mem : b.modeEpoch.mem = b.mem := by unfold Blk.modeEpoch; split <;> simp
@[simp] theorem modeCommitRx_mem (k : Nat) (p : Pkt) : (b.modeCommitRx k p).mem = b.mem := by
  unfold Blk.modeCommitRx
  simp only
  repeat' split
  all_goals simp
@[simp] theorem commitAckRx_mem (p : Pkt) : (b.commitAckRx p).mem = b.mem := by simp [Blk.commitAckRx]
@[simp] theorem modeResend_mem : b.modeResend.mem = b.mem := by simp [Blk.modeResend]
@[simp] theorem modeAbortRx_mem (k : Nat) (p : Pkt) : (b.modeAbortRx k p).mem = b.mem := by simp [Blk.modeAbortRx]
@[simp] theorem modeInDoubt_mem : b.modeInDoubt.mem = b.mem := by simp [Blk.modeInDoubt]
@[simp] theorem setMissing_mem (d : Nat) (on : Bool) : (b.setMissing d on).mem = b.mem := by simp [Blk.setMissing]
@[simp] theorem broadcastMissing_mem (d : Nat) (on : Bool) : (b.broadcastMissing d on).mem = b.mem := by simp [Blk.broadcastMissing]
@[simp] theorem missingRx_mem (k : Nat) (p : Pkt) : (b.missingRx k p).mem = b.mem := by simp [Blk.missingRx]
@[simp] theorem missingTimer_mem (d : Nat) : (b.missingTimer d).mem = b.mem := by simp [Blk.missingTimer]
@[simp] theorem clearMissing_mem : b.clearMissing.mem = b.mem := by simp [Blk.clearMissing]
@[simp] theorem faceStateRx_mem (p : Pkt) : (b.faceStateRx p).mem = b.mem := by simp [Blk.faceStateRx]

/-! ### Wipe -/

@[simp] theorem freeEngines_mem (c : Nat) : (b.freeEngines c).mem = b.mem := by simp [Blk.freeEngines]
@[simp] theorem stopNow_mem (c : Nat) : (b.stopNow c).mem = b.mem := by simp [Blk.stopNow]
@[simp] theorem cfgLose_mem (blk unit : Nat) (is : Nat → Bool) : (b.cfgLose blk unit is).mem = b.mem := by simp [Blk.cfgLose]
@[simp] theorem detach_mem (ctx seq : Nat) : (b.detach ctx seq).mem = b.mem := by simp [Blk.detach]
@[simp] theorem cancelCmd_mem (c : Cmd) : (b.cancelCmd c).mem = b.mem := by simp [Blk.cancelCmd]
@[simp] theorem cancelCmds_mem (l : List Cmd) : (b.cancelCmds l).mem = b.mem := by
  unfold Blk.cancelCmds
  exact foldl_mem _ _ fun x c => by split <;> simp
@[simp] theorem endAll_mem (but : Option (Nat × Nat)) (st det : Nat) : (b.endAll but st det).mem = b.mem := by simp [Blk.endAll]
@[simp] theorem ctxGone_mem (n : Nat) : (b.ctxGone n).mem = b.mem := by simp [Blk.ctxGone]
@[simp] theorem pollCtxClose_mem (c : Cmd) : (b.pollCtxClose c).mem = b.mem := by simp [Blk.pollCtxClose]
@[simp] theorem clearingEnd_mem (v : Nat) : (b.clearingEnd v).mem = b.mem := by simp [Blk.clearingEnd]
@[simp] theorem scrubDone_mem (p : Nat) (zeroed : Bool) : (b.scrubDone p zeroed).mem = b.mem := by simp [Blk.scrubDone]
@[simp] theorem doPartCreate_mem (c : Cmd) : (b.doPartCreate c).mem = b.mem := by simp [Blk.doPartCreate]
@[simp] theorem doPartKey_mem (c : Cmd) : (b.doPartKey c).mem = b.mem := by
  unfold Blk.doPartKey
  simp only
  repeat' split
  all_goals simp

/-! ### Power -/

@[simp] theorem deviceResetDone_mem : b.deviceResetDone.mem = b.mem := by simp [Blk.deviceResetDone]
@[simp] theorem mrstRelease_mem : b.mrstRelease.mem = b.mem := by simp [Blk.mrstRelease]
@[simp] theorem errorOnOther_mem (r : ErrRec) : (b.errorOnOther r).mem = b.mem := by simp [Blk.errorOnOther]
@[simp] theorem enterFatal_mem (code kind path detail : Nat) : (b.enterFatal code kind path detail).mem = b.mem := by
  unfold Blk.enterFatal
  simp only
  repeat' split
  all_goals simp
@[simp] theorem mainFault_mem (mv : Nat) : (b.mainFault mv).mem = b.mem := by simp [Blk.mainFault]
@[simp] theorem mainWarn_mem (mv : Nat) : (b.mainWarn mv).mem = b.mem := by simp [Blk.mainWarn]
@[simp] theorem mainInRange_mem (mv : Nat) : (b.mainInRange mv).mem = b.mem := by simp [Blk.mainInRange]
@[simp] theorem sysclkLoss_mem : b.sysclkLoss.mem = b.mem := by simp [Blk.sysclkLoss]
@[simp] theorem stopIntake_mem : b.stopIntake.mem = b.mem := by simp [Blk.stopIntake]
@[simp] theorem closeXing_mem (kind idx : Nat) : (b.closeXing kind idx).mem = b.mem := by simp [Blk.closeXing]
@[simp] theorem openXing_mem (kind idx : Nat) : (b.openXing kind idx).mem = b.mem := by simp [Blk.openXing]
@[simp] theorem resetLighthouse_mem (c : Cmd) : (b.resetLighthouse c).mem = b.mem := by simp [Blk.resetLighthouse]
@[simp] theorem resetLink_mem (k : Nat) (c : Cmd) : (b.resetLink k c).mem = b.mem := by simp [Blk.resetLink]
@[simp] theorem resetStack_mem (k : Nat) (c : Cmd) : (b.resetStack k c).mem = b.mem := by simp [Blk.resetStack]
@[simp] theorem pollSlack_mem (c : Cmd) : (b.pollSlack c).mem = b.mem := by simp [Blk.pollSlack]
@[simp] theorem enterLow_mem (c : Cmd) (tgt : Nat) : (b.enterLow c tgt).mem = b.mem := by simp [Blk.enterLow]
@[simp] theorem wake_mem (c : Cmd) : (b.wake c).mem = b.mem := by simp [Blk.wake]
@[simp] theorem loseNeap_mem : b.loseNeap.mem = b.mem := by simp [Blk.loseNeap]
@[simp] theorem changerEnd_mem : b.changerEnd.mem = b.mem := by
  unfold Blk.changerEnd
  simp only
  repeat' split
  all_goals simp
@[simp] theorem wakeDone_mem : b.wakeDone.mem = b.mem := by simp [Blk.wakeDone]

/-! ### Service -/

@[simp] theorem readyEvent_mem (kind idx result : Nat) : (b.readyEvent kind idx result).mem = b.mem := by simp [Blk.readyEvent]
@[simp] theorem draw_mem (site n : Nat) : (b.draw site n).2.mem = b.mem := by simp [Blk.draw]
@[simp] theorem doFwLoad_mem (c : Cmd) : (b.doFwLoad c).mem = b.mem := by simp [Blk.doFwLoad]
@[simp] theorem bootAccept_mem (v : List Byte) : (b.bootAccept v).mem = b.mem := by simp [Blk.bootAccept]
@[simp] theorem fwVerifyDone_mem : b.fwVerifyDone.mem = b.mem := by
  unfold Blk.fwVerifyDone
  simp only
  repeat' split
  all_goals simp
@[simp] theorem certSigned_mem : b.certSigned.mem = b.mem := by simp [Blk.certSigned]
@[simp] theorem pollAttest_mem (c : Cmd) : (b.pollAttest c).mem = b.mem := by simp [Blk.pollAttest]
@[simp] theorem doAttest_mem (c : Cmd) : (b.doAttest c).mem = b.mem := by simp [Blk.doAttest]
@[simp] theorem trainLane_mem (k n : Nat) : (b.trainLane k n).mem = b.mem := by simp [Blk.trainLane]
@[simp] theorem stackTrained_mem (k : Nat) (failed : Bool) (lanes : List Nat) : (b.stackTrained k failed lanes).mem = b.mem := by
  unfold Blk.stackTrained
  simp only
  repeat' split
  all_goals simp
@[simp] theorem selftestDone_mem (hl : Nat) (failed : List Nat) (unmasked : Bool) : (b.selftestDone hl failed unmasked).mem = b.mem := by
  simp [Blk.selftestDone]
@[simp] theorem doHbmRepair_mem (c : Cmd) : (b.doHbmRepair c).mem = b.mem := by simp [Blk.doHbmRepair]
@[simp] theorem repairDone_mem (k : Nat) : (b.repairDone k).mem = b.mem := by
  unfold Blk.repairDone
  simp only
  repeat' split
  all_goals simp
@[simp] theorem doLaneSpareStack_mem (c : Cmd) : (b.doLaneSpareStack c).mem = b.mem := by simp [Blk.doLaneSpareStack]
@[simp] theorem stackLaneDone_mem (k : Nat) : (b.stackLaneDone k).mem = b.mem := by
  unfold Blk.stackLaneDone
  simp only
  repeat' split
  all_goals simp
@[simp] theorem doLaneSpare_mem (c : Cmd) : (b.doLaneSpare c).mem = b.mem := by simp [Blk.doLaneSpare]
@[simp] theorem coreFault_mem (core code : Nat) : (b.coreFault core code).mem = b.mem := by simp [Blk.coreFault]
@[simp] theorem doLhSpare_mem (c : Cmd) : (b.doLhSpare c).mem = b.mem := by simp [Blk.doLhSpare]
@[simp] theorem doFwStage_mem (c : Cmd) : (b.doFwStage c).mem = b.mem := by simp [Blk.doFwStage]
@[simp] theorem doFwActivate_mem (c : Cmd) : (b.doFwActivate c).mem = b.mem := by simp [Blk.doFwActivate]
@[simp] theorem endOf_mem (w : Option (Nat × Nat)) (st det : Nat) (pay : List Byte) : (b.endOf w st det pay).mem = b.mem := by
  unfold Blk.endOf
  split <;> simp
@[simp] theorem activated_mem : b.activated.mem = b.mem := by unfold Blk.activated; split <;> simp
@[simp] theorem coreSpared_mem : b.coreSpared.mem = b.mem := by
  unfold Blk.coreSpared
  simp only
  repeat' split
  all_goals simp
@[simp] theorem lhRestarted_mem : b.lhRestarted.mem = b.mem := by unfold Blk.lhRestarted; split <;> simp
@[simp] theorem intakeOpen_mem : b.intakeOpen.mem = b.mem := by simp [Blk.intakeOpen]
@[simp] theorem activateFailed_mem : b.activateFailed.mem = b.mem := by unfold Blk.activateFailed; split <;> simp
@[simp] theorem windowEnd_mem : b.windowEnd.mem = b.mem := by simp [Blk.windowEnd]
@[simp] theorem lrefSet_mem (ref : Nat) (ok : Bool) : (b.lrefSet ref ok).mem = b.mem := by simp [Blk.lrefSet]
@[simp] theorem lrefLoss_mem (ref : Nat) : (b.lrefLoss ref).mem = b.mem := by simp [Blk.lrefLoss]
@[simp] theorem lrefReturn_mem (ref : Nat) : (b.lrefReturn ref).mem = b.mem := by simp [Blk.lrefReturn]
@[simp] theorem thermalEvent_mem (start : Bool) : (b.thermalEvent start).mem = b.mem := by simp [Blk.thermalEvent]
@[simp] theorem stepDown_mem (die temp : Nat) : (b.stepDown die temp).mem = b.mem := by simp [Blk.stepDown]
@[simp] theorem stepUp_mem (die temp : Nat) : (b.stepUp die temp).mem = b.mem := by simp [Blk.stepUp]
@[simp] theorem thermalTrip_mem (die temp : Nat) : (b.thermalTrip die temp).mem = b.mem := by simp [Blk.thermalTrip]
@[simp] theorem xingReopen_mem (kind idx : Nat) : (b.xingReopen kind idx).mem = b.mem := by simp [Blk.xingReopen]
@[simp] theorem smbSay_mem (v : List Byte) : (b.smbSay v).mem = b.mem := by simp [Blk.smbSay]
@[simp] theorem smbClear_mem (v : Nat) : (b.smbClear v).mem = b.mem := by simp [Blk.smbClear]
@[simp] theorem smbMask_mem (v : Nat) : (b.smbMask v).mem = b.mem := by simp [Blk.smbMask]
@[simp] theorem tapLoad_mem (ir : Nat) (dr : List Byte) : (b.tapLoad ir dr).mem = b.mem := by simp [Blk.tapLoad]

/-! ### Beacon -/

@[simp] theorem portCount_mem (p off n : Nat) : (b.portCount p off n).mem = b.mem := by simp [Blk.portCount]
@[simp] theorem bulkBad_mem (c : Cmd) : (b.bulkBad c).mem = b.mem := by simp [Blk.bulkBad]
@[simp] theorem logBulk_mem (ctx seq : Nat) (d : List Byte) : (b.logBulk ctx seq d).mem = b.mem := by simp [Blk.logBulk]
@[simp] theorem bulkRx_mem (port : Nat) (v : List Byte) : (b.bulkRx port v).mem = b.mem := by
  unfold Blk.bulkRx
  simp only
  repeat' split
  all_goals simp
@[simp] theorem bulkArrive_mem (port : Nat) (v : List Byte) : (b.bulkArrive port v).mem = b.mem := by simp [Blk.bulkArrive]
@[simp] theorem receive_mem (m : Msg) : (b.receive m).mem = b.mem := by simp [Blk.receive]
@[simp] theorem takeAck_mem (p ack : Nat) : (b.takeAck p ack).mem = b.mem := by simp [Blk.takeAck]
@[simp] theorem useCredit_mem (p n : Nat) : (b.useCredit p n).mem = b.mem := by simp [Blk.useCredit]
@[simp] theorem frameBody_mem (p type : Nat) (v : List Byte) : (b.frameBody p type v).mem = b.mem := by simp [Blk.frameBody]
@[simp] theorem frameRx_mem (p : Nat) (f : List Byte) : (b.frameRx p f).mem = b.mem := by
  unfold Blk.frameRx
  simp only
  repeat' split
  all_goals simp
@[simp] theorem resendTimeout_mem (p : Nat) : (b.resendTimeout p).mem = b.mem := by simp [Blk.resendTimeout]
@[simp] theorem laneLoss_mem (p lane : Nat) : (b.laneLoss p lane).mem = b.mem := by simp [Blk.laneLoss]
@[simp] theorem sendRaw_mem (o : Out) : (b.sendRaw o).mem = b.mem := by simp [Blk.sendRaw]
@[simp] theorem failover_mem (p : Nat) (ms : List Nat) (tx : List Out) : (b.failover p ms tx).mem = b.mem := by simp [Blk.failover]
@[simp] theorem holdBack_mem (tx : List Out) : (b.holdBack tx).mem = b.mem := by
  unfold Blk.holdBack
  exact foldl_mem _ _ fun x q => by simp
@[simp] theorem portDown_mem (p : Nat) : (b.portDown p).mem = b.mem := by simp [Blk.portDown]
@[simp] theorem portTrained_mem (p : Nat) : (b.portTrained p).mem = b.mem := by simp [Blk.portTrained]
@[simp] theorem portRetry_mem (p : Nat) (trained : Bool) : (b.portRetry p trained).mem = b.mem := by simp [Blk.portRetry]

/-! ### Pump -/

@[simp] theorem admits_mem (c : Cmd) : (b.admits c).2.mem = b.mem := by unfold Blk.admits; split <;> simp
@[simp] theorem awaitData_mem (c : Cmd) : (b.awaitData c).mem = b.mem := by simp [Blk.awaitData]
@[simp] theorem takeWaiting_mem : b.takeWaiting.mem = b.mem := by
  unfold Blk.takeWaiting
  exact foldl_mem _ _ fun x q => by split <;> simp
@[simp] theorem resumeIntake_mem : b.resumeIntake.mem = b.mem := by simp [Blk.resumeIntake]

end Sys2Proof.Machine
end

section
/-! SUPPORT. What writes memory and keeps it in its canonical form (R352): the operations that end in a write of the memory rules, and those
built on them. -/
namespace Sys2Proof.Machine
variable {b : Blk}

@[simp] theorem swf_ite {α : Type} [DecidableEq α] (d : Nat → α) (p : Prop) [Decidable p] (x y : List (Nat × α)) :
    swf d (if p then x else y) = if p then swf d x else swf d y := apply_ite ..

/-! ### Array -/

@[simp] theorem runPlanex_wf (c w : Nat) (regs : List (Nat × Nat)) (h : Memory.wf b.mem) : Memory.wf (b.runPlanex c w regs).1.mem := by
  unfold Blk.runPlanex
  simp only
  split <;> simp [Memory.wf, h, tpWrite_wf]

/-! ### Vector -/

@[simp] theorem vecWrite_wf (c w : Nat) (regs : List (Nat × Nat)) (ys : List Val) (sats : Nat) (h : Memory.wf b.mem) :
    Memory.wf (b.vecWrite c w regs ys sats).1.mem := by
  simp [Blk.vecWrite, Memory.wf, h, tpWrite_wf]
@[simp] theorem runVew_wf (c w : Nat) (regs : List (Nat × Nat)) (h : Memory.wf b.mem) : Memory.wf (b.runVew c w regs).1.mem := by
  unfold Blk.runVew
  simp only
  repeat' split
  all_goals simp [Memory.wf, h]
@[simp] theorem runVfn_wf (c w : Nat) (regs : List (Nat × Nat)) (h : Memory.wf b.mem) : Memory.wf (b.runVfn c w regs).1.mem := by
  unfold Blk.runVfn
  simp only
  repeat' split
  all_goals simp [Memory.wf, h]
@[simp] theorem runVred_wf (c w : Nat) (regs : List (Nat × Nat)) (h : Memory.wf b.mem) : Memory.wf (b.runVred c w regs).1.mem := by
  unfold Blk.runVred
  simp only
  repeat' split
  all_goals simp [Memory.wf, h, tpWrite_wf]
@[simp] theorem runVcvt_wf (c w : Nat) (regs : List (Nat × Nat)) (h : Memory.wf b.mem) : Memory.wf (b.runVcvt c w regs).1.mem := by
  unfold Blk.runVcvt
  simp only
  repeat' split
  all_goals simp [Memory.wf, h, tpWrite_wf]

/-! ### Movement -/

@[simp] theorem runTmov_wf (c w : Nat) (regs : List (Nat × Nat)) (h : Memory.wf b.mem) : Memory.wf (b.runTmov c w regs).1.mem := by
  simp [Blk.runTmov, Memory.wf, h, tpWrite_wf]
@[simp] theorem runTstr_wf (c w : Nat) (regs : List (Nat × Nat)) (h : Memory.wf b.mem) : Memory.wf (b.runTstr c w regs).1.mem := by
  simp [Blk.runTstr, Memory.wf, h, tpWrite_wf]
@[simp] theorem runTput_wf (c w : Nat) (regs : List (Nat × Nat)) (h : Memory.wf b.mem) : Memory.wf (b.runTput c w regs).1.mem := by
  simp [Blk.runTput, Memory.wf, h, tpWrite_wf, tpWriteFar_wf]
@[simp] theorem runTget_wf (c w : Nat) (regs : List (Nat × Nat)) (h : Memory.wf b.mem) : Memory.wf (b.runTget c w regs).1.mem := by
  simp [Blk.runTget, Memory.wf, h, tpWrite_wf]
@[simp] theorem landRing_wf (owner ring : Nat) (h : Memory.wf b.mem) : Memory.wf (b.landRing owner ring).mem := by
  unfold Blk.landRing
  simp only
  split <;> simp [Memory.wf, h]

/-! ### Sparse -/

@[simp] theorem spWriteStamp_wf (c a v : Nat) (h : Memory.wf b.mem) : Memory.wf (b.spWriteStamp c a v).mem := by
  simp [Blk.spWriteStamp, Memory.wf, h, tpWrite_wf]
@[simp] theorem spWriteProg_wf (c a v : Nat) (h : Memory.wf b.mem) : Memory.wf (b.spWriteProg c a v).mem := by
  simp [Blk.spWriteProg, Memory.wf, h, tpWrite_wf]
@[simp] theorem runMetaCheck_wf (c : Nat) (d : SpDesc) (h : Memory.wf b.mem) : Memory.wf (b.runMetaCheck c d).1.mem := by
  unfold Blk.runMetaCheck
  repeat' split
  all_goals simp [Memory.wf, h]
@[simp] theorem spillCopy_wf (c : Nat) (h : Memory.wf b.mem) : Memory.wf (b.spillCopy c).mem := by simp [Blk.spillCopy, Memory.wf, h, hbmWrite_wf]
theorem spillPut_wf {c : Nat} {r : List Byte} {x : Blk} (h : Memory.wf b.mem) (hx : b.spillPut c r = some x) : Memory.wf x.mem := by
  unfold Blk.spillPut at hx
  simp only at hx
  repeat' split at hx
  all_goals cases hx
  all_goals simp [Memory.wf, h, tpWrite_wf]
@[simp] theorem runFlush_wf (c : Nat) (d : SpDesc) (h : Memory.wf b.mem) : Memory.wf (b.runFlush c d).1.mem := by
  simp [Blk.runFlush, Memory.wf, h, tpWrite_wf]
@[simp] theorem runClear_wf (c : Nat) (d : SpDesc) (h : Memory.wf b.mem) : Memory.wf (b.runClear c d).1.mem := by simp [Blk.runClear, Memory.wf, h]
@[simp] theorem runMatchLoad_wf (c : Nat) (d : SpDesc) (h : Memory.wf b.mem) : Memory.wf (b.runMatchLoad c d).1.mem := by
  unfold Blk.runMatchLoad
  simp only
  repeat' split
  all_goals simp [Memory.wf, h]
@[simp] theorem runMatchProbe_wf (c : Nat) (d : SpDesc) (h : Memory.wf b.mem) : Memory.wf (b.runMatchProbe c d).1.mem := by
  simp [Blk.runMatchProbe, Memory.wf, h, tpWrite_wf]
@[simp] theorem runPredict_wf (c : Nat) (d : SpDesc) (h : Memory.wf b.mem) : Memory.wf (b.runPredict c d).1.mem := by
  unfold Blk.runPredict
  simp only
  repeat' split
  all_goals simp [Memory.wf, h, tpWrite_wf]
@[simp] theorem runTally_wf (c : Nat) (d : SpDesc) (h : Memory.wf b.mem) : Memory.wf (b.runTally c d).1.mem := by simp [Blk.runTally, Memory.wf, h]
@[simp] theorem runCmm_wf (c w : Nat) (regs : List (Nat × Nat)) (h : Memory.wf b.mem) : Memory.wf (b.runCmm c w regs).1.mem := by
  simp [Blk.runCmm, Memory.wf, h, tpWrite_wf]

/-! ### Dma -/

@[simp] theorem cacheLine_wf (c g : Nat) (fill : List Byte) (h : Memory.wf b.mem) : Memory.wf (b.cacheLine c g fill).2.mem := by
  simp [Blk.cacheLine, Memory.wf, h]
@[simp] theorem applyValidate_wf (d : Desc) (h : Memory.wf b.mem) : Memory.wf (b.applyValidate d).1.mem := by
  unfold Blk.applyValidate
  simp only
  split <;> simp [Memory.wf, h]
@[simp] theorem descValidated_wf (y : Nat) (d : Desc) (h : Memory.wf b.mem) : Memory.wf (b.descValidated y d).1.mem := by
  unfold Blk.descValidated
  split <;> simp [Memory.wf, h]

/-! ### Spans -/

@[simp] theorem applyPolicy_wf (p slot : Nat) (maxlog : Int) (h : Memory.wf b.mem) : Memory.wf (b.applyPolicy p slot maxlog).mem := by
  unfold Blk.applyPolicy
  simp only
  repeat' split
  all_goals simp [Memory.wf, h, memWrite_wf]

/-! ### MemCmd -/

@[simp] theorem memWriteGo_wf (c : Cmd) (h : Memory.wf b.mem) : Memory.wf (b.memWriteGo c).mem := by
  unfold Blk.memWriteGo
  simp only
  repeat' split
  all_goals simp [Memory.wf, h, memWrite_wf]
@[simp] theorem doMemWrite_wf (c : Cmd) (h : Memory.wf b.mem) : Memory.wf (b.doMemWrite c).mem := by simp [Blk.doMemWrite, Memory.wf, h]
@[simp] theorem pollMem_wf (c : Cmd) (h : Memory.wf b.mem) : Memory.wf (b.pollMem c).mem := by simp [Blk.pollMem, Memory.wf, h]
@[simp] theorem ingress_wf (a : Ingress) (h : Memory.wf b.mem) : Memory.wf (b.ingress a).mem := by
  unfold Blk.ingress
  split <;> simp [Memory.wf, h, tpWrite_wf, tpWriteFar_wf]
@[simp] theorem grantWrite_wf (c i v : Nat) (h : Memory.wf b.mem) : Memory.wf (b.grantWrite c i v).mem := by
  simp [Blk.grantWrite, Memory.wf, h, tpWrite_wf]
@[simp] theorem spillEnd_wf (c : Nat) (h : Memory.wf b.mem) : Memory.wf (b.spillEnd c).mem := by simp [Blk.spillEnd, Memory.wf, h]
@[simp] theorem hbmServe_wf (x : HbmAccess) (h : Memory.wf b.mem) : Memory.wf (b.hbmServe x).mem := by
  unfold Blk.hbmServe
  simp only
  repeat' split
  all_goals simp [Memory.wf, h, hbmWrite_wf]
@[simp] theorem hbmParity_wf (k : Nat) (x : HbmAccess) (failed : Nat) (h : Memory.wf b.mem) : Memory.wf (b.hbmParity k x failed).mem := by
  simp [Blk.hbmParity, Memory.wf, h]

/-! ### Serving -/

@[simp] theorem putPstatus_wf (p addr st reason idx : Nat) (h : Memory.wf b.mem) : Memory.wf (b.putPstatus p addr st reason idx).mem := by
  simp [Blk.putPstatus, Memory.wf, h, hbmWrite_wf]
@[simp] theorem putTs_wf (p : Nat) (q : Plan) (h : Memory.wf b.mem) : Memory.wf (b.putTs p q).mem := by
  unfold Blk.putTs
  exact foldl_wf _ _ (fun x q hx => by simp [Memory.wf, hx, hbmWrite_wf]) h
@[simp] theorem planDone_wf (p : Nat) (h : Memory.wf b.mem) : Memory.wf (b.planDone p).mem := by
  unfold Blk.planDone
  simp only
  repeat' split
  all_goals simp [Memory.wf, h]
@[simp] theorem turnOff_wf (p : Nat) (h : Memory.wf b.mem) : Memory.wf (b.turnOff p).mem := by
  unfold Blk.turnOff
  simp only
  split <;> simp [Memory.wf, h]
@[simp] theorem openStep_wf (p : Nat) (q : Plan) (k : Nat) (h : Memory.wf b.mem) : Memory.wf (b.openStep p q k).mem := by
  simp [Blk.openStep, Memory.wf, h, hbmWrite_wf]
@[simp] theorem putLedger_wf (p : Nat) (q : Plan) (s : Step) (st : Nat) (rest : List Byte) (h : Memory.wf b.mem) :
    Memory.wf (b.putLedger p q s st rest).mem := by
  simp [Blk.putLedger, Memory.wf, h, hbmWrite_wf]
@[simp] theorem abandonStep_wf (p : Nat) (q : Plan) (s : Step) (h : Memory.wf b.mem) : Memory.wf (b.abandonStep p q s).mem := by
  simp [Blk.abandonStep, Memory.wf, h]

/-! ### Slice -/

@[simp] theorem pktWrite_wf (p : Pkt) (h : Memory.wf b.mem) : Memory.wf (b.pktWrite p).mem := by
  unfold Blk.pktWrite
  split <;> simp [Memory.wf, h, memWrite_wf]

/-! ### Power -/

@[simp] theorem deviceReset_wf (c : Option Cmd) (h : Memory.wf b.mem) : Memory.wf (b.deviceReset c).mem := by
  unfold Blk.deviceReset
  split <;> simp [Memory.wf, h, afterReset_wf]
@[simp] theorem mrstAssert_wf (h : Memory.wf b.mem) : Memory.wf b.mrstAssert.mem := by simp [Blk.mrstAssert, Memory.wf, h]
@[simp] theorem mainCollapse_wf (mv : Nat) (h : Memory.wf b.mem) : Memory.wf (b.mainCollapse mv).mem := by
  simp [Blk.mainCollapse, Memory.wf, h, afterReset_wf]
@[simp] theorem loseDormant_wf (h : Memory.wf b.mem) : Memory.wf b.loseDormant.mem := by simp [Blk.loseDormant, Memory.wf, h, zeroTidepools_wf]
@[simp] theorem entryDrained_wf (h : Memory.wf b.mem) : Memory.wf b.entryDrained.mem := by simp [Blk.entryDrained, Memory.wf, h]

end Sys2Proof.Machine
end

section
/-! SUPPORT. Instructions keep memory in its canonical form: the units' work, issue, completion, rings. -/
namespace Sys2Proof.Machine
variable {b : Blk}

/-! ### Movement -/

theorem startRput_mem {c w : Nat} {regs : List (Nat × Nat)} {x : Blk} (e : b.startRput c w regs = .begun x) : x.mem = b.mem := by
  unfold Blk.startRput at e
  simp only at e
  repeat' split at e
  all_goals cases e
  simp
theorem startRget_wf {c w : Nat} {regs : List (Nat × Nat)} {x : Blk} (h : Memory.wf b.mem) (e : b.startRget c w regs = .begun x) :
    Memory.wf x.mem := by
  unfold Blk.startRget at e
  simp only at e
  repeat' split at e
  all_goals cases e
  exact tpWriteQuiet_wf h

/-! ### Acm -/

@[simp] theorem runAread_wf (c w : Nat) (regs : List (Nat × Nat)) (h : Memory.wf b.mem) : Memory.wf (b.runAread c w regs).1.mem := by
  unfold Blk.runAread
  dsimp only
  repeat' split
  all_goals simp [Memory.wf, h, tpWrite_wf]

/-! ### Vector -/

@[simp] theorem runVopt_wf (c w : Nat) (regs : List (Nat × Nat)) (h : Memory.wf b.mem) : Memory.wf (b.runVopt c w regs).1.mem := by
  unfold Blk.runVopt
  dsimp only
  split
  · exact h
  · split
    · exact h
    · simp only [cvCount_frame]
      exact tpWrite_wf (tpWrite_wf (tpWrite_wf h))

/-! ### Movement -/

@[simp] theorem runTtrn_wf (c w : Nat) (regs : List (Nat × Nat)) (h : Memory.wf b.mem) : Memory.wf (b.runTtrn c w regs).1.mem := by
  unfold Blk.runTtrn
  exact foldl_wf _ _ (fun x k hx => foldl_wf _ _ (fun y j hy => tpWrite_wf hy) hx) h

/-! ### Sparse -/

@[simp] theorem runExpand_wf (c : Nat) (d : SpDesc) (h : Memory.wf b.mem) : Memory.wf (b.runExpand c d).1.mem := by
  unfold Blk.runExpand
  dsimp only
  repeat' split
  iterate 3 simp [Memory.wf, h]
  refine spWriteProg_wf _ _ _ ?_
  simp only [byCount_frame]
  exact foldl_wf _ _ (fun x r hx => tpWrite_wf hx) h
theorem hiaUpdate_wf {c dom anchor space key : Nat} {u : Upd} {x} (h : Memory.wf b.mem) (hx : b.hiaUpdate c dom anchor space key u = some x) :
    Memory.wf x.1.mem := by
  unfold Blk.hiaUpdate at hx
  dsimp only at hx
  repeat' split at hx
  all_goals cases hx
  · simpa using h
  · next e =>
    have h1 := spillPut_wf (by simpa using h) e
    simpa using h1
@[simp] theorem hiaAll_wf (c dom anchor : Nat) (l : List (Nat × Nat × Upd)) (n s : Nat) (h : Memory.wf b.mem) :
    Memory.wf (b.hiaAll c dom anchor l n s).1.mem := by
  induction l generalizing b n s with
  | nil => exact h
  | cons q l ih =>
    obtain ⟨space, key, u⟩ := q
    rw [Blk.hiaAll]
    split
    · exact h
    · next e => exact ih _ _ (hiaUpdate_wf (x := (_, _)) h e)
@[simp] theorem runAccum_wf (c : Nat) (d : SpDesc) (h : Memory.wf b.mem) : Memory.wf (b.runAccum c d).1.mem := by
  simp [Blk.runAccum, Memory.wf, h]
@[simp] theorem runMerge_wf (c : Nat) (d : SpDesc) (h : Memory.wf b.mem) : Memory.wf (b.runMerge c d).1.mem := by
  simp [Blk.runMerge, Memory.wf, h]
@[simp] theorem runSparse_wf (c w : Nat) (regs : List (Nat × Nat)) (h : Memory.wf b.mem) : Memory.wf (b.runSparse c w regs).1.mem := by
  unfold Blk.runSparse
  dsimp only
  repeat' split
  all_goals simp [Memory.wf, h]

/-! ### Seq -/

@[simp] theorem runUnit_wf (c w : Nat) (regs : List (Nat × Nat)) (h : Memory.wf b.mem) : Memory.wf (b.runUnit c w regs).1.mem := by
  simp [Blk.runUnit, Memory.wf, h]
@[simp] theorem tryStart_wf (c : Nat) (e : Entry) (h : Memory.wf b.mem) : Memory.wf (b.tryStart c e).mem := by
  unfold Blk.tryStart
  extract_lets op r q b0 r'
  have hb0 : b0.mem = b.mem := by unfold b0; split <;> simp
  split
  · exact h
  split
  · simpa [r] using h
  split
  · split
    · simpa using h
    · next x e =>
      rw [begun_mem]
      split at e
      · rwa [startRput_mem e]
      · exact startRget_wf h e
    · split <;> simpa using h
  split
  · simpa using h
  · rw [begun_mem]
    exact runUnit_wf _ _ _ (by simpa [hb0] using h)
@[simp] theorem startAll_wf (c : Nat) (h : Memory.wf b.mem) : Memory.wf (b.startAll c).mem := by
  unfold Blk.startAll
  dsimp only
  split
  · exact h
  · refine foldl_wf _ _ (fun x n hx => ?_) h
    split <;> simp [Memory.wf, hx]
@[simp] theorem kick_wf (c : Nat) (h : Memory.wf b.mem) : Memory.wf (b.kick c).mem := by
  unfold Blk.kick
  dsimp only
  split
  · exact foldl_wf _ _ (fun x i hx => startAll_wf _ hx) (by simp [Memory.wf, h])
  · simp [Memory.wf, h]
@[simp] theorem kickBay_wf (y last : Nat) (h : Memory.wf b.mem) : Memory.wf (b.kickBay y last).mem :=
  foldl_wf _ _ (fun _ _ hx => kick_wf _ hx) h
@[simp] theorem rejectAtIssue_wf (c w : Nat) (d : Done) (h : Memory.wf b.mem) : Memory.wf (b.rejectAtIssue c w d).mem := by
  simp [Blk.rejectAtIssue, Memory.wf, h]
@[simp] theorem issueUnit_wf (c w : Nat) (h : Memory.wf b.mem) : Memory.wf (b.issueUnit c w).mem := by
  have hc := issueCheck_mem (b := b) c w (b.seq c).sregs
  unfold Blk.issueUnit
  dsimp only
  repeat' split
  all_goals simp_all [Memory.wf]
/-- An instruction of a kind that keeps the form keeps it, whether it issues or not. -/
theorem issueIf_wf {c : Nat} {is : Nat → Bool} {act : Blk → Nat → Blk} (ha : ∀ w, Memory.wf (act b w).mem) (h : Memory.wf b.mem) :
    Memory.wf (b.issueIf c is act).mem := by
  unfold Blk.issueIf
  dsimp only
  repeat' split
  · exact h
  · exact h
  · exact ha _
  · simpa using h
theorem unitOp_wf (c op : Nat) (h : Memory.wf b.mem) : Memory.wf (b.unitOp c op).mem := issueIf_wf (fun w => issueUnit_wf c w h) h
@[simp] theorem doHalt_wf (c : Nat) (h : Memory.wf b.mem) : Memory.wf (b.doHalt c).mem := by simp [Blk.doHalt, Memory.wf, h]
@[simp] theorem doLoop_wf (c w : Nat) (h : Memory.wf b.mem) : Memory.wf (b.doLoop c w).mem := by simp [Blk.doLoop, Memory.wf, h]
@[simp] theorem doSld_wf (c w : Nat) (h : Memory.wf b.mem) : Memory.wf (b.doSld c w).mem := by simp [Blk.doSld, Memory.wf, h]
@[simp] theorem doSst_wf (c w : Nat) (h : Memory.wf b.mem) : Memory.wf (b.doSst c w).mem := by simp [Blk.doSst, Memory.wf, h, tpWrite_wf]
@[simp] theorem runoff_wf (c : Nat) (h : Memory.wf b.mem) : Memory.wf (b.runoff c).mem := by simp [Blk.runoff, Memory.wf, h]
@[simp] theorem doBar_wf (c w : Nat) (h : Memory.wf b.mem) : Memory.wf (b.doBar c w).mem := by simp [Blk.doBar, Memory.wf, h]
@[simp] theorem unitComplete_wf (c queue : Nat) (h : Memory.wf b.mem) : Memory.wf (b.unitComplete c queue).mem := by
  unfold Blk.unitComplete
  dsimp only
  repeat' split
  all_goals simp [Memory.wf, h]
@[simp] theorem fillDone_wf (c slot : Nat) (h : Memory.wf b.mem) : Memory.wf (b.fillDone c slot).mem := by
  unfold Blk.fillDone
  dsimp only
  split <;> simp [Memory.wf, h]
@[simp] theorem slotFull_wf (owner ring : Nat) (h : Memory.wf b.mem) : Memory.wf (b.slotFull owner ring).mem := by
  unfold Blk.slotFull
  dsimp only
  split
  · exact h
  · refine kick_wf _ (kick_wf _ ?_)
    split <;> simp [Memory.wf, h]
@[simp] theorem creditReturn_wf (owner ring : Nat) (h : Memory.wf b.mem) : Memory.wf (b.creditReturn owner ring).mem := by
  simp [Blk.creditReturn, Memory.wf, h]
@[simp] theorem ringTimeout_wf (c : Nat) (h : Memory.wf b.mem) : Memory.wf (b.ringTimeout c).mem := by
  unfold Blk.ringTimeout
  split
  · exact h
  split
  · exact h
  · split <;> simp [Memory.wf, h]
@[simp] theorem stopCove_wf (c : Nat) (h : Memory.wf b.mem) : Memory.wf (b.stopCove c).mem := by simp [Blk.stopCove, Memory.wf, h]
@[simp] theorem suspendCove_wf (c : Nat) (h : Memory.wf b.mem) : Memory.wf (b.suspendCove c).mem := by simp [Blk.suspendCove, Memory.wf, h]
@[simp] theorem resumeCove_wf (c : Nat) (h : Memory.wf b.mem) : Memory.wf (b.resumeCove c).mem := by simp [Blk.resumeCove, Memory.wf, h]

end Sys2Proof.Machine
end

section
/-! SUPPORT. Transfers and descriptors keep memory in its canonical form (R368, R377 to R380). -/
namespace Sys2Proof.Machine
variable {b : Blk}

/-! ### Dma -/

@[simp] theorem gather_wf (d : Desc) (who : Requester) (l : List (Nat × Nat × Bool)) (k : Nat) (h : Memory.wf b.mem) :
    Memory.wf (b.gather d who l k).2.2.2.mem := by
  induction l generalizing b k with
  | nil => exact h
  | cons q l ih =>
    obtain ⟨a, n, cached⟩ := q
    rw [Blk.gather]
    split
    · next e he =>
      have hmem : e.2.mem = b.mem := by
        repeat' split at he
        all_goals cases he
        · simp
        · rfl
      simpa [hmem] using h
    · exact ih _ (by split <;> split <;> simp [Memory.wf, h])
@[simp] theorem descWrites_wf (y : Nat) (d : Desc) (l : List (Nat × Nat × List Byte)) (h : Memory.wf b.mem) : Memory.wf (b.descWrites y d l).mem := by
  induction l generalizing b with
  | nil => simpa [Blk.descWrites] using h
  | cons q l ih =>
    obtain ⟨a, off, v⟩ := q
    rw [Blk.descWrites]
    repeat' split
    · simpa using memWrite_wf _ h
    · exact ih (by simpa using memWrite_wf _ h)
    · dsimp only
      split <;> simpa using h
@[simp] theorem expandFinish_wf (y : Nat) (d : Desc) (l : List (Nat × Nat × Nat × Nat × Nat × Nat)) (h : Memory.wf b.mem) :
    Memory.wf (b.expandFinish y d l).mem := by
  simp [Blk.expandFinish, Memory.wf, h]
theorem compressFinish_wf {b0 : Blk} (y : Nat) (d : Desc) (v : List Byte) (lostSrc : Bool) (h : Memory.wf b.mem) (h0 : Memory.wf b0.mem) :
    Memory.wf (b.compressFinish b0 y d v lostSrc).mem := by
  unfold Blk.compressFinish
  dsimp only
  split
  · simp [Memory.wf, h]
  · next e => simp [Memory.wf, chargeAll_mem e, h0]
@[simp] theorem moveFinish_wf (y : Nat) (d : Desc) (h : Memory.wf b.mem) : Memory.wf (b.moveFinish y d).mem := by
  unfold Blk.moveFinish
  dsimp only
  split
  · split
    · simp [Memory.wf, h]
    · exact compressFinish_wf _ _ _ _ (by simpa using h) (by simp [Memory.wf, h])
  · refine descWrites_wf _ _ _ ?_
    split <;> simp [Memory.wf, h]
@[simp] theorem expandGo_wf (y : Nat) (d : Desc) (h : Memory.wf b.mem) : Memory.wf (b.expandGo y d).mem := by
  unfold Blk.expandGo
  dsimp only
  repeat' split
  all_goals simp [Memory.wf, h]
  all_goals simp [Memory.wf, h, chargeAll_mem ‹b.chargeAll d y _ = some _›]
/-- A COMPRESS goes on with the slot that it reserved, or with the one it is bound to. -/
theorem boundOr_mem {y : Nat} {d e : Desc} {x : Blk}
    (h : (if d.builds then (b.reserveTab (y / 16) d.table).map fun r => (r.2, { d with bound := [r.1] }) else some (b, d)) = some (x, e)) :
    x.mem = b.mem := by
  split at h
  · obtain ⟨r, hr, hp⟩ := Option.map_eq_some_iff.mp h
    cases hp
    exact reserveTab_mem hr
  · cases h
    rfl
@[simp] theorem startMove_wf (y : Nat) (d : Desc) (h : Memory.wf b.mem) : Memory.wf (b.startMove y d).mem := by
  unfold Blk.startMove
  dsimp only
  repeat' split
  all_goals simp [Memory.wf, h]
  any_goals simp [Memory.wf, h, chargeAll_mem ‹b.chargeAll d y _ = some _›]
  all_goals simp [Memory.wf, h, boundOr_mem ‹_ = some (_, _)›]
@[simp] theorem descAdvance_wf (y serial : Nat) (h : Memory.wf b.mem) : Memory.wf (b.descAdvance y serial).mem := by
  unfold Blk.descAdvance
  dsimp only
  repeat' split
  all_goals simp [Memory.wf, h]
@[simp] theorem descRetry_wf (y serial : Nat) (h : Memory.wf b.mem) : Memory.wf (b.descRetry y serial).mem := by
  unfold Blk.descRetry
  split <;> simp [Memory.wf, h]
@[simp] theorem descPump_wf (y serial : Nat) (h : Memory.wf b.mem) : Memory.wf (b.descPump y serial).mem :=
  foldl_wf _ _ (fun _ _ hx => descAdvance_wf _ _ hx) h
theorem descStart_wf {y q : Nat} {is : Desc → Bool} {run : Blk → Desc → Blk} (hr : ∀ x d, Memory.wf x.mem → Memory.wf (run x d).mem)
    (h : Memory.wf b.mem) :
    
    Memory.wf (b.descStart y q is run).mem := by
  unfold Blk.descStart
  dsimp only
  repeat' split
  · exact h
  · exact h
  · exact descPump_wf _ _ (hr _ _ (by simpa using h))
@[simp] theorem descComplete_wf (y serial : Nat) (h : Memory.wf b.mem) : Memory.wf (b.descComplete y serial).mem := by
  unfold Blk.descComplete
  split
  · exact h
  split
  · exact h
  extract_lets r d o cl b1 x b2 b3 fp b3' prog
  have h3 : Memory.wf b3'.mem := by simp [b3', fp, b3, b2, b1, cl, r, Memory.wf, h]
  split
  · extract_lets b4
    have h4 : Memory.wf b4.mem := by simp [b4, Memory.wf, h3, tpWrite_wf]
    split <;> simp [Memory.wf, h4]
  · split <;> simp [Memory.wf, h3]

end Sys2Proof.Machine
end

section
/-! SUPPORT. Operations of OP 0x10 and above run on a copy of the machine (R267, R295): what keeps the copy's memory in its canonical form, and the
steps that such operations are made of. -/
namespace Sys2Proof.Machine
variable {b : Blk} {α β : Type}

/-- A part of an operation of OP 0x10 and above that keeps memory in its canonical form. -/
def Keeps (p : K α) : Prop := ∀ k a k', Memory.wf k.b.mem → p k = .ok (a, k') → Memory.wf k'.b.mem
@[simp] theorem keeps_pure (a : α) : Keeps (pure a) := by
  intro k a' k' h e
  cases e
  exact h
@[simp] theorem keeps_throw (e : Stop) : Keeps (throw e : K α) := fun _ _ _ _ e => nomatch e
@[simp] theorem keeps_bind {p : K α} {f : α → K β} (hp : Keeps p) (hf : ∀ a, Keeps (f a)) : Keeps (p >>= f) := by
  intro k c k' h e
  cases hq : p k with
  | error x => simp [bind, StateT.bind, Except.bind, hq] at e
  | ok q => exact hf q.1 q.2 c k' (hp k q.1 q.2 h hq) (by simpa [bind, StateT.bind, Except.bind, hq] using e)
@[simp] theorem keeps_map {p : K α} (f : α → β) (hp : Keeps p) : Keeps (f <$> p) := by
  rw [map_eq_pure_bind]
  exact keeps_bind hp fun _ => keeps_pure _
@[simp] theorem keeps_ite (c : Prop) [Decidable c] {p q : K α} (hp : Keeps p) (hq : Keeps q) : Keeps (if c then p else q) := by
  split <;> assumption
@[simp] theorem keeps_forM {p : α → K Unit} (l : List α) (hp : ∀ a, Keeps (p a)) : Keeps (forM l p) := by
  induction l with
  | nil => exact keeps_pure ()
  | cons a l ih => exact keeps_bind (hp a) fun _ => ih
@[simp] theorem keeps_foldlM {p : β → α → K β} (l : List α) (z : β) (hp : ∀ z a, Keeps (p z a)) : Keeps (l.foldlM p z) := by
  induction l generalizing z with
  | nil => exact keeps_pure z
  | cons a l ih => exact keeps_bind (hp z a) ih
@[simp] theorem keeps_mapM {p : α → K β} (l : List α) (hp : ∀ a, Keeps (p a)) : Keeps (l.mapM p) := by
  rw [← List.mapM'_eq_mapM]
  induction l with
  | nil => exact keeps_pure []
  | cons a l ih => exact keeps_bind (hp a) fun _ => keeps_bind ih fun _ => keeps_pure _
@[simp] theorem keeps_tryCatch {p : K α} {f : Stop → K α} (hp : Keeps p) (hf : ∀ e, Keeps (f e)) : Keeps (tryCatch p f) := by
  intro k a k' h e
  change Except.tryCatch (p k) (fun e => f e k) = _ at e
  cases hq : p k with
  | error x => exact hf x k a k' h (by simpa [Except.tryCatch, hq] using e)
  | ok q => exact hp k a k' h (by simpa [Except.tryCatch, hq] using e)
/-- A part of an operation that only reads the machine. -/
theorem keeps_of_same {p : K α} (hp : ∀ k a k', p k = .ok (a, k') → k'.b.mem = k.b.mem) : Keeps p :=
  fun k a k' h e => by simpa [Memory.wf, hp k a k' e] using h
@[simp] theorem kEnd_keeps (o : DescOut) : Keeps (kEnd o : K α) := fun _ _ _ _ e => nomatch e
@[simp] theorem kBad_keeps (n : Nat) : Keeps (kBad n : K α) := kEnd_keeps _
@[simp] theorem kCheck_keeps (c : Bool) (n : Nat) : Keeps (kCheck c n) := by simp [kCheck]
@[simp] theorem kGet_keeps : Keeps kGet := keeps_of_same fun k a k' e => by cases e; rfl
@[simp] theorem kCount_keeps (off n : Nat) : Keeps (kCount off n) := keeps_of_same fun k a k' e => by cases e; simp
@[simp] theorem kRead_keeps (a n : Nat) : Keeps (kRead a n) := by
  refine keeps_of_same fun k v k' e => ?_
  unfold kRead at e
  dsimp only at e
  repeat' split at e
  all_goals cases e
  all_goals simp
@[simp] theorem kWrite_keeps (a : Nat) (v : List Byte) : Keeps (kWrite a v) := by
  intro k x k' h e
  unfold kWrite at e
  dsimp only at e
  repeat' split at e
  all_goals cases e
  · exact h
  · exact memWrite_wf _ h
  · exact memWrite_wf _ h
  · exact h
@[simp] theorem kReadL_keeps (a n : Nat) : Keeps (kReadL a n) := fun k => kRead_keeps _ n k
@[simp] theorem kWriteL_keeps (a : Nat) (v : List Byte) : Keeps (kWriteL a v) := fun k => kWrite_keeps _ v k
@[simp] theorem kNat_keeps (a n : Nat) : Keeps (kNat a n) := by simp [kNat]
@[simp] theorem kPut_keeps (a n v : Nat) : Keeps (kPut a n v) := by simp [kPut]
@[simp] theorem kHbm_keeps (a n : Nat) : Keeps (kHbm a n) := by
  refine keeps_of_same fun k v k' e => ?_
  unfold kHbm at e
  dsimp only at e
  repeat' split at e
  all_goals cases e
  all_goals rfl
@[simp] theorem kOwn_keeps (a n : Nat) : Keeps (kOwn a n) := by
  refine keeps_of_same fun k v k' e => ?_
  unfold kOwn at e
  split at e <;> cases e
  rfl
@[simp] theorem kArea_keeps (a n p : Nat) : Keeps (kArea a n p) := by
  refine keeps_of_same fun k v k' e => ?_
  unfold kArea at e
  dsimp only at e
  repeat' split at e
  all_goals cases e
  all_goals rfl

end Sys2Proof.Machine
end

section
/-! SUPPORT. The key-value and expert operations keep memory in its canonical form (R273 to R288, R296 to R317). -/
namespace Sys2Proof.Machine

/-! ### BlkOp -/

@[simp] theorem kParams_keeps (words : Nat) : Keeps (kParams words) := by
  refine keeps_bind kGet_keeps fun k => ?_
  split <;> simp

/-! ### Kv -/

@[simp] theorem kvRing_keeps (a : Nat) : Keeps (kvRing a) := by
  unfold kvRing
  repeat
    refine keeps_bind ?_ fun _ => ?_
    · simp
  simp
@[simp] theorem kvPeek_keeps (r : KvRing) : Keeps (kvPeek r) := kNat_keeps _ _
@[simp] theorem kvTake_keeps (a : Nat) : Keeps (kvTake a) := by
  unfold kvTake
  repeat
    refine keeps_bind ?_ fun _ => ?_
    · simp
  simp
@[simp] theorem kvPush_keeps (a e : Nat) : Keeps (kvPush a e) := by
  unfold kvPush
  repeat
    refine keeps_bind ?_ fun _ => ?_
    · simp
  simp
@[simp] theorem kvOpen_keeps (a : Nat) : Keeps (kvOpen a) := by
  unfold kvOpen
  repeat
    refine keeps_bind ?_ fun _ => ?_
    · simp
  simp
@[simp] theorem kvPutState_keeps (s : KvSeq) : Keeps (kvPutState s) := kPut_keeps _ _ _
@[simp] theorem kvEnt_keeps (s : KvSeq) (seg p : Nat) : Keeps (kvEnt s seg p) := by
  unfold kvEnt
  repeat
    refine keeps_bind ?_ fun _ => ?_
    · simp
  simp
@[simp] theorem kvPutEnt_keeps (s : KvSeq) (seg p : Nat) (e : KvEnt) : Keeps (kvPutEnt s seg p e) := kPut_keeps _ _ _
@[simp] theorem kvLive_keeps (s : KvSeq) (seg : Nat) : Keeps (kvLive s seg) := by
  unfold kvLive
  repeat
    refine keeps_bind ?_ fun _ => ?_
    · simp
  simp
@[simp] theorem kvFrame_keeps (s : KvSeq) (tier addr : Nat) : Keeps (kvFrame s tier addr) := by
  refine keeps_bind kGet_keeps fun k => ?_
  dsimp only
  split
  · simp
  · refine keeps_ite _ (by simp) ?_
    refine keeps_bind (by simp) fun g => ?_
    simp
@[simp] theorem kvRefs_keeps (s : KvSeq) (fr : Nat) : Keeps (kvRefs s fr) := by simp [kvRefs]
@[simp] theorem kvPutRefs_keeps (s : KvSeq) (fr n : Nat) : Keeps (kvPutRefs s fr n) := kWrite_keeps _ _
@[simp] theorem kvPutChunk_keeps (pfmt rec off t : Nat) (x : KvTok) : Keeps (kvPutChunk pfmt rec off t x) := by
  refine keeps_bind (by simp) fun _ => keeps_ite _ (keeps_forM _ fun i => ?_) (by simp)
  refine keeps_bind (by simp) fun old => ?_
  split <;> simp
@[simp] theorem kvPutSlot_keeps (s : KvSeq) (fr t : Nat) (xs : List KvTok) : Keeps (kvPutSlot s fr t xs) :=
  keeps_forM _ fun _ => kvPutChunk_keeps _ _ _ _ _
@[simp] theorem kvShadows_keeps (s : KvSeq) (seg p : Nat) : Keeps (kvShadows s seg p) := by simp [kvShadows]
@[simp] theorem kvResolve_keeps (s : KvSeq) (seg p : Nat) (e : KvEnt) : Keeps (kvResolve s seg p e) := by
  dsimp only [kvResolve]
  refine keeps_ite _ (by simp) ?_
  split
  all_goals repeat
    refine keeps_bind ?_ fun _ => ?_
    · simp
  all_goals simp
@[simp] theorem kvGiveUp_keeps (s : KvSeq) (e : KvEnt) : Keeps (kvGiveUp s e) := by
  unfold kvGiveUp
  refine keeps_ite _ ?_ (by simp)
  refine keeps_bind (by simp) fun fr => keeps_bind (by simp) fun n => keeps_bind (kvPutRefs_keeps s fr _) fun _ => ?_
  exact keeps_ite _ (by simp) (by simp)
@[simp] theorem kvVictim_keeps (s : KvSeq) (seg : Nat) : Keeps (kvVictim s seg) := by
  refine keeps_foldlM _ _ fun best p => keeps_bind (by simp) fun e => keeps_ite _ ?_ (by simp)
  split <;> simp
@[simp] theorem kvPoolEntry_keeps (s : KvSeq) (e : KvEnt) : Keeps (kvPoolEntry s e) := by
  dsimp only [kvPoolEntry]
  refine keeps_ite _ (by simp) ?_
  refine keeps_bind (by simp) fun r => ?_
  simp
@[simp] theorem kvScour_keeps (s : KvSeq) (seg : Nat) : Keeps (kvScour s seg) := by
  refine keeps_bind (by simp) fun v => ?_
  split
  · simp
  · repeat
      refine keeps_bind ?_ fun _ => ?_
      · simp
    split
    all_goals repeat
      refine keeps_bind ?_ fun _ => ?_
      · simp
    all_goals simp
@[simp] theorem kvNewFrame_keeps (s : KvSeq) : Keeps (kvNewFrame s) := by
  unfold kvNewFrame
  repeat
    refine keeps_bind ?_ fun _ => ?_
    · simp
  simp
@[simp] theorem kvOpenPage_keeps (s : KvSeq) (seg p : Nat) : Keeps (kvOpenPage s seg p) := by
  refine keeps_bind (by simp) fun fr => ?_
  dsimp only
  repeat
    refine keeps_bind ?_ fun _ => ?_
    · simp
  split
  all_goals repeat
    refine keeps_bind ?_ fun _ => ?_
    · simp
  · split
    all_goals repeat
      refine keeps_bind ?_ fun _ => ?_
      · simp
    all_goals simp
  · simp
@[simp] theorem kvCopyPage_keeps (s : KvSeq) (seg p : Nat) (e : KvEnt) : Keeps (kvCopyPage s seg p e) := by
  refine keeps_bind (by simp) fun old => ?_
  refine keeps_bind (by simp) fun fr => ?_
  dsimp only
  repeat
    refine keeps_bind ?_ fun _ => ?_
    · simp
  split
  all_goals repeat
    refine keeps_bind ?_ fun _ => ?_
    · simp
  all_goals simp
@[simp] theorem seg_keeps (s : KvSeq) (l h : Nat) : Keeps (s.seg l h) := by simp [KvSeq.seg]
@[simp] theorem kvTail_keeps (s : KvSeq) (seg : Nat) :
    Keeps (kvTail s seg) := keeps_foldlM _ _ fun t p => keeps_bind (by simp) fun e => keeps_ite _ (by simp) (by simp)
@[simp] theorem kvGatherOut_keeps (s : KvSeq) (outs : List Nat) (g1 i : Nat) (page : List Byte) (num f : Nat) (tent : Bool) :
    Keeps (kvGatherOut s outs g1 i page num f tent) := by
  dsimp only [kvGatherOut]
  refine keeps_bind (keeps_forM _ fun j => ?_) fun _ => ?_
  · split
    · refine keeps_bind (by simp) fun _ => ?_
      split
      · refine keeps_bind (by simp) fun _ => ?_
        simp
      · simp
    · split
      · refine keeps_bind (by simp) fun _ => ?_
        simp
      · simp
  · split
    · refine keeps_bind (by simp) fun _ => ?_
      simp
    · simp
@[simp] theorem kvAppend_keeps : Keeps (kvAppend) := by
  refine keeps_bind (by simp) fun w => ?_
  dsimp only
  refine keeps_bind (by simp) fun _ => keeps_ite _ (by simp) ?_
  repeat
    refine keeps_bind ?_ fun _ => ?_
    · simp
  split
  · simp
  · repeat
      refine keeps_bind ?_ fun _ => ?_
      · simp
    refine keeps_bind (keeps_forM _ fun i => ?_) fun _ => ?_
    · repeat
        refine keeps_bind ?_ fun _ => ?_
        · simp
      split
      all_goals repeat
        refine keeps_bind ?_ fun _ => ?_
        · simp
      · simp
      · split
        all_goals repeat
          refine keeps_bind ?_ fun _ => ?_
          · simp
        all_goals simp
    · simp
@[simp] theorem kvGatherPages_keeps (s : KvSeq) (seg : Nat) (outs : List Nat) (g1 : Nat) (ps : List Nat) (i : Nat) :
    Keeps (kvGatherPages s seg outs g1 ps i) := by
  induction ps generalizing i with
  | nil => exact keeps_pure _
  | cons p ps ih =>
    refine keeps_bind (keeps_tryCatch ?_ fun e => ?_) fun r => ?_
    · refine keeps_bind (by simp) fun _ => keeps_bind (by simp) fun _ => keeps_ite _ (by simp) ?_
      repeat
        refine keeps_bind ?_ fun _ => ?_
        · simp
      simp
    · split <;> simp
    · split <;> simp [ih]
@[simp] theorem kvGather_keeps : Keeps (kvGather) := by
  refine keeps_bind (by simp) fun w => ?_
  dsimp only
  refine keeps_bind (by simp) fun _ => keeps_ite _ (by simp) ?_
  repeat
    refine keeps_bind ?_ fun _ => ?_
    · simp
  split <;> simp
@[simp] theorem kvFold_keeps : Keeps (kvFold) := by
  refine keeps_bind (by simp) fun w => ?_
  dsimp only
  refine keeps_bind (by simp) fun _ => keeps_ite _ (by simp) ?_
  repeat
    refine keeps_bind ?_ fun _ => ?_
    · simp
  split
  · simp
  · repeat
      refine keeps_bind ?_ fun _ => ?_
      · simp
    refine keeps_bind (keeps_forM _ fun q => keeps_ite _ (by simp) ?_) fun _ => by simp
    refine keeps_bind (by simp) fun _ => keeps_ite _ (by simp) ?_
    repeat
      refine keeps_bind ?_ fun _ => ?_
      · simp
    refine keeps_ite _ (by simp) ?_
    repeat
      refine keeps_bind ?_ fun _ => ?_
      · simp
    simp
@[simp] theorem kvClose_keeps (s : KvSeq) (n e : Nat) : Keeps (kvClose s n e) := by simp [kvClose]
@[simp] theorem kvCommit_keeps : Keeps (kvCommit) := by
  unfold kvCommit
  repeat
    refine keeps_bind ?_ fun _ => ?_
    · simp
  simp
@[simp] theorem kvSharePage_keeps (s d : KvSeq) (seg l p : Nat) : Keeps (kvSharePage s d seg l p) := by
  refine keeps_bind (by simp) fun _ => keeps_bind (by simp) fun _ => keeps_ite _ (by simp) ?_
  repeat
    refine keeps_bind ?_ fun _ => ?_
    · simp
  simp
@[simp] theorem kvShare_keeps : Keeps (kvShare) := by
  refine keeps_bind (by simp) fun w => ?_
  dsimp only
  refine keeps_ite _ (by simp) ?_
  repeat
    refine keeps_bind ?_ fun _ => ?_
    · simp
  refine keeps_bind (keeps_forM _ fun _ => keeps_forM _ fun _ => by simp) fun _ => ?_
  refine keeps_bind (keeps_forM _ fun _ => keeps_bind (keeps_foldlM _ _ fun _ _ => ?_) fun _ => ?_) fun _ => ?_
  all_goals simp
@[simp] theorem kvOp_keeps (op : Nat) : Keeps (kvOp op) := by
  dsimp only [kvOp]
  repeat' split
  all_goals simp

/-! ### Ex -/

@[simp] theorem exPlacement_keeps (plc st : Nat) : Keeps (exPlacement plc st) := by
  unfold exPlacement
  repeat
    refine keeps_bind ?_ fun _ => ?_
    · simp
  simp
@[simp] theorem exRoute_keeps : Keeps (exRoute) := by
  refine keeps_bind (by simp) fun w => ?_
  dsimp only
  refine keeps_bind (by simp) fun _ => keeps_ite _ (by simp) ?_
  repeat
    refine keeps_bind ?_ fun _ => ?_
    · simp
  simp
@[simp] theorem exMembers_keeps (a nm : Nat) : Keeps (exMembers a nm) := by
  unfold exMembers
  repeat
    refine keeps_bind ?_ fun _ => ?_
    · simp
  simp
@[simp] theorem exWriteSegs_keeps (segs : List (List Byte)) (out cap sizes rows empties : Nat) :
    Keeps (exWriteSegs segs out cap sizes rows empties) := by
  unfold exWriteSegs
  repeat
    refine keeps_bind ?_ fun _ => ?_
    · simp
  simp
@[simp] theorem exPackForward_keeps : Keeps (exPackForward) := by
  refine keeps_bind (by simp) fun w => ?_
  dsimp only
  repeat
    refine keeps_bind ?_ fun _ => ?_
    · simp
  refine keeps_bind (keeps_foldlM _ _ fun acc t => ?_) fun rows => by simp
  repeat
    refine keeps_bind ?_ fun _ => ?_
    · simp
  refine keeps_ite _ (by simp) ?_
  repeat
    refine keeps_bind ?_ fun _ => ?_
    · simp
  refine keeps_foldlM _ _ fun acc s => ?_
  split <;> simp
@[simp] theorem exTable_keeps (gt : Nat) : Keeps (exTable gt) := by
  unfold exTable
  repeat
    refine keeps_bind ?_ fun _ => ?_
    · simp
  simp
@[simp] theorem exPackReturn_keeps : Keeps (exPackReturn) := by
  refine keeps_bind (by simp) fun w => ?_
  dsimp only
  repeat
    refine keeps_bind ?_ fun _ => ?_
    · simp
  refine keeps_bind (keeps_foldlM _ _ fun acc e => ?_) fun rows => by simp
  refine keeps_bind (by simp) fun _ => keeps_foldlM _ _ fun acc j => ?_
  repeat
    refine keeps_bind ?_ fun _ => ?_
    · simp
  split <;> simp
@[simp] theorem exReceive_keeps (rbuf sizes nm st layer half dir : Nat) : Keeps (exReceive rbuf sizes nm st layer half dir) := by
  dsimp only [exReceive]
  repeat
    refine keeps_bind ?_ fun _ => ?_
    · simp
  refine keeps_bind (keeps_foldlM _ _ fun acc i => ?_) fun _ => by simp
  repeat
    refine keeps_bind ?_ fun _ => ?_
    · simp
  simp
@[simp] theorem exRuns_keeps (s : ExSeg) : Keeps (exRuns s) := by simp [exRuns]
@[simp] theorem exCollate_keeps : Keeps (exCollate) := by
  refine keeps_bind (by simp) fun w => ?_
  repeat
    refine keeps_bind ?_ fun _ => ?_
    · simp
  refine keeps_bind (keeps_foldlM _ _ fun acc q => ?_) fun _ => ?_
  · refine keeps_bind (by simp) fun runs => keeps_bind (by simp) fun _ => by simp
  · repeat
      refine keeps_bind ?_ fun _ => ?_
      · simp
    refine keeps_bind (keeps_foldlM _ _ fun acc q => ?_) fun _ => by simp
    refine keeps_bind (by simp) fun _ => keeps_bind (by simp) fun wb => keeps_bind (keeps_forM _ fun r => ?_) fun _ => by simp
    refine keeps_bind (by simp) fun v => by simp
@[simp] theorem exGroup_keeps : Keeps (exGroup) := by
  refine keeps_bind (by simp) fun w => ?_
  repeat
    refine keeps_bind ?_ fun _ => ?_
    · simp
  dsimp only
  refine keeps_ite _ (by simp) ?_
  repeat
    refine keeps_bind ?_ fun _ => ?_
    · simp
  simp
@[simp] theorem exBab_keeps (anchor off : Nat) (u : Upd) : Keeps (exBab anchor off u) := keeps_of_same fun k v k' e => by cases e; simp
@[simp] theorem exCombine_keeps : Keeps (exCombine) := by
  refine keeps_bind (by simp) fun w => ?_
  repeat
    refine keeps_bind ?_ fun _ => ?_
    · simp
  refine keeps_bind (keeps_foldlM _ _ fun acc a => ?_) fun r => ?_
  · refine keeps_bind (by simp) fun tv => keeps_bind (by simp) fun _ => keeps_ite _ (by simp) (keeps_ite _ (by simp) ?_)
    refine keeps_bind (by simp) fun v => keeps_bind (keeps_foldlM _ _ fun n i => ?_) fun _ => by simp
    refine keeps_bind (by simp) fun inf => by simp
  · refine keeps_bind (by simp) fun _ => keeps_bind (by simp) fun _ => by simp
@[simp] theorem exOp_keeps (op dir : Nat) : Keeps (exOp op dir) := by
  dsimp only [exOp]
  repeat' split
  all_goals simp

end Sys2Proof.Machine
end

section
/-! SUPPORT. Descriptors of OP 0x10 and above, and CMD_SPEC_COMMIT, keep memory in its canonical form. -/
namespace Sys2Proof.Machine
variable {b : Blk}

theorem opRun_wf (y : Nat) (d : Desc) {p : K DescOut} (hp : Keeps p) (h : Memory.wf b.mem) : Memory.wf (b.opRun y d p).mem := by
  unfold Blk.opRun
  dsimp only
  split
  · simp [Memory.wf, h]
  · simp [Memory.wf, h]
  · simp [Memory.wf, h]
  · simp [Memory.wf, h]
  · next o k e =>
    have hk : Memory.wf k.b.mem := hp _ o k h e
    split
    · simp [Memory.wf, h]
    · next b1 e1 => exact descWrites_wf _ _ _ (by simpa [Memory.wf, chargeAll_mem e1] using hk)
@[simp] theorem kvGo_wf (y : Nat) (d : Desc) (h : Memory.wf b.mem) : Memory.wf (b.kvGo y d).mem := by
  unfold Blk.kvGo
  split
  · simpa using h
  · exact opRun_wf y d (kvOp_keeps _) h
@[simp] theorem exGo_wf (y : Nat) (d : Desc) (h : Memory.wf b.mem) : Memory.wf (b.exGo y d).mem := by
  unfold Blk.exGo
  have hr := opRun_wf y d (exOp_keeps d.op (b.packDir d)) h
  split
  · simpa using h
  · dsimp only
    split
    · simpa using hr
    · exact hr
@[simp] theorem specCommit_wf (part addr n e : Nat) (h : Memory.wf b.mem) : Memory.wf (b.specCommit part addr n e).2.2.mem := by
  unfold Blk.specCommit
  dsimp only
  split
  · exact h
  · simpa using h
  · exact h
  · exact h
  · split
    · next st k hc =>
      have hk := kvClose_keeps _ n e _ st k h hc
      split
      · exact hk
      · exact h
    · exact h

end Sys2Proof.Machine
end

section
/-! SUPPORT. Configuration writes, waking, spans, serving steps, collectives and cancelled descriptors keep memory in its canonical form. -/
namespace Sys2Proof.Machine
variable {b : Blk}

/-! ### MemCmd -/

@[simp] theorem doSpecCommit_wf (c : Cmd) (h : Memory.wf b.mem) : Memory.wf (b.doSpecCommit c).mem := by simp [Blk.doSpecCommit, Memory.wf, h]

/-! ### Wipe -/

@[simp] theorem dropTargets_wf (lost : Nat → Bool) (h : Memory.wf b.mem) : Memory.wf (b.dropTargets lost).mem := by
  unfold Blk.dropTargets
  exact foldl_wf _ _ (fun x q hx => by simp [Memory.wf, hx]) h
@[simp] theorem loseCove_wf (c : Nat) (h : Memory.wf b.mem) : Memory.wf (b.loseCove c).mem := by simp [Blk.loseCove, Memory.wf, h, zeroTidepools_wf]
@[simp] theorem cancelDesc_wf (y : Nat) (d : Desc) (h : Memory.wf b.mem) : Memory.wf (b.cancelDesc y d).mem := by simp [Blk.cancelDesc, Memory.wf, h]
@[simp] theorem scrubPart_wf (p : Nat) (h : Memory.wf b.mem) : Memory.wf (b.scrubPart p).mem := by
  simp [Blk.scrubPart, Memory.wf, h, zeroTidepools_wf]

/-! ### Pump -/

@[simp] theorem opRetry_wf (y serial : Nat) (h : Memory.wf b.mem) : Memory.wf (b.opRetry y serial).mem := by
  unfold Blk.opRetry
  split <;> simp [Memory.wf, h]

/-! ### Events -/

@[simp] theorem descEnded_wf (y serial : Nat) (h : Memory.wf b.mem) : Memory.wf (b.descEnded y serial).mem := by
  unfold Blk.descEnded
  split <;> simp [Memory.wf, h]

/-! ### Regs -/

theorem cvPut_wf {c o w : Nat} {x : Blk} (h : Memory.wf b.mem) (hx : b.cvPut c o w = .ok x) : Memory.wf x.mem := by
  by_cases hctl : o = 0x3800
  · subst hctl
    exact tpCtlPut_wf (c := c) (w := w) h (by simpa [Blk.cvPut] using hx)
  · suffices x.mem = b.mem by simpa [Memory.wf, this] using h
    unfold Blk.cvPut at hx
    dsimp only at hx
    rw [if_neg hctl] at hx
    split at hx
    · split at hx <;> cases hx
      simp
    split at hx
    · cases hx
      split <;> simp
    split at hx
    · repeat' split at hx
      all_goals cases hx
      simp
    split at hx
    · exact slotmapPut_mem hx
    split at hx
    · split at hx
      · exact inboxPut_mem hx
      · cases hx
        rfl
    split at hx <;> cases hx
    · rfl
    · simp
theorem groupPut_wf {g : Nat} {l : List (Nat × Nat)} {x : Blk} (h : Memory.wf b.mem) (hx : b.groupPut g l = .ok x) : Memory.wf x.mem := by
  unfold Blk.groupPut at hx
  dsimp only at hx
  split at hx
  · repeat' split at hx
    all_goals cases hx
    · exact h
    · simpa using h
  split at hx
  · simpa [Memory.wf, spillPutCfg_mem hx] using h
  split at hx
  · simpa [Memory.wf, ringPut_mem hx] using h
  split at hx
  · cases hx
    exact h
  split at hx
  · simpa [Memory.wf, dvPut_mem hx] using h
  split at hx
  · exact cvPut_wf h hx
  split at hx
  · cases hx
    split <;> simpa using h
  · simpa [Memory.wf, midPut_mem hx] using h
theorem cfgWriteAll_wf {n : Nat} {l : List (Nat × Nat)} {x : Blk} (h : Memory.wf b.mem) (hx : b.cfgWriteAll n l = .ok x) :
    Memory.wf x.mem := by
  induction n generalizing b l with
  | zero => cases hx; exact h
  | succ n ih =>
    cases l with
    | nil => cases hx; exact h
    | cons p rest =>
      obtain ⟨off, w⟩ := p
      rw [Blk.cfgWriteAll] at hx
      split at hx
      · cases hx
      · next b1 e => exact ih (groupPut_wf h e) hx
@[simp] theorem doCfgWrite_wf (c : Cmd) (h : Memory.wf b.mem) : Memory.wf (b.doCfgWrite c).mem := by
  unfold Blk.doCfgWrite
  extract_lets n
  split
  · simpa using h
  split
  · simpa using h
  split
  · simpa using h
  split
  · simpa using h
  split
  · simpa using h
  · next b1 e => simpa using cfgWriteAll_wf h e

/-! ### Prog -/

@[simp] theorem wakePart_wf (k : Option Nat) (h : Memory.wf b.mem) : Memory.wf (b.wakePart k).mem := by
  unfold Blk.wakePart
  split
  · exact foldl_wf _ _ (fun x v hx => by split <;> simp [Memory.wf, hx]) (by simpa using h)
  · exact h
@[simp] theorem wakeParts_wf (ps : List (Option Nat)) (h : Memory.wf b.mem) : Memory.wf (b.wakeParts ps).mem := by
  unfold Blk.wakeParts
  split
  · exact h
  · have hw := foldl_wf (fun b p => b.wakePart p) (ps.filter b.slackAt) (fun x p hx => wakePart_wf p hx) h
    simpa using hw
@[simp] theorem wakeCoves_wf (cs : List Nat) (h : Memory.wf b.mem) : Memory.wf (b.wakeCoves cs).mem := wakeParts_wf _ h
theorem withCoves_wf {c : Cmd} {go : List Nat → Blk} (h : Memory.wf b.mem) (hgo : ∀ cs, Memory.wf (go cs).mem) :
    Memory.wf (b.withCoves c go).mem := by
  unfold Blk.withCoves
  dsimp only
  repeat' split
  all_goals simp [Memory.wf, h, hgo]

/-! ### Spans -/

theorem withPart_wf {c : Cmd} {go : Nat → Blk} (h : Memory.wf b.mem) (hgo : ∀ p, Memory.wf (go p).mem) : Memory.wf (b.withPart c go).mem := by
  unfold Blk.withPart
  repeat' split
  all_goals simp [Memory.wf, h, hgo]
@[simp] theorem stopCoves_wf (cs : List Nat) (h : Memory.wf b.mem) : Memory.wf (cs.foldl (fun b v => b.stopCove v) b).mem :=
  foldl_wf _ _ (fun _ v hx => stopCove_wf v hx) h
@[simp] theorem surge_wf (p slot : Nat) (k : Watch) (dir : Nat) (h : Memory.wf b.mem) : Memory.wf (b.surge p slot k dir).mem := by
  unfold Blk.surge
  dsimp only
  repeat' split
  all_goals simp [Memory.wf, h]
theorem foldl_fst_wf {α β : Type} (f : Blk × β → α → Blk × β) (l : List α) (hf : ∀ s a, Memory.wf s.1.mem → Memory.wf (f s a).1.mem)
    {s : Blk × β} (h : Memory.wf s.1.mem) : Memory.wf (l.foldl f s).1.mem := by
  induction l generalizing s with
  | nil => exact h
  | cons a l ih => exact ih (hf s a h)
@[simp] theorem stagingDone_wf (p n : Nat) (h : Memory.wf b.mem) : Memory.wf (b.stagingDone p n).mem := by
  unfold Blk.stagingDone
  extract_lets x r infs
  split
  · exact h
  · have hr : Memory.wf r.1.mem := by
      refine foldl_fst_wf _ _ (fun s o hs => ?_) h
      split
      · simpa using hs
      · exact memWrite_wf _ hs
    split
    · simpa using hr
    · split <;> simpa using hr
@[simp] theorem replayDrained_wf (p n : Nat) (h : Memory.wf b.mem) : Memory.wf (b.replayDrained p n).mem := by
  unfold Blk.replayDrained
  extract_lets x slots b1 b2 b3 again b4
  split
  · exact h
  · have h1 : Memory.wf b1.mem := foldl_wf _ _ (fun x s hx => by split <;> simp [Memory.wf, hx]) h
    have h2 : b2.mem = b1.mem := foldl_mem _ _ fun x v => by simp
    have h3 : b3.mem = b2.mem := foldl_mem _ _ fun x v => by simp
    have h4 : b4.mem = b3.mem := by simp [b4]
    simpa [Memory.wf, h4, h3, h2] using h1

/-! ### Serving -/

@[simp] theorem doPoolSet_wf (c : Cmd) (h : Memory.wf b.mem) : Memory.wf (b.doPoolSet c).mem := by
  refine withPart_wf h fun p => ?_
  dsimp only
  repeat' split
  all_goals simp [Memory.wf, h]
@[simp] theorem swapPlan_wf (p : Nat) (h : Memory.wf b.mem) : Memory.wf (b.swapPlan p).mem := by
  unfold Blk.swapPlan
  extract_lets x
  split
  · exact h
  · next b1 _ r _ =>
    have h1 : Memory.wf b1.mem := by
      unfold b1
      split <;> simp [Memory.wf, h]
    exact putPstatus_wf (b := b1) p _ _ _ _ h1
theorem sealEntry_wf {z : SealAcc} (p : Nat) (q : Plan) (s : Step) (coves : List Nat) (e : StepEnt) (h : Memory.wf z.b.mem) :
    Memory.wf (z.entry p q s coves e).b.mem := by
  unfold SealAcc.entry
  dsimp only
  split
  · exact h
  · split
    · exact h
    · simp [Memory.wf, h, hbmWrite_wf]
theorem sealEntries_wf {z : SealAcc} (p : Nat) (q : Plan) (s : Step) (coves : List Nat) (l : List StepEnt) (h : Memory.wf z.b.mem) :
    Memory.wf (l.foldl (fun z e => z.entry p q s coves e) z).b.mem := by
  induction l generalizing z with
  | nil => exact h
  | cons e l ih => exact ih (sealEntry_wf p q s coves e h)
@[simp] theorem sealStep_wf (p : Nat) (q : Plan) (s : Step) (h : Memory.wf b.mem) : Memory.wf (b.sealStep p q s).mem := by
  have hz := sealEntries_wf (z := { b := b }) p q s (poolCoves (b.partBays p)) s.ents h
  unfold Blk.sealStep
  extract_lets coves z x gone b1 y b2 b3 b4
  have h1 : Memory.wf b1.mem := putLedger_wf _ _ _ _ _ hz
  have h3 : b3.mem = b1.mem := (foldl_mem _ _ fun x c => by simp).trans (by simp [b2])
  have h4 : b4.mem = b3.mem := foldl_mem _ _ fun x d => by split <;> simp
  simpa [Memory.wf, h4, h3] using h1

/-! ### Coll -/

@[simp] theorem collWrite_wf (ch off : Nat) (s : List Byte) (infs : Nat) (lead : Bool) (h : Memory.wf b.mem) :
    Memory.wf (b.collWrite ch off s infs lead).mem := by
  unfold Blk.collWrite
  extract_lets x
  split
  · exact h
  · extract_lets recs b1
    have h1 : Memory.wf b1.mem := foldl_wf _ _ (fun x v hx => by split <;> simp [Memory.wf, hx, memWrite_wf]) h
    simpa using h1

/-! ### Wipe -/

@[simp] theorem cancelDescs_wf (y : Nat) (is : Desc → Bool) (h : Memory.wf b.mem) : Memory.wf (b.cancelDescs y is).mem :=
  foldl_wf _ _ (fun x d hx => by split <;> simp [Memory.wf, hx]) h
@[simp] theorem cancelAllDescs_wf (is : Desc → Bool) (h : Memory.wf b.mem) : Memory.wf (b.cancelAllDescs is).mem :=
  foldl_wf _ _ (fun _ y hx => cancelDescs_wf y is hx) h

/-! ### Power -/

@[simp] theorem enterSlack_wf (c : Cmd) (ks : List (Option Nat)) (h : Memory.wf b.mem) : Memory.wf (b.enterSlack c ks).mem :=
  foldl_wf _ _ (fun x k hx => foldl_wf _ _ (fun _ v hy => suspendCove_wf v hy) (by simpa using hx)) (by simpa using h)

/-! ### Service -/

@[simp] theorem doCoveSpare_wf (c : Cmd) (h : Memory.wf b.mem) : Memory.wf (b.doCoveSpare c).mem := by
  unfold Blk.doCoveSpare
  dsimp only
  repeat' split
  case isFalse.isFalse.isFalse => exact foldl_wf _ _ (fun _ i hx => suspendCove_wf _ hx) (by simpa using h)
  all_goals simpa using h
@[simp] theorem pumpDesc_wf (y : Nat) (d : Desc) (h : Memory.wf b.mem) :
    Memory.wf (if d.running then ((b.descRetry y d.serial).opRetry y d.serial).descPump y d.serial else b).mem := by
  split
  · exact descPump_wf _ _ (opRetry_wf _ _ (descRetry_wf _ _ h))
  · exact h

/-! ### Pump -/

@[simp] theorem pumpDescs_wf (h : Memory.wf b.mem) : Memory.wf b.pumpDescs.mem :=
  foldl_wf _ _ (fun _ q hx => foldl_wf _ _ (fun _ d hy => pumpDesc_wf q.1 d hy) hx) h

end Sys2Proof.Machine
end

section
/-! SUPPORT. Programs, packets, resets, kills and spares keep memory in its canonical form, and so does every command with all that it lets go on. -/
namespace Sys2Proof.Machine
variable {b : Blk}

/-! ### Prog -/

@[simp] theorem startInstant_wf (ctx seq : Nat) (h : Memory.wf b.mem) : Memory.wf (b.startInstant ctx seq).mem := by
  unfold Blk.startInstant
  repeat' split
  all_goals simp [Memory.wf, h]

/-! ### Spans -/

@[simp] theorem sampleClose_wf (p slot : Nat) (h : Memory.wf b.mem) : Memory.wf (b.sampleClose p slot).mem := by simp [Blk.sampleClose, Memory.wf, h]

/-! ### Serving -/

@[simp] theorem stepBoundary_wf (p : Nat) (h : Memory.wf b.mem) : Memory.wf (b.stepBoundary p).mem := by
  unfold Blk.stepBoundary
  simp only
  repeat' split
  all_goals simp [Memory.wf, h]
@[simp] theorem stepStart_wf (p : Nat) (h : Memory.wf b.mem) : Memory.wf (b.stepStart p).mem := by
  unfold Blk.stepStart
  simp only
  split <;> simp [Memory.wf, h]
@[simp] theorem poolsDone_wf (p : Nat) (h : Memory.wf b.mem) : Memory.wf (b.poolsDone p).mem := by
  unfold Blk.poolsDone
  simp only
  split <;> simp [Memory.wf, h]

/-! ### Coll -/

@[simp] theorem resultWrite_wf (ch off : Nat) (s : List Byte) (h : Memory.wf b.mem) : Memory.wf (b.resultWrite ch off s).mem := by
  unfold Blk.resultWrite
  simp only
  split <;> simp [Memory.wf, h]
@[simp] theorem answerSizes_wf (ch : Nat) (h : Memory.wf b.mem) : Memory.wf (b.answerSizes ch).mem := by
  unfold Blk.answerSizes
  simp only
  split <;> simp [Memory.wf, h, memWrite_wf]

/-! ### Wipe -/

@[simp] theorem closeCmd_wf (c : Cmd) (h : Memory.wf b.mem) : Memory.wf (b.closeCmd c).mem := by
  unfold Blk.closeCmd
  repeat' split
  all_goals simp [Memory.wf, h]

/-! ### Power -/

@[simp] theorem doPower_wf (c : Cmd) (h : Memory.wf b.mem) : Memory.wf (b.doPower c).mem := by
  unfold Blk.doPower
  simp only
  repeat' split
  all_goals simp [Memory.wf, h]

/-! ### Pump -/

@[simp] theorem pollCmd_wf (c : Cmd) (h : Memory.wf b.mem) : Memory.wf (b.pollCmd c).mem := by simp [Blk.pollCmd, Memory.wf, h]

/-! ### Prog -/

@[simp] theorem doProgLoad_wf (c : Cmd) (h : Memory.wf b.mem) : Memory.wf (b.doProgLoad c).mem := by
  refine withCoves_wf h fun cs => ?_
  have hw : Memory.wf (b.wakeCoves cs).mem := wakeCoves_wf cs h
  dsimp only
  repeat' split
  all_goals simp [Memory.wf, h]
@[simp] theorem doProgStart_wf (c : Cmd) (h : Memory.wf b.mem) : Memory.wf (b.doProgStart c).mem := by
  refine withCoves_wf h fun cs => ?_
  dsimp only
  repeat' split
  all_goals simp [Memory.wf, h]
@[simp] theorem doProgStop_wf (c : Cmd) (h : Memory.wf b.mem) : Memory.wf (b.doProgStop c).mem := by
  refine withCoves_wf h fun cs => ?_
  have hs : Memory.wf (((cs.filter b.runs).foldl (fun b v => b.stopCove v) (b.wakeCoves cs)).accept c).mem := by
    simpa using stopCoves_wf (cs.filter b.runs) (wakeCoves_wf cs h)
  dsimp only
  repeat' split
  · simpa using h
  · simpa using hs
  · exact hs

/-! ### Coll -/

@[simp] theorem collResult_wf (ch chunk : Nat) (s : List Byte) (h : Memory.wf b.mem) : Memory.wf (b.collResult ch chunk s).mem := by
  unfold Blk.collResult
  extract_lets x
  split
  · exact h
  · extract_lets v rs off b1 y b2
    have h1 : Memory.wf b1.mem := resultWrite_wf ch _ s h
    have h2 : Memory.wf b2.mem := by
      unfold b2
      split <;> simpa using h1
    repeat' split
    · exact h2
    · exact foldl_wf _ _ (fun x m hx => by dsimp only; split <;> simp [Memory.wf, hx]) h2
    · exact h2
    · simpa using h2
    · exact foldl_wf _ _ (fun x m hx => by simp [Memory.wf, hx]) h2
@[simp] theorem formChunk_wf (ch c : Nat) (h : Memory.wf b.mem) : Memory.wf (b.formChunk ch c).mem := by
  unfold Blk.formChunk
  dsimp only
  repeat' split
  all_goals simp [Memory.wf, h]
@[simp] theorem collStep_wf (ch : Nat) (h : Memory.wf b.mem) : Memory.wf (b.collStep ch).mem := by
  unfold Blk.collStep
  split
  · exact h
  · extract_lets v b1 b2
    have h1 : Memory.wf b1.mem := by
      unfold b1
      split
      · exact foldl_wf _ _ (fun _ c hx => formChunk_wf ch c hx) h
      · exact answerSizes_wf ch h
    have h2 : b2.mem = b1.mem := foldl_mem _ _ fun x _ => by simp
    simpa [Memory.wf, h2] using h1
@[simp] theorem collTake_wf (ch m : Nat) (p : Pkt) (h : Memory.wf b.mem) : Memory.wf (b.collTake ch m p).mem := by
  unfold Blk.collTake
  dsimp only
  repeat' split
  all_goals simp [Memory.wf, h]
@[simp] theorem collRx_wf (p : Pkt) (h : Memory.wf b.mem) : Memory.wf (b.collRx p).mem := by
  unfold Blk.collRx
  extract_lets ch x
  split
  · simpa using h
  · extract_lets ack
    have hack (y : Blk) : (ack y).mem = y.mem := by
      unfold ack
      split <;> simp
    repeat' split
    all_goals simp [Memory.wf, hack, h]
@[simp] theorem collBlock_wf (ch off : Nat) (v : List Byte) (h : Memory.wf b.mem) : Memory.wf (b.collBlock ch off v).mem := by
  unfold Blk.collBlock
  dsimp only
  have hr (n : Nat) : Memory.wf (b.engineRead (b.chan ch).part (rSrc v) n).2.mem := by simpa using h
  repeat' split
  · exact h
  · simpa using hr (srcBytes v)
  · exact collWrite_wf _ _ _ _ _ (foldl_wf _ _ (fun x m hx => foldl_wf _ _ (fun x c hx => by simpa using hx) hx) (hr _))
@[simp] theorem collOpen_wf (ch : Nat) (h : Memory.wf b.mem) : Memory.wf (b.collOpen ch).mem := by
  unfold Blk.collOpen
  dsimp only
  repeat' split
  all_goals simp [Memory.wf, h]
@[simp] theorem collStart_wf (ch : Nat) (h : Memory.wf b.mem) : Memory.wf (b.collStart ch).mem := by
  unfold Blk.collStart
  extract_lets x
  split
  · exact h
  split
  · exact h
  split
  · simpa using h
  split
  · simpa using h
  · refine collStep_wf ch (foldl_wf _ _ (fun x p hx => by split <;> simp [Memory.wf, hx]) (collOpen_wf ch ?_))
    simpa using h
@[simp] theorem collRun_wf (ch : Nat) (h : Memory.wf b.mem) : Memory.wf (b.collRun ch).mem := foldl_wf _ _ (fun _ _ hx => collStart_wf ch hx) h
@[simp] theorem collPost_wf (ch part value : Nat) (h : Memory.wf b.mem) : Memory.wf (b.collPost ch part value).mem := by
  unfold Blk.collPost
  extract_lets x
  split
  · exact h
  · next w b1 n was new _ =>
    have h1 : Memory.wf b1.mem := by
      unfold b1
      split
      · exact h
      · exact tpWrite_wf h
    repeat' split
    · simpa using h1
    · simpa using h1
    · exact collRun_wf ch (by simpa using h1)
@[simp] theorem collPump_wf (h : Memory.wf b.mem) : Memory.wf b.collPump.mem :=
  foldl_wf _ _ (fun x ch hx => collRun_wf ch (collStep_wf ch (by simpa using hx))) (by simpa using h)

/-! ### Sync -/

@[simp] theorem deliverPkt_wf (k : Nat) (p : Pkt) (h : Memory.wf b.mem) : Memory.wf (b.deliverPkt k p).mem := by
  simp [Blk.deliverPkt, Memory.wf, h]
/-- A whole packet is a duplicate or is delivered. The definition is unfolded as a function: unfolded at its arguments, its match would have
the kernel compute modulo 2 to the 32nd. -/
theorem packetIn_or (b : Blk) (k : Nat) (p : Pkt) (deliver : Blk → Nat → Pkt → Blk) :
    b.packetIn k p deliver = b.count (cfgLK k + 0x60) 1 ∨
    ∃ x, b.packetIn k p deliver = deliver { b with slice := { b.slice with faceRx := sset (fun _ => {}) b.slice.faceRx (k / 4) x } } k p := by
  have f : @Blk.packetIn = @Blk.packetIn := rfl
  conv at f => rhs; delta Blk.packetIn
  have e := congrFun (congrFun (congrFun (congrFun f b) k) p) deliver
  beta_reduce at e
  rw [e]
  generalize (b.faceRxOf (k / 4)).take p.pseq = o
  cases o with
  | none => exact .inl rfl
  | some x => exact .inr ⟨x, rfl⟩

/-! ### Links -/

theorem packetIn_wf {k : Nat} {p : Pkt} {deliver : Blk → Nat → Pkt → Blk}
    (hd : ∀ x k p, Memory.wf x.mem → Memory.wf (deliver x k p).mem) (h : Memory.wf b.mem) : Memory.wf (b.packetIn k p deliver).mem := by
  rcases packetIn_or b k p deliver with e | ⟨x, e⟩
  · rw [e]
    simpa using h
  · rw [e]
    exact hd _ _ _ h
theorem flitData_wf {k : Nat} {f : List Byte} {deliver : Blk → Nat → Pkt → Blk}
    (hd : ∀ x k p, Memory.wf x.mem → Memory.wf (deliver x k p).mem) (h : Memory.wf b.mem) : Memory.wf (b.flitData k f deliver).mem := by
  unfold Blk.flitData
  dsimp only
  repeat' split
  · exact h
  · simpa using h
  · exact packetIn_wf hd (by simpa using h)
  · simpa using h
theorem flitRx_wf {k : Nat} {f : List Byte} {deliver : Blk → Nat → Pkt → Blk}
    (hd : ∀ x k p, Memory.wf x.mem → Memory.wf (deliver x k p).mem) (h : Memory.wf b.mem) : Memory.wf (b.flitRx k f deliver).mem := by
  unfold Blk.flitRx
  dsimp only
  repeat' split
  · exact h
  · simpa using h
  · exact flitData_wf hd (by simpa using h)
  · simpa using h

/-! ### Events -/

theorem mine_wf {p : Pkt} {f : Blk → Blk} (hf : Memory.wf (f b).mem) (h : Memory.wf b.mem) : Memory.wf (b.mine p f).mem := by
  unfold Blk.mine
  split
  · exact hf
  · exact h

/-! ### Wipe -/

@[simp] theorem closing_wf (n : Nat) (but : Option (Nat × Nat)) (h : Memory.wf b.mem) : Memory.wf (b.closing n but).mem :=
  foldl_wf _ _ (fun x c hx => by split <;> simp [Memory.wf, hx]) (by simpa using h)
@[simp] theorem doCtxClose_wf (c : Cmd) (h : Memory.wf b.mem) : Memory.wf (b.doCtxClose c).mem := by
  unfold Blk.doCtxClose
  dsimp only
  repeat' split
  all_goals simp [Memory.wf, h]
@[simp] theorem resetCove_wf (v : Nat) (h : Memory.wf b.mem) : Memory.wf (b.resetCove v).mem := by
  unfold Blk.resetCove
  refine kickBay_wf _ _ ?_
  have h1 (is : Desc → Bool) : Memory.wf (((b.stopNow v).cancelDescs (bayOf v) is).loseCove v).mem :=
    loseCove_wf v (cancelDescs_wf _ is (by simpa using h))
  simpa using h1 _
@[simp] theorem killPart_wf (p : Nat) (dissolve zero isReset : Bool) (who : Nat × Nat) (h : Memory.wf b.mem) :
    Memory.wf (b.killPart p dissolve zero isReset who).mem := by
  unfold Blk.killPart
  extract_lets x cs y b1 b2 b3 b4 b5
  have h2 : b2.mem = b.mem := (foldl_mem _ _ fun x c => by simp).trans (by simp [b1, y])
  have h3 : Memory.wf b3.mem := foldl_wf _ _ (fun _ y hx => cancelDescs_wf y _ hx) (by simpa [Memory.wf, h2] using h)
  simpa [b5, b4] using h3
@[simp] theorem doPartKill_wf (c : Cmd) (h : Memory.wf b.mem) : Memory.wf (b.doPartKill c).mem := by
  unfold Blk.doPartKill
  dsimp only
  repeat' split
  all_goals simp [Memory.wf, h]
@[simp] theorem dissolve_wf (p : Nat) (h : Memory.wf b.mem) : Memory.wf (b.dissolve p).mem := by
  unfold Blk.dissolve
  dsimp only
  have := foldl_wf (fun b n => (b.closing n none).ctxGone n) (((b.host.ctxs.filter fun q => q.1 != 0 && q.2.st != 0 && q.2.part == p).map Prod.fst))
    (fun x n hx => by simpa using closing_wf n none hx) h
  simpa using this
@[simp] theorem killDone_wf (p : Nat) (h : Memory.wf b.mem) : Memory.wf (b.killDone p).mem := by
  unfold Blk.killDone
  extract_lets x
  split
  · exact h
  · next b1 fin b2 _ _ =>
    have h1 : Memory.wf b1.mem := by simpa [b1] using scrubPart_wf p h
    have hfin : ∀ y : Blk, (fin y).mem = y.mem := fun y => by
      unfold fin
      split
      · split <;> simp
      · rfl
    have h2 : Memory.wf b2.mem := by
      unfold b2
      simp only [Memory.wf, hfin]
      split <;> simpa using h1
    split
    · exact dissolve_wf p h2
    · simpa using h2

/-! ### Power -/

theorem powerOff_wf : Memory.wf b.powerOff.mem := reset_wf
theorem powerOn_wf (h : Memory.wf b.mem) : Memory.wf b.powerOn.mem := by
  unfold Blk.powerOn
  split
  · exact h
  · exact reset_wf
@[simp] theorem doReset_wf (c : Cmd) (h : Memory.wf b.mem) : Memory.wf (b.doReset c).mem := by
  unfold Blk.doReset
  dsimp only
  repeat' split
  all_goals simp [Memory.wf, h]

/-! ### Service -/

@[simp] theorem spareDone_wf (y : Nat) (h : Memory.wf b.mem) : Memory.wf (b.spareDone y).mem := by
  unfold Blk.spareDone
  split
  · exact h
  split
  · exact h
  · extract_lets i old x w b1 b2 asleep b3
    have h1 : Memory.wf b1.mem := by simpa [b1, w] using h
    have h2 : Memory.wf b2.mem := by
      unfold b2
      split
      · simpa using loseCove_wf _ (b := b1.stopNow _) (by simpa using h1)
      · exact h1
    have h3 : Memory.wf b3.mem := by
      unfold b3
      split
      · exact h2
      · exact foldl_wf _ _ (fun _ i hx => resumeCove_wf _ hx) h2
    exact foldl_wf _ _ (fun x c hx => by simpa using hx) h3

/-! ### Pump -/

theorem opRuns_wf : ∀ r ∈ opRuns, ∀ (b : Blk) (c : Cmd), Memory.wf b.mem → Memory.wf (r.2 b c).mem := by
  simp +contextual [opRuns, Memory.wf]
@[simp] theorem runOp_wf (c : Cmd) (h : Memory.wf b.mem) : Memory.wf (b.runOp c).mem := by
  unfold Blk.runOp
  split
  · next r hr => exact opRuns_wf r (List.mem_of_find?_eq_some hr) b c h
  · exact h
@[simp] theorem runCmd_wf (c : Cmd) (h : Memory.wf b.mem) : Memory.wf (b.runCmd c).mem := by
  unfold Blk.runCmd
  split
  · simpa using h
  · dsimp only
    split
    · simpa using h
    · split
      · simpa using h
      · next b1 e =>
        have h1 : Memory.wf b1.mem := by simpa [Memory.wf, logCmd_mem e] using h
        split <;> simp [Memory.wf, h1]
@[simp] theorem startReady_wf (n : Nat) (h : Memory.wf b.mem) : Memory.wf (b.startReady n).mem := by
  induction n generalizing b with
  | zero => exact h
  | succ n ih =>
    rw [Blk.startReady]
    split
    · exact h
    · exact ih (runCmd_wf _ h)
@[simp] theorem pollCmds_wf (h : Memory.wf b.mem) : Memory.wf b.pollCmds.mem :=
  foldl_wf _ _ (fun x c hx => by
    split
    · split
      · exact pollCmd_wf _ hx
      · exact hx
    · exact hx) h
@[simp] theorem pumpCmds_wf (h : Memory.wf b.mem) : Memory.wf b.pumpCmds.mem := by
  unfold Blk.pumpCmds
  split
  · exact h
  · exact startReady_wf _ (pollCmds_wf h)
@[simp] theorem pump_wf (h : Memory.wf b.mem) : Memory.wf b.pump.mem := by
  simpa [Blk.pump] using collPump_wf (pumpDescs_wf (pumpCmds_wf h))
@[simp] theorem command_wf (m : Msg) (h : Memory.wf b.mem) : Memory.wf (b.command m).mem := pump_wf (by simpa using h)
@[simp] theorem idleStep_wf (h : Memory.wf b.mem) : Memory.wf b.idleStep.mem := pump_wf (by simpa using h)

end Sys2Proof.Machine
end

section
/-! SUPPORT. Every row keeps memory in its canonical form. -/
namespace Sys2Proof.Machine

/-- A meaning that gives every state with memory in its canonical form such a state, where it gives one. -/
def RowKeeps (meaning : State → Host.Outcome State Fault Refusal) : Prop := ∀ s t : State, s.memOk → meaning s = .next t → t.memOk
theorem rowKeeps_updIf {meaning : State → Host.Outcome State Fault Refusal} {ok : Bool} {f : Blk → Blk}
    (hf : ∀ b : Blk, Memory.wf b.mem → Memory.wf (f b).mem) (hm : ∀ s : State, meaning s = s.updIf ok f) : RowKeeps meaning := by
  intro s t h e
  rw [hm] at e
  cases ok with
  | false => cases e
  | true =>
    cases e
    exact hf s.blk h
/-- The rows by what they run: an instruction that issues, a unit instruction, a descriptor, a packet for this device, an event, a command. -/
theorem exec_keeps (i : Instr) : RowKeeps (exec i) := by
  cases i with
  | nop | halt | br | loop | sli | sop | scmp | sld | sst | sget | dmaw | spmatchLoad | spmatchProbe | scatterAccum | scatterFlush
  | scatterClear | scatterExpand | predict | tally | bar | wait | twait =>
    exact rowKeeps_updIf (fun b hb => issueIf_wf (fun w => by simp [Memory.wf, hb]) hb) fun _ => rfl
  | wload | macc | ripple | binacc | planex | aclr | acvt | aread | vew | vfn | vred | vcvt | vopt | tmov | tstr | ttrn | tput | tget
  | rput | rget | dmaq | cmm | metaCheck | merge =>
    exact rowKeeps_updIf (fun b hb => unitOp_wf _ _ hb) fun _ => rfl
  | dmaCopy | dmaGather | dmaCompress | dmaExpand | dmaBuild | kvAppend | kvGather | kvFold | kvCommit | kvShare | exRoute | exPackForward
  | exPackReturn | exCollate | exGroup | exCombine =>
    exact rowKeeps_updIf (fun b hb => descStart_wf (fun x d hx => by simp [Memory.wf, hx]) hb) fun _ => rfl
  | pktReadDataRx | pktWriteAckRx | pktNoticeRx | faceStateRx | collDataRx | collAckRx | collCreditRx | collSizeRx | collGoRx | collFailRx
  | collArriveRx | barrierArriveRx | modeAckRx | commitAckRx =>
    exact rowKeeps_updIf (fun b hb => pump_wf (mine_wf (by simp [Memory.wf, hb]) hb)) fun _ => rfl
  | pktWriteRx | pktReadRx =>
    exact rowKeeps_updIf (fun b hb => mine_wf (by simp [Memory.wf, hb]) hb) fun _ => rfl
  | linkFlitRx =>
    exact rowKeeps_updIf (fun b hb => pump_wf (flitRx_wf (fun x k p hx => deliverPkt_wf k p hx) hb)) fun _ => rfl
  | progStartComplete | spanCommitPoint | spanStagingCopyDone | tableBuildDone | planBuildDone | linkActiveAskTimeout | killScrubDone
  | beaconFrameRx | bulkFrameRx | replayDrained | dmaDescriptorComplete | hbmStackTrained | headlandSelftestDone | linkTrainingTimeout
  | linkctlIdentityRx | linkctlFenceRx | remoteRequestTimeout | missingTimer | missingMarkRx | collPostWordWrite | collResendTimeout
  | collOpTimeout | barrierReleaseRx | modePrepareRx | modeCommitRx | modeAbortRx | stepBoundary | stepPoolsDone | xingReopen
  | coveSpareCopyDone | hbmRepairDone | stackLaneSpareDone | linkLaneSwitchDone | coveClearingEnd | linkctlActiveRequestRx =>
    exact rowKeeps_updIf (fun b hb => pump_wf (by simp [Memory.wf, hb])) fun _ => rfl
  | progStartInstant | backgroundZeroDone | beaconResendTimeout | beaconLaneLoss | beaconPortDown | beaconPortRetry | beaconPortTrained
  | programRunoff | wloadFillDone | barRelease | unitInstrComplete | ringSlotFull | ringCreditReturn | ringWaitTimeout | grantWordWrite
  | grantUpdateArrive | tidepoolIngress | watchSampleClose | spillHalfCopy | spillHalfCopyDone | hbmAccess | hbmParityError | hbmRefresh
  | hbmRfmRequest | hbmTempReadout | linkSignalDetect | linkTrainingDone | linkctlNakRx | linkctlLaneMsgRx | linkReplayTimeout
  | linkLaneSignalLoss | laneSerExceeded | tideSyncRx | stepStartInstant | lhWatchdogExpiry | lhMemUe | lrefLoss | throttleStepDown
  | throttleStepUp | thermalTrip | cacheChangeDone | twaitRelease | lrefReturn =>
    exact rowKeeps_updIf (fun b hb => by simp [Memory.wf, hb, zeroingDone_wf]) fun _ => rfl
  | fwVerifyDone | certSigned | powerEntryDrained | powerWakeDone | resetDeviceDone | fwActivateTimeout | pktTransit | tideSyncSend
  | tideHoldover | ppsEdge | trefLoss | modeCommitResend | modeAckTimeout | modeInDoubt | modeEpochSwitch | errMergeWindowEnd | pwrOkAssert
  | pwrOkDeassert | mrstNAssert | mrstNRelease | mainInputWarn | mainInputFault | mainInputCollapse | sysclkLoss | smbId | smbSerial
  | smbStatus | smbTj | smbSupply | smbAlertRead | smbAlertClear | smbAlertMask | tapBypass | tapIdcode | tapSamplePreload | tapExtest
  | tapExtestPulse | tapExtestTrain | intakeResumed | mainInputInRange | trefReturn | ppsSeenExpiry =>
    exact rowKeeps_updIf (ok := true) (fun b hb => by simp [Memory.wf, hb, powerOn_wf, powerOff_wf]) fun _ => rfl
  | _ => exact rowKeeps_updIf (fun b hb => command_wf _ hb) fun _ => rfl
/-- Settles O59: each row keeps memory in its canonical form, and so does a nanosecond that passes. -/
theorem everyStepKeepsMemory : Obligations.EveryStepKeepsMemory := by
  intro s t h e
  unfold step at e
  split at e
  · next c rest hp => exact exec_keeps c { s with pending := rest } t h e
  · cases e
    exact idleStep_wf h

end Sys2Proof.Machine
end

section
/-! SUPPORT. An inbox or a ring of an idle Cove enabled for a source or producer that holds no credit for it (R216, R217, R220). -/
namespace Sys2Proof.Machine

variable {b x : Blk} {m : Msg} {off w c i r : Nat}

/-! ### A write that changes Coves -/

/-- A write that its register group takes by changing Coves alone. -/
theorem command_setCoves (h : b.writesOne m off w = true) (hput : (b.entered m).groupPut (cfgGroup off) [(off, w)] = .ok x)
    (hx : { b.entered m with coves := x.coves } = x) :
    (b.command m).answered m stOK 0 [] ∧ (∀ d, (b.command m).cove d = x.cove d) ∧
    { b.measureWrite m [off] with host := (b.command m).host, coves := (b.command m).coves } = b.command m ∧ b.hostFor (b.command m) m := by
  have hstill : x.still = b.still := by
    rw [← entered_still (b := b) (m := m)]
    exact still_congr (by rw [← hx]) (by rw [← hx]) (by rw [← hx])
  obtain ⟨hans, hhost, hfr⟩ := command_groupPut h hput (by rw [← hx]) (by rw [← hx]; simp) (by rw [← hx]; simp) (by rw [← hx]; simp) hstill
  refine ⟨hans, fun d => ?_, ?_, hhost⟩
  · unfold Blk.cove
    rw [← hfr]
  · rw [measureWrite_eq, ← hfr, ← hx, ← entered_host (b := b) (m := m)]

/-- A Cove after two are set, the second from what the first left. -/
theorem cove_setCove_setCove (hb : swf (fun _ => ({} : Cove)) b.coves = true) (c s : Nat) (v : Cove) (f : Cove → Cove) (d : Nat) :
    ((b.setCove c v).setCove s (f ((b.setCove c v).cove s))).cove d =
      if d = s then f (if s = c then v else b.cove s) else if d = c then v else b.cove d := by
  have hone : ∀ e, (b.setCove c v).cove e = if e = c then v else b.cove e := fun e => by
    split
    · next he => rw [he, cove_setCove _ c v hb]
    · next he => exact cove_setCove_ne _ v he
  split
  · next hd => rw [hd, cove_setCove _ s _ (swf_sset hb), hone]
  · next hd => rw [cove_setCove_ne _ _ hd, hone]
theorem freeIdx_lt {used : Nat → Bool} {n j : Nat} (h : freeIdx used n = some j) : j < n :=
  List.mem_range.mp (List.mem_of_find?_eq_some h)

/-! ### Inboxes -/

theorem groupPut_inbox (hc : c < 4096) (hi : i < 16) :
    x.groupPut (cfgGroup (cfgCV c + (0x3900 + 16 * i))) [(cfgCV c + (0x3900 + 16 * i), w)] = x.inboxPut c i w := by
  have hidx : (0x3900 + 16 * i - 0x3900) / 16 = i := by omega
  rw [groupPut_cv hc (by omega) (by omega), Blk.cvPut, if_neg (by simp; omega), if_neg (by omega), if_neg (by simp; omega), if_neg (by omega),
    if_neg (by omega), if_pos (by simp; omega), if_pos (by omega), hidx]

/-- The inbox of a word just enabled, and the credit entry of its source. -/
def newInbox (w : Nat) : Inbox := { word := w, grant := ({ word := w } : Inbox).units }
def newCred (c i w : Nat) : Cred := { valid := true, target := c, inbox := i, grant := ({ word := w } : Inbox).units, consumed := 0 }

theorem addCred_cove (s : Nat) (units : Nat) (hfree : (freeIdx (fun j => (b.credAt 0 s j).valid) 64).isNone = false) :
    ∃ j, j < 64 ∧ b.addCred 0 s c i units =
      b.setCove s ((b.cove s).setCred j { valid := true, target := c, inbox := i, grant := units, consumed := 0 }) := by
  obtain ⟨j, hj⟩ := Option.isSome_iff_exists.mp (by simpa using hfree : (freeIdx (fun j => (b.credAt 0 s j).valid) 64).isSome = true)
  refine ⟨j, freeIdx_lt hj, ?_⟩
  unfold Blk.addCred
  rw [if_neg (by decide), hj]
  rfl
/-- An inbox that is enabled, with its source another Cove's or its own: the inbox is set and an entry put into the source's table. -/
theorem inboxPut_enables (hb : swf (fun _ => ({} : Cove)) b.coves = true) (hold : ((b.cove c).inbox i).en = false)
    (hen : ({ word := w } : Inbox).en = true) (hk : ({ word := w } : Inbox).srck = 0) (h : b.inboxPut c i w = .ok x) :
    ∃ j, j < 64 ∧ x = (b.setCove c ((b.cove c).setInbox i (newInbox w))).setCove ({ word := w } : Inbox).src
      (((b.setCove c ((b.cove c).setInbox i (newInbox w))).cove ({ word := w } : Inbox).src).setCred j (newCred c i w)) := by
  generalize hs : ({ word := w } : Inbox).src = s at h ⊢
  have hcred : ∀ j, (b.setCove c ((b.cove c).setInbox i { word := w, grant := ({ word := w } : Inbox).units })).credAt 0 s j = b.credAt 0 s j := fun j => by
    simp only [Blk.credAt, Blk.credTable, if_pos]
    by_cases hsc : s = c
    · rw [hsc, cove_setCove _ c _ hb]
      rfl
    · rw [cove_setCove_ne _ _ hsc]
  unfold Blk.inboxPut at h
  simp only [hold, hen, hk, hs, Bool.not_true, Bool.false_eq_true, if_false, Nat.zero_ne_one, decide_false, Bool.false_and] at h
  repeat' split at h
  all_goals cases h
  next hfree _ =>
    exact addCred_cove s _ (by simpa only [hcred] using Bool.not_eq_true _ |>.mp hfree)

/-! ### Rings -/

theorem cfgGroup_ring (hc : c < 4096) (hr : r < 64) : cfgGroup (cfgCV c + (0x3A00 + 16 * r)) = cfgCV c + (0x3A00 + 16 * r) := by
  have hw := cfgWhere_cv (o := 0x3A00 + 16 * r) hc (by omega)
  unfold cfgGroup
  simp only [hw]
  rw [if_neg (by decide), if_neg (by simp), if_pos (by simp; omega)]
  unfold cfgCV
  omega
theorem groupPut_ring (hc : c < 4096) (hr : r < 64) :
    x.groupPut (cfgGroup (cfgCV c + (0x3A00 + 16 * r))) [(cfgCV c + (0x3A00 + 16 * r), w)] =
      x.ringPut c r w ((x.cove c).ring r).timeout := by
  have hw := cfgWhere_cv (o := 0x3A00 + 16 * r) hc (by omega)
  have hidx : (0x3A00 + 16 * r - 0x3A00) / 16 = r := by omega
  rw [cfgGroup_ring hc hr]
  unfold Blk.groupPut
  simp only [hw]
  rw [if_neg (by decide), if_neg (by simp), if_pos (by simp; omega), hidx]
  simp [newWord]

def newProd (c r n : Nat) : Prod := { valid := true, owner := c, ring := r, tail := 0, credits := n }

theorem addProd_cove (p n : Nat) (hfree : (freeIdx (fun j => ((b.cove p).prodEnt j).valid) 64).isNone = false) :
    ∃ j, j < 64 ∧ b.addProd p c r n = b.setCove p ((b.cove p).setProd j (newProd c r n)) := by
  obtain ⟨j, hj⟩ := Option.isSome_iff_exists.mp (by simpa using hfree : (freeIdx (fun j => ((b.cove p).prodEnt j).valid) 64).isSome = true)
  refine ⟨j, freeIdx_lt hj, ?_⟩
  unfold Blk.addProd
  rw [hj]
  rfl
/-- A ring that is enabled: it is set, empty, and an entry with a credit for each slot put into its producer's table. -/
theorem ringPut_enables {t : Nat} (hb : swf (fun _ => ({} : Cove)) b.coves = true) (hold : ((b.cove c).ring r).en = false)
    (hen : ({ word := w, timeout := t % 2 ^ 32 } : Ring).en = true) (h : b.ringPut c r w t = .ok x) :
    let n : Ring := { word := w, timeout := t % 2 ^ 32 }
    ∃ j, j < 64 ∧ x = (b.setCove c ((b.cove c).setRing r n)).setCove n.producer
      (((b.setCove c ((b.cove c).setRing r n)).cove n.producer).setProd j (newProd c r n.count)) := by
  intro n
  have hprod : ∀ j, ((b.setCove c ((b.cove c).setRing r { word := w, timeout := t % 2 ^ 32 })).cove
      ({ word := w, timeout := t % 2 ^ 32 } : Ring).producer).prodEnt j =
      (b.cove ({ word := w, timeout := t % 2 ^ 32 } : Ring).producer).prodEnt j := fun j => by
    by_cases hsc : ({ word := w, timeout := t % 2 ^ 32 } : Ring).producer = c
    · rw [hsc, cove_setCove _ c _ hb]
      rfl
    · rw [cove_setCove_ne _ _ hsc]
  unfold Blk.ringPut at h
  simp only [hold, hen, Bool.not_true, Bool.false_eq_true, if_false, Bool.false_and] at h
  repeat' split at h
  all_goals cases h
  next hfree _ =>
    exact addProd_cove _ _ (by simpa only [hprod] using Bool.not_eq_true _ |>.mp hfree)

/-! ### O5 -/

theorem newInbox_ne (hen : ({ word := w } : Inbox).en = true) : newInbox w ≠ {} := fun e => by
  have h0 : w = 0 := congrArg Inbox.word e
  rw [h0] at hen
  exact absurd hen (by decide)
theorem newRing_ne {t : Nat} (hen : ({ word := w, timeout := t } : Ring).en = true) : ({ word := w, timeout := t } : Ring) ≠ {} := fun e => by
  have h0 : w = 0 := congrArg Ring.word e
  rw [h0] at hen
  exact absurd hen (by simp [Ring.en, tbit])
theorem newCred_ne (c i w : Nat) : newCred c i w ≠ {} := fun e => Bool.noConfusion (congrArg Cred.valid e)
theorem newProd_ne (c r n : Nat) : newProd c r n ≠ {} := fun e => Bool.noConfusion (congrArg Prod.valid e)

/-- Settles O5: the write changes the Cove and its source or producer, which may be one. -/
theorem inboxAndRingWrites : Obligations.InboxAndRingWrites := by
  unfold Obligations.InboxAndRingWrites
  refine ⟨fun s m c i w b1 h hlt hi hold hen hk hc hput => ?_, fun s m c r w b1 h hlt hr hold hen hc hput => ?_⟩
  all_goals
    have hb : swf (fun _ => ({} : Cove)) (s.blk.entered m).coves = true := by simpa using hc.2.2.1
    rw [Nat.add_assoc] at h ⊢
  · obtain ⟨j, hj, rfl⟩ := inboxPut_enables hb (by rw [entered_cove]; exact hold) hen hk hput
    obtain ⟨hans, hcove, hfr, hhost⟩ := command_setCoves h ((groupPut_inbox hlt hi).trans hput) (by simp [Blk.setCove])
    have hset := fun d => (hcove d).trans (cove_setCove_setCove hb c _ _ (fun v => v.setCred j (newCred c i w)) d)
    simp only [entered_cove] at hset
    refine does_of_updIf rfl (writes_cv hlt (by omega) h (by omega) (by omega)) ⟨hans, ?_, j, hj, ?_, fun d hd => ?_, hfr, hhost⟩
    · rw [hset]
      split
      · next hs =>
        rw [if_pos hs.symm]
        exact sget_sset_new (newInbox_ne hen)
      · rw [if_pos rfl]
        exact sget_sset_new (newInbox_ne hen)
    · rw [hset, if_pos rfl]
      exact sget_sset_new (newCred_ne c i w)
    · simp only [List.mem_cons, List.not_mem_nil, or_false, not_or] at hd
      rw [hset, if_neg hd.2, if_neg hd.1]
  · obtain ⟨j, hj, rfl⟩ := ringPut_enables hb (by rw [entered_cove]; exact hold) hen hput
    obtain ⟨hans, hcove, hfr, hhost⟩ := command_setCoves h ((groupPut_ring hlt hr).trans (by rw [entered_cove]; exact hput)) (by simp [Blk.setCove])
    have hset := fun d => (hcove d).trans (cove_setCove_setCove hb c _ _ (fun v => v.setProd j (newProd c r _)) d)
    simp only [entered_cove] at hset
    refine does_of_updIf rfl (writes_cv hlt (by omega) h (by omega) (by omega)) ⟨hans, ?_, j, hj, ?_, fun d hd => ?_, hfr, hhost⟩
    · rw [hset]
      split
      · next hs =>
        rw [if_pos hs.symm]
        exact sget_sset_new (newRing_ne hen)
      · rw [if_pos rfl]
        exact sget_sset_new (newRing_ne hen)
    · rw [hset, if_pos rfl]
      exact sget_sset_new (newProd_ne c r _)
    · simp only [List.mem_cons, List.not_mem_nil, or_false, not_or] at hd
      rw [hset, if_neg hd.2, if_neg hd.1]

end Sys2Proof.Machine
end

section
/-! SUPPORT. CMD_CACHE_INVALIDATE and CMD_SPEC_COMMIT (R213, R284). -/
namespace Sys2Proof.Machine

variable {b x y : Blk} {m : Msg} {f n v d : Nat}

/-! ### Cache portions -/

/-- The machine with no valid line in the cache portions of Coves. -/
def Blk.unlined (b : Blk) (l : List Nat) : Blk := l.foldl (fun b v => b.setCove v { b.cove v with lines := [] }) b

theorem unlined_eq (l : List Nat) : { x with coves := (x.unlined l).coves } = x.unlined l := by
  unfold Blk.unlined
  induction l generalizing x with
  | nil => rfl
  | cons v l ih => rw [List.foldl_cons, ← ih]; rfl
theorem unlined_cove_out {l : List Nat} (h : d ∉ l) : (x.unlined l).cove d = x.cove d := by
  unfold Blk.unlined
  induction l generalizing x with
  | nil => rfl
  | cons v l ih =>
    rw [List.mem_cons, not_or] at h
    rw [List.foldl_cons, ih h.2, cove_setCove_ne _ _ h.1]
theorem unlined_cove_in {l : List Nat} (hx : swf (fun _ => ({} : Cove)) x.coves = true) (hl : l.Nodup) (h : d ∈ l) :
    (x.unlined l).cove d = { x.cove d with lines := [] } := by
  induction l generalizing x with
  | nil => simp at h
  | cons v l ih =>
    rw [List.nodup_cons] at hl
    show ((x.setCove v { x.cove v with lines := [] }).unlined l).cove d = _
    by_cases e : d = v
    · rw [e, unlined_cove_out hl.1, cove_setCove _ _ _ hx]
    · rw [ih (swf_sset hx) hl.2 ((List.mem_cons.mp h).resolve_left e), cove_setCove_ne _ _ e]

section
variable (h : b.takes m = true) (hop : m.opcode = 0x0304) (hfree : b.covesFree m f n = true)
include hop hfree

theorem runOp_cacheInvalidate : (b.entered m).runOp (b.asCmd m) =
    (((b.entered m).unlined (setCoves (f, n))).accept (b.asCmd m)).finish (b.accepted m) stOK 0 [] := by
  have hx : (b.entered m).FreeCoves m f n := freeCoves_of (by rw [covesFree_congr entered_sameButHost]; exact hfree)
  rw [runOp_eq (op := 0x0304) hop rfl]
  show (b.entered m).doCacheInvalidate (b.asCmd m) = _
  unfold Blk.doCacheInvalidate
  rw [withCoves_ready (c := b.asCmd m) hx.set hx.ok hx.scrub hx.ready]
  rfl
include h
theorem command_cacheInvalidate : (b.command m).answered m stOK 0 [] ∧
    ((b.entered m).unlined (setCoves (f, n))).SameButHost (b.command m) ∧ b.hostFor (b.command m) m := by
  obtain ⟨-, hstill, hlog, -⟩ := takes_facts h
  refine command_accept_ends h (by rw [hop]; rfl) (by omega) (measureCmd_of_not_measured (by omega)) (by rw [← unlined_eq]) ?_ ?_
    (runOp_cacheInvalidate hop hfree)
  · rw [← hstill, ← entered_still (b := b) (m := m), ← unlined_eq]
    rfl
  · rw [logged_congr (b := b) (by rw [← unlined_eq]; simp)]
    exact hlog
end

/-! ### A sequence descriptor opened -/

/-- A part of an operation that goes on has gone through its first step. -/
theorem bind_ok {α β : Type} {p : K α} {g : α → K β} {k : Kx} {r : β × Kx} :
    (p >>= g) k = .ok r ↔ ∃ a k1, p k = .ok (a, k1) ∧ g a k1 = .ok r := by
  cases hp : p k with
  | error e => simp [bind, StateT.bind, Except.bind, hp]
  | ok q =>
    obtain ⟨a, k1⟩ := q
    simp [bind, StateT.bind, Except.bind, hp]
theorem kHbm_region {a n : Nat} {k k1 : Kx} {u : Unit} (hn : n ≠ 0) (h : kHbm a n k = .ok (u, k1)) : regionOf a = 0 := by
  unfold kHbm at h
  simp only [if_neg hn] at h
  split at h
  · cases h
  · next hr => simpa using hr
/-- A descriptor that opens lies in HBM, and is the one at its address. -/
theorem kvOpen_facts {a : Nat} {k k1 : Kx} {q : KvSeq} (h : kvOpen a k = .ok (q, k1)) : q.addr = a ∧ regionOf a = 0 := by
  unfold kvOpen at h
  obtain ⟨_, _, _, h⟩ := bind_ok.mp h
  obtain ⟨_, _, hhbm, h⟩ := bind_ok.mp h
  refine ⟨?_, kHbm_region (by decide) hhbm⟩
  obtain ⟨v, _, _, h⟩ := bind_ok.mp h
  obtain ⟨_, _, _, h⟩ := bind_ok.mp h
  obtain ⟨_, _, _, h⟩ := bind_ok.mp h
  obtain ⟨_, _, _, h⟩ := bind_ok.mp h
  obtain ⟨_, _, _, h⟩ := bind_ok.mp h
  obtain ⟨_, _, _, h⟩ := bind_ok.mp h
  obtain ⟨_, _, _, h⟩ := bind_ok.mp h
  split at h
  · obtain ⟨_, _, _, h⟩ := bind_ok.mp h
    cases h
    rfl
  · cases h
    rfl

/-! ### Its state word written -/

theorem lt_hbmEnd {a : Nat} (hr : regionOf a = 0) : a < hbmEnd := by
  by_contra h
  unfold regionOf at hr
  rw [if_neg h] at hr
  split_ifs at hr
theorem gLocal_globalOf {a : Nat} (ha : a < hbmEnd) : gLocal (b.globalOf a) = a := by
  unfold hbmEnd at ha
  unfold gLocal Blk.globalOf
  omega
/-- An address of this device that can be spelled is local. -/
theorem isLocal_globalOf {a : Nat} (ha : a < hbmEnd) (h : b.globalOf a / 2 ^ 57 = 0) : b.isLocal (b.globalOf a) = true := by
  unfold hbmEnd at ha
  unfold Blk.globalOf at h
  simp only [Blk.isLocal, gDev, Blk.globalOf, fld, Nat.shiftRight_eq_div_pow, beq_iff_eq]
  omega
theorem encoded_of_globalStatus {p a n : Nat} (h : ¬ ((b.globalStatus p a n).1 != 0) = true) : a / 2 ^ 57 = 0 := by
  by_contra hne
  unfold Blk.globalStatus at h
  rw [if_pos (bne_iff_ne.mpr hne)] at h
  exact h rfl
/-- A write that an operation makes, at an address that lies in HBM where it is local. -/
theorem kWrite_hbm {x : Nat} {w : List Byte} {k k1 : Kx} {u : Unit} (hr : regionOf (gLocal x) = 0) (hw : w ≠ [])
    (hloc : x / 2 ^ 57 = 0 → k.b.isLocal x = true) (h : kWrite x w k = .ok (u, k1)) :
    k1.b = k.b.hbmWrite k.d.part (gLocal x) w ∧ k.b.partialUe (gLocal x) w.length = none := by
  have hempty : w.isEmpty = false := by simpa using hw
  unfold kWrite at h
  rw [hempty, if_neg Bool.false_ne_true] at h
  by_cases hst : ((k.b.globalStatus k.d.part x w.length).1 != 0) = true
  · simp only [hst, if_true] at h
    cases h
  by_cases hin : k.b.spanInput x w.length = true
  · simp only [hst, hin, if_true, if_false, Bool.false_eq_true] at h
    cases h
  simp only [hst, hin, hloc (encoded_of_globalStatus hst), hr, if_true, if_false, Bool.false_eq_true] at h
  split at h
  · cases h
  · cases h
  · next hheld hue =>
    cases h
    exact ⟨by simp [Blk.memWrite, hempty, hr], hue⟩
/-- The same at a local address. -/
theorem kWriteL_hbm {a : Nat} {w : List Byte} {k k1 : Kx} {u : Unit} (hr : regionOf a = 0) (hw : w ≠ []) (h : kWriteL a w k = .ok (u, k1)) :
    k1.b = k.b.hbmWrite k.d.part a w ∧ k.b.partialUe a w.length = none := by
  have ha := lt_hbmEnd hr
  have hg := gLocal_globalOf (b := k.b) ha
  have := kWrite_hbm (x := k.b.globalOf a) (by rw [hg]; exact hr) hw (isLocal_globalOf ha) h
  rwa [hg] at this

/-- The state word of a sequence whose epoch is closed with n accepted tokens (R284). -/
def KvSeq.closedWord (q : KvSeq) (n : Nat) : Nat :=
  { q with len := q.len + n, prev := min n 8, tent := 0, epoch := (q.epoch + 1) % 16 : KvSeq }.stateWord

section
variable {q : KvSeq} {k : Kx} {part addr e : Nat}
  (hopen : kvOpen addr { b := b, y := 0, d := { serial := 0, queue := 0, raw := [], cove := 0, part := part, origin := .cmd 0 0 0 } } = .ok (q, k))
  (hn : n ≤ q.tent) (he : e = q.epoch) (hok : (b.specCommit part addr n e).1 = stOK)
include hopen hn he hok

/-- A commit that is made writes the state word. -/
theorem specCommit_made : b.specCommit part addr n e = (stOK, 0, b.hbmWrite part addr (leBytes 8 (q.closedWord n))) ∧
    b.partialUe addr 8 = none := by
  obtain ⟨hq, hr⟩ := kvOpen_facts hopen
  unfold Blk.specCommit at hok ⊢
  simp only [hopen] at hok ⊢
  cases hc : kvClose q n e { b := b, y := 0, d := { serial := 0, queue := 0, raw := [], cove := 0, part := part, origin := .cmd 0 0 0 } } with
  | error st =>
    rw [hc] at hok
    exact absurd hok (show ¬ stBADPARAM = stOK by decide)
  | ok r =>
    unfold kvClose at hc
    rw [if_pos (by simp [he, hn])] at hc
    obtain ⟨u, k2, hput, hpure⟩ := bind_ok.mp hc
    cases hpure
    obtain ⟨hb, hue⟩ := kWriteL_hbm (a := q.addr) (w := leBytes 8 (q.closedWord n)) (by rw [hq]; exact hr) (by simp [leBytes]) hput
    rw [hq] at hb hue
    exact ⟨by simp only [stOK, if_true, hb], by simpa using hue⟩
end

/-! ### The command -/

/-- A command of kind I that no measurement takes, which ends in ST_OK as it starts after an effect beside the host side. -/
theorem command_finishes {pay : List Byte} (h : b.takes m = true) (hk : dKind m.opcode = false) (hop : m.opcode ≠ 1) (hmeas : y.measureCmd m = y)
    (hy : y.host = (b.entered m).host) (hs : y.still = true) (hl : y.logged m.ctx m.seq = false)
    (hr : (b.entered m).runOp (b.asCmd m) = y.finish (b.asCmd m) stOK 0 pay) :
    (b.command m).answered m stOK 0 pay ∧ y.SameButHost (b.command m) ∧ b.hostFor (b.command m) m := by
  have h13 : (b.asCmd m).flag 13 = false := (takes_facts h).2.2.2.1
  have hopen : (y.ctx m.ctx).st ≠ 0 := by
    rw [show y.ctx m.ctx = (b.entered m).ctx m.ctx by unfold Blk.ctx; rw [hy], (entered_ctx_self h).1]
    decide
  obtain ⟨he, -⟩ := command_ends_as h rfl hr (by rw [hy]; simp [Blk.asCmd]) hs hl
  have hsame := finish_ok_I_same (c := b.asCmd m) (pay := pay) h13 hl hk
  rw [show y.measureCmd (b.asCmd m).m = y from hmeas, ← he] at hsame
  refine ⟨?_, hsame, ?_⟩
  · rw [he]
    exact finish_answered h13 hl hop hopen (by decide)
  · rw [he]
    exact entered_hostBut.trans ((hostBut_of_host hy).trans (finish_hostBut h13 hl))

theorem hbmWrite_memOp {p a : Nat} {w : List Byte} : MemOp fun b => b.hbmWrite p a w := .foldl (fun u => hbmUnit_memOp u) _
/-- What is written to HBM under a key that marks units reads back. -/
theorem hbmRead_hbmWrite {p a k : Nat} {w : List Byte} (hw : Memory.wf b.mem) (hkey : b.keyMark p ≠ []) (hue : b.partialUe a w.length = none)
    (hk : w.length = k) : (b.hbmWrite p a w).hbmRead p a k = w := by
  refine List.ext_getElem (by simp [hk]) fun i hi hi' => ?_
  rw [hbmRead_getElem]
  have := hbmUnits_in (j := a + i) (writable_of_partialUe hw hkey hue) (Nat.le_add_right a i) (by omega)
    (.inl (mem_unitsOf (Nat.le_add_right a i) (by omega)))
  simp only [Nat.add_sub_cancel_left] at this
  exact this

/-! ### O19 -/

/-- Settles O19: both commands end as they run, after the effect on their Coves' lines or on the state word. -/
theorem cacheAndSpeculationCommands : Obligations.CacheAndSpeculationCommands := by
  unfold Obligations.CacheAndSpeculationCommands
  refine ⟨fun s m f n v h hop hfree hv0 hv1 hc => ?_, ?_⟩
  · obtain ⟨hans, hsame, hhost⟩ := command_cacheInvalidate h hop hfree
    have hcove : ∀ d, (s.blk.command m).cove d = ((s.blk.entered m).unlined (setCoves (f, n))).cove d := fun d => by
      unfold Blk.cove
      rw [hsame.coves]
    refine does_of_updIf rfl (isFor_takes h hop) ⟨hans, ?_, fun d hd => ?_, ?_, hhost⟩
    · rw [hcove, unlined_cove_in (by simpa using hc.2.2.1) (nodup_setCoves _) (mem_setCoves.mpr ⟨hv0, hv1⟩), entered_cove]
    · rw [hcove, unlined_cove_out fun hm => by have := mem_setCoves.mp hm; omega, entered_cove]
    · rw [← hsame.eq, ← unlined_eq, ← entered_host (b := s.blk) (m := m)]
  · intro s m q k h hop hw n e hheld hc hkey hopen hn he hok
    obtain ⟨-, hstill, hlog, -⟩ := takes_facts h
    obtain ⟨hmade, hue⟩ := specCommit_made hopen hn he hok
    have hop' : MemOp fun b => b.hbmWrite m.partition m.param (leBytes 8 (q.closedWord n)) := hbmWrite_memOp
    obtain ⟨hbays, hchans, hslice, hspans⟩ := hop'.rest (s.blk.entered m)
    have hr : (s.blk.entered m).runOp (s.blk.asCmd m) =
        ((s.blk.entered m).hbmWrite m.partition m.param (leBytes 8 (q.closedWord n))).finish (s.blk.asCmd m) stOK 0 [] := by
      rw [runOp_eq (op := 0x0402) hop rfl]
      show (s.blk.entered m).doSpecCommit (s.blk.asCmd m) = _
      unfold Blk.doSpecCommit
      simp only [show (s.blk.asCmd m).m = m from rfl, show (s.blk.asCmd m).part = m.partition from rfl]
      rw [if_neg (by omega), (access_congr (entered_sameButHost (b := s.blk) (m := m))).2.2.2.1, hheld, if_neg (by decide)]
      simp only [show (s.blk.entered m).specCommit m.partition m.param (fld (leAt m.payload 0 8) 22 0) (fld (leAt m.payload 0 8) 26 23) = _ from hmade]
    have hmeas (x : Blk) : x.measureCmd m = x := by simp [Blk.measureCmd, hop]
    obtain ⟨hans, hsame, hhost⟩ := command_finishes h (by rw [hop]; rfl) (by omega) (hmeas _) (hop'.host _)
      (by rw [still_congr hbays hchans hslice, entered_still, hstill]) (by rw [logged_congr hspans, entered_logged, hlog]) hr
    refine does_of_updIf rfl (isFor_takes h hop) ⟨hans, ?_, ?_, hhost⟩
    · rw [hbmRead_congr hsame, (kvOpen_facts hopen).1,
        hbmRead_hbmWrite (by simpa [Memory.wf] using hc.1) (by rw [keyMark_congr (b := s.blk) (by simp)]; exact hkey) (by simpa using hue) (by simp)]
      rfl
    · rw [hmade]
      exact hsame.eq

end Sys2Proof.Machine
end

section
/-! SUPPORT. Instructions of a ring and the events that end them (R220 to R222). -/
namespace Sys2Proof.Machine

variable {b t x y z : Blk} {c d a n j k g owner : Nat} {e : Entry} {v : List Byte} {q : Seq}

/-! ### Bytes of a Tidepool -/

/-- After one write of bytes to a Tidepool they read back. -/
theorem tpRead_of_written (hm : t.mem = ssetRun memReset b.mem (tpAddr c a) v) (h : Memory.wf b.mem) : t.tpRead c a v.length = v := by
  refine List.ext_getElem (by simp [Blk.tpRead]) fun i hi hv => ?_
  have hin : t.peek (tpAddr c a + i) = v[tpAddr c a + i - tpAddr c a] := by
    unfold Blk.peek
    rw [hm]
    exact sget_ssetRun_in v h (by omega) (by omega)
  simp only [Blk.tpRead, getElem_peekN, hin, Nat.add_sub_cancel_left]
/-- And no other byte changes. -/
theorem peek_of_written (hm : t.mem = ssetRun memReset b.mem (tpAddr c a) v) (h : j < tpAddr c a ∨ tpAddr c a + v.length ≤ j) : t.peek j = b.peek j := by
  unfold Blk.peek
  rw [hm]
  exact sget_ssetRun_out v h
theorem tpWriteQuiet_work (h : b.seq c ≠ {}) : b.TidepoolWork (b.tpWriteQuiet c a v) c := by
  unfold Blk.tpWriteQuiet
  split
  · exact .refl
  · have hpoke : b.TidepoolWork (b.pokeN (tpAddr c a) v) c := ⟨rfl, fun _ _ => rfl, rfl⟩
    have harrive := hpoke.trans (inboxArrive_work (a := a) (n := v.length) (by rw [hpoke.seq]; exact h))
    exact harrive.trans (grantLocal_work (by rw [harrive.seq]; exact h))

/-! ### One ring or one producer entry set -/

theorem sset_ne_nil {α : Type} [DecidableEq α] {d : Nat → α} {m : List (Nat × α)} {i : Nat} {u : α} (h : u ≠ d i) : sset d m i u ≠ [] := fun e => by
  have hread := sget_sset_new (m := m) h
  rw [e] at hread
  exact h hread.symm
theorem Cove.ring_setRing {u : Ring} (f : Cove) (h : u ≠ {}) : (f.setRing g u).ring g = u := sget_sset_new h
theorem Cove.prodEnt_setProd {u : Prod} (f : Cove) (h : u ≠ {}) : (f.setProd j u).prodEnt j = u := sget_sset_new h
theorem cove_setRing {u : Ring} (h : u ≠ {}) (e : Nat) : (b.setRing owner g u).cove e = if e = owner then (b.cove owner).setRing g u else b.cove e := by
  split
  · next he =>
    subst he
    exact cove_setCove_new b _ _ fun e => sset_ne_nil (m := (b.cove _).rings) (i := g) (d := fun _ => ({} : Ring)) (u := u) h (congrArg Cove.rings e)
  · next he => exact cove_setCove_ne b _ he
theorem cove_setProd {u : Prod} (h : u ≠ {}) (e : Nat) : (b.setProd c j u).cove e = if e = c then (b.cove c).setProd j u else b.cove e := by
  split
  · next he =>
    subst he
    exact cove_setCove_new b _ _ fun e => sset_ne_nil (m := (b.cove _).prods) (i := j) (d := fun _ => ({} : Prod)) (u := u) h (congrArg Cove.prods e)
  · next he => exact cove_setCove_ne b _ he
/-- A ring that is set leaves every sequencer and every producer entry. -/
theorem setRing_keeps {u : Ring} (h : u ≠ {}) (e : Nat) :
    ((b.setRing owner g u).cove e).seq = (b.cove e).seq ∧ ((b.setRing owner g u).cove e).prods = (b.cove e).prods := by
  rw [cove_setRing h]
  split
  · next he => subst he; exact ⟨rfl, rfl⟩
  · exact ⟨rfl, rfl⟩
/-- A producer entry that is set leaves every sequencer and every ring. -/
theorem setProd_keeps {u : Prod} (h : u ≠ {}) (e : Nat) :
    ((b.setProd c j u).cove e).seq = (b.cove e).seq ∧ ((b.setProd c j u).cove e).rings = (b.cove e).rings := by
  rw [cove_setProd h]
  split
  · next he => subst he; exact ⟨rfl, rfl⟩
  · exact ⟨rfl, rfl⟩
theorem Ring.ne_default_of_en {u : Ring} (h : u.en = true) : u ≠ {} := fun e => by
  rw [e] at h
  exact absurd h (by decide)
theorem Prod.ne_default_of_valid {u : Prod} (h : u.valid = true) : u ≠ {} := fun e => by
  rw [e] at h
  exact absurd h (by decide)

/-! ### Starts and ends of a program that goes on -/

/-- A program that is not ending goes on while an instruction is uncompleted or no fault is recorded. -/
theorem settle_goes_on (hstop : (b.seq c).stopping = 0) (h : (b.seq c).inflight ≠ [] ∨ (b.seq c).fault = none) : b.settle c = b := by
  unfold Blk.settle
  rcases h with h | h <;> simp [hstop, h]
/-- What starts is what a kick changes, where the program goes on and the match table stays. -/
theorem kick_eq (hstart : b.startAll c = z) (hsettle : z.settle c = z) (hbays : z.bays = b.bays) : b.kick c = z := by
  have hb : (z.bay (bayOf c)).matchHolder = (b.bay (bayOf c)).matchHolder := by unfold Blk.bay; rw [hbays]
  unfold Blk.kick
  simp only [hstart, hsettle, hb]
  split
  · next h =>
    simp only [Bool.and_eq_true, decide_eq_true_eq] at h
    simp [h.1] at h
  · rfl
/-- A kick does nothing to a Cove whose program, if any, waits for the host or goes on. -/
theorem kick_quiet (hfly : (b.seq c).inflight = []) (hstop : (b.seq c).stopping = 0) (hfault : (b.seq c).fault = none) : b.kick c = b :=
  kick_eq (startAll_idle hfly) (settle_goes_on hstop (.inr hfault)) rfl
/-- The only instruction of a Cove that goes on is tried. -/
theorem startAll_one (hfly : (b.seq c).inflight = [e]) (hst : (b.seq c).st = 1) (hstop : (b.seq c).stopping = 0) (hpower : b.dev.power < 2) :
    b.startAll c = b.tryStart c e := by
  unfold Blk.startAll
  simp [hfly, hst, hstop, Nat.not_le.mpr hpower]
/-- One that has started is not started again. -/
theorem startAll_started (hfly : (b.seq c).inflight = [e]) (hs : e.started = true) : b.startAll c = b := by
  unfold Blk.startAll
  simp only [hfly]
  split
  · rfl
  · simp [hfly, Blk.tryStart, hs]
/-- The only instruction of a Cove has begun: its entry says so. -/
theorem begun_becomes (o : Option Done) (hfly : (b.seq c).inflight = [e]) :
    b.SeqBecomes (b.begun c e o) c { b.seq c with inflight := [{ e with started := true, done := o }] } := by
  have he : b.begun c e o = b.setSeq c { b.seq c with inflight := [{ e with started := true, done := o }] } := by
    unfold Blk.begun Blk.setEntry
    simp [hfly]
  rw [he]
  exact setSeq_becomes fun h => by simpa using congrArg Seq.inflight h

/-! ### Issue of an instruction whose check moves nothing (R177) -/

/-- The sequencer that has issued a unit instruction. -/
def Seq.issuing (q : Seq) (e : Entry) : Seq := ({ q.counted with inflight := [e] } : Seq).next

section
variable (hfly : (b.seq c).inflight = []) (hcheck : b.issueCheck c (b.seq c).word (b.seq c).sregs = (none, b))
include hcheck
theorem unitIssued_becomes : b.SeqBecomes (b.unitIssued c) c ((b.seq c).issuing (b.unitEntry c)) := by
  have hset := issued_set_becomes (b := b) (c := c) (r := { (b.seq c).counted with inflight := [b.unitEntry c] }) (Nat.succ_ne_zero _)
  have hadv := advance_becomes (b := (b.issued c).setSeq c { (b.seq c).counted with inflight := [b.unitEntry c] }) (c := c) (by
    rw [hset.seq]
    exact Seq.ne_idle_of_serial (Nat.succ_ne_zero _))
  rw [hset.seq] at hadv
  have he : b.unitIssued c = ((b.issued c).setSeq c { (b.seq c).counted with inflight := [b.unitEntry c] }).advance c := by
    unfold Blk.unitIssued
    simp only [hcheck, issued_becomes.seq]
  rw [he]
  exact hset.trans hadv
include hfly
theorem issueUnit_eq (hk : (queueOf (wOpcode (b.seq c).word)).isSome = true) : b.issueUnit c (b.seq c).word = (b.unitIssued c).kick c := by
  obtain ⟨k, hk⟩ := Option.isSome_iff_exists.mp hk
  unfold Blk.issueUnit Blk.unitIssued Blk.unitEntry
  simp [hk, hfly, Seq.extentHeld, hcheck, issued_becomes.seq, Seq.counted]
end

/-- The instruction of a Cove with nothing else uncompleted has issued, and its start leaves it so. -/
theorem issued_facts (h : b.comes c n = true) (hx : b.SeqBecomes x c ((b.seq c).issuing e)) :
    (x.seq c).inflight = [e] ∧ (x.seq c).st = 1 ∧ (x.seq c).stopping = 0 ∧ x.dev.power < 2 := by
  obtain ⟨-, hissue, -⟩ := comes_facts h
  obtain ⟨hst, hstop, -, -⟩ := canIssue_facts hissue
  have hpower : b.dev.power < 2 := by
    simp only [Blk.canIssue, Bool.and_eq_true, decide_eq_true_eq] at hissue
    exact hissue.2
  rw [hx.seq]
  exact ⟨rfl, hst, hstop, by rw [← hx.only.1]; exact hpower⟩

/-! ### RPUT and RGET begin (R221, R222) -/

/-- An instruction of a ring passes the check of its Cove's queue, and may start when nothing else is uncompleted. -/
theorem unitFree_facts (h : b.unitFree c = true) (hb : (b.issueCheck c (b.seq c).word (b.seq c).sregs).2 = b) :
    b.issueCheck c (b.seq c).word (b.seq c).sregs = (none, b) ∧ (b.unitIssued c).mayStart c (b.unitEntry c) = true := by
  simp only [Blk.unitFree, Bool.and_eq_true, Option.isNone_iff_eq_none] at h
  obtain ⟨⟨hnone, hmay⟩, -⟩ := h
  exact ⟨Prod.ext hnone hb, hmay⟩
theorem issueCheck_rput {w : Nat} {regs : List (Nat × Nat)} (hop : wOpcode w = 0x50) :
    b.issueCheck c w regs = if b.rangesOk c w regs then (b.checkRput c w, b) else (some badParam, b) := by
  unfold Blk.issueCheck
  cases b.rangesOk c w regs <;> simp [hop]
theorem issueCheck_rget {w : Nat} {regs : List (Nat × Nat)} (hop : wOpcode w = 0x51) :
    b.issueCheck c w regs = if b.rangesOk c w regs then (b.checkRget c w, b) else (some badParam, b) := by
  unfold Blk.issueCheck
  cases b.rangesOk c w regs <;> simp [hop]

/-- The machine with an instruction of a ring begun: a start that succeeds has changed it to y. -/
theorem issueUnit_ring {o : Option Done} (h : b.comes c n = true) (hcheck : b.issueCheck c (b.seq c).word (b.seq c).sregs = (none, b))
    (hk : (queueOf n).isSome = true) (htry : (b.unitIssued c).tryStart c (b.unitEntry c) = y.begun c (b.unitEntry c) o)
    (hseq : y.seq c = (b.unitIssued c).seq c) (hbays : y.bays = b.bays) :
    b.issueUnit c (b.seq c).word = y.begun c (b.unitEntry c) o ∧
    y.SeqBecomes (y.begun c (b.unitEntry c) o) c { (b.seq c).issuing (b.unitEntry c) with inflight := [{ b.unitEntry c with started := true, done := o }] } := by
  obtain ⟨-, -, -, hop, -, hfly⟩ := comes_facts h
  have hx := unitIssued_becomes hcheck
  obtain ⟨xfly, xst, xstop, xpower⟩ := issued_facts h hx
  have hbegun := begun_becomes (b := y) (c := c) (e := b.unitEntry c) o (by rw [hseq, xfly])
  rw [hseq, hx.seq] at hbegun
  have hstart := startAll_one xfly xst xstop xpower
  rw [htry] at hstart
  rw [issueUnit_eq hfly hcheck (by rw [hop]; exact hk)]
  refine ⟨kick_eq hstart (settle_goes_on ?_ (.inl ?_)) ?_, hbegun⟩
  · rw [hbegun.seq]
    rw [hx.seq] at xstop
    exact xstop
  · rw [hbegun.seq]
    simp
  · rw [← hbegun.only.1, ← hx.only.1]
    exact hbays

theorem Blk.SeqBecomes.keeps (h : b.SeqBecomes x c q) (e : Nat) : (x.cove e).prods = (b.cove e).prods ∧ (x.cove e).rings = (b.cove e).rings := by
  obtain ⟨-, hothers, hcove, -⟩ := h.only
  by_cases he : e = c
  · rw [he, ← hcove]
    exact ⟨rfl, rfl⟩
  · rw [hothers e he]
    exact ⟨rfl, rfl⟩
theorem Blk.SeqBecomes.ring (h : b.SeqBecomes x c q) (e g : Nat) : (x.cove e).ring g = (b.cove e).ring g := by rw [Cove.ring, (h.keeps e).2]; rfl
theorem Blk.SeqBecomes.prodEnt (h : b.SeqBecomes x c q) (e j : Nat) : (x.cove e).prodEnt j = (b.cove e).prodEnt j := by
  rw [Cove.prodEnt, (h.keeps e).1]
  rfl

/-- A producer entry that has given one credit for the slot at its tail, of a ring of n slots. -/
def Prod.spent (k : Prod) (n : Nat) : Prod := { k with credits := k.credits - 1, tail := (k.tail + 1) % n }
/-- A ring with data on its way to a slot. -/
def Ring.sent (r : Ring) (i : Nat) (v : List Byte) : Ring := { r with landing := r.landing ++ [(i, v)] }
theorem Prod.spent_ne {k : Prod} (h : k.valid = true) (n : Nat) : k.spent n ≠ {} := Prod.ne_default_of_valid (show (k.spent n).valid = true from h)
theorem Ring.sent_ne (r : Ring) (i : Nat) (v : List Byte) : r.sent i v ≠ {} := fun e => by simpa [Ring.sent] using congrArg Ring.landing e

/-- An RPUT with a credit has sent its bytes. -/
def Blk.rputSent (b : Blk) (c j d g : Nat) (v : List Byte) : Blk :=
  (b.setProd c j (((b.cove c).prodEnt j).spent ((b.cove d).ring g).count)).setRing d g (((b.cove d).ring g).sent ((b.cove c).prodEnt j).tail v)
theorem startRput_begins {w : Nat} {regs : List (Nat × Nat)} (hidx : b.prodIdx c (rputOwner w) (rgRing w) = some j)
    (hen : ((b.cove (rputOwner w)).ring (rgRing w)).en = true) (hlen : fld w 50 31 ≤ ((b.cove (rputOwner w)).ring (rgRing w)).slot)
    (hcredit : 0 < ((b.cove c).prodEnt j).credits) :
    b.startRput c w regs = .begun (b.rputSent c j (rputOwner w) (rgRing w) (b.tpRead c (xaddr w regs 72 51) (fld w 50 31))) := by
  unfold Blk.startRput
  simp only [hidx, hen, Bool.not_true, Bool.false_eq_true, if_false, if_neg (Nat.not_lt.mpr hlen), if_neg hcredit.ne']
  rfl
theorem rputSent_facts (hvalid : ((b.cove c).prodEnt j).valid = true) :
    (((b.rputSent c j d g v).cove c).prodEnt j) = ((b.cove c).prodEnt j).spent ((b.cove d).ring g).count ∧
    (((b.rputSent c j d g v).cove d).ring g) = ((b.cove d).ring g).sent ((b.cove c).prodEnt j).tail v ∧
    (b.rputSent c j d g v).seq c = b.seq c ∧ b.covesBut (b.rputSent c j d g v) [c, d] := by
  have hk := Prod.spent_ne hvalid ((b.cove d).ring g).count
  have hr := Ring.sent_ne ((b.cove d).ring g) ((b.cove c).prodEnt j).tail v
  have hring := setRing_keeps (b := b.setProd c j (((b.cove c).prodEnt j).spent ((b.cove d).ring g).count)) (owner := d) (g := g) hr c
  have hprod := setProd_keeps (b := b) (c := c) (j := j) hk c
  unfold Blk.rputSent
  refine ⟨?_, ?_, ?_, fun e he => ?_⟩
  · rw [Cove.prodEnt, hring.2, cove_setProd hk, if_pos rfl]
    exact Cove.prodEnt_setProd _ hk
  · rw [cove_setRing hr, if_pos rfl]
    exact Cove.ring_setRing _ hr
  · exact hring.1.trans hprod.1
  · simp only [List.mem_cons, List.not_mem_nil, or_false, not_or] at he
    rw [cove_setRing hr, if_neg he.2, cove_setProd hk, if_neg he.1]

theorem checkRput_of_issueCheck {w : Nat} {regs : List (Nat × Nat)} (hop : wOpcode w = 0x50) (h : b.issueCheck c w regs = (none, b)) :
    b.checkRput c w = none := by
  rw [issueCheck_rput hop] at h
  split at h
  · exact congrArg Prod.fst h
  · cases h
theorem checkRput_en {w : Nat} (h : b.checkRput c w = none) : ((b.cove (rputOwner w)).ring (rgRing w)).en = true := by
  unfold Blk.checkRput at h
  simp only at h
  split at h
  · cases h
  · split at h
    · cases h
    · next hen =>
      simp only [Bool.or_eq_true, Bool.not_eq_true', not_or, Bool.not_eq_false] at hen
      exact hen.1
theorem tryStart_rput (hnot : e.started = false) (hmay : b.mayStart c e = true) (hop : wOpcode e.word = 0x50)
    (h : b.startRput c e.word e.regs = .begun y) : b.tryStart c e = y.begun c e none := by
  unfold Blk.tryStart
  simp [hnot, hmay, hop, h]

/-- RPUT with a credit, of bytes that fit a slot, has issued and sent them. -/
theorem issueUnit_rput {w : Nat} (h : b.comes c 0x50 = true) (hfree : b.unitFree c = true) (hw : (b.seq c).word = w)
    (hidx : b.prodIdx c (rputOwner w) (rgRing w) = some j) (hvalid : ((b.cove c).prodEnt j).valid = true) (hcredit : 0 < ((b.cove c).prodEnt j).credits)
    (hlen : fld w 50 31 ≤ ((b.cove (rputOwner w)).ring (rgRing w)).slot) :
    ((b.issueUnit c w).cove c).prodEnt j = ((b.cove c).prodEnt j).spent ((b.cove (rputOwner w)).ring (rgRing w)).count ∧
    ((b.issueUnit c w).cove (rputOwner w)).ring (rgRing w) = ((b.cove (rputOwner w)).ring (rgRing w)).sent ((b.cove c).prodEnt j).tail
      (b.tpRead c (xaddr w (b.seq c).sregs 72 51) (fld w 50 31)) ∧
    b.covesBut (b.issueUnit c w) [c, rputOwner w] ∧ { b with cfg := (b.issueUnit c w).cfg, coves := (b.issueUnit c w).coves } = b.issueUnit c w := by
  subst hw
  obtain ⟨-, -, -, hop, -, -⟩ := comes_facts h
  obtain ⟨hcheck, hmay⟩ := unitFree_facts hfree (by rw [issueCheck_rput hop]; split <;> rfl)
  have hx := unitIssued_becomes hcheck
  have hidx' : (b.unitIssued c).prodIdx c (rputOwner (b.seq c).word) (rgRing (b.seq c).word) = some j := by
    rw [Blk.prodIdx, (hx.keeps c).1]
    exact hidx
  have hstart := startRput_begins (regs := (b.seq c).sregs) hidx' (by rw [hx.ring]; exact checkRput_en (checkRput_of_issueCheck hop hcheck))
    (by rw [hx.ring]; exact hlen) (by rw [hx.prodEnt]; exact hcredit)
  have hsent := rputSent_facts (b := b.unitIssued c) (c := c) (j := j) (d := rputOwner (b.seq c).word) (g := rgRing (b.seq c).word)
    (v := (b.unitIssued c).tpRead c (xaddr (b.seq c).word (b.seq c).sregs 72 51) (fld (b.seq c).word 50 31)) (by rw [hx.prodEnt]; exact hvalid)
  have hread : ∀ a n, (b.unitIssued c).tpRead c a n = b.tpRead c a n := fun _ _ => peekN_of_mem (by rw [← hx.only.1])
  rw [hx.ring, hx.prodEnt, hread] at hsent
  rw [hread] at hstart
  obtain ⟨hprod, hring, hseq, hothers⟩ := hsent
  obtain ⟨he, hz⟩ := issueUnit_ring h hcheck rfl (tryStart_rput (e := b.unitEntry c) rfl hmay hop hstart) hseq (by rw [← hx.only.1]; rfl)
  obtain ⟨zframe, zothers, -, -⟩ := hz.only
  rw [he, hz.ring, hz.prodEnt]
  refine ⟨hprod, hring, fun f hf => ?_, by rw [← zframe, ← hx.only.1]; rfl⟩
  have hfc : f ≠ c := fun e => hf (by simp [e])
  rw [zothers f hfc, hothers f hf, hx.only.2.1 f hfc]

/-! ### RGET begins -/

theorem checkRget_of_issueCheck {w : Nat} {regs : List (Nat × Nat)} (hop : wOpcode w = 0x51) (h : b.issueCheck c w regs = (none, b)) :
    ((b.cove c).ring (rgRing w)).en = true := by
  rw [issueCheck_rget hop] at h
  split at h
  · have hnone : b.checkRget c w = none := congrArg Prod.fst h
    unfold Blk.checkRget at hnone
    split at hnone
    · next hen => exact hen
    · cases hnone
  · cases h
theorem startRget_begins {w : Nat} {regs : List (Nat × Nat)} (hen : ((b.cove c).ring (rgRing w)).en = true)
    (hfull : ((b.cove c).ring (rgRing w)).full.contains ((b.cove c).ring (rgRing w)).head = true) (hlen : fld w 62 43 ≤ ((b.cove c).ring (rgRing w)).slot) :
    b.startRget c w regs = .begun (b.tpWriteQuiet c (xaddr w regs 84 63)
      (b.tpRead c (((b.cove c).ring (rgRing w)).base + ((b.cove c).ring (rgRing w)).head * ((b.cove c).ring (rgRing w)).slot) (fld w 62 43))) := by
  unfold Blk.startRget
  simp only [hen, hfull, Bool.not_true, Bool.false_eq_true, if_false, if_neg (Nat.not_lt.mpr hlen)]
theorem tryStart_rget (hnot : e.started = false) (hmay : b.mayStart c e = true) (hop : wOpcode e.word = 0x51)
    (h : b.startRget c e.word e.regs = .begun y) : b.tryStart c e = y.begun c e (some okDone) := by
  unfold Blk.tryStart
  simp [hnot, hmay, hop, h]

/-- RGET of a full slot at HEAD, of no more bytes than it has, has issued and copied them. -/
theorem issueUnit_rget {w : Nat} (h : b.comes c 0x51 = true) (hfree : b.unitFree c = true) (hw : (b.seq c).word = w)
    (hfull : ((b.cove c).ring (rgRing w)).full.contains ((b.cove c).ring (rgRing w)).head = true) (hlen : fld w 62 43 ≤ ((b.cove c).ring (rgRing w)).slot) :
    ((b.issueUnit c w).seq c).inflight = [{ b.unitEntry c with started := true, done := some okDone }] ∧
    (b.issueUnit c w).mem = ssetRun memReset b.mem (tpAddr c (xaddr w (b.seq c).sregs 84 63))
      (b.tpRead c (((b.cove c).ring (rgRing w)).base + ((b.cove c).ring (rgRing w)).head * ((b.cove c).ring (rgRing w)).slot) (fld w 62 43)) ∧
    b.covesBut (b.issueUnit c w) [c] ∧
    { b with cfg := (b.issueUnit c w).cfg, mem := (b.issueUnit c w).mem, coves := (b.issueUnit c w).coves } = b.issueUnit c w := by
  subst hw
  obtain ⟨-, -, -, hop, -, -⟩ := comes_facts h
  obtain ⟨hcheck, hmay⟩ := unitFree_facts hfree (by rw [issueCheck_rget hop]; split <;> rfl)
  have hx := unitIssued_becomes hcheck
  have hstart := startRget_begins (regs := (b.seq c).sregs) (by rw [hx.ring]; exact checkRget_of_issueCheck hop hcheck)
    (by rw [hx.ring]; exact hfull) (by rw [hx.ring]; exact hlen)
  have hmem : (b.unitIssued c).mem = b.mem := by rw [← hx.only.1]
  rw [hx.ring, show ∀ a n, (b.unitIssued c).tpRead c a n = b.tpRead c a n from fun _ _ => peekN_of_mem hmem] at hstart
  generalize b.tpRead c _ _ = v at hstart ⊢
  have hwork := tpWriteQuiet_work (b := b.unitIssued c) (c := c) (a := xaddr (b.seq c).word (b.seq c).sregs 84 63) (v := v)
    (by rw [hx.seq]; exact fun e => by simpa [Seq.issuing, Seq.next] using congrArg Seq.inflight e)
  obtain ⟨he, hz⟩ := issueUnit_ring h hcheck rfl (tryStart_rget (e := b.unitEntry c) rfl hmay hop hstart) hwork.seq (by rw [← hwork.frame, ← hx.only.1])
  obtain ⟨zframe, zothers, -, -⟩ := hz.only
  rw [he]
  refine ⟨by rw [hz.seq], ?_, fun f hf => ?_, by rw [← zframe, ← hwork.frame, ← hx.only.1]⟩
  · rw [← hmem, ← zframe]
    exact tpWriteQuiet_mem
  · have hfc : f ≠ c := by simpa using hf
    rw [zothers f hfc, hwork.others f hf, hx.only.2.1 f hfc]

/-! ### The events of a ring -/

/-- Nothing of a Cove's program is uncompleted or about to end. -/
def Blk.quietAt (b : Blk) (c : Nat) : Prop := (b.seq c).inflight = [] ∧ (b.seq c).stopping = 0 ∧ (b.seq c).fault = none
theorem Blk.quietAt.kick (h : b.quietAt c) (hx : x.seq c = b.seq c) : x.kick c = x := by
  obtain ⟨hfly, hstop, hfault⟩ := h
  exact kick_quiet (by rw [hx]; exact hfly) (by rw [hx]; exact hstop) (by rw [hx]; exact hfault)

/-- A ring whose only data under way has landed in a slot. -/
def Ring.landed (r : Ring) (k : Nat) : Ring := { r with landing := [], full := r.full ++ [k] }
/-- A ring whose slot at HEAD has been consumed, its EMPTY mark on its way. -/
def Ring.consumed (r : Ring) : Ring := { r with full := r.full.filter (· != r.head), head := (r.head + 1) % r.count, returning := r.returning + 1 }
/-- A ring that has one EMPTY mark fewer on its way, and the producer entry that it has reached. -/
def Ring.marked (r : Ring) : Ring := { r with returning := r.returning - 1 }
def Prod.credited (k : Prod) : Prod := { k with credits := k.credits + 1 }

/-! #### A slot becomes FULL -/

/-- The bytes of a slot have landed. -/
def Blk.landed (b : Blk) (owner g k : Nat) (v : List Byte) : Blk :=
  (b.pokeN (tpAddr owner (((b.cove owner).ring g).base + k * ((b.cove owner).ring g).slot)) v).setRing owner g (((b.cove owner).ring g).landed k)

section
variable (hen : ((b.cove owner).ring g).en = true)
include hen
theorem Ring.landed_ne : ((b.cove owner).ring g).landed k ≠ {} :=
  Ring.ne_default_of_en (show (((b.cove owner).ring g).landed k).en = true from hen)
theorem landed_seq (c : Nat) : (b.landed owner g k v).seq c = b.seq c := (setRing_keeps (Ring.landed_ne hen) c).1
theorem landed_cove (e : Nat) : (b.landed owner g k v).cove e = if e = owner then (b.cove owner).setRing g (((b.cove owner).ring g).landed k) else b.cove e :=
  cove_setRing (Ring.landed_ne hen) e
theorem slotFull_eq (hland : ((b.cove owner).ring g).landing = [(k, v)]) (hlost : b.tpLost owner = false) (howner : b.quietAt owner)
    (hprod : b.quietAt ((b.cove owner).ring g).producer) : b.slotFull owner g = b.landed owner g k v := by
  have hlands : b.landRing owner g = b.landed owner g k v := by
    unfold Blk.landRing
    simp only [hland, hlost, Bool.false_eq_true, if_false]
    rfl
  have hfly : ((b.landed owner g k v).seq ((b.cove owner).ring g).producer).inflight = [] := by rw [landed_seq hen]; exact hprod.1
  unfold Blk.slotFull
  simp only [hland, List.isEmpty_cons, Bool.false_eq_true, if_false, hlands, hfly, List.find?_nil]
  rw [hprod.kick (landed_seq hen _), howner.kick (landed_seq hen _)]
end

/-! #### RGET completes -/

theorem statusOf_ok {serial index w : Nat} (h : wCont w = false) : b.statusOf c serial index w okDone = b.setSeq c (b.seq c) := by
  have hdet : b.closeDet okDone.det = (0, b) := rfl
  unfold Blk.statusOf
  simp [h, hdet, show okDone.st = 0 from rfl, show benign 0 = true from rfl, stHWERROR, stUNCONTAINED, stINF, stINEXACT]
theorem endRget_eq {w : Nat} (hen : ((b.cove c).ring (rgRing w)).en = true)
    (hfull : ((b.cove c).ring (rgRing w)).full.contains ((b.cove c).ring (rgRing w)).head = true) :
    b.endRget c w = b.setRing c (rgRing w) ((b.cove c).ring (rgRing w)).consumed := by
  unfold Blk.endRget
  simp only [hen, hfull, Bool.not_true, Bool.or_self, Bool.false_eq_true, if_false]
  rfl

/-- A sequencer with nothing uncompleted left. -/
def Seq.emptied (q : Seq) : Seq := { q with inflight := [] }
theorem Seq.emptied_ne (h : q.st = 1) : q.emptied ≠ {} := Seq.ne_idle_of_st (show q.st ≠ 0 by omega)
/-- A Cove whose only instruction, an RGET of a ring, has completed. -/
def Blk.rgot (b : Blk) (c g : Nat) : Blk := (b.setSeq c (b.seq c).emptied).setRing c g ((b.cove c).ring g).consumed

section
variable (hst : (b.seq c).st = 1) (hen : ((b.cove c).ring g).en = true)
include hst hen
theorem rgot_cove (e : Nat) : (b.rgot c g).cove e =
    if e = c then { (b.cove c).setRing g ((b.cove c).ring g).consumed with seq := (b.seq c).emptied } else b.cove e := by
  have hset := setSeq_becomes (b := b) (c := c) (q := (b.seq c).emptied) (Seq.emptied_ne hst)
  obtain ⟨-, hothers, hcove, -⟩ := hset.only
  rw [Blk.rgot, cove_setRing (Ring.ne_default_of_en (show ((b.cove c).ring g).consumed.en = true from hen)), ← hcove, hset.seq]
  split
  · rfl
  · next he => exact hothers e he
theorem unitComplete_rget (hfly : (b.seq c).inflight = [e]) (hq : e.queue = 5) (hop : wOpcode e.word = 0x51) (hdone : e.done = some okDone)
    (hstop : (b.seq c).stopping = 0) (hfault : (b.seq c).fault = none) (hcont : wCont e.word = false) (hg : rgRing e.word = g)
    (hfull : ((b.cove c).ring g).full.contains ((b.cove c).ring g).head = true) :
    b.unitComplete c 5 = (b.rgot c g).setSeq c (b.seq c).emptied := by
  have hset := setSeq_becomes (b := b) (c := c) (q := (b.seq c).emptied) (Seq.emptied_ne hst)
  have hends : (b.setSeq c (b.seq c).emptied).endRget c e.word = b.rgot c g := by
    rw [endRget_eq (by rw [hset.ring, hg]; exact hen) (by rw [hset.ring, hg]; exact hfull), hset.ring, hg]
    rfl
  have hseq : (b.rgot c g).seq c = (b.seq c).emptied := by rw [Blk.seq, rgot_cove hst hen, if_pos rfl]
  have hlast := setSeq_becomes (b := b.rgot c g) (c := c) (q := (b.seq c).emptied) (Seq.emptied_ne hst)
  have hkick : ((b.rgot c g).setSeq c (b.seq c).emptied).kick c = (b.rgot c g).setSeq c (b.seq c).emptied :=
    kick_quiet (by rw [hlast.seq]; rfl) (by rw [hlast.seq]; exact hstop) (by rw [hlast.seq]; exact hfault)
  have hfind : (b.seq c).inflight.find? (fun f => f.queue == 5 && f.done.isSome) = some e := by simp [hfly, hq, hdone]
  have hdrop : ({ b.seq c with inflight := (b.seq c).inflight.filter fun f => f.serial != e.serial } : Seq) = (b.seq c).emptied := by
    simp [Seq.emptied, hfly]
  unfold Blk.unitComplete
  simp only [hfind, hdone, Option.getD_some]
  simp only [hdrop, hop, show okDone.st = stOK from rfl, decide_true, Bool.and_self, if_true]
  rw [hends, statusOf_ok hcont, hseq, hkick]
  simp
end

/-! #### An EMPTY mark returns -/

section
variable (hen : ((b.cove owner).ring g).en = true) (hvalid : ((b.cove d).prodEnt j).valid = true)
include hen
theorem Ring.marked_ne : ((b.cove owner).ring g).marked ≠ {} := Ring.ne_default_of_en (show ((b.cove owner).ring g).marked.en = true from hen)
include hvalid

/-- One EMPTY mark of a ring has reached the producer entry of a Cove. -/
def Blk.markBack (b : Blk) (owner g d j : Nat) : Blk := (b.setRing owner g ((b.cove owner).ring g).marked).setProd d j ((b.cove d).prodEnt j).credited

theorem markBack_facts : ((b.markBack owner g d j).cove owner).ring g = ((b.cove owner).ring g).marked ∧
    ((b.markBack owner g d j).cove d).prodEnt j = ((b.cove d).prodEnt j).credited ∧ (b.markBack owner g d j).seq d = b.seq d ∧
    b.covesBut (b.markBack owner g d j) [owner, d] := by
  have hr := Ring.marked_ne hen
  have hk : ((b.cove d).prodEnt j).credited ≠ {} := Prod.ne_default_of_valid (show ((b.cove d).prodEnt j).credited.valid = true from hvalid)
  unfold Blk.markBack
  refine ⟨?_, ?_, ?_, fun e he => ?_⟩
  · rw [Cove.ring, (setProd_keeps hk owner).2, cove_setRing hr, if_pos rfl]
    exact Cove.ring_setRing _ hr
  · rw [cove_setProd hk, if_pos rfl]
    exact Cove.prodEnt_setProd _ hk
  · exact (setProd_keeps hk d).1.trans (setRing_keeps hr d).1
  · simp only [List.mem_cons, List.not_mem_nil, or_false, not_or] at he
    rw [cove_setProd hk, if_neg he.2, cove_setRing hr, if_neg he.1]
theorem creditReturn_eq (hd : ((b.cove owner).ring g).producer = d) (hback : 0 < ((b.cove owner).ring g).returning) (hidx : b.prodIdx d owner g = some j)
    (hquiet : b.quietAt d) : b.creditReturn owner g = b.markBack owner g d j := by
  subst hd
  have hr := Ring.marked_ne hen
  have hkeep := (setRing_keeps (b := b) (owner := owner) (g := g) hr ((b.cove owner).ring g).producer).2
  have hidx' : (b.setRing owner g ((b.cove owner).ring g).marked).prodIdx ((b.cove owner).ring g).producer owner g = some j := by
    rw [Blk.prodIdx, hkeep]
    exact hidx
  have hent : ((b.setRing owner g ((b.cove owner).ring g).marked).cove ((b.cove owner).ring g).producer).prodEnt j =
      (b.cove ((b.cove owner).ring g).producer).prodEnt j := by
    rw [Cove.prodEnt, hkeep]
    rfl
  have hcredit : b.creditRing owner g = b.markBack owner g ((b.cove owner).ring g).producer j := by
    unfold Ring.marked at hidx' hent
    unfold Blk.creditRing
    simp only [if_neg hback.ne', hidx', hent]
    rfl
  unfold Blk.creditReturn
  simp only [if_neg hback.ne', hcredit]
  exact hquiet.kick (markBack_facts hen hvalid).2.2.1
end

/-! #### The timeout -/

theorem ringTimeout_rget (hfly : (b.seq c).inflight = [e]) (hq : e.queue = 5) (hop : wOpcode e.word = 0x51) (hnot : e.started = false)
    (hstop : (b.seq c).stopping = 0) (hen : ((b.cove c).ring (rgRing e.word)).en = true) (hlen : fld e.word 62 43 ≤ ((b.cove c).ring (rgRing e.word)).slot)
    (hempty : ((b.cove c).ring (rgRing e.word)).full.contains ((b.cove c).ring (rgRing e.word)).head = false) :
    b.ringTimeout c = b.begun c e (some (fault stRINGTIMEOUT)) := by
  have hmay : b.mayStart c e = true := by simp [Blk.mayStart, hfly, hq, hop, Blk.engineOf]
  have hwaits : b.startRget c e.word e.regs = .waits := by
    unfold Blk.startRget
    simp only [hen, hempty, Bool.not_true, Bool.not_false, Bool.false_eq_true, if_false, if_true, if_neg (Nat.not_lt.mpr hlen)]
  have hbegun := begun_becomes (some (fault stRINGTIMEOUT)) hfly
  have hkick : (b.begun c e (some (fault stRINGTIMEOUT))).kick c = b.begun c e (some (fault stRINGTIMEOUT)) :=
    kick_eq (startAll_started (e := { e with started := true, done := some (fault stRINGTIMEOUT) }) (by rw [hbegun.seq]) rfl)
      (settle_goes_on (by rw [hbegun.seq]; exact hstop) (.inl (by rw [hbegun.seq]; simp))) rfl
  unfold Blk.ringTimeout
  simp [hfly, hq, hnot, hmay, hop, hwaits, hkick]

/-! ### O29 -/

/-- Settles O29: RPUT and RGET, with nothing else uncompleted, begin at once, and each event of a ring changes what it says and starts nothing. -/
theorem ringInstructions : Obligations.RingInstructions := by
  unfold Obligations.RingInstructions
  refine ⟨?_, ?_, ?_, ?_, ?_, ?_⟩
  · intro s c h hfree w n d r j hidx hvalid hcredit hlen
    exact does_of_comes h rfl (issueUnit_rput h hfree rfl hidx hvalid hcredit hlen)
  · intro s owner g k v hc hg r hland hlost hen hwf hfly hstop hfault pfly pstop pfault
    refine does_of_updIf rfl (by simp [hc, hg]) ?_
    rw [slotFull_eq hen hland hlost ⟨hfly, hstop, hfault⟩ ⟨pfly, pstop, pfault⟩]
    refine ⟨?_, tpRead_of_written rfl hwf, fun x hx => peek_of_written rfl hx, fun e he => ?_, rfl⟩
    · rw [landed_cove hen, if_pos rfl]
      exact Cove.ring_setRing _ (Ring.landed_ne hen)
    · rw [landed_cove hen, if_neg (fun e => he (by simp [e]))]
  · intro s c h hfree hwf w n r hfull hlen
    obtain ⟨hfly, hmem, hothers, hframe⟩ := issueUnit_rget h hfree rfl hfull hlen
    have hn : (s.blk.tpRead c (r.base + r.head * r.slot) n).length = n := peekN_length ..
    have hread := tpRead_of_written hmem hwf
    have hpeek := fun x => peek_of_written (j := x) hmem
    rw [hn] at hread hpeek
    exact does_of_comes h rfl ⟨hfly, hread, hpeek, hothers, hframe⟩
  · intro s c e hc hfly hq hop hdone hst hstop hfault hcont r hen hfull
    have hset := setSeq_becomes (b := s.blk.rgot c (rgRing e.word)) (c := c) (Seq.emptied_ne hst)
    refine does_of_updIf rfl (by simp [hc]) ?_
    rw [unitComplete_rget hst hen hfly hq hop hdone hstop hfault hcont rfl hfull]
    refine ⟨by rw [hset.seq]; rfl, ?_, fun f hf => ?_, rfl⟩
    · rw [hset.ring, rgot_cove hst hen, if_pos rfl]
      exact Cove.ring_setRing _ (Ring.ne_default_of_en (show r.consumed.en = true from hen))
    · have hfc : f ≠ c := by simpa using hf
      rw [hset.only.2.1 f hfc, rgot_cove hst hen, if_neg hfc]
  · intro s owner g j hc hg r p hen hback hidx hvalid hfly hstop hfault
    obtain ⟨hring, hprod, -, hothers⟩ := markBack_facts hen hvalid
    refine does_of_updIf rfl (by simp [hc, hg]) ?_
    rw [creditReturn_eq hen hvalid rfl hback hidx ⟨hfly, hstop, hfault⟩]
    exact ⟨hring, hprod, hothers, rfl⟩
  · intro s c e hc hfly hq hop hnot hstop r hen hlen hempty
    have hbegun := begun_becomes (some (fault stRINGTIMEOUT)) hfly
    refine does_of_updIf rfl (by simp [hc]) ?_
    rw [ringTimeout_rget hfly hq hop hnot hstop hen hlen hempty]
    exact ⟨by rw [hbegun.seq], fun f hf => hbegun.only.2.1 f (by simpa using hf), rfl⟩

end Sys2Proof.Machine
end

section
/-! SUPPORT. Network ingress, grant words, and the ends of a cache change and of a clearing (R214, R218, R225, R226, R465). -/
namespace Sys2Proof.Machine

variable {b t x : Blk} {c i v a n : Nat} {w : List Byte} {u : Inbox} {f : Cmd}

/-! ### A Tidepool written or read through ingress (R218, R226) -/

/-- Nothing changes but memory, the counters and one Cove. -/
structure Blk.OneCove (b t : Blk) (c : Nat) : Prop where
  others : b.covesBut t [c]
  frame : { b with cfg := t.cfg, mem := t.mem, coves := t.coves } = t

theorem Blk.OneCove.refl : b.OneCove b c := ⟨fun _ _ => rfl, rfl⟩
theorem Blk.OneCove.trans (h : b.OneCove t c) (g : t.OneCove x c) : b.OneCove x c :=
  ⟨fun d hd => (g.others d hd).trans (h.others d hd), by rw [← g.frame, ← h.frame]⟩
theorem setCove_oneCove (y : Cove) : b.OneCove (b.setCove c y) c := ⟨fun _ hd => cove_setCove_ne b y (by simpa using hd), rfl⟩
theorem pokeN_oneCove : b.OneCove (b.pokeN a w) c := ⟨fun _ _ => rfl, rfl⟩
theorem ringTouch_oneCove (r : Bool) : b.OneCove (b.ringTouch c r a n) c := by
  obtain ⟨cfg, h⟩ := ringTouch_cfg (b := b) (a := a) (n := n) c r
  rw [h]
  exact ⟨fun _ _ => rfl, rfl⟩
theorem bankTouch_oneCove (r : Nat) : b.OneCove (b.bankTouch c r a n) c := by
  unfold Blk.bankTouch
  split
  · exact .refl
  · exact setCove_oneCove _
theorem tpWrite_oneCove : b.OneCove (b.tpWrite c a w) c := by
  unfold Blk.tpWrite Blk.tpWriteQuiet
  split
  · exact ringTouch_oneCove _
  · exact (((ringTouch_oneCove _).trans pokeN_oneCove).trans (setCove_oneCove _)).trans (setCove_oneCove _)
theorem tpWriteFar_oneCove : b.OneCove (b.tpWriteFar c a w) c := by
  unfold Blk.tpWriteFar
  split
  · exact .refl
  · exact ((ringTouch_oneCove _).trans pokeN_oneCove).trans (setCove_oneCove _)
theorem tpTouchReads_oneCove (r : Nat) : b.OneCove (b.tpTouchReads c r [(a, n)]) c := (ringTouch_oneCove _).trans (bankTouch_oneCove _)

theorem ingress_oneCove (g : Ingress) (h : b.tpLost g.cove = false) : b.OneCove (b.ingress g) g.cove := by
  unfold Blk.ingress
  cases g.kind with
  | read => exact tpTouchReads_oneCove _
  | write =>
    simp only [h, Bool.false_eq_true, if_false]
    exact tpWriteFar_oneCove.trans (bankTouch_oneCove _)
  | reply =>
    simp only [h, Bool.false_eq_true, if_false]
    exact tpWrite_oneCove.trans (bankTouch_oneCove _)
theorem ingress_read (g : Ingress) (hk : g.kind = .read) : (b.ingress g).mem = b.mem := by
  unfold Blk.ingress
  rw [hk]
  exact tpTouchReads_mem _ _
theorem ingress_written (g : Ingress) (hk : g.kind ≠ .read) (h : b.tpLost g.cove = false) :
    (b.ingress g).mem = ssetRun memReset b.mem (tpAddr g.cove g.addr) g.data := by
  unfold Blk.ingress
  cases hkind : g.kind with
  | read => exact absurd hkind hk
  | write =>
    simp only [h, Bool.false_eq_true, if_false, bankTouch_mem]
    exact tpWriteFar_mem
  | reply =>
    simp only [h, Bool.false_eq_true, if_false, bankTouch_mem]
    exact tpWrite_mem

/-! ### A local write of a grant word (R218) -/

/-- A write below an inbox's buffer does not arrive in it. -/
theorem Inbox.arrive_below (h : a + n ≤ u.base) : u.arrive a n = u := by
  unfold Inbox.arrive
  exact if_neg (by omega)
theorem Inbox.ne_default_of_en (h : u.en = true) : u ≠ {} := fun e => by
  rw [e] at h
  exact absurd h (by decide)
/-- In the only inbox of a Cove, listed alone, another takes its place. -/
theorem Cove.setInbox_only {y : Cove} (hy : y.inboxes = [(i, u)]) {z : Inbox} (hz : z.en = true) : y.setInbox i z = { y with inboxes := [(i, z)] } := by
  simp [Cove.setInbox, hy, sset, Inbox.ne_default_of_en hz]
theorem enInboxes_only {y : Cove} (hy : y.inboxes = [(i, u)]) (hen : u.en = true) : y.enInboxes = [(i, u)] := by simp [Cove.enInboxes, hy, hen]

section
variable (hu : (b.cove c).inboxes = [(i, u)]) (hen : u.en = true)
include hu
theorem setInbox_cove {z : Inbox} (hz : z.en = true) : ((b.setCove c ((b.cove c).setInbox i z)).cove c).inboxes = [(i, z)] := by
  rw [Cove.setInbox_only hu hz, cove_setCove_new _ _ _ fun e => by simpa using congrArg Cove.inboxes e]
include hen
theorem inboxArrive_below (h : a + n ≤ u.base) : ((b.inboxArrive c a n).cove c).inboxes = [(i, u)] := by
  unfold Blk.inboxArrive
  simp only [enInboxes_only hu hen, List.foldl_cons, List.foldl_nil, Inbox.arrive_below h]
  exact setInbox_cove hu hen
theorem grantLocal_meets (h : meets a n u.gaddr 4 = true) :
    ((b.grantLocal c a n).cove c).inboxes = [(i, { u with grant := b.tpNat c u.gaddr 4 })] := by
  unfold Blk.grantLocal
  simp only [enInboxes_only hu hen, List.foldl_cons, List.foldl_nil, h, if_true]
  exact setInbox_cove hu hen
end

/-- The low bytes of a written word read alone. -/
theorem take_leBytes (m : Nat) : (leBytes (n + m) v).take n = leBytes n v := by
  induction n generalizing v with
  | zero => rfl
  | succ n ih => rw [Nat.succ_add, leBytes, leBytes, List.take_succ_cons, ih]
theorem peekN_take (m : Nat) : (b.peekN a (n + m)).take n = b.peekN a n := by
  induction n generalizing a with
  | zero => rfl
  | succ n ih => rw [Nat.succ_add, Blk.peekN, Blk.peekN, List.take_succ_cons, ih]
theorem tpNat_low (h : b.tpRead c a 8 = leBytes 8 v) : b.tpNat c a 4 = v % 2 ^ 32 := by
  have hlow : b.tpRead c a 4 = leBytes 4 v := by
    have := congrArg (List.take 4) h
    rwa [take_leBytes (n := 4) 4, show b.tpRead c a 8 = b.peekN (tpAddr c a) (4 + 4) from rfl, peekN_take] at this
  rw [Blk.tpNat, hlow, leNat_leBytes]
  rfl

section
variable (hu : (b.cove c).inboxes = [(i, u)]) (hen : u.en = true)
include hu hen
theorem grantWrite_eq : b.grantWrite c i v = b.tpWrite c u.gaddr (leBytes 8 v) := by
  have hi : (b.cove c).inbox i = u := by simp [Cove.inbox, hu, sget]
  unfold Blk.grantWrite
  simp [hi, hen]
theorem tpWriteQuiet_inboxes (hbelow : u.gaddr + 8 ≤ u.base) (hwf : Memory.wf b.mem) :
    ((b.tpWriteQuiet c u.gaddr (leBytes 8 v)).cove c).inboxes = [(i, { u with grant := v % 2 ^ 32 })] := by
  have hlen : (leBytes 8 v).length = 8 := leBytes_length 8 v
  have harrive := inboxArrive_below (b := b.pokeN (tpAddr c u.gaddr) (leBytes 8 v)) hu hen hbelow
  have hread := tpRead_of_written (b := b) (t := (b.pokeN (tpAddr c u.gaddr) (leBytes 8 v)).inboxArrive c u.gaddr 8) (c := c) (a := u.gaddr)
    (v := leBytes 8 v) rfl hwf
  have hgrant := grantLocal_meets (a := u.gaddr) (n := 8) harrive hen (by simp [meets])
  rw [hlen] at hread
  rw [tpNat_low hread] at hgrant
  unfold Blk.tpWriteQuiet
  rw [hlen, show (leBytes 8 v).isEmpty = false from rfl, if_neg (by decide)]
  exact hgrant
theorem grantWrite_inboxes (hbelow : u.gaddr + 8 ≤ u.base) (hwf : Memory.wf b.mem) :
    ((b.grantWrite c i v).cove c).inboxes = [(i, { u with grant := v % 2 ^ 32 })] := by
  obtain ⟨cfg, htouch⟩ := ringTouch_cfg (b := b) (a := u.gaddr) (n := (leBytes 8 v).length) c true
  rw [grantWrite_eq hu hen, Blk.tpWrite, htouch]
  exact tpWriteQuiet_inboxes (b := { b with cfg := cfg }) hu hen hbelow hwf
end

/-! ### A grant reaches its source (R218) -/

theorem Cred.ne_default_of_valid {k : Cred} (h : k.valid = true) : k ≠ {} := fun e => by
  rw [e] at h
  exact absurd h (by decide)
theorem credAt_setCred {k : Cred} (h : k ≠ {}) (j : Nat) : (b.setCred 0 c j k).credAt 0 c j = k := by
  have hcove : (b.setCred 0 c j k).cove c = (b.cove c).setCred j k :=
    cove_setCove_new b c _ fun e => sset_ne_nil (m := (b.cove c).creds) (i := j) (d := fun _ => ({} : Cred)) (u := k) h (congrArg Cove.creds e)
  show sget _ ((b.setCred 0 c j k).cove c).creds j = k
  rw [hcove]
  exact sget_sset_new h
theorem grantArrive_eq {j : Nat} (hen : ((b.cove c).inbox i).en = true) (hk : ((b.cove c).inbox i).srck = 0)
    (hidx : b.credIdx 0 ((b.cove c).inbox i).src c i = some j) :
    b.grantArrive c i = b.setCred 0 ((b.cove c).inbox i).src j { b.credAt 0 ((b.cove c).inbox i).src j with grant := ((b.cove c).inbox i).grant } := by
  unfold Blk.grantArrive
  simp [hen, hk, hidx]

/-! ### The end of a clearing (R225, R465) -/

/-- A context keeps all but what it holds back through a fold of steps that do. -/
theorem foldl_sameButHeld {g : Blk → Nat → Blk} {k : Nat} (hg : ∀ (x : Blk) c, (x.ctx k).sameButHeld ((g x c).ctx k)) (l : List Nat) :
    (b.ctx k).sameButHeld ((l.foldl g b).ctx k) := by
  induction l generalizing b with
  | nil => exact Ctx.sameButHeld_refl _
  | cons d l ih => exact Ctx.sameButHeld_trans (hg b d) ih
theorem eventTo_ctx (l : List Nat) (op : Nat) (pay : List Byte) (k : Nat) : (b.ctx k).sameButHeld ((b.eventTo l op pay).ctx k) :=
  foldl_sameButHeld (b := { b with host := { b.host with evSeq := (b.host.evSeq + 1) % 2 ^ 32 } }) (fun _ _ => sendOut_ctx _ _ _) _
/-- RESET_DONE is one event, sent once DV_LOST has its bitmap. -/
theorem resetDone_event (kind target bitmap : Nat) (part : Option Nat) : ∃ l op pay, b.resetDone kind target bitmap part =
    ({ b with dev := { b.dev with lost := bitmap, lostKind := kind } } : Blk).eventTo l op pay := by
  cases part with
  | none => exact ⟨_, _, _, rfl⟩
  | some p => exact ⟨_, _, _, rfl⟩
theorem resetDone_facts (kind target bitmap : Nat) (part : Option Nat) :
    { b with dev := (b.resetDone kind target bitmap part).dev, host := (b.resetDone kind target bitmap part).host } = b.resetDone kind target bitmap part ∧
    (b.resetDone kind target bitmap part).host.cmds = b.host.cmds ∧ ∀ k, (b.ctx k).sameButHeld ((b.resetDone kind target bitmap part).ctx k) := by
  obtain ⟨l, op, pay, he⟩ := resetDone_event (b := b) kind target bitmap part
  have hsame := eventTo_sameButHost (x := { b with dev := { b.dev with lost := bitmap, lostKind := kind } }) l op pay
  rw [he]
  refine ⟨?_, (eventTo_sends _ _ _).cmds, eventTo_ctx (b := { b with dev := { b.dev with lost := bitmap, lostKind := kind } }) l op pay⟩
  rw [← hsame.eq]

/-- The reset of a Cove is the one that waits for the end of its clearing. -/
theorem coveResets_only (hcmds : b.host.cmds = [f]) (hop : f.m.opcode = 0x801) (hstart : f.started = true) (hparam : f.m.param = 4 + v * 2 ^ 16)
    (hv : v < 4096) : b.coveResets v = [f] := by
  have hkind : fld f.m.param 3 0 = 4 := by rw [hparam]; unfold fld; omega
  have htarget : fld f.m.param 27 16 = v := by rw [hparam]; unfold fld; omega
  simp [Blk.coveResets, hcmds, hop, hstart, hkind, htarget]

/-- A Cove whose clearing has ended. -/
def Blk.cleared (b : Blk) (v : Nat) : Blk := b.setCove v { b.cove v with clearing := false }
theorem clearingEnd_eq (hclear : (b.cove v).clearing = true) (hresets : b.coveResets v = [f]) :
    b.clearingEnd v = ((b.cleared v).finish f stOK 0 []).resetDone 4 v 0x2E0600 ((b.cleared v).partOfCove v) := by
  unfold Blk.clearingEnd
  simp only [hclear, hresets, Bool.not_true, Bool.false_eq_true, if_false, List.foldl_cons, List.foldl_nil]
  rfl
/-- The reset that waits ends with its RESET_DONE, and nothing else goes on. -/
theorem clearingEnd_only (h : b.onlyWaits f = true) (hclear : (b.cove v).clearing = true) (hop : f.m.opcode = 0x801) (hparam : f.m.param = 4 + v * 2 ^ 16)
    (hv : v < 4096) : (b.clearingEnd v).pump.answered f.m stOK 0 [] ∧ (b.clearingEnd v).pump.host.cmds = [] ∧
    { b.cleared v with host := (b.clearingEnd v).pump.host, dev := (b.clearingEnd v).pump.dev } = (b.clearingEnd v).pump := by
  obtain ⟨hstill, hcmds, hstart, h13, hctx, hspans, hop1⟩ := onlyWaits_facts h
  have hlog : (b.cleared v).logged f.ctx f.seq = false := by simp [Blk.logged, Blk.cleared, Blk.setCove, hspans]
  have hsame : (b.cleared v).SameButHost ((b.cleared v).finish f stOK 0 []) := finish_ok_D_same h13 hlog (by rw [hop]; rfl)
  have hnone : ((b.cleared v).finish f stOK 0 []).host.cmds = [] := by
    rw [finish_cmds h13 hlog, show (b.cleared v).host.cmds = [f] from hcmds]
    simp
  have hans := finish_answered (b := b.cleared v) (st := stOK) (pay := []) h13 hlog hop1
    (by rw [show ((b.cleared v).ctx f.m.ctx).st = 1 from hctx]; decide) (by decide : 0 < openDet)
  have he := clearingEnd_eq hclear (coveResets_only hcmds hop hstart hparam hv)
  obtain ⟨rframe, rcmds, rctx⟩ := resetDone_facts (b := (b.cleared v).finish f stOK 0 []) 4 v 0x2E0600 ((b.cleared v).partOfCove v)
  rw [← he] at rframe rcmds rctx
  have hrests : (b.clearingEnd v).rests = true := by
    have hstill' : (b.clearingEnd v).still = b.still := by
      rw [← rframe]
      exact hsame.still
    simp [Blk.rests, rcmds, hnone, hstill', hstill]
  rw [pump_rests hrests]
  refine ⟨?_, rcmds.trans hnone, by rw [← rframe, ← hsame.eq]⟩
  obtain ⟨-, -, -, -, -, -, -, -, -, hreplies⟩ := rctx f.m.ctx
  have htide : (b.clearingEnd v).tide = ((b.cleared v).finish f stOK 0 []).tide := by rw [← rframe]
  unfold Blk.answered at hans ⊢
  rw [hreplies, hans, htide, ← hsame.eq]

/-! ### O30 -/

/-- Settles O30: each event is one access to a Tidepool or one change of a Cove; the end of a clearing also ends the reset that waits. -/
theorem tidepoolEvents : Obligations.TidepoolEvents := by
  unfold Obligations.TidepoolEvents
  refine ⟨?_, ?_, ?_, ?_, ?_⟩
  · intro s g hfits hlost hwf
    have hone := ingress_oneCove g hlost
    refine does_of_updIf rfl hfits ⟨hone.others, hone.frame, ingress_read g, fun hk => ?_⟩
    have hmem := ingress_written g hk hlost
    exact ⟨tpRead_of_written hmem hwf, fun x hx => peek_of_written hmem hx⟩
  · intro s c i v hc hi hv hwf x hen honly hbelow
    have hgrant := grantWrite_inboxes (v := v) honly hen hbelow hwf
    have hone := tpWrite_oneCove (b := s.blk) (c := c) (a := x.gaddr) (w := leBytes 8 v)
    have hmem := tpWrite_mem (b := s.blk) (c := c) (a := x.gaddr) (v := leBytes 8 v)
    rw [← grantWrite_eq honly hen] at hone hmem
    have hread := tpRead_of_written hmem hwf
    have hpeek := fun j => peek_of_written (j := j) hmem
    rw [leBytes_length] at hread hpeek
    refine does_of_updIf rfl (by simp [hc, hi]) ⟨?_, ?_, hpeek, hone.others, hone.frame⟩
    · rw [Cove.inbox, hgrant]
      simp [sget]
    · rw [Blk.tpNat, hread, leNat_leBytes]
      exact Nat.mod_eq_of_lt hv
  · intro s c i j hc hi x hen hk hidx hvalid
    refine does_of_updIf rfl (by simp [hc, hi]) ?_
    rw [grantArrive_eq hen hk hidx]
    exact ⟨credAt_setCred (Cred.ne_default_of_valid (by exact hvalid)) j, fun d hd => cove_setCove_ne _ _ (by simpa using hd), rfl⟩
  · intro s c hc hwf
    refine does_of_updIf rfl (by simpa using hc) ?_
    unfold Blk.cacheChangeDone
    simp only
    split
    · exact ⟨cove_setCove _ _ _ hwf, fun d hd => cove_setCove_ne _ _ (by simpa using hd), rfl⟩
    · next hidle =>
      rw [Bool.not_eq_true] at hidle
      exact ⟨by rw [← hidle], fun _ _ => rfl, rfl⟩
  · intro s v f hv hclear honly hop hparam hwf
    obtain ⟨hans, hcmds, hframe⟩ := clearingEnd_only honly hclear hop hparam hv
    have hcoves : (s.blk.clearingEnd v).pump.coves = (s.blk.cleared v).coves := by rw [← hframe]
    have hcove : ∀ d, (s.blk.clearingEnd v).pump.cove d = (s.blk.cleared v).cove d := fun d => by unfold Blk.cove; rw [hcoves]
    refine does_of_updIf rfl (by simpa using hv) ⟨hans, hcmds, ?_, fun d hd => ?_, by rw [← hframe]; rfl⟩
    · rw [hcove]
      exact cove_setCove _ _ _ hwf
    · rw [hcove]
      exact cove_setCove_ne _ _ (by simpa using hd)

end Sys2Proof.Machine
end

section
/-! SUPPORT. The words of a spill configuration and the copies of the oldest half of a spill ring (R248, R262, R263). -/
namespace Sys2Proof.Machine

variable {b t x : Blk} {m : Msg} {off a c i p u w w0 w1 w3 : Nat} {v : List Byte}

/-! ### A write that changes words of cfg -/

/-- A write that its register group takes by changing words of cfg alone. -/
theorem command_setCfg (h : b.writesOne m off w = true) (hput : (b.entered m).groupPut (cfgGroup off) [(off, w)] = .ok x)
    (hx : { b.entered m with cfg := x.cfg } = x) :
    (b.command m).answered m stOK 0 [] ∧ (b.command m).cfg = x.cfg ∧
    { b.measureWrite m [off] with host := (b.command m).host, cfg := (b.command m).cfg } = b.command m ∧ b.hostFor (b.command m) m := by
  have hstill : x.still = b.still := by
    rw [← entered_still (b := b) (m := m)]
    exact still_congr (by rw [← hx]) (by rw [← hx]) (by rw [← hx])
  obtain ⟨hans, hhost, hfr⟩ := command_groupPut h hput (by rw [← hx]) (by rw [← hx]; simp) (by rw [← hx]; simp) (by rw [← hx]; simp) hstill
  refine ⟨hans, by rw [← hfr], ?_, hhost⟩
  rw [measureWrite_eq, ← hfr, ← hx, ← entered_host (b := b) (m := m)]

/-! ### The four words of a spill configuration (R262, R263) -/

theorem cfgWhere_spWord (hc : c < nCoves) (hi : i < 4) : cfgWhere (spWord c i) = (6, bayOf c, 0x100 + 32 * (c % 16) + 8 * i) := by
  unfold nCoves at hc
  unfold cfgWhere spWord cfgBY bayOf
  have h1 : (0x1000000 + c / 16 * 0x10000 + 0x100 + 32 * (c % 16) + 8 * i - 0x1000000) / 0x10000 = c / 16 := by omega
  have h2 : (0x1000000 + c / 16 * 0x10000 + 0x100 + 32 * (c % 16) + 8 * i) % 0x10000 = 0x100 + 32 * (c % 16) + 8 * i := by omega
  repeat rw [if_neg (by simp; omega)]
  rw [if_pos (by simp; omega), h1, h2]
/-- The words of a Cove's spill configuration are one group, which starts at its word 0. -/
theorem cfgGroup_spWord (hc : c < nCoves) (hi : i < 4) : cfgGroup (spWord c i) = spWord c 0 := by
  unfold cfgGroup
  simp only [cfgWhere_spWord hc hi]
  rw [if_neg (by decide), if_pos (by simp; omega)]
  unfold spWord cfgBY
  omega
theorem groupPut_spWord (hc : c < nCoves) : x.groupPut (cfgGroup (spWord c 0)) [(spWord c 0, w)] =
    x.spillPutCfg c w (x.cfgGet (spWord c 1)) (x.cfgGet (spWord c 2)) (x.cfgGet (spWord c 3)) := by
  have hcove : 16 * bayOf c + (0x100 + 32 * (c % 16) + 8 * 0 - 0x100) / 32 = c := by
    unfold bayOf
    omega
  rw [cfgGroup_spWord hc (by decide)]
  unfold Blk.groupPut
  simp only [cfgWhere_spWord hc (show 0 < 4 by decide)]
  rw [if_neg (by decide), if_pos (by simp; omega), hcove]
  simp [newWord, spWord]

/-- A Cove's spill configuration written as a whole, with an HBM buffer of no bytes (HCAP 0). -/
def Blk.withUnusedSpill (b : Blk) (c w0 w1 w3 : Nat) : Blk :=
  (((b.cfgSet (spWord c 0) w0).cfgSet (spWord c 1) w1).cfgSet (spWord c 2) 0).cfgSet (spWord c 3) w3

theorem withUnusedSpill_frame : { b with cfg := (b.withUnusedSpill c w0 w1 w3).cfg } = b.withUnusedSpill c w0 w1 w3 := rfl
theorem withUnusedSpill_cfgBut : b.cfgBut (b.withUnusedSpill c w0 w1 w3) [spWord c 0, spWord c 1, spWord c 2, spWord c 3] := by
  intro q hq
  simp only [List.mem_cons, List.not_mem_nil, or_false, not_or] at hq
  obtain ⟨h0, h1, h2, h3⟩ := hq
  unfold Blk.withUnusedSpill
  rw [cfgGet_cfgSet_ne _ _ h3, cfgGet_cfgSet_ne _ _ h2, cfgGet_cfgSet_ne _ _ h1, cfgGet_cfgSet_ne _ _ h0]
theorem withUnusedSpill_word0 (hb : swf cfgReset b.cfg = true) (hw : w0 < 2 ^ 64) :
    (b.withUnusedSpill c w0 w1 w3).cfgGet (spWord c 0) = w0 := by
  have hne : ∀ i, 0 < i → spWord c 0 ≠ spWord c i := fun i hi => by
    unfold spWord
    omega
  unfold Blk.withUnusedSpill
  rw [cfgGet_cfgSet_ne _ _ (hne 3 (by decide)), cfgGet_cfgSet_ne _ _ (hne 2 (by decide)), cfgGet_cfgSet_ne _ _ (hne 1 (by decide)),
    cfgGet_cfgSet _ _ _ hb, Nat.mod_eq_of_lt hw]
/-- A spill configuration without a buffer in HBM is taken when no instruction of the Cove uses it and its ring, aligned to its size, lies
within the program's part of the Tidepool. -/
theorem spillPutCfg_unused (hidle : (b.seq c).inflight = []) (hsize : fld w0 25 22 ≤ 8)
    (halign : (fld w0 21 12 * 4096) % 2 ^ (12 + fld w0 25 22) = 0)
    (hfits : fld w0 21 12 * 4096 + 2 ^ (12 + fld w0 25 22) ≤ b.progEnd c) (hbase : w1 % 256 = 0) :
    b.spillPutCfg c w0 w1 0 w3 = .ok (b.withUnusedSpill c (w0 % 2 ^ 32) w1 (w3 % 2 ^ 40)) := by
  have hbuf : b.inPart (b.partNum c) w1 0 false = true := rfl
  simp [Blk.spillPutCfg, hidle, hsize.not_gt, halign, hfits.not_gt, hbase, hbuf, Blk.withUnusedSpill]

/-! ### The copy of the oldest half of a ring (R248) -/

/-- The copy of a half that can be copied is under way, as it may have been before. -/
theorem spillStart_spill (h : b.spillCanCopy c = true) :
    ((b.spillStart c).cove c).spill = { (b.cove c).spill with copying := true } := by
  unfold Blk.spillStart
  cases hcopy : (b.cove c).spill.copying with
  | false =>
    simp only [hcopy, h, Bool.not_false, Bool.and_self, if_true, Blk.setSpill]
    rw [cove_setCove_new]
    intro e
    simpa using congrArg (fun y => y.spill.copying) e
  | true =>
    simp only [hcopy, Bool.not_true, Bool.false_and, Bool.false_eq_true, if_false]
    rw [← hcopy]
theorem spillStart_coves : b.covesBut (b.spillStart c) [c] ∧ { b with coves := (b.spillStart c).coves } = b.spillStart c := by
  unfold Blk.spillStart
  simp only
  split
  · exact ⟨fun d hd => cove_setCove_ne _ _ (by simpa using hd), rfl⟩
  · exact ⟨fun _ _ => rfl, rfl⟩

/-- Of the machine what a write to HBM changes, which keeps the canonical form of cfg: counters, memory and what is known of its units. -/
structure Blk.HbmChange (b t : Blk) : Prop where
  frame : { b with cfg := t.cfg, mem := t.mem, unitKeys := t.unitKeys, ueUnits := t.ueUnits } = t
  swf_cfg : swf cfgReset b.cfg = true → swf cfgReset t.cfg = true

theorem Blk.HbmChange.refl : b.HbmChange b := ⟨rfl, id⟩
theorem Blk.HbmChange.trans (h : b.HbmChange t) (g : t.HbmChange x) : b.HbmChange x :=
  ⟨by rw [← g.frame, ← h.frame], g.swf_cfg ∘ h.swf_cfg⟩
theorem pokeN_hbmChange : b.HbmChange (b.pokeN a v) := ⟨rfl, id⟩
theorem count_hbmChange (n : Nat) : b.HbmChange (b.count off n) := ⟨rfl, swf_cfg_count⟩
theorem units_hbmChange (k : List (Nat × List Byte)) (l : List Nat) : b.HbmChange { b with unitKeys := k, ueUnits := l } := ⟨rfl, id⟩
theorem rekeyUnit_hbmChange : b.HbmChange (b.rekeyUnit p u) := by
  unfold Blk.rekeyUnit
  exact (pokeN_hbmChange.trans (count_hbmChange 1)).trans (units_hbmChange _ _)
theorem hbmUnit_hbmChange : b.HbmChange (b.hbmUnit p a v u) := by
  unfold Blk.hbmUnit
  simp only
  split
  · exact (units_hbmChange _ _).trans pokeN_hbmChange
  · split
    · exact .refl
    · exact rekeyUnit_hbmChange.trans pokeN_hbmChange
theorem hbmWrite_hbmChange : b.HbmChange (b.hbmWrite p a v) := by
  unfold Blk.hbmWrite
  induction unitsOf a v.length generalizing b with
  | nil => exact .refl
  | cons u l ih => exact hbmUnit_hbmChange.trans ih

/-- The HBM buffer of a ring that can be copied has room for the half, so HUSED stays within its word. -/
theorem spHused_half_lt (h : b.spillCanCopy c = true) : b.spHused c + b.spRsize c / 2 < 2 ^ 64 := by
  have hcap : b.spHcap c < 2 ^ 40 := Nat.mod_lt _ (by decide)
  have hused : b.spHused c < 2 ^ 40 := Nat.mod_lt _ (by decide)
  simp only [Blk.spillCanCopy, Bool.and_eq_true, decide_eq_true_eq] at h
  omega
theorem spillEnd_eq (hcopy : (b.cove c).spill.copying = true) (h : b.spillCanCopy c = true) : b.spillEnd c = b.spillCopy c := by
  simp [Blk.spillEnd, hcopy, h]
/-- The half stands in the spill buffer behind what was there. -/
theorem spillCopy_mem : (b.spillCopy c).mem =
    (b.hbmWrite (b.partNum c) (b.spHbase c + b.spHused c) (b.tpRead c (b.spRbase c + (b.cove c).spill.rhead) (b.spRsize c / 2))).mem := rfl
/-- The half is free. -/
theorem spillCopy_spill (hb : swf (fun _ => ({} : Cove)) b.coves = true) : ((b.spillCopy c).cove c).spill =
    { rhead := ((b.cove c).spill.rhead + b.spRsize c / 2) % b.spRsize c, rfill := (b.cove c).spill.rfill - b.spRsize c / 2, copying := false } := by
  unfold Blk.spillCopy Blk.setSpill
  simp only
  rw [cove_setCove]
  rw [← hbmWrite_hbmChange.frame]
  exact hb
theorem spillCopy_hused (hb : swf cfgReset b.cfg = true) (h : b.spillCanCopy c = true) :
    (b.spillCopy c).cfgGet (spWord c 3) = b.spHused c + b.spRsize c / 2 :=
  (cfgGet_cfgSet _ _ _ (hbmWrite_hbmChange.swf_cfg hb)).trans (Nat.mod_eq_of_lt (spHused_half_lt h))
theorem spillCopy_covesBut : b.covesBut (b.spillCopy c) [c] := by
  intro d hd
  unfold Blk.spillCopy Blk.setSpill
  simp only
  rw [cove_setCove_ne _ _ (by simpa using hd), ← hbmWrite_hbmChange.frame]
  rfl
theorem spillCopy_frame :
    { b with
      cfg := (b.spillCopy c).cfg, mem := (b.spillCopy c).mem, unitKeys := (b.spillCopy c).unitKeys,
      ueUnits := (b.spillCopy c).ueUnits, coves := (b.spillCopy c).coves } = b.spillCopy c := by
  unfold Blk.spillCopy
  simp only
  rw [← hbmWrite_hbmChange.frame]
  rfl

/-! ### O31 -/

/-- Settles O31: the group of spill words takes an unused configuration; a copy begins as a mark in the Cove and ends as one write to HBM. -/
theorem spillRings : Obligations.SpillRings := by
  unfold Obligations.SpillRings
  refine ⟨fun s m c w h hc hidle hsize halign hfits hbase hcap hw hcanon => ?_, fun s c hc hcan => ?_, fun s c hc hcopy hcan hcanon => ?_⟩
  · obtain ⟨-, hswf, -⟩ := hcanon
    have hget : ∀ q, (s.blk.entered m).cfgGet q = s.blk.cfgGet q := cfgGet_congr (by simp)
    have hput : (s.blk.entered m).groupPut (cfgGroup (spWord c 0)) [(spWord c 0, w)] =
        .ok ((s.blk.entered m).withUnusedSpill c w (s.blk.cfgGet (spWord c 1)) (s.blk.cfgGet (spWord c 3) % 2 ^ 40)) := by
      rw [groupPut_spWord hc, hget, hget, hget, hcap, spillPutCfg_unused (by rw [entered_seq]; exact hidle) hsize halign _ hbase,
        Nat.mod_eq_of_lt hw]
      unfold Blk.progEnd Blk.cachePortion
      rw [hget]
      exact hfits
    obtain ⟨hans, hcfg, hframe, hhost⟩ := command_setCfg h hput withUnusedSpill_frame
    refine does_of_updIf rfl (writes_of_writesOne h (cfgWhere_spWord hc (by decide)) (by omega) (by omega)) ⟨hans, ?_, fun q hq => ?_, hframe, hhost⟩
    · rw [cfgGet_congr hcfg, withUnusedSpill_word0 (by simpa using hswf) (writesOne_lt h)]
    · rw [cfgGet_congr hcfg, withUnusedSpill_cfgBut q hq, hget]
  · exact does_of_updIf rfl (by simpa using hc) ⟨spillStart_spill hcan, spillStart_coves⟩
  · obtain ⟨-, hcfg, hcoves, -⟩ := hcanon
    refine does_of_updIf rfl (by simpa using hc) ?_
    rw [spillEnd_eq hcopy hcan]
    exact ⟨spillCopy_mem, spillCopy_spill hcoves, spillCopy_hused hcfg hcan, spillCopy_covesBut, spillCopy_frame⟩

end Sys2Proof.Machine
end

section
/-! SUPPORT. CMD_ACCOUNT_SET, CMD_POOL_SET and CMD_REQ_SUBMIT (R322, R325, R326, R328, R339, R493). -/
namespace Sys2Proof.Machine

variable {b x y : Blk} {m : Msg} {c : Cmd} {p k : Nat}

/-! ### Engines and accounts -/

theorem serve_congr (h : x.serves = b.serves) (p : Nat) : x.serve p = b.serve p := by unfold Blk.serve; rw [h]
theorem account_congr (h : x.accounts = b.accounts) (k : Nat) : x.account k = b.account k := by unfold Blk.account; rw [h]
theorem Blk.SameButHost.serves (h : x.SameButHost y) : y.serves = x.serves := by rw [← h.eq]
theorem Blk.SameButHost.accounts (h : x.SameButHost y) : y.accounts = x.accounts := by rw [← h.eq]
theorem Blk.SameButHost.setServe (h : x.SameButHost y) (v : Serve) : (x.setServe p v).SameButHost (y.setServe p v) := ⟨by rw [← h.eq]; rfl⟩
theorem Blk.SameButHost.setAccount (h : x.SameButHost y) (v : Account) : (x.setAccount k v).SameButHost (y.setAccount k v) := ⟨by rw [← h.eq]; rfl⟩
theorem entered_serve : (b.entered m).serve p = b.serve p := serve_congr (by simp) p
theorem entered_account : (b.entered m).account k = b.account k := account_congr (by simp) k

/-! ### What is measured (R493) -/

/-- Commands of requests are not measured. -/
theorem measureCmd_request (hop : m.opcode = 0x0400 ∨ m.opcode = 0x0401) : x.measureCmd m = x := by
  unfold Blk.measureCmd
  simp only [Bool.or_eq_true, decide_eq_true_eq]
  rw [if_neg (by omega), if_neg (by omega)]
/-- Commands of accounts and plans are measured by their partition. -/
theorem measureCmd_serving (hop : m.opcode = 0x0403 ∨ m.opcode = 0x0404) : x.measureCmd m = x.extendPm m.partition m [] := by
  unfold Blk.measureCmd
  simp only [Bool.or_eq_true, decide_eq_true_eq]
  rw [if_neg (by omega), if_pos (by omega)]
theorem extendPm_setServe (v : Serve) (l : List Byte) : (x.setServe k v).extendPm p m l = (x.extendPm p m l).setServe k v := by
  unfold Blk.extendPm
  rw [show (x.setServe k v).part p = x.part p from rfl]
  split <;> rfl
theorem extendPm_setAccount (v : Account) (l : List Byte) : (x.setAccount k v).extendPm p m l = (x.extendPm p m l).setAccount k v := by
  unfold Blk.extendPm
  rw [show (x.setAccount k v).part p = x.part p from rfl]
  split <;> rfl

/-- A command of kind I that ends in ST_OK as it starts, after an effect x beside the host side: it is measured and answered. -/
theorem command_finishes_measured {pay : List Byte} (h : b.takes m = true) (hk : dKind m.opcode = false) (hop : m.opcode ≠ 1)
    (hr : (b.entered m).runOp (b.asCmd m) = y.finish (b.asCmd m) stOK 0 pay) (hy : y.host = (b.entered m).host) (hx : x.SameButHost y)
    (hs : x.still = b.still) (hl : x.spans = b.spans) :
    (b.command m).answered m stOK 0 pay ∧ (x.measureCmd m).SameButHost (b.command m) ∧ b.hostFor (b.command m) m := by
  obtain ⟨-, hstill, hlog, h13, -⟩ := takes_facts h
  have hopen : (y.ctx m.ctx).st ≠ 0 := by
    rw [show y.ctx m.ctx = (b.entered m).ctx m.ctx by unfold Blk.ctx; rw [hy], (entered_ctx_self h).1]
    decide
  have hlog' : y.logged m.ctx m.seq = false := by rw [logged_congr (hx.spans.trans hl), hlog]
  obtain ⟨he, -⟩ := command_ends_as h rfl hr (by rw [hy]; simp [Blk.asCmd]) (by rw [hx.still, hs, hstill]) hlog'
  rw [he]
  exact ⟨finish_answered h13 hlog' hop hopen (by decide), (measureCmd_sameButHost hx).trans (finish_ok_I_same (c := b.asCmd m) h13 hlog' hk),
    entered_hostBut.trans ((hostBut_of_host hy).trans (finish_hostBut h13 hlog'))⟩

/-! ### CMD_ACCOUNT_SET (R339) -/

/-- An account that a payload of CMD_ACCOUNT_SET without QUERY changes: bound to the partition, its changes to come at the next boundary. -/
def Account.changed (a : Account) (p now : Nat) (pay : List Byte) : Account :=
  let a0 : Account := if a.part.isNone then { part := some p, last := now } else a
  { a0 with next := some (leAt pay 0 3, leAt pay 4 4, leAt pay 8 2, leAt pay 0xA 1), fill := a0.fill || tbit (leAt pay 0xB 1) 1 }
/-- The balance that the reply reports. -/
def Account.reported (a : Account) (now : Nat) : Int := if a.part.isNone then 0 else a.refill now

theorem Account.changed_part {a : Account} (h : a.part = none ∨ a.part = some p) (now : Nat) (pay : List Byte) :
    (a.changed p now pay).part = some p := by
  unfold Account.changed
  rcases h with h | h <;> simp [h]

section
variable (hop : m.opcode = 0x0403) (hp : m.partition < 16) (hst : (b.part m.partition).st = 1 ∨ (b.part m.partition).st = 2)
  (hk : m.param < 4096) (hown : (b.account m.param).part = none ∨ (b.account m.param).part = some m.partition)
  (h3 : leAt m.payload 3 1 = 0) (hA : leAt m.payload 0xA 1 ≠ 0) (hB : leAt m.payload 0xB 1 < 4) (hquery : tbit (leAt m.payload 0xB 1) 0 = false)
  (hC : leAt m.payload 0xC 4 = 0)
include hop hp hst hk hown h3 hA hB hquery hC

theorem runOp_accountSet : (b.entered m).runOp (b.asCmd m) =
    ((b.entered m).setAccount m.param ((b.account m.param).changed m.partition b.tide m.payload)).finish (b.asCmd m) stOK 0
      (leBytes 8 (toTwos 64 ((b.account m.param).reported b.tide))) := by
  have hperm : ((b.account m.param).part.isSome && (b.account m.param).part != some m.partition) = false := by
    rcases hown with h | h <;> simp [h]
  rw [runOp_eq (op := 0x0403) hop rfl]
  show (b.entered m).doAccountSet (b.asCmd m) = _
  unfold Blk.doAccountSet
  rw [withPart_open (c := b.asCmd m) hp (by rw [entered_part]; exact hst)]
  simp only [show (b.asCmd m).m = m from rfl, entered_account, entered_fields, hperm, hquery, Bool.false_eq_true, if_false]
  rw [if_neg (show ¬ nCtxs ≤ m.param from Nat.not_le.mpr hk), if_neg (by simpa using h3), if_neg hA, if_neg (Nat.not_le.mpr hB), if_neg (by simpa using hC)]
  rfl
theorem command_accountSet (h : b.takes m = true) :
    (b.command m).answered m stOK 0 (leBytes 8 (toTwos 64 ((b.account m.param).reported b.tide))) ∧
    ((b.measureCmd m).setAccount m.param ((b.account m.param).changed m.partition b.tide m.payload)).SameButHost (b.command m) ∧
    b.hostFor (b.command m) m := by
  have hr := runOp_accountSet hop hp hst hk hown h3 hA hB hquery hC
  generalize (b.account m.param).changed m.partition b.tide m.payload = v at hr ⊢
  obtain ⟨hans, hsame, hhost⟩ := command_finishes_measured h (by rw [hop]; rfl) (by omega) hr rfl (entered_sameButHost.setAccount v) rfl rfl
  rw [measureCmd_serving (.inl hop), extendPm_setAccount, ← measureCmd_serving (.inl hop)] at hsame
  exact ⟨hans, hsame, hhost⟩
end

/-! ### CMD_POOL_SET (R322, R323) -/

section
variable {a : Nat} {v : List Byte} {parts : List (Nat × Part)}

/-! A write to HBM reads of the partitions the key in force alone. -/

section
variable (hkey : ({ b with parts := parts } : Blk).keyMark p = b.keyMark p)
include hkey
theorem hbmRead_parts (n : Nat) : ({ b with parts := parts } : Blk).hbmRead p a n = b.hbmRead p a n := by
  induction n generalizing a with
  | zero => rfl
  | succ n ih =>
    unfold Blk.hbmRead
    rw [ih]
    unfold Blk.hbmByte
    rw [hkey]
    rfl
theorem hbmUnit_parts (u : Nat) : ({ b with parts := parts } : Blk).hbmUnit p a v u = { b.hbmUnit p a v u with parts := parts } := by
  unfold Blk.hbmUnit Blk.rekeyUnit
  simp only [hkey, hbmRead_parts hkey]
  split
  · rfl
  · split <;> rfl
theorem hbmWrite_parts : ({ b with parts := parts } : Blk).hbmWrite p a v = { b.hbmWrite p a v with parts := parts } := by
  unfold Blk.hbmWrite
  induction unitsOf a v.length generalizing b with
  | nil => rfl
  | cons u l ih =>
    have hsame : (b.hbmUnit p a v u).keyMark p = b.keyMark p := keyMark_congr (by rw [← hbmUnit_hbmChange.frame])
    have hkey' : ({ b.hbmUnit p a v u with parts := parts } : Blk).keyMark p = (b.hbmUnit p a v u).keyMark p := by
      rw [hsame, ← hkey]
      rfl
    rw [List.foldl_cons, List.foldl_cons, hbmUnit_parts hkey, ih hkey']
end

theorem extendPm_keyMark (q : Nat) (l : List Byte) : (x.extendPm q m l).keyMark p = x.keyMark p := by
  unfold Blk.extendPm
  split
  · next h =>
    have hst : (x.part q).st ≠ 0 := bne_iff_ne.mp (Bool.and_eq_true_iff.mp h).2
    unfold Blk.keyMark
    by_cases e : p = q
    · subst e
      rw [part_setPart_new]
      exact fun e => hst (congrArg Part.st e)
    · rw [part_setPart_ne _ _ e]
  · rfl
theorem extendPm_hbmWrite (q : Nat) (l : List Byte) : (x.hbmWrite p a v).extendPm q m l = (x.extendPm q m l).hbmWrite p a v := by
  have hparts : ((x.hbmWrite p a v).extendPm q m l).parts = (x.extendPm q m l).parts :=
    (extendPm_congr q l (by rw [← hbmWrite_hbmChange.frame]) (by rw [← hbmWrite_hbmChange.frame])).2
  rw [extendPm_eq, hparts, extendPm_eq (b := x)]
  refine (hbmWrite_parts ?_).symm
  rw [← extendPm_eq]
  exact extendPm_keyMark q l
end

/-- The plan at an address, under the pool limits that a payload gives. -/
def planSet (pay : List Byte) : Plan where
  addr := leAt pay 8 8
  lims := (leAt pay (2 * 0) 2, leAt pay (2 * 1) 2, leAt pay (2 * 2) 2, leAt pay (2 * 3) 2)

section
variable (hop : m.opcode = 0x0404) (hp : m.partition < 16) (hst : (b.part m.partition).st = 1 ∨ (b.part m.partition).st = 2) (h0 : m.param = 0)
  (hdec : leAt m.payload (2 * 0) 2 ≤ leAt m.payload (2 * 1) 2) (hpre : leAt m.payload (2 * 2) 2 ≤ leAt m.payload (2 * 3) 2)
  (hdmax : leAt m.payload (2 * 1) 2 ≤ 256) (hpmax : leAt m.payload (2 * 3) 2 ≤ 256) (ha : leAt m.payload 8 8 ≠ 0) (h64 : leAt m.payload 8 8 % 64 = 0)
  (hin : (b.entered m).inHbm m.partition (leAt m.payload 8 8) planBytes = true)
include hop hp hst h0 hdec hpre hdmax hpmax ha h64 hin

theorem runOp_poolSet : (b.entered m).runOp (b.asCmd m) =
    (((b.entered m).hbmWrite m.partition (leAt m.payload 8 8) (zeros 4)).setServe m.partition
      { b.serve m.partition with offNext := false, building := some (planSet m.payload) }).finish (b.asCmd m) stOK 0 [] := by
  have hlims : (List.range 4).find? (fun i => decide (256 < leAt m.payload (2 * i) 2)) = none := by
    rw [List.find?_eq_none]
    intro i hi
    have : i = 0 ∨ i = 1 ∨ i = 2 ∨ i = 3 := by have := List.mem_range.mp hi; omega
    rcases this with rfl | rfl | rfl | rfl <;> simp only [decide_eq_true_eq] <;> omega
  rw [runOp_eq (op := 0x0404) hop rfl]
  show (b.entered m).doPoolSet (b.asCmd m) = _
  unfold Blk.doPoolSet
  rw [withPart_open (c := b.asCmd m) hp (by rw [entered_part]; exact hst)]
  simp only [show (b.asCmd m).m = m from rfl, entered_serve, hlims, h0, h64, hin, bne_self_eq_false, Bool.not_true, Bool.or_self, Bool.false_eq_true,
    if_false]
  rw [if_neg (Nat.not_lt.mpr hdec), if_neg (Nat.not_lt.mpr hpre), if_neg ha]
  rfl
theorem command_poolSet (h : b.takes m = true) : (b.command m).answered m stOK 0 [] ∧
    (((b.measureCmd m).hbmWrite m.partition (leAt m.payload 8 8) (zeros 4)).setServe m.partition
      { b.serve m.partition with offNext := false, building := some (planSet m.payload) }).SameButHost (b.command m) ∧
    b.hostFor (b.command m) m := by
  have hr := runOp_poolSet hop hp hst h0 hdec hpre hdmax hpmax ha h64 hin
  generalize ({ b.serve m.partition with offNext := false, building := some (planSet m.payload) } : Serve) = v at hr ⊢
  have hwrite : MemOp fun b => b.hbmWrite m.partition (leAt m.payload 8 8) (zeros 4) := hbmWrite_memOp
  obtain ⟨hbays, hchans, hslice, hspans⟩ := hwrite.rest b
  obtain ⟨hans, hsame, hhost⟩ := command_finishes_measured h (by rw [hop]; rfl) (by omega) hr (hwrite.host _)
    ((hwrite.same entered_sameButHost).setServe v) (still_congr hbays hchans hslice) hspans
  rw [measureCmd_serving (.inr hop), extendPm_setServe, extendPm_hbmWrite, ← measureCmd_serving (.inr hop)] at hsame
  exact ⟨hans, hsame, hhost⟩
end

/-! ### CMD_REQ_SUBMIT (R325, R326, R328) -/

section
variable (hop : m.opcode = 0x0400) (h0 : m.param = 0) (hp : m.partition < 16) (hst : (b.part m.partition).st = 1 ∨ (b.part m.partition).st = 2)
  (heng : (b.serve m.partition).engine = 1) (hroom : (b.serve m.partition).reqs.length < 65536)
  (hfault : (b.entered m).reqFault m.partition (b.serve m.partition) (b.asCmd m) = none) (hheld : b.hbmHeld 0 hbmEnd = none)
  (hseqd : (b.entered m).seqdOk m.partition (reqOf (b.asCmd m) (b.serve m.partition).order) = true)
  (hown : (b.account (reqOf (b.asCmd m) (b.serve m.partition).order).acct).part = some m.partition)
  (hcap : (b.account (reqOf (b.asCmd m) (b.serve m.partition).order).acct).cap ≠ 0)
  (hmax : (reqOf (b.asCmd m) (b.serve m.partition).order).maxnew ≠ 0) (hcls : m.cls = 0)
include hop h0 hp hst heng hroom hfault hheld hseqd hown hcap hmax hcls

theorem runOp_reqSubmit : ∃ pay, (b.entered m).runOp (b.asCmd m) = ((b.entered m).accept (b.asCmd m) pay).setServe m.partition
    { b.serve m.partition with
      reqs := (b.serve m.partition).reqs ++ [reqOf (b.asCmd m) (b.serve m.partition).order], order := (b.serve m.partition).order + 1 } := by
  have hbounded : (reqOf (b.asCmd m) (b.serve m.partition).order).bounded = false := by
    show decide (m.cls = 1) = false
    rw [hcls]
    rfl
  have hheld' : (b.entered m).hbmHeld 0 hbmEnd = none := by rw [(access_congr (entered_sameButHost (b := b) (m := m))).2.2.2.1, hheld]
  rw [runOp_eq (op := 0x0400) hop rfl]
  show ∃ pay, (b.entered m).doReqSubmit (b.asCmd m) = _
  unfold Blk.doReqSubmit
  rw [withPart_open (c := b.asCmd m) hp (by rw [entered_part]; exact hst)]
  simp only [show (b.asCmd m).m = m from rfl, entered_serve, entered_account]
  generalize b.serve m.partition = x at *
  rw [if_neg (by simpa using h0), if_neg (by simp [heng]), if_neg (Nat.not_le.mpr hroom)]
  simp only [hfault]
  rw [if_neg (by simp [hheld']), if_neg (by simp [hseqd]), if_neg (by simp [hown]), if_neg (by simp [hown, hcap]), if_neg (by simp [hbounded])]
  simp only
  rw [if_neg (by simp [hbounded]), if_neg hmax]
  exact ⟨_, rfl⟩
theorem command_reqSubmit (h : b.takes m = true) : (b.command m).awaits m ∧
    (b.setServe m.partition { b.serve m.partition with
      reqs := (b.serve m.partition).reqs ++ [reqOf (b.asCmd m) (b.serve m.partition).order],
      order := (b.serve m.partition).order + 1 }).SameButHost (b.command m) ∧ b.hostFor (b.command m) m := by
  obtain ⟨-, hstill, -⟩ := takes_facts h
  obtain ⟨pay, hr⟩ := runOp_reqSubmit hop h0 hp hst heng hroom hfault hheld hseqd hown hcap hmax hcls
  generalize ({ b.serve m.partition with
    reqs := (b.serve m.partition).reqs ++ [reqOf (b.asCmd m) (b.serve m.partition).order],
    order := (b.serve m.partition).order + 1 } : Serve) = v at hr ⊢
  have hacc := accept_entered_sameButHost (b := b) (m := m) (pay := pay)
  rw [measureCmd_request (.inl hop)] at hacc
  have hcmds : (((b.entered m).accept (b.asCmd m) pay).setServe m.partition v).host.cmds = [b.accepted m] := accept_entered_cmds
  have hsame := hacc.setServe (p := m.partition) v
  rw [command_waits h hr (by rw [Blk.noneReady, hcmds]; rfl) (by rw [hsame.still]; exact hstill)]
  refine ⟨?_, hsame, accept_entered_hostBut (b := b)⟩
  rw [Blk.awaits, hcmds]
  simp [Blk.accepted, Blk.asCmd]
end

end Sys2Proof.Machine
end

section
/-! SUPPORT. A command that the device takes beside a request that waits (R42, R53), and CMD_REQ_CANCEL (R328, R337). -/
namespace Sys2Proof.Machine

variable {b x y : Blk} {m : Msg} {c : Cmd} {p : Nat} {r : Req}

/-! ### Replies that a context keeps (R42) -/

/-- Of the last 64 with one more, the last before it is one. -/
theorem mem_last_of_append {α : Type} {l : List α} {q : α} (h : l.getLast? = some q) (a : α) :
    q ∈ (l ++ [a]).drop ((l ++ [a]).length - 64) := by
  obtain ⟨k, rfl⟩ := List.getLast?_eq_some_iff.mp h
  rw [List.append_assoc, List.drop_append_of_le_length (by simp)]
  simp
/-- The last reply that a context keeps is kept beside a later one. -/
theorem finalReply_keeps_last {s : Bool} {st det n : Nat} {pay : List Byte} {q : Nat × List Byte} (h : (x.ctx n).replies.getLast? = some q) :
    q ∈ ((x.finalReply m s st det pay).ctx n).replies := by
  unfold Blk.finalReply
  simp only
  generalize hb : (if (s && (x.ctx m.ctx).st != 0) = true then _ else x : Blk) = b1
  obtain ⟨-, -, -, -, -, -, -, -, -, hreplies⟩ := replyTo_ctx (b := b1) m.port m.ctx n (msgBytes m.opcode m.ctx true false m.seq st det x.tide pay)
  rw [hreplies, ← hb]
  split
  · next hs =>
    have hst : (x.ctx m.ctx).st ≠ 0 := bne_iff_ne.mp (Bool.and_eq_true_iff.mp hs).2
    by_cases e : n = m.ctx
    · subst e
      rw [ctx_setCtx_new]
      · exact mem_last_of_append h _
      · exact fun e => hst (congrArg Ctx.st e)
    · rw [ctx_setCtx_ne _ _ e]
      exact List.mem_of_getLast? h
  · exact List.mem_of_getLast? h
theorem finish_keeps_last {st det n : Nat} {pay : List Byte} {q : Nat × List Byte} (h13 : c.flag 13 = false)
    (hl : x.logged c.ctx c.seq = false) (h : (x.ctx n).replies.getLast? = some q) : q ∈ ((x.finish c st det pay).ctx n).replies := by
  rw [finish_eq h13 hl]
  refine finalReply_keeps_last ?_
  rw [← h]
  congr 2
  unfold Blk.ctx
  split <;> simp [Blk.dropCmd]
/-- A command that does not end in ST_OK is answered, and not measured. -/
theorem finish_refused_same {st : Nat} {pay : List Byte} (h13 : c.flag 13 = false) (hl : x.logged c.ctx c.seq = false) (hst : st ≠ stOK) :
    x.SameButHost (x.finish c st 0 pay) := by
  rw [finish_eq h13 hl, closeDet_zero, if_neg (by simp [hst])]
  exact dropCmd_sameButHost.trans (finalReply_sameButHost _ _ _ _)

theorem finish_ctx_st {st det n : Nat} {pay : List Byte} (h13 : c.flag 13 = false) (hl : x.logged c.ctx c.seq = false) :
    ((x.finish c st det pay).ctx n).st = (x.ctx n).st := by
  rw [finish_eq h13 hl, (finalReply_ctx _ _ _ _ n _).1]
  unfold Blk.ctx
  split <;> simp [Blk.dropCmd]

/-! ### A message taken beside a command that waits -/

/-- The machine without its uncompleted commands. -/
def Blk.noCmds (b : Blk) : Blk := { b with host := { b.host with cmds := [] } }
/-- The machine with a message entered behind a command that waits. -/
def Blk.enteredBehind (b : Blk) (m : Msg) (c : Cmd) : Blk :=
  { b.noCmds.entered m with host := { (b.noCmds.entered m).host with cmds := [c, b.asCmd m] } }

@[simp] theorem noCmds_frame : b.noCmds.host.cmds = [] ∧ b.noCmds.host.intakeStopped = b.host.intakeStopped ∧ b.noCmds.dev = b.dev ∧
    (∀ n, b.noCmds.ctx n = b.ctx n) ∧ (∀ n, b.noCmds.port n = b.port n) ∧ ∀ (m : Msg) (o : OpInfo), b.noCmds.stateOk m o = b.stateOk m o :=
  ⟨rfl, rfl, rfl, fun _ => rfl, fun _ => rfl, fun _ _ => rfl⟩
theorem noCmds_sameButHost : b.SameButHost b.noCmds := .of_host _
theorem enteredBehind_sameButHost : b.SameButHost (b.enteredBehind m c) := (noCmds_sameButHost.trans entered_sameButHost).trans (.of_host _)
theorem enteredBehind_hostBut : b.hostBut (b.enteredBehind m c) [m.ctx] :=
  (Blk.hostBut.of_same rfl rfl rfl rfl : b.hostBut b.noCmds [m.ctx]).trans (entered_hostBut.trans (.of_same rfl rfl rfl rfl))

/-- What taking a message beside a waiting request says. -/
theorem takesBeside_facts (h : b.takesBeside m c = true) :
    b.noCmds.takes m = true ∧ b.host.cmds = [c] ∧ c.started = true ∧ c.m.opcode = 0x400 ∧ c.vars = [] ∧
    tbit m.flags 0 = false ∧ (m.ctx = 0 ∨ 2 ≤ (b.ctx m.ctx).depth) ∧ (b.ctx c.ctx).st = 1 ∧ c.flag 13 = false ∧ b.spans = [] := by
  simp only [Blk.takesBeside, Bool.and_eq_true, decide_eq_true_eq, Bool.not_eq_true', beq_iff_eq, List.isEmpty_iff, Bool.or_eq_true] at h
  obtain ⟨⟨⟨⟨⟨⟨⟨⟨⟨⟨htakes, hcmds⟩, hstart⟩, hop⟩, hvars⟩, -⟩, hord⟩, hroom⟩, hopen⟩, h13⟩, hspans⟩ := h
  exact ⟨htakes, hcmds, hstart, hop, hvars, hord, hroom, hopen, h13, hspans⟩

/-- A queue that has room for two looks at a message as an empty one does. -/
theorem headerCheck_beside {o : OpInfo} (hcmds : b.host.cmds = [c]) (hroom : m.ctx = 0 ∨ 2 ≤ (b.ctx m.ctx).depth) :
    b.headerCheck m o = b.noCmds.headerCheck m o := by
  have hlen : ([c].filter fun d => d.ctx == m.ctx).length ≤ 1 := List.length_filter_le _ _
  have hlim : 2 ≤ if m.ctx = 0 then 256 else (b.ctx m.ctx).depth := by
    split
    · decide
    · next h0 => exact hroom.resolve_left h0
  have hfull : ∀ n, n ≤ 1 → (m.opcode != 1 && decide ((if m.ctx = 0 then 256 else (b.ctx m.ctx).depth) ≤ n)) = false := fun n hn => by
    rw [decide_eq_false (by omega), Bool.and_false]
  unfold Blk.headerCheck
  simp only [hcmds, hfull _ hlen, noCmds_frame, List.filter_nil, List.length_nil, hfull 0 (by decide)]

/-- Such a message becomes the last uncompleted command. -/
theorem receive_beside (h : b.takesBeside m c = true) (hop1 : m.opcode ≠ 1) : b.receive m = b.enteredBehind m c := by
  obtain ⟨htakes, hcmds, -, -, -, -, hroom, -⟩ := takesBeside_facts h
  simp only [Blk.takes, msgPlain, Bool.and_eq_true, beq_iff_eq, Bool.not_eq_true', List.isEmpty_iff, Option.isNone_iff_eq_none, Bool.or_eq_true,
    decide_eq_true_eq, noCmds_frame] at htakes
  obtain ⟨⟨⟨⟨⟨⟨⟨⟨⟨⟨⟨⟨⟨⟨⟨⟨⟨⟨hver, hminor⟩, hcls⟩, hpart⟩, -⟩, -⟩, hup⟩, hpow⟩, hint⟩, hst⟩, hhome⟩, hseq⟩, hhdr⟩, -⟩, -⟩, -⟩, -⟩, -⟩, -⟩ := htakes
  obtain ⟨o, ho⟩ : ∃ o, opInfo m.opcode = some o := by
    cases e : opInfo m.opcode with
    | none => rw [e] at hhdr; simp at hhdr
    | some o => exact ⟨o, rfl⟩
  simp only [ho, Option.isNone_iff_eq_none, ← headerCheck_beside hcmds hroom] at hhdr
  have hlate : (m.opcode != 1 && (b.ctx m.ctx).series && m.seq != (b.ctx m.ctx).expect) = false := by
    rcases hseq with (h | h) | h <;> simp [h]
  have hplace : (decide (15 < m.partition) && m.partition != 0xFF) = false := by
    rcases hpart with h | h
    · simp [Nat.not_lt.mpr (Nat.le_of_lt_succ h)]
    · simp [h]
  have hhomed : (decide (m.ctx = 0) && decide ((b.ctx m.ctx).st = 1) && !(b.ctx m.ctx).homeSet) = false := by simp [hhome]
  have hcls2 : ¬ 2 < m.cls := by omega
  have hopen : ((b.ctx m.ctx).st != 1) = false := by simp [hst]
  unfold Blk.receive
  rw [if_pos hup, Blk.arrive, if_neg (devMode_powered hpow), if_neg (by rw [hint]; decide), Blk.takeMsg]
  simp only [asMinor0, hminor, if_true, hhomed, Bool.false_eq_true, if_false, hver, hcls2, hplace, ho, hopen, hlate, hop1,
    headerCheck_series hst, hhdr]
  simp only [Blk.enteredBehind, Blk.entered, hop1, if_false, setCtx_host, hcmds]
  rfl

/-- Its rule runs at once, and what waits waits on: a rule that leaves no command and starts nothing is all that happens. -/
theorem command_beside (h : b.takesBeside m c = true) (hop1 : m.opcode ≠ 1) (hop : m.opcode ≠ 0x203)
    (hr : (b.enteredBehind m c).runOp (b.asCmd m) = x) (hnone : x.host.cmds = []) (hs : x.still = true) : b.command m = x := by
  obtain ⟨htakes, -, hstart, hopc, hvars, hord, -, -, -, hspans⟩ := takesBeside_facts h
  simp only [Blk.takes, msgPlain, Bool.and_eq_true, beq_iff_eq, Bool.not_eq_true', Option.isNone_iff_eq_none, noCmds_frame] at htakes
  obtain ⟨⟨⟨⟨⟨⟨⟨⟨⟨⟨⟨⟨⟨⟨⟨⟨⟨⟨-, -⟩, hcls⟩, -⟩, -⟩, -⟩, -⟩, -⟩, hint⟩, -⟩, -⟩, -⟩, -⟩, hcheck⟩, hdata⟩, -⟩, -⟩, -⟩, -⟩ := htakes
  have hcmds : (b.enteredBehind m c).host.cmds = [c, b.asCmd m] := rfl
  have hspans : (b.enteredBehind m c).spans = [] := enteredBehind_sameButHost.spans.trans hspans
  have hintake : (b.enteredBehind m c).host.intakeStopped = false := enteredBehind_hostBut.2.2.2.trans hint
  have hpoll : (b.enteredBehind m c).pollCmds = b.enteredBehind m c := by
    have hfind : (b.enteredBehind m c).cmdOf c.ctx c.seq = some c := by simp [Blk.cmdOf, hcmds]
    simp [Blk.pollCmds, hcmds, hstart, hfind, Blk.pollCmd, hopc, hvars, Blk.asCmd]
  have hmay : (b.enteredBehind m c).mayRun (b.asCmd m) = true := by
    have hflag : (b.asCmd m).flag 12 = false := hord
    have hbegun : c.begun = true := by simp [Cmd.begun, hstart]
    unfold Blk.mayRun
    simp only [hcmds, hflag, hspans, List.any_nil, Bool.and_false]
    simp [Blk.asCmd, hop, List.takeWhile_cons, hbegun]
  have hdata : (b.asCmd m).dataIn = true := hdata
  have hnext : (b.enteredBehind m c).nextReady = some (b.asCmd m) := by
    have hwaits : (b.enteredBehind m c).mayRun c = false := by simp [Blk.mayRun, hstart]
    simp [Blk.nextReady, hcmds, hwaits, hmay, hdata]
  have hrun : (b.enteredBehind m c).runCmd (b.asCmd m) = x := by
    have hcheck' : (b.enteredBehind m c).startCheck (b.asCmd m) = none := by
      rw [startCheck_congr (b := b.noCmds) (by simp [Blk.enteredBehind]) (by simp [Blk.enteredBehind])]
      exact hcheck
    have hpasses : (b.enteredBehind m c).admits (b.asCmd m) = (true, b.enteredBehind m c) := by simp [Blk.admits, Blk.asCmd, hcls]
    have hlogs : (b.enteredBehind m c).logCmd (b.asCmd m) = .ok (b.enteredBehind m c) := by
      have : (b.enteredBehind m c).logsOf (b.asCmd m) = [] := by
        unfold Blk.logsOf
        simp [hspans]
      simp [Blk.logCmd, this]
    unfold Blk.runCmd
    rw [show (b.asCmd m).queued = false from rfl]
    simp [hcheck', hpasses, hlogs, hdata, hr]
  have hpump : (b.enteredBehind m c).pumpCmds = x := by
    unfold Blk.pumpCmds
    rw [hintake, hpoll]
    simp only [Bool.false_eq_true, if_false, hcmds, List.length_cons, List.length_nil]
    rw [Blk.startReady, hnext]
    simp only [hrun]
    exact startReady_none _ (by simp [Blk.noneReady, hnone])
  rw [Blk.command, receive_beside h hop1, Blk.pump, hpump, still_tail hs]

/-! ### CMD_REQ_CANCEL (R328, R337) -/

/-- An engine without a request, which is kept among its terminal ones. -/
def Serve.without (x : Serve) (r : Req) : Serve :=
  { x with
    reqs := x.reqs.filter fun q => q.order != r.order
    dead := (x.dead ++ [(r.id, r.out)]).drop ((x.dead ++ [(r.id, r.out)]).length - 65536) }
/-- The payload of a request's final reply (R328). -/
def Req.account (r : Req) : List Byte := leBytes 4 r.out ++ leBytes 4 r.lastStep ++ leBytes 4 r.late ++ leBytes 2 r.reason ++ zeros 2

theorem Serve.without_ne (x : Serve) (r : Req) : x.without r ≠ {} := fun e => by
  have hdead := congrArg (fun y => y.dead.length) e
  simp [Serve.without] at hdead
  omega
theorem endReq_cancelled (h : x.cmdOf r.ctx r.seq = some c) :
    x.endReq p r stCANCELLED = (x.setServe p ((x.serve p).without r)).finish c stCANCELLED 0 r.account := by
  have hcmd : ∀ v : Serve, (x.setServe p v).cmdOf r.ctx r.seq = some c := fun _ => h
  unfold Blk.endReq
  simp only [hcmd]
  rfl

section
variable (h : b.takesBeside m c = true) (hop : m.opcode = 0x0401) (hp : m.partition < 16)
  (hst : (b.part m.partition).st = 1 ∨ (b.part m.partition).st = 2) (hreqs : (b.serve m.partition).reqs = [r]) (hid : r.id = m.param)
  (hstep : (b.serve m.partition).step = none) (hctx : r.ctx = c.ctx) (hseq : r.seq = c.seq)
include hop hp hst hreqs hid hstep hctx hseq

theorem runOp_reqCancel : (b.enteredBehind m c).runOp (b.asCmd m) =
    (((b.enteredBehind m c).setServe m.partition ((b.serve m.partition).without r)).finish c stCANCELLED 0 r.account).finish (b.asCmd m) stOK 0
      (leBytes 4 r.out ++ zeros 4) := by
  have hserve : (b.enteredBehind m c).serve m.partition = b.serve m.partition := serve_congr (by rw [← enteredBehind_sameButHost.eq]) _
  have hpart : (b.enteredBehind m c).part m.partition = b.part m.partition := by rw [← enteredBehind_sameButHost.eq]; rfl
  have hcmd : (b.enteredBehind m c).cmdOf r.ctx r.seq = some c := by simp [Blk.cmdOf, Blk.enteredBehind, hctx, hseq]
  have hfree : (b.serve m.partition).inStep r = false := by simp [Serve.inStep, hstep]
  rw [runOp_eq (op := 0x0401) hop rfl]
  show (b.enteredBehind m c).doReqCancel (b.asCmd m) = _
  unfold Blk.doReqCancel
  rw [withPart_open (c := b.asCmd m) hp (by rw [show (b.asCmd m).m = m from rfl, hpart]; exact hst)]
  simp only [show (b.asCmd m).m = m from rfl, hserve, hreqs, List.find?_cons, hid, beq_self_eq_true]
  unfold Blk.cancelReq
  simp only [hserve, hfree, Bool.false_eq_true, if_false]
  rw [endReq_cancelled hcmd, hserve]
include h
theorem command_reqCancel : (b.command m).host.cmds = [] ∧ (b.command m).answered m stOK 0 (leBytes 4 r.out ++ zeros 4) ∧
    (b.setServe m.partition ((b.serve m.partition).without r)).SameButHost (b.command m) ∧
    (c.seq, msgBytes 0x0400 c.ctx true false c.seq stCANCELLED 0 b.tide r.account) ∈ ((b.command m).ctx c.ctx).replies ∧
    b.ctxsBut (b.command m) [m.ctx, c.ctx] := by
  obtain ⟨htakes, -, -, hopc, -, -, -, hcopen, h13, hspans⟩ := takesBeside_facts h
  have hr := runOp_reqCancel hop hp hst hreqs hid hstep hctx hseq
  have hset := (enteredBehind_sameButHost (b := b) (m := m) (c := c)).setServe (p := m.partition) ((b.serve m.partition).without r)
  have hbut : b.hostBut ((b.enteredBehind m c).setServe m.partition ((b.serve m.partition).without r)) [m.ctx] :=
    enteredBehind_hostBut.trans (hostBut_of_host rfl)
  have hcmds : ((b.enteredBehind m c).setServe m.partition ((b.serve m.partition).without r)).host.cmds = [c, b.asCmd m] := rfl
  have hopen : (((b.enteredBehind m c).setServe m.partition ((b.serve m.partition).without r)).ctx m.ctx).st = 1 := (entered_ctx_self htakes).1
  have hstill : (b.setServe m.partition ((b.serve m.partition).without r)).still = true := (takes_facts htakes).2.1
  have hm13 : (b.asCmd m).flag 13 = false := (takes_facts htakes).2.2.2.1
  have htide : (b.setServe m.partition ((b.serve m.partition).without r)).tide = b.tide := rfl
  have hspans : (b.setServe m.partition ((b.serve m.partition).without r)).spans = [] := hspans
  generalize (b.enteredBehind m c).setServe m.partition ((b.serve m.partition).without r) = x at *
  generalize b.setServe m.partition ((b.serve m.partition).without r) = w at *
  have hlog : ∀ y, w.SameButHost y → ∀ n q, y.logged n q = false := fun y hy n q => by simp [Blk.logged, hy.spans, hspans]
  have hmst : ((x.finish c stCANCELLED 0 r.account).ctx m.ctx).st ≠ 0 := by rw [finish_ctx_st h13 (hlog x hset _ _), hopen]; decide
  have hcst : (x.ctx c.ctx).st ≠ 0 := by
    by_cases e : c.ctx = m.ctx
    · rw [e, hopen]
      decide
    · rw [hbut.1 _ (by simpa using e), hcopen]
      decide
  have hlast := finish_answered (st := stCANCELLED) (det := 0) (pay := r.account) h13 (hlog x hset _ _) (by rw [hopc]; decide) hcst (by decide)
  have hwy : w.SameButHost (x.finish c stCANCELLED 0 r.account) := hset.trans (finish_refused_same h13 (hlog x hset _ _) (by decide))
  have hxy : x.hostBut (x.finish c stCANCELLED 0 r.account) [c.ctx] := finish_hostBut h13 (hlog x hset _ _)
  have hycmds := finish_cmds (st := stCANCELLED) (det := 0) (pay := r.account) h13 (hlog x hset _ _)
  rw [hcmds] at hycmds
  generalize x.finish c stCANCELLED 0 r.account = y at *
  have hylog := hlog y hwy m.ctx m.seq
  have hytide : y.tide = w.tide := by rw [← hwy.eq]
  have hsame := finish_ok_I_same (pay := leBytes 4 r.out ++ zeros 4) hm13 hylog (show dKind m.opcode = false by rw [hop]; rfl)
  rw [show (b.asCmd m).m = m from rfl, measureCmd_request (.inr hop)] at hsame
  have hnone : (y.finish (b.asCmd m) stOK 0 (leBytes 4 r.out ++ zeros 4)).host.cmds = [] := by
    rw [finish_cmds hm13 hylog, hycmds]
    simp
  rw [command_beside h (by omega) (by omega) hr hnone (by rw [(hwy.trans hsame).still, hstill])]
  refine ⟨hnone, finish_answered hm13 hylog (by rw [show (b.asCmd m).m = m from rfl]; omega) hmst (by decide), hwy.trans hsame, ?_, ?_⟩
  · rw [← htide, ← hytide, ← hopc]
    exact finish_keeps_last hm13 hylog hlast
  · exact (((hbut.mono (by simp)).trans (hxy.mono (by simp))).trans ((finish_hostBut hm13 hylog).mono (by simp [Blk.asCmd]))).1
end

/-! ### O35 -/

/-- What a change of one engine leaves of the others, and of the device. -/
theorem serve_of_setServe {v : Serve} (h : (x.setServe p v).SameButHost y) (hv : v ≠ {}) :
    y.serve p = v ∧ (∀ q, q ≠ p → y.serve q = x.serve q) ∧ { x with serves := y.serves, host := y.host } = y := by
  refine ⟨?_, fun q hq => ?_, ?_⟩
  · rw [serve_congr h.serves, serve_setServe_new _ p v hv]
  · rw [serve_congr h.serves, serve_setServe_ne _ v hq]
  · rw [h.serves]
    exact h.eq
/-- An engine that keeps a request, or builds a plan, is not idle. -/
theorem Serve.ne_idle_of_req {v : Serve} (h : r ∈ v.reqs) : v ≠ {} := fun e => by rw [e] at h; exact absurd h (by simp)
theorem Serve.ne_idle_of_building {v : Serve} {q : Plan} (h : v.building = some q) : v ≠ {} := fun e => by rw [e] at h; exact absurd h (by simp)

/-- Settles O35: each command passes its checks, changes the one engine or account that it names, and is answered or waits. -/
theorem servingCommands : Obligations.ServingCommands := by
  unfold Obligations.ServingCommands
  refine ⟨fun s m h hop h0 hp hst heng hroom hfault hheld hseqd hown hcap hmax => ?_, fun s m c r h hop hp hst hreqs hid hstep hctx hseq => ?_,
    fun s m h hop hp hst hk hown h3 hA hB hquery hC => ?_, fun s m h hop hp hst h0 hdec hpre hdmax hpmax ha h64 hin => ?_⟩
  · obtain ⟨hwait, hsame, hhost⟩ := command_reqSubmit hop h0 hp hst heng hroom hfault hheld hseqd hown hcap hmax (takes_cls h) h
    obtain ⟨hserve, hothers, hframe⟩ := serve_of_setServe hsame (Serve.ne_idle_of_req (List.mem_append_right _ (List.mem_singleton_self _)))
    exact does_of_updIf rfl (isFor_takes h hop) ⟨hwait, by rw [hserve], by rw [hserve], hothers, hframe, hhost⟩
  · obtain ⟨hcmds, hans, hsame, hreply, hctxs⟩ := command_reqCancel h hop hp hst hreqs hid hstep hctx hseq
    obtain ⟨hserve, hothers, hframe⟩ := serve_of_setServe hsame (Serve.without_ne _ r)
    have hempty : ((s.blk.command m).serve m.partition).reqs = [] := by rw [hserve]; simp [Serve.without, hreqs]
    exact does_of_updIf rfl (isFor_takes (takesBeside_facts h).1 hop) ⟨hcmds, hans, hempty, hreply, hothers, hctxs, hframe⟩
  · obtain ⟨hans, hsame, hhost⟩ := command_accountSet hop hp hst hk hown h3 hA hB hquery hC h
    have hpart := Account.changed_part hown s.blk.tide m.payload
    have haccount : (s.blk.command m).account m.param = (s.blk.account m.param).changed m.partition s.blk.tide m.payload := by
      rw [account_congr hsame.accounts, account_setAccount_new]
      exact fun e => by rw [e] at hpart; exact absurd hpart (by simp)
    refine does_of_updIf rfl (isFor_takes h hop) ⟨hans, by rw [haccount, hpart], by rw [haccount]; rfl, fun k hk => ?_, ?_, hhost⟩
    · rw [account_congr hsame.accounts, account_setAccount_ne _ _ hk, account_congr]
      rw [measureCmd_serving (.inl hop), extendPm_eq]
    · rw [hsame.accounts]
      exact hsame.eq
  · obtain ⟨hans, hsame, hhost⟩ := command_poolSet hop hp hst h0 hdec hpre hdmax hpmax ha h64 hin h
    obtain ⟨hserve, hothers, hframe⟩ := serve_of_setServe hsame (Serve.ne_idle_of_building (q := planSet m.payload) rfl)
    refine does_of_updIf rfl (isFor_takes h hop) ⟨hans, by rw [hserve]; rfl, fun q hq => (hothers q hq).trans (serve_congr ?_ q), hframe, hhost⟩
    rw [← hbmWrite_hbmChange.frame, measureCmd_serving (.inr hop), extendPm_eq]

end Sys2Proof.Machine
end

section
/-! SUPPORT. Plans that are built and brought into force, and steps that open, start and are sealed (R322, R324, R329, R330, R334). -/
namespace Sys2Proof.Machine

variable {b t x : Blk} {p k : Nat} {g : Plan} {z : Step} {v : List Byte}

/-! ### What an engine changes -/

theorem Blk.HbmChange.serves (h : b.HbmChange t) : t.serves = b.serves := by rw [← h.frame]
theorem Blk.HbmChange.tide (h : b.HbmChange t) : t.tide = b.tide := by rw [← h.frame]
theorem Blk.HbmChange.serve (h : b.HbmChange t) (p : Nat) : t.serve p = b.serve p := serve_congr h.serves p
theorem putTs_hbmChange : b.HbmChange (b.putTs p g) := by
  unfold Blk.putTs
  generalize List.range g.nsplit = l
  induction l generalizing b with
  | nil => exact .refl
  | cons k l ih => exact hbmWrite_hbmChange.trans ih
theorem putPstatus_hbmChange {addr st reason idx : Nat} : b.HbmChange (b.putPstatus p addr st reason idx) := hbmWrite_hbmChange
theorem putLedger_hbmChange {st : Nat} : b.HbmChange (b.putLedger p g z st v) := hbmWrite_hbmChange.trans hbmWrite_hbmChange

/-- Of the machine what an engine changes beside the Coves: the clock, the free values taken, what a write to HBM changes, accounts and engines. -/
structure Blk.EngineChange (b t : Blk) : Prop where
  frame : { b with tide := t.tide, free := t.free, cfg := t.cfg, mem := t.mem, unitKeys := t.unitKeys, ueUnits := t.ueUnits, accounts := t.accounts,
                   serves := t.serves } = t

theorem Blk.EngineChange.trans (h : b.EngineChange t) (g : t.EngineChange x) : b.EngineChange x := ⟨by rw [← g.frame, ← h.frame]⟩
theorem Blk.EngineChange.rests (h : b.EngineChange t) : t.rests = b.rests := by rw [← h.frame]; rfl
theorem Blk.EngineChange.parts (h : b.EngineChange t) : t.parts = b.parts := by rw [← h.frame]
theorem Blk.EngineChange.partBays (h : b.EngineChange t) (p : Nat) : t.partBays p = b.partBays p := by rw [← h.frame]; rfl
theorem Blk.EngineChange.covesBut (h : b.EngineChange t) : b.covesBut t [] := fun d _ => by rw [← h.frame]; rfl
theorem Blk.HbmChange.engine (h : b.HbmChange t) : b.EngineChange t := ⟨by rw [← h.frame]⟩
/-- A change that leaves the engines, and then one engine set. -/
theorem setServe_engine {s : Serve} (h : b.EngineChange t) (hserves : t.serves = b.serves) (hs : s ≠ {}) :
    b.EngineChange (t.setServe p s) ∧ (t.setServe p s).serve p = s ∧ ∀ r, r ≠ p → (t.setServe p s).serve r = b.serve r :=
  ⟨h.trans ⟨rfl⟩, serve_setServe_new _ _ _ hs, fun r hr => (serve_setServe_ne _ _ hr).trans (serve_congr hserves r)⟩

/-- A row after which nothing goes on by itself. -/
theorem does_of_rests {s : State} {i : Instr} {ok : Bool} {f : Blk → Blk} {P : Blk → Prop} (he : exec i s = s.updIf ok fun b => (f b).pump)
    (hok : ok = true) (hrests : (f s.blk).rests = true) (hP : P (f s.blk)) : s.does i P :=
  does_of_updIf he hok (by rw [pump_rests hrests]; exact hP)

/-! ### The build of a plan ends (R324) -/

section
variable {g0 : Plan} (hbuild : (b.serve p).building = some g0) (hue : b.rangeUe g0.addr 0x140 = none)
include hbuild hue
theorem planDone_built (hplan : b.buildPlan p { g0 with raw := b.hbmRead p g0.addr 0x140 } (b.serve p).bounded = .ok g) :
    b.planDone p = (b.putTs p g).setServe p { b.serve p with building := none, next := some g } := by
  unfold Blk.planDone
  simp only [hbuild, hue, hplan]
theorem planDone_refused {e : Nat × Nat} (hplan : b.buildPlan p { g0 with raw := b.hbmRead p g0.addr 0x140 } (b.serve p).bounded = .error e) :
    b.planDone p = (b.putPstatus p g0.addr 2 e.1 e.2).setServe p { b.serve p with building := none } := by
  unfold Blk.planDone
  simp only [hbuild, hue, hplan]
end

/-! ### A plan comes into force (R322) -/

/-- An engine whose next plan, or the one in force where there is none, goes on (R322, R324). -/
def Serve.swapped (x : Serve) (g : Plan) : Serve :=
  { x with plan := some g, next := none, engine := 1, lastStep := if x.next.isSome && !x.ran then (g.at 8 4 + 2 ^ 32 - 1) % 2 ^ 32 else x.lastStep }

theorem Serve.ne_idle_of_plan {s : Serve} (h : s.plan = some g) : s ≠ {} := fun e => by rw [e] at h; exact absurd h (by simp)
theorem Serve.ne_idle_of_next {s : Serve} (h : s.next = some g) : s ≠ {} := fun e => by rw [e] at h; exact absurd h (by simp)
theorem Serve.ne_idle_of_step {s : Serve} (h : s.step = some z) : s ≠ {} := fun e => by rw [e] at h; exact absurd h (by simp)

theorem at4_lt {off : Nat} : g.at off 4 < 2 ^ 32 := by
  unfold Plan.at
  exact Nat.lt_of_lt_of_eq (leAt_lt g.raw off 4) (by norm_num)
theorem pred_succ_mod {n : Nat} (h : n < 2 ^ 32) : ((n + 2 ^ 32 - 1) % 2 ^ 32 + 1) % 2 ^ 32 = n := by omega
/-- The step after: the first step of a plan whose engine has not run, else the last step plus 1 (R324). -/
theorem Serve.swapped_num (s : Serve) :
    ((s.swapped g).lastStep + 1) % 2 ^ 32 = if s.next.isSome && !s.ran then g.at 8 4 else (s.lastStep + 1) % 2 ^ 32 := by
  have hlast : (s.swapped g).lastStep = if s.next.isSome && !s.ran then (g.at 8 4 + 2 ^ 32 - 1) % 2 ^ 32 else s.lastStep := rfl
  rw [hlast, apply_ite (fun n => (n + 1) % 2 ^ 32), pred_succ_mod at4_lt]

theorem Serve.swapped_same {s : Serve} (hnext : s.next = none) (hplan : s.plan = some g) (hengine : s.engine = 1) : s.swapped g = s := by
  cases s
  simp only at hnext hplan hengine
  subst hnext hplan hengine
  rfl

theorem swapPlan_next (hnext : (b.serve p).next = some g) : ∃ t, b.HbmChange t ∧ b.swapPlan p = t.setServe p ((b.serve p).swapped g) := by
  unfold Blk.swapPlan Serve.swapped
  generalize (2 : Nat) ^ 32 = n
  simp only [hnext]
  have hlast : (if ((some g).isSome && !(b.serve p).ran) = true then (g.at 8 4 + n - 1) % n else (b.serve p).lastStep) =
      if (b.serve p).ran = true then (b.serve p).lastStep else (g.at 8 4 + n - 1) % n := by cases (b.serve p).ran <;> simp
  rw [hlast]
  cases (b.serve p).plan with
  | none => exact ⟨_, putPstatus_hbmChange, rfl⟩
  | some o => exact ⟨_, putPstatus_hbmChange.trans putPstatus_hbmChange, rfl⟩
theorem swapPlan_stays (hnext : (b.serve p).next = none) : b.swapPlan p = b := by
  unfold Blk.swapPlan
  simp only [hnext]
/-- What a swap of plans changes: HBM, and the one engine. -/
theorem swapPlan_swaps (h : (b.serve p).next = some g ∨ ((b.serve p).next = none ∧ (b.serve p).plan = some g ∧ (b.serve p).engine = 1)) :
    b.EngineChange (b.swapPlan p) ∧ (b.swapPlan p).tide = b.tide ∧ (b.swapPlan p).serve p = (b.serve p).swapped g ∧
    ∀ r, r ≠ p → (b.swapPlan p).serve r = b.serve r := by
  rcases h with hnext | ⟨hnext, hplan, hengine⟩
  · obtain ⟨t, ht, he⟩ := swapPlan_next hnext
    obtain ⟨hchange, hserve, hothers⟩ := setServe_engine (p := p) ht.engine ht.serves (Serve.ne_idle_of_plan (s := (b.serve p).swapped g) rfl)
    rw [he]
    exact ⟨hchange, ht.tide, hserve, hothers⟩
  · rw [swapPlan_stays hnext]
    refine ⟨⟨rfl⟩, rfl, ?_, fun _ _ => rfl⟩
    exact (Serve.swapped_same hnext hplan hengine).symm

/-! ### The split of the next step (R333) -/

/-- Of splits that there are, one is nearest. -/
theorem nearest_mem {r : Nat} {l : List Nat} (h : l ≠ []) : ∃ k ∈ l, g.nearest r l = some k := by
  have hfold : ∀ (l : List Nat) (j : Nat), ∃ k ∈ j :: l, l.foldl (fun best k => match best with
      | none => some k
      | some j => if natDist (g.split k) r < natDist (g.split j) r then some k else some j) (some j) = some k := by
    intro l
    induction l with
    | nil => exact fun j => ⟨j, by simp, rfl⟩
    | cons a l ih =>
      intro j
      rw [List.foldl_cons]
      simp only
      split
      · obtain ⟨k, hk, he⟩ := ih a
        exact ⟨k, List.mem_cons_of_mem _ hk, he⟩
      · obtain ⟨k, hk, he⟩ := ih j
        exact ⟨k, by simp only [List.mem_cons] at hk ⊢; tauto, he⟩
  cases l with
  | nil => exact absurd rfl h
  | cons a l => exact hfold l a
/-- An engine without requests takes an allowed split. -/
theorem chooseSplit_mem {s : Serve} (hreqs : s.reqs = []) (h : g.splits (b.partBays p).length ≠ []) :
    ∃ k ∈ g.splits (b.partBays p).length, b.chooseSplit p s g = some k := by
  unfold Blk.chooseSplit
  simp only [hreqs, List.filter_nil, List.foldl_nil, List.length_nil, Nat.zero_mul, Nat.add_zero, if_true]
  cases s.split with
  | none => exact nearest_mem h
  | some k => exact nearest_mem h

/-! ### A step opens (R329, R331) -/

theorem takeEntries_nil {cost : Req → Nat} {free tok rr : Nat} : b.takeEntries cost free tok rr [] = ([], rr) := by
  unfold Blk.takeEntries
  cases free <;> simp [takeTok, takeTurns]

/-- The step that a boundary opens when nothing is live. -/
def Blk.emptyStep (b : Blk) (p : Nat) (g : Plan) (k : Nat) : Step where
  num := ((b.serve p).lastStep + 1) % 2 ^ 32
  cls := g.cls 0
  split := k
  ts := g.tsOf k 0
  start := b.tide + (b.freeVal 0x329).1 % 5001
  ents := []
  deferred := 0

/-- An engine that has opened a step at an instant. -/
def Serve.opened (x : Serve) (now : Nat) (g : Plan) (z : Step) : Serve :=
  { x with step := some z, ran := true, lastStep := z.num, split := some (g.split z.split), nextBnd := now + g.minstep }

/-- The class of no decode entries is the first (R331). -/
theorem class_of_none {n : Nat} : ((List.range n).find? fun i => decide (0 ≤ g.cls i)).getD (n - 1) = 0 := by
  cases n with
  | zero => rfl
  | succ n => simp [List.range_succ_eq_map]

theorem openStep_empty (hreqs : (b.serve p).reqs = []) : ∃ table, b.openStep p g k =
    ((((b.freeVal 0x329).2.hbmWrite p (g.at 0x28 8) table).hbmWrite p (g.ledger (b.emptyStep p g k).num) (ledgerOpen (b.emptyStep p g k))).setServe p
      ((b.serve p).opened b.tide g (b.emptyStep p g k))) := by
  unfold Blk.openStep
  simp only [hreqs, List.filter_nil, takeEntries_nil, List.zipIdx_nil, List.map_nil, List.append_nil, List.length_nil, class_of_none]
  unfold Serve.opened
  simp only [hreqs]
  exact ⟨_, rfl⟩
theorem openStep_opens (hreqs : (b.serve p).reqs = []) :
    b.EngineChange (b.openStep p g k) ∧ (b.openStep p g k).tide = b.tide ∧
    (b.openStep p g k).serve p = (b.serve p).opened b.tide g (b.emptyStep p g k) ∧ ∀ r, r ≠ p → (b.openStep p g k).serve r = b.serve r := by
  obtain ⟨table, he⟩ := openStep_empty (g := g) (k := k) hreqs
  have hfree : b.EngineChange (b.freeVal 0x329).2 := ⟨rfl⟩
  have hwrite := (hbmWrite_hbmChange (b := (b.freeVal 0x329).2) (p := p) (a := g.at 0x28 8) (v := table)).trans
    (hbmWrite_hbmChange (p := p) (a := g.ledger (b.emptyStep p g k).num) (v := ledgerOpen (b.emptyStep p g k)))
  obtain ⟨hchange, hserve, hothers⟩ := setServe_engine (p := p) (hfree.trans hwrite.engine) hwrite.serves
    (Serve.ne_idle_of_step (s := (b.serve p).opened b.tide g (b.emptyStep p g k)) rfl)
  rw [he]
  exact ⟨hchange, hwrite.tide, hserve, hothers⟩

/-! ### The boundary of an engine without requests (R329 step 1) -/

/-- The machine at a boundary: the clock is there, and the accounts are refilled. -/
def Blk.atBoundary (b : Blk) (p : Nat) : Blk := ({ b with tide := max b.tide (b.serve p).nextBnd } : Blk).refillAll p

section
variable (hnext : (b.serve p).next = some g ∨ ((b.serve p).next = none ∧ (b.serve p).plan = some g ∧ (b.serve p).engine = 1))
  (hreqs : (b.serve p).reqs = []) (hsplits : (g.splits (b.partBays p).length).isEmpty = false)
include hnext
theorem stepBoundary_eq (hwaits : b.serveWaits = false) (hstep : (b.serve p).step = none) (hhalt : (b.serve p).halting = false)
    (hoff : (b.serve p).offNext = false)
    (hsplit : ((b.atBoundary p).swapPlan p).chooseSplit p (((b.atBoundary p).swapPlan p).serve p) g = some k) :
    b.stepBoundary p = ((b.atBoundary p).swapPlan p).openStep p g k := by
  have hruns : ((b.serve p).engine != 1 && (b.serve p).next.isNone) = false := by
    rcases hnext with h | ⟨-, -, h⟩ <;> simp [h]
  have hplan : (((b.atBoundary p).swapPlan p).serve p).plan = some g := by
    obtain ⟨-, -, hserve, -⟩ := swapPlan_swaps (b := b.atBoundary p) hnext
    rw [hserve]
    rfl
  unfold Blk.stepBoundary
  simp only [hwaits, hstep, hhalt, hoff, hruns, Option.isSome_none, Bool.or_self, Bool.false_and, Bool.false_eq_true, if_false]
  simp only [show ({ b with tide := max b.tide (b.serve p).nextBnd } : Blk).refillAll p = b.atBoundary p from rfl, hplan, hsplit]
include hreqs hsplits
theorem stepBoundary_opens (hwaits : b.serveWaits = false) (hstep : (b.serve p).step = none) (hhalt : (b.serve p).halting = false)
    (hoff : (b.serve p).offNext = false) :
    ∃ k ∈ g.splits (b.partBays p).length, b.EngineChange (b.stepBoundary p) ∧ (b.stepBoundary p).tide = max b.tide (b.serve p).nextBnd ∧
      (b.stepBoundary p).serve p = ((b.serve p).swapped g).opened (max b.tide (b.serve p).nextBnd) g (((b.atBoundary p).swapPlan p).emptyStep p g k) ∧
      ∀ r, r ≠ p → (b.stepBoundary p).serve r = b.serve r := by
  have hbound : b.EngineChange (b.atBoundary p) := ⟨rfl⟩
  obtain ⟨hswap, htide, hserve, hothers⟩ := swapPlan_swaps (b := b.atBoundary p) hnext
  have hreqs' : (((b.atBoundary p).swapPlan p).serve p).reqs = [] := by rw [hserve]; exact hreqs
  obtain ⟨k, hk, hsplit⟩ := chooseSplit_mem (b := (b.atBoundary p).swapPlan p) (p := p) (g := g) hreqs'
    (by rw [hswap.partBays, hbound.partBays]; exact List.isEmpty_eq_false_iff.mp hsplits)
  rw [hswap.partBays, hbound.partBays] at hk
  obtain ⟨hopen, hopentide, hopenserve, hopenothers⟩ := openStep_opens (g := g) (k := k) hreqs'
  rw [stepBoundary_eq hnext hwaits hstep hhalt hoff hsplit]
  refine ⟨k, hk, (hbound.trans hswap).trans hopen, hopentide.trans htide, ?_, fun r hr => (hopenothers r hr).trans (hothers r hr)⟩
  rw [hopenserve, hserve, htide]
  rfl
end

/-! ### Both pools start (R329, R330) -/

theorem nodup_poolCoves {l : List Nat} (h : l.Nodup) : (poolCoves l).Nodup := by
  refine List.nodup_flatMap.mpr ⟨fun y _ => List.nodup_range.map fun i j hij => by simpa using hij, h.pairwise_of_forall_ne fun y _ u _ hyu => ?_⟩
  simp only [Function.onFun, List.disjoint_left, List.mem_map, List.mem_range]
  rintro c ⟨i, hi, rfl⟩ ⟨j, hj, hij⟩
  omega
theorem partBays_eq : b.partBays p = poolCoves ((List.range nHeadlands).filter fun h => tbit (b.part p).hlmask h) := by
  unfold Blk.partBays poolCoves
  induction List.range nHeadlands with
  | nil => rfl
  | cons h l ih => rw [List.flatMap_cons, ih, List.filter_cons]; split <;> simp
theorem nodup_partBays : (b.partBays p).Nodup := by
  rw [partBays_eq]
  exact nodup_poolCoves (List.nodup_range.filter _)
theorem nodup_pool {l : List Nat} {prefill : Bool} (h : l.Nodup) : (g.pool l k prefill).Nodup := by
  unfold Plan.pool
  simp only
  split
  · exact h.sublist (List.drop_sublist _ _)
  · exact h.sublist (List.take_sublist _ _)

/-- The Coves of a pool. -/
def Plan.coves (g : Plan) (bays : List Nat) (z : Step) (prefill : Bool) : List Nat := poolCoves (g.pool bays z.split prefill)
/-- A sequencer begun on a step's image. -/
def Plan.begun (g : Plan) (bays : List Nat) (z : Step) (prefill : Bool) (s : Seq) : Seq :=
  s.begin (g.entry prefill) imageMask fun i => g.image z.num z.cls z.split (g.pool bays z.split prefill) (i + 1)

theorem startPool_eq {prefill : Bool} :
    b.startPool p g z prefill = b.seqsSet (fun _ => g.begun (b.partBays p) z prefill) (g.coves (b.partBays p) z prefill) := rfl
/-- Both pools begun, one after the other. -/
def Blk.poolsBegun (b : Blk) (p : Nat) (g : Plan) (z : Step) : Blk :=
  (b.seqsSet (fun _ => g.begun (b.partBays p) z false) (g.coves (b.partBays p) z false)).seqsSet
    (fun _ => g.begun (b.partBays p) z true) (g.coves (b.partBays p) z true)

theorem poolsBegun_eq : { b with coves := (b.poolsBegun p g z).coves } = b.poolsBegun p g z := by
  unfold Blk.poolsBegun
  rw [← seqsSet_eq, ← seqsSet_eq (x := b)]
theorem startPools_eq : (b.startPool p g z false).startPool p g z true = b.poolsBegun p g z := by
  have hbays : (b.startPool p g z false).partBays p = b.partBays p := by rw [startPool_eq, ← seqsSet_eq]; rfl
  rw [startPool_eq, hbays]
  rfl
section
variable {f : Nat → Seq → Seq} {l : List Nat} {d : Nat}
theorem seqsSet_seq_out (h : d ∉ l) : (x.seqsSet f l).seq d = x.seq d := congrArg Cove.seq (seqsSet_cove_out h)
theorem seqsSet_seq_in (h : d ∈ l) (hl : l.Nodup) (hf : f d (x.seq d) ≠ {}) : (x.seqsSet f l).seq d = f d (x.seq d) :=
  congrArg Cove.seq (seqsSet_cove_in h hl hf)
end
/-- A Cove of one pool begins on that pool's image. -/
theorem poolsBegun_seq {c : Nat} {prefill : Bool} (hin : c ∈ g.coves (b.partBays p) z prefill) (hout : c ∉ g.coves (b.partBays p) z !prefill) :
    (b.poolsBegun p g z).seq c = g.begun (b.partBays p) z prefill (b.seq c) := by
  have hnodup : ∀ prefill, (g.coves (b.partBays p) z prefill).Nodup := fun _ => nodup_poolCoves (nodup_pool nodup_partBays)
  have hbegun : ∀ prefill s, g.begun (b.partBays p) z prefill s ≠ {} := fun _ _ => Seq.ne_idle_of_st Nat.one_ne_zero
  unfold Blk.poolsBegun
  cases prefill with
  | false => rw [seqsSet_seq_out (by simpa using hout), seqsSet_seq_in hin (hnodup false) (hbegun _ _)]
  | true => rw [seqsSet_seq_in hin (hnodup true) (hbegun _ _), seqsSet_seq_out (by simpa using hout)]

/-- A register keeps the low 64 bits of what an image names. -/
theorem imaged_mod {s : Seq} {mask n : Nat} {image : Nat → Nat} : s.imaged mask image n = s.imaged mask (fun i => image i % 2 ^ 64) n := by
  have hset : ∀ (s : Seq) (i v : Nat), s.setSreg i (v % 2 ^ 64) = s.setSreg i v := fun s i v => by unfold Seq.setSreg; rw [Nat.mod_mod]
  unfold Seq.imaged
  simp only [hset]
/-- Register 2 begins with the step's number (R330). -/
theorem begun_number {s : Seq} {l : List Nat} {prefill : Bool} (h : swf (fun _ => 0) s.sregs = true) :
    sreg (g.begun l z prefill s).sregs 2 = z.num % 2 ^ 64 := by
  unfold Plan.begun
  rw [begin_sregs, imaged_mod, imaged_reads h (fun i => Nat.mod_lt _ (Nat.two_pow_pos 64)) (by decide), if_pos (by decide)]
  rfl

theorem wakeParts_awake {k : Option Nat} (h : b.slackAt k = false) : b.wakeParts [k] = b := by
  unfold Blk.wakeParts
  rw [List.filter_cons, h]
  rfl
theorem stepStart_eq (hplan : (b.serve p).plan = some g) (hstep : (b.serve p).step = some z) (hstart : z.started = false)
    (hidle : (b.partCoves p).any b.runs = false) (hawake : (b.part p).slack = false) :
    b.stepStart p = (({ b with tide := max b.tide z.start } : Blk).poolsBegun p g z).setServe p { b.serve p with step := some { z with started := true } } := by
  unfold Blk.stepStart
  simp only [hplan, hstep, hstart, hidle, Bool.or_self, Bool.false_eq_true, if_false]
  rw [wakeParts_awake (b := { b with tide := max b.tide z.start }) (k := some p) hawake, startPools_eq]

/-! ### A step is sealed (R334, R335) -/

/-- The engine after the seal of a step. -/
def Serve.sealed (s : Serve) : Serve := { s with step := none, stalled := false, halting := false }

theorem endCancelled_none (hreqs : (b.serve p).reqs = []) : b.endCancelled p = b := by
  unfold Blk.endCancelled
  rw [hreqs]
  rfl

section
variable (hplan : (b.serve p).plan = some g) (hents : z.ents = []) (hreqs : (b.serve p).reqs = []) (hhalt : (b.serve p).halting = false)
include hplan hents hreqs hhalt
/-- The seal of a step without entries closes its ledger entry and the step. -/
theorem sealStep_empty : b.sealStep p g z = (b.putLedger p g z 2 (ledgerRest z b.tide 0 0 0 0 0)).setServe p (b.serve p).sealed := by
  have hserve := serve_setServe_new (b.putLedger p g z 2 (ledgerRest z b.tide 0 0 0 0 0)) p (b.serve p).sealed (Serve.ne_idle_of_plan (g := g) hplan)
  unfold Blk.sealStep
  simp only [hents, hhalt, List.foldl_nil, List.filter_nil, List.length_nil, Bool.false_eq_true, if_false, show outCtxs [] = [] from rfl]
  exact endCancelled_none ((congrArg Serve.reqs hserve).trans hreqs)
theorem poolsDone_empty (hstep : (b.serve p).step = some z) (hstart : z.started = true) (hwaits : b.serveWaits = false)
    (hruns : (poolCoves (b.partBays p)).any b.runs = false)
    (hexits : (poolCoves (b.partBays p)).all (fun c => (b.seq c).exit.state == 3) = true) :
    b.poolsDone p = (b.putLedger p g z 2 (ledgerRest z b.tide 0 0 0 0 0)).setServe p (b.serve p).sealed := by
  have hopen : b.host.intakeStopped = false := by
    simp only [Blk.serveWaits, Bool.or_eq_false_iff] at hwaits
    exact hwaits.1.1.1
  have hok : b.sealOk p (b.serve p) g z = true := by simp only [Blk.sealOk, hexits, hents, List.all_nil, Bool.and_self]
  rw [← sealStep_empty hplan hents hreqs hhalt]
  unfold Blk.poolsDone
  simp only [hstep, hplan, hstart, hruns, hopen, hwaits, hok, Bool.not_true, Bool.or_self, Bool.false_eq_true, if_false, if_true]
end

/-! ### What of O36 holds -/

section
variable {s : State}

/-- The first clause of O36, of a plan that is built. -/
theorem does_planBuilt {g0 g : Plan} (hp : p < 16) (hrests : s.blk.rests = true) (hbuild : (s.blk.serve p).building = some g0)
    (hue : s.blk.rangeUe g0.addr 0x140 = none)
    (hplan : s.blk.buildPlan p { g0 with raw := s.blk.hbmRead p g0.addr 0x140 } (s.blk.serve p).bounded = .ok g) :
    s.does (.planBuildDone p) fun t =>
      (t.serve p).next = some g ∧ (t.serve p).building = none ∧ { s.blk.putTs p g with serves := t.serves } = t := by
  obtain ⟨hchange, hserve, -⟩ := setServe_engine (p := p) (s := { s.blk.serve p with building := none, next := some g })
    (putTs_hbmChange (g := g)).engine putTs_hbmChange.serves (Serve.ne_idle_of_next rfl)
  have he := planDone_built hbuild hue hplan
  refine does_of_rests (f := fun b => b.planDone p) rfl (decide_eq_true hp) ?_ ?_
  · rw [he, hchange.rests, hrests]
  · rw [he]
    exact ⟨by rw [hserve], by rw [hserve], rfl⟩
/-- The first clause of O36, of a plan that is refused, where the map of engines is in canonical form. -/
theorem does_planRefused {g0 : Plan} {e : Nat × Nat} (hp : p < 16) (hrests : s.blk.rests = true) (hbuild : (s.blk.serve p).building = some g0)
    (hue : s.blk.rangeUe g0.addr 0x140 = none)
    (hplan : s.blk.buildPlan p { g0 with raw := s.blk.hbmRead p g0.addr 0x140 } (s.blk.serve p).bounded = .error e)
    (hcanon : swf (fun _ => ({} : Serve)) s.blk.serves = true) :
    s.does (.planBuildDone p) fun t => (t.serve p).next = (s.blk.serve p).next ∧ (t.serve p).building = none ∧
      { s.blk.putPstatus p g0.addr 2 e.1 e.2 with serves := t.serves } = t := by
  have hwrite : s.blk.HbmChange (s.blk.putPstatus p g0.addr 2 e.1 e.2) := putPstatus_hbmChange
  have hchange : s.blk.EngineChange ((s.blk.putPstatus p g0.addr 2 e.1 e.2).setServe p { s.blk.serve p with building := none }) :=
    hwrite.engine.trans ⟨rfl⟩
  have hserve := serve_setServe (b := s.blk.putPstatus p g0.addr 2 e.1 e.2) p { s.blk.serve p with building := none } (by rw [hwrite.serves, hcanon])
  have he := planDone_refused hbuild hue hplan
  refine does_of_rests (f := fun b => b.planDone p) rfl (decide_eq_true hp) ?_ ?_
  · rw [he, hchange.rests, hrests]
  · rw [he]
    exact ⟨by rw [hserve], by rw [hserve], rfl⟩
/-- The second clause of O36: a boundary brings a plan into force and opens a step. -/
theorem does_stepBoundary (hp : p < 16) (hrests : s.blk.rests = true) (hwaits : s.blk.serveWaits = false) (hstep : (s.blk.serve p).step = none)
    (hhalt : (s.blk.serve p).halting = false) (hoff : (s.blk.serve p).offNext = false) (hreqs : (s.blk.serve p).reqs = [])
    (hnext : (s.blk.serve p).next = some g ∨ ((s.blk.serve p).next = none ∧ (s.blk.serve p).plan = some g ∧ (s.blk.serve p).engine = 1))
    (hsplits : (g.splits (s.blk.partBays p).length).isEmpty = false) :
    s.does (.stepBoundary p) fun t => t.tide = max s.blk.tide (s.blk.serve p).nextBnd ∧ (t.serve p).plan = some g ∧ (t.serve p).next = none ∧
      (t.serve p).engine = 1 ∧ ∃ z, (t.serve p).step = some z ∧ z.started = false ∧ z.ents = [] ∧ z.cls = g.cls 0 ∧
        z.split ∈ g.splits (s.blk.partBays p).length ∧ t.tide ≤ z.start ∧ z.start ≤ t.tide + 5000 ∧ (∀ r, r ≠ p → t.serve r = s.blk.serve r) ∧
        s.blk.covesBut t [] ∧
        z.num = if (s.blk.serve p).next.isSome && !(s.blk.serve p).ran then g.at 8 4 else ((s.blk.serve p).lastStep + 1) % 2 ^ 32 := by
  obtain ⟨k, hk, hchange, htide, hserve, hothers⟩ := stepBoundary_opens hnext hreqs hsplits hwaits hstep hhalt hoff
  obtain ⟨-, hnow, hswap, -⟩ := swapPlan_swaps (b := s.blk.atBoundary p) hnext
  have hnum := Serve.swapped_num (g := g) (s.blk.serve p)
  refine does_of_rests (f := fun b => b.stepBoundary p) rfl (decide_eq_true hp) (by rw [hchange.rests, hrests]) ?_
  refine ⟨htide, by rw [hserve]; rfl, by rw [hserve]; rfl, by rw [hserve]; rfl, _, by rw [hserve]; rfl, rfl, rfl, rfl, hk, ?_, ?_, hothers,
    hchange.covesBut, ?_⟩
  · rw [htide]
    show _ ≤ ((s.blk.atBoundary p).swapPlan p).tide + _
    rw [hnow]
    exact Nat.le_add_right _ _
  · rw [htide]
    show ((s.blk.atBoundary p).swapPlan p).tide + _ ≤ _
    rw [hnow]
    exact Nat.add_le_add_left (Nat.le_of_lt_succ (Nat.mod_lt _ (by decide))) _
  · rw [← hnum]
    show (((((s.blk.atBoundary p).swapPlan p).serve p).lastStep + 1) % 2 ^ 32) = _
    rw [hswap]
    rfl
/-- The third clause of O36, where the registers of the Coves are in canonical form: both pools start. -/
theorem does_stepStart (hp : p < 16) (hplan : (s.blk.serve p).plan = some g) (hstep : (s.blk.serve p).step = some z) (hstart : z.started = false)
    (hidle : (s.blk.partCoves p).any s.blk.runs = false) (hawake : (s.blk.part p).slack = false) (hcanon : s.blk.canon) :
    s.does (.stepStartInstant p) fun t => t.tide = max s.blk.tide z.start ∧ (t.serve p).step = some { z with started := true } ∧
      (∀ c prefill, c ∈ poolCoves (g.pool (s.blk.partBays p) z.split prefill) → c ∉ poolCoves (g.pool (s.blk.partBays p) z.split (!prefill)) →
        (t.seq c).st = 1 ∧ (t.seq c).pc = g.entry prefill ∧ sreg (t.seq c).sregs 2 = z.num % 2 ^ 64) ∧
      { s.blk with tide := t.tide, coves := t.coves, serves := t.serves } = t := by
  refine does_of_updIf rfl (decide_eq_true hp) ?_
  rw [stepStart_eq hplan hstep hstart hidle hawake]
  have hframe := poolsBegun_eq (b := { s.blk with tide := max s.blk.tide z.start }) (p := p) (g := g) (z := z)
  refine ⟨by rw [← hframe]; rfl, ?_, fun c prefill hin hout => ?_, by rw [← hframe]; rfl⟩
  · rw [serve_setServe_new _ p { s.blk.serve p with step := some { z with started := true } } (Serve.ne_idle_of_step rfl)]
  · have hseq := poolsBegun_seq (b := { s.blk with tide := max s.blk.tide z.start }) (p := p) (g := g) (z := z) hin hout
    have hset : ∀ (b : Blk) (v : Serve), (b.setServe p v).seq c = b.seq c := fun _ _ => rfl
    rw [hset, hseq]
    exact ⟨rfl, rfl, begun_number (canon_cove hcanon c).2⟩
/-- The fourth clause of O36: a step without entries is sealed, and the engine goes on. -/
theorem does_stepSealed (hp : p < 16) (hrests : s.blk.rests = true) (hwaits : s.blk.serveWaits = false) (hplan : (s.blk.serve p).plan = some g)
    (hstep : (s.blk.serve p).step = some z) (hstart : z.started = true) (hents : z.ents = []) (hreqs : (s.blk.serve p).reqs = [])
    (hhalt : (s.blk.serve p).halting = false) (hengine : (s.blk.serve p).engine = 1) (hruns : (poolCoves (s.blk.partBays p)).any s.blk.runs = false)
    (hexits : (poolCoves (s.blk.partBays p)).all (fun c => (s.blk.seq c).exit.state == 3) = true) :
    s.does (.stepPoolsDone p) fun t => (t.serve p).step = none ∧ (t.serve p).engine = 1 ∧
      t.mem = (s.blk.putLedger p g z 2 (ledgerRest z s.blk.tide 0 0 0 0 0)).mem ∧ s.blk.covesBut t [] ∧ t.parts = s.blk.parts ∧
      t.accounts = s.blk.accounts := by
  have hwrite : s.blk.HbmChange (s.blk.putLedger p g z 2 (ledgerRest z s.blk.tide 0 0 0 0 0)) := putLedger_hbmChange
  obtain ⟨hchange, hserve, -⟩ := setServe_engine (p := p) (s := (s.blk.serve p).sealed) hwrite.engine hwrite.serves
    (Serve.ne_idle_of_plan (g := g) hplan)
  have he := poolsDone_empty hplan hents hreqs hhalt hstep hstart hwaits hruns hexits
  refine does_of_rests (f := fun b => b.poolsDone p) rfl (decide_eq_true hp) ?_ ?_
  · rw [he, hchange.rests, hrests]
  · rw [he]
    exact ⟨by rw [hserve]; rfl, by rw [hserve]; exact hengine, rfl, hchange.covesBut, hchange.parts, by rw [← hwrite.frame]; rfl⟩
end

/-! ### O36 -/

/-- A machine whose map of serving engines lists partition 0 twice, each time with a plan to build from the zero bytes at address 0 of HBM. -/
def engineTwice : State where
  blk := { State.reset.blk with serves := [(0, { building := some { addr := 0 } }), (0, { building := some { addr := 0 } })] }
  pending := []

/-- The plan is refused, the first entry is idle and no longer listed, and the engine reads as the other one, which still builds. -/
theorem engineTwice_builds : ((engineTwice.blk.planDone 0).pump.serve 0).building = some { addr := 0 } := by decide +kernel

/-- Refutes O36: the end of a build leaves nothing being built, but the clause does not ask for a map of serving engines in canonical form, and of an
engine listed twice a refused build drops a first entry that is idle but for it; in canonical form it holds (does_planBuilt, does_planRefused). -/
theorem not_servingSteps : ¬ Obligations.ServingSteps := by
  unfold Obligations.ServingSteps
  rintro ⟨hbuild, -⟩
  have hrow : ∀ s : State, exec (.planBuildDone 0) s = s.updIf true fun b => (b.planDone 0).pump := fun _ => rfl
  have hends := updated_of_does (hrow _) (hbuild engineTwice 0 { addr := 0 } (by decide) rfl rfl rfl)
  have hnone : ((engineTwice.blk.planDone 0).pump.serve 0).building = none := by
    revert hends
    cases engineTwice.blk.buildPlan 0 { addr := 0, raw := engineTwice.blk.hbmRead 0 0 0x140 } (engineTwice.blk.serve 0).bounded with
    | error e => exact fun h => h.2.1
    | ok q => exact fun h => h.2.1
  rw [engineTwice_builds] at hnone
  exact absurd hnone (by decide)

end Sys2Proof.Machine
end

section
/-! SUPPORT. What a memory controller and the bring-up of stacks and Headlands do (R352 to R359, R455), with the records and events they leave. -/
namespace Sys2Proof.Machine

variable {b x : Blk} {k : Nat}

/-! ### Records and events -/

theorem errorEvent_sameButHost (r : ErrRec) : x.SameButHost (x.errorEvent r) := by
  unfold Blk.errorEvent
  split <;> exact eventTo_sameButHost _ _ _
/-- The machine with a new record in its log and counted, before the host is told of it (R497, R503). -/
def Blk.withRecord (b : Blk) (r : ErrRec) : Blk :=
  let recs := b.err.recs ++ [{ r with index := b.err.next % 2 ^ 32, first := b.tide, last := b.tide }]
  ({ b with err := { b.err with recs := recs.drop (recs.length - 4096), next := (b.err.next + 1) % 2 ^ 32 } }).count (0xE10 + 8 * (r.cls % 4)) 1
theorem withRecord_cfgGet {r : ErrRec} {q : Nat} (h : q ≠ 0xE10 + 8 * (r.cls % 4)) : (x.withRecord r).cfgGet q = x.cfgGet q := by
  unfold Blk.withRecord
  refine (cfgGet_count_ne ?_).trans ?_
  · exact h
  · unfold Blk.cfgGet
    rfl
/-- A record that merges with no other one stands in the log; its events change the host side. -/
theorem addError_new {r : ErrRec} (h : r.cls ≠ 0 ∨ x.err.recs = []) : (x.withRecord r).SameButHost (x.addError r) := by
  have hnone : x.addError r = x.newError r := by
    unfold Blk.addError
    rcases h with h | h
    · rw [List.find?_eq_none.mpr (by simp [h])]
    · rw [h]; rfl
  rw [hnone]
  unfold Blk.newError
  simp only
  split
  · exact (errorEvent_sameButHost _).trans (eventTo_sameButHost _ _ _)
  · exact errorEvent_sameButHost _
/-- An event to context 0, which is open, leaves on its home port when that can take it (R47, R49). -/
theorem event0_leftOn {op : Nat} {pay : List Byte} (hst : (x.ctx 0).st = 1)
    (hs : x.canSend (eventFrame op 0 x.host.evSeq x.tide pay) = true) :
    x.leftOn (x.event0 op pay) (x.homeOf 0) (eventFrame op 0 x.host.evSeq x.tide pay) := by
  have he : x.event0 op pay = ({ x with host := { x.host with evSeq := (x.host.evSeq + 1) % 2 ^ 32 } } : Blk).sendOut
      (eventFrame op 0 x.host.evSeq x.tide pay) x.host.evSeq := by
    simp [Blk.event0, Blk.eventTo, hst, eventFrame]
  rw [he, sendOut_canSend (x := { x with host := { x.host with evSeq := (x.host.evSeq + 1) % 2 ^ 32 } }) _ hs]
  exact congrArg Port.txBuf (port_setPort _ _ _)
theorem event0_rests {op : Nat} {pay : List Byte} (h : x.rests = true) : (x.event0 op pay).rests = true := by
  have hcmds : (x.event0 op pay).host.cmds = x.host.cmds := (eventTo_sends _ _ _).cmds
  have hstill : (x.event0 op pay).still = x.still := (eventTo_sameButHost _ _ _).still
  unfold Blk.rests at h ⊢
  rw [hcmds, hstill, h]

/-! ### Accesses of HBM (R352, R354, R355) -/

theorem stackOf_congr (h : x.cfgGet 0x400 = b.cfgGet 0x400) : x.stackOf = b.stackOf := by
  funext a; unfold Blk.stackOf; rw [h]
theorem pcBankRow_congr (h : x.cfgGet 0x400 = b.cfgGet 0x400) : x.pcBankRow = b.pcBankRow := by
  funext a; unfold Blk.pcBankRow; rw [h]
theorem stack_congr (h : x.hbmStacks = b.hbmStacks) (k : Nat) : x.stack k = b.stack k := by unfold Blk.stack; rw [h]
theorem hl_congr (h : x.hls = b.hls) (k : Nat) : x.hl k = b.hl k := by unfold Blk.hl; rw [h]
/-- Whether a stack holds an access depends on the stacks and on the interleave mode. -/
theorem hbmHeld_congr (hs : x.hbmStacks = b.hbmStacks) (hm : x.cfgGet 0x400 = b.cfgGet 0x400) : x.hbmHeld = b.hbmHeld := by
  funext a n
  unfold Blk.hbmHeld
  simp only [stackOf_congr hm, pcBankRow_congr hm, stack_congr hs, hs]
theorem hbmStopped_congr (hs : x.hbmStacks = b.hbmStacks) (hp : x.parts = b.parts) (hm : x.cfgGet 0x400 = b.cfgGet 0x400) :
    x.hbmStopped = b.hbmStopped := by
  funext a n
  unfold Blk.hbmStopped Blk.stacksOf Blk.part
  simp only [stackOf_congr hm, stack_congr hs, hp]

/-- An access that nothing stops or holds, of sound units, writes what it carries or, as a read, changes nothing. -/
theorem hbmServe_sound {a : HbmAccess} (hc : a.corrected = []) (hu : a.uncorrectable = []) (hue : b.ueUnits = [])
    (hstop : b.hbmStopped a (if a.write then a.data.length else a.len) = false)
    (hheld : b.hbmHeld a.addr (if a.write then a.data.length else a.len) = none) :
    b.hbmServe a = if a.write then b.hbmWrite a.part a.addr a.data else b := by
  unfold Blk.hbmServe
  simp only [hstop, hheld, hc, hu, hue, accUnits]
  have hnil : ({ b with ueUnits := [] } : Blk) = b := by rw [← hue]
  simp [hnil]

/-! ### A parity error that its first reissue mends (R359) -/

/-- The record of such an error. -/
def Blk.parityRec (b : Blk) (a : HbmAccess) : ErrRec :=
  { kind := 4, code := 0x12, path := b.rowPath a.addr, addr := a.addr, part := if a.part < nParts then a.part else 0xFF, detail := 1 }
theorem hbmParity_mended (k : Nat) (a : HbmAccess) :
    b.hbmParity k a 0 = ((b.count (cfgMC k + 0x18) 1).addError (b.parityRec a)).hbmServe a := rfl
/-- The machine once such an error is counted and recorded. -/
theorem parity_recorded {r : ErrRec} (hrecs : b.err.recs = []) (hc : swf cfgReset b.cfg = true) (hcls : r.cls = 0) :
    let t := (b.count (cfgMC k + 0x18) 1).addError r
    t.cfgGet (cfgMC k + 0x18) = (b.cfgGet (cfgMC k + 0x18) + 1) % 2 ^ 64 ∧ t.cfgGet 0x400 = b.cfgGet 0x400 ∧ b.SameButLog t ∧
    t.err.next = (b.err.next + 1) % 2 ^ 32 ∧
    t.err.recs = [{ r with index := b.err.next % 2 ^ 32, first := b.tide, last := b.tide }] := by
  have hrec : ((b.count (cfgMC k + 0x18) 1).withRecord r).SameButHost ((b.count (cfgMC k + 0x18) 1).addError r) := addError_new (.inr hrecs)
  generalize (b.count (cfgMC k + 0x18) 1).addError r = t at hrec
  have hcfg : ∀ q, q ≠ 0xE10 → t.cfgGet q = (b.count (cfgMC k + 0x18) 1).cfgGet q := fun q hq => by
    rw [← hrec.eq]
    rw [cfgGet_congr (x := (b.count (cfgMC k + 0x18) 1).withRecord r) (by rw [← hrec.eq])]
    exact withRecord_cfgGet (by rw [hcls]; exact hq)
  refine ⟨?_, ?_, ?_, ?_, ?_⟩
  · rw [hcfg _ (by unfold cfgMC; omega)]
    exact cfgGet_cfgSet _ _ _ hc
  · rw [hcfg _ (by decide), cfgGet_count_ne (by unfold cfgMC; omega)]
  · exact ⟨by rw [← hrec.eq]; rfl⟩
  · rw [← hrec.eq]; rfl
  · rw [← hrec.eq]
    simp [Blk.withRecord, Blk.count, hrecs]

/-! ### Training and self-test end (R354, R455) -/

/-- A stack in service whose training has ended without a failed lane. -/
def Stack.trained (v : Stack) : Stack := { v with ready := 1, training := false, retrain := false, busyCmd := none }
/-- A stack trained for the first time, with no lane failed, is ready and says so. -/
theorem stackTrained_ready (ht : (b.stack k).training = true) (hr : (b.stack k).retrain = false) :
    b.stackTrained k false [] = (b.setStack k (b.stack k).trained).event0 evREADY (readyBytes 2 k 0) := by
  unfold Blk.stackTrained
  simp [ht, hr, Blk.readyEvent, Stack.trained]
/-- A Headland whose self-test finds nothing is ready and says so. -/
theorem selftestDone_ready {h : Nat} (hsvc : b.dev.svc = true) (hr : (b.hl h).ready = 0) :
    b.selftestDone h [] false = (b.setHl h { b.hl h with ready := 1 }).event0 evREADY (readyBytes 4 h 0) := by
  unfold Blk.selftestDone
  simp [hsvc, hr, Blk.readyEvent]

/-! ### O32 -/

/-- The first two clauses of O32: accesses of sound units, and a parity error that the first reissue mends. -/
theorem does_hbmAccess {s : State} {a : HbmAccess} (hfits : accFits a = true) (hc : a.corrected = []) (hu : a.uncorrectable = [])
    (hue : s.blk.ueUnits = []) (hstop : s.blk.hbmStopped a (if a.write then a.data.length else a.len) = false)
    (hheld : s.blk.hbmHeld a.addr (if a.write then a.data.length else a.len) = none) :
    s.does (.hbmAccess a) fun t => t = if a.write then s.blk.hbmWrite a.part a.addr a.data else s.blk :=
  does_of_updIf rfl hfits (hbmServe_sound hc hu hue hstop hheld)
theorem does_hbmParityError {s : State} {a : HbmAccess} (hk : k < nStacks) (hfits : accFits a = true) (hw : a.write = false)
    (hc : a.corrected = []) (hu : a.uncorrectable = []) (hue : s.blk.ueUnits = []) (hstop : s.blk.hbmStopped a a.len = false)
    (hheld : s.blk.hbmHeld a.addr a.len = none) (hrecs : s.blk.err.recs = []) (hcanon : s.blk.canon) :
    s.does (.hbmParityError k a 0) fun t => t.cfgGet (cfgMC k + 0x18) = (s.blk.cfgGet (cfgMC k + 0x18) + 1) % 2 ^ 64 ∧
      { s.blk with cfg := t.cfg, host := t.host, err := t.err } = t ∧ t.err.next = (s.blk.err.next + 1) % 2 ^ 32 ∧
      t.err.recs.map (fun r => (r.cls, r.kind, r.code, r.addr, r.detail)) = [(0, 4, 0x12, a.addr, 1)] := by
  refine does_of_updIf rfl (by simp [hk, hfits]) ?_
  rw [hbmParity_mended]
  obtain ⟨hcount, hmode, hlog, hnext, hrec⟩ := parity_recorded (k := k) (r := s.blk.parityRec a) hrecs hcanon.2.1 rfl
  generalize (s.blk.count (cfgMC k + 0x18) 1).addError (s.blk.parityRec a) = t at hcount hmode hlog hnext hrec
  have hstacks : t.hbmStacks = s.blk.hbmStacks := by rw [← hlog.eq]
  have hparts : t.parts = s.blk.parts := by rw [← hlog.eq]
  have hserved : t.hbmServe a = t := by
    rw [hbmServe_sound hc hu (by rw [← hlog.eq]; exact hue)] <;> simp only [hw, Bool.false_eq_true, if_false]
    · rw [hbmStopped_congr hstacks hparts hmode, hstop]
    · rw [hbmHeld_congr hstacks hmode, hheld]
  rw [hserved]
  exact ⟨hcount, hlog.eq, hnext, by rw [hrec]; rfl⟩

/-- A unit set, and then an event to context 0 that says so. -/
theorem does_readyEvent {s : State} {i : Instr} {ok : Bool} {f : Blk → Blk} {kind idx : Nat} (he : exec i s = s.updIf ok fun b => (f b).pump)
    (hok : ok = true) (hf : f s.blk = x.event0 evREADY (readyBytes kind idx 0)) (hrests : s.blk.rests = true) (hhost : x.host = s.blk.host)
    (htide : x.tide = s.blk.tide) (hstill : x.still = s.blk.still) :
    s.does i fun t => x.SameButHost t ∧ (s.blk.canSend (eventFrame evREADY 0 s.blk.host.evSeq s.blk.tide (readyBytes kind idx 0)) = true →
      (s.blk.ctx 0).st = 1 → s.blk.leftOn t (s.blk.homeOf 0) (eventFrame evREADY 0 s.blk.host.evSeq s.blk.tide (readyBytes kind idx 0))) := by
  have hx : x.rests = true := by
    unfold Blk.rests at hrests ⊢
    rw [hhost, hstill, hrests]
  refine does_of_rests he hok (by rw [hf]; exact event0_rests hx) ?_
  rw [hf]
  refine ⟨eventTo_sameButHost _ _ _, fun hs hst => ?_⟩
  have hctx : ∀ n, x.ctx n = s.blk.ctx n := fun n => by unfold Blk.ctx; rw [hhost]
  have hport : ∀ p, x.port p = s.blk.port p := fun p => by unfold Blk.port; rw [hhost]
  have hhome : ∀ n, x.homeOf n = s.blk.homeOf n := fun n => by unfold Blk.homeOf; rw [hctx, hhost]
  have := event0_leftOn (x := x) (op := evREADY) (pay := readyBytes kind idx 0) (by rw [hctx, hst])
    (by unfold Blk.canSend at hs ⊢; rw [hhome, hport, hctx, hhost, htide]; exact hs)
  rwa [Blk.leftOn, hhome, hport, hhost, htide] at this

/-- Settles O32: an access of sound units is the write itself, a parity error is one count and one record before the same access, and each of the
other events sets one unit and, for training and self-test, sends one READY. -/
theorem hbmAndBootEvents : Obligations.HbmAndBootEvents := by
  unfold Obligations.HbmAndBootEvents
  refine ⟨fun s a hfits hc hu hue hstop hheld => does_hbmAccess hfits hc hu hue hstop hheld,
    fun s k a hk hfits hw hc hu hue hstop hheld hrecs hcanon => does_hbmParityError hk hfits hw hc hu hue hstop hheld hrecs hcanon, ?_, ?_, ?_⟩
  · intro s k bank n hk hbank hwf
    have hset : ∀ v, (s.blk.setStack k v).stack k = v ∧ s.blk.stacksBut (s.blk.setStack k v) [k] :=
      fun v => ⟨stack_setStack _ _ _ hwf, fun d hd => stack_setStack_ne _ _ (by simpa using hd)⟩
    exact ⟨does_of_updIf rfl (decide_eq_true hk) ⟨(hset _).1, (hset _).2, rfl⟩,
      does_of_updIf rfl (by simp [hk, hbank]) ⟨(hset _).1, (hset _).2, rfl⟩, does_of_updIf rfl (by simp [hk, hbank]) rfl⟩
  · intro s k hk hrests htrain hretrain
    obtain ⟨t, ht, hsame, hleft⟩ := does_readyEvent (x := s.blk.setStack k (s.blk.stack k).trained) (i := .hbmStackTrained k false []) rfl
      (decide_eq_true hk) (stackTrained_ready htrain hretrain) hrests rfl rfl rfl
    have hstack := stack_congr (x := t) (b := s.blk.setStack k (s.blk.stack k).trained) (by rw [← hsame.eq])
    refine ⟨t, ht, ?_, hleft, fun d hd => ?_, by rw [← hsame.eq]; rfl⟩
    · rw [hstack]
      exact stack_setStack_new _ _ _ fun e => absurd (congrArg Stack.ready e) (by decide : ¬ (1 : Nat) = 0)
    · rw [hstack, stack_setStack_ne _ _ (by simpa using hd)]
  · intro s h hh hrests hsvc hready
    obtain ⟨t, ht, hsame, hleft⟩ := does_readyEvent (x := s.blk.setHl h { s.blk.hl h with ready := 1 }) (i := .headlandSelftestDone h [] false) rfl
      (decide_eq_true hh) (selftestDone_ready hsvc hready) hrests rfl rfl rfl
    have hhl := hl_congr (x := t) (b := s.blk.setHl h { s.blk.hl h with ready := 1 }) (by rw [← hsame.eq])
    have hnew := hl_setHl_new s.blk h { s.blk.hl h with ready := 1 } fun e => absurd (congrArg Headland.ready e) (by decide : ¬ (1 : Nat) = 0)
    refine ⟨t, ht, by rw [hhl, hnew], by rw [hhl, hnew], hleft, fun g hg => ?_, by rw [← hsame.eq]; rfl⟩
    rw [hhl, hl_setHl_ne _ _ hg]

end Sys2Proof.Machine
end

section
/-! SUPPORT. COPY, and transfers of no bytes, from the grant of their queue to the end of their work (R365, R368, R371, R373). -/
namespace Sys2Proof.Machine

variable {b x y t : Blk} {d e : Desc} {p a n u : Nat} {v : List Byte}

/-! ### What HBM reads and writes depend on (R352, R363) -/

/-- Memory, what is known of its units and the keys in force are the same. -/
structure Blk.SameHbm (x y : Blk) : Prop where
  mem : y.mem = x.mem
  keys : y.unitKeys = x.unitKeys
  zeroed : y.zeroed = x.zeroed
  units : y.ueUnits = x.ueUnits
  parts : y.parts = x.parts

theorem hbmRead_sameHbm (h : x.SameHbm y) : y.hbmRead p a n = x.hbmRead p a n := by
  induction n generalizing a with
  | zero => rfl
  | succ n ih =>
    rw [Blk.hbmRead, Blk.hbmRead, ih, hbmByte_congr (by rw [h.keys]) h.zeroed h.parts (peek_congr h.mem)]
theorem rekeyUnit_sameHbm (h : x.SameHbm y) : (x.rekeyUnit p u).SameHbm (y.rekeyUnit p u) where
  mem := by simp [Blk.pokeN, h.mem, hbmRead_sameHbm h]
  keys := by simp [h.keys, keyMark_congr h.parts]
  zeroed := by simp [h.zeroed]
  units := by simp [h.units]
  parts := by simp [h.parts]
theorem pokeN_sameHbm (h : x.SameHbm y) : (x.pokeN a v).SameHbm (y.pokeN a v) where
  mem := by simp [h.mem]
  keys := h.keys
  zeroed := h.zeroed
  units := h.units
  parts := h.parts
theorem hbmUnit_sameHbm (h : x.SameHbm y) : (x.hbmUnit p a v u).SameHbm (y.hbmUnit p a v u) := by
  unfold Blk.hbmUnit
  simp only [h.units]
  split
  · exact pokeN_sameHbm ⟨h.mem, by rw [h.keys, keyMark_congr h.parts], h.zeroed, rfl, h.parts⟩
  · split
    · exact h
    · exact pokeN_sameHbm (rekeyUnit_sameHbm h)
/-- What a write to HBM leaves in memory depends on nothing else. -/
theorem hbmWrite_sameHbm (h : x.SameHbm y) : (x.hbmWrite p a v).SameHbm (y.hbmWrite p a v) := by
  unfold Blk.hbmWrite
  induction unitsOf a v.length generalizing x y with
  | nil => exact h
  | cons u l ih => exact ih (hbmUnit_sameHbm h)
theorem hbmUnit_ueUnits (h : b.ueUnits = []) : (b.hbmUnit p a v u).ueUnits = [] := by
  unfold Blk.hbmUnit
  simp only
  split
  · simp [h]
  · split
    · exact h
    · simp [h]
/-- A write makes no unit uncorrectable. -/
theorem hbmWrite_ueUnits (h : b.ueUnits = []) : (b.hbmWrite p a v).ueUnits = [] := by
  unfold Blk.hbmWrite
  induction unitsOf a v.length generalizing b with
  | nil => exact h
  | cons u l ih => exact ih (hbmUnit_ueUnits h)
theorem partialUe_none (h : b.ueUnits = []) : b.partialUe a n = none := by simp [Blk.partialUe, h]
theorem rangeUe_none (h : b.ueUnits = []) : b.rangeUe a n = none := by simp [Blk.rangeUe, h]

/-! ### A Bay with one descriptor -/

/-- A Bay with its only descriptor written. -/
def Bay.holding (v : Bay) (d : Desc) : Bay := { v with descs := [d] }
theorem Bay.holding_ne {w : Bay} : w.holding d ≠ {} := fun h => absurd (congrArg Bay.descs h) (List.cons_ne_nil _ _)
theorem setDesc_only {k : Nat} (h : (b.bay k).descs = [e]) (hs : e.serial = d.serial) : b.setDesc k d = b.setBay k ((b.bay k).holding d) := by
  unfold Blk.setDesc Bay.holding
  simp [h, hs]

/-- Everything but one Bay is the same, and that Bay's only descriptor is d. -/
structure Blk.Holds (b t : Blk) (k : Nat) (d : Desc) : Prop where
  eq : { b with bays := t.bays } = t
  others : b.baysBut t [k]
  descs : (t.bay k).descs = [d]
theorem Blk.Holds.setDesc {k : Nat} (h : b.Holds t k e) (hs : e.serial = d.serial) : b.Holds (t.setDesc k d) k d := by
  rw [setDesc_only h.descs hs]
  refine ⟨by rw [← h.eq]; rfl, fun j hj => ?_, by rw [bay_setBay_new _ _ _ Bay.holding_ne]; rfl⟩
  rw [bay_setBay_ne _ _ (by simpa using hj), h.others j hj]
/-- The machine as a queue of a Bay was granted a place, its descriptor running (R365). -/
def Blk.granted (b : Blk) (k q : Nat) (d : Desc) : Blk :=
  (b.setBay k { b.bay k with lastQueue := q }).setDesc k { d with running := true }
theorem granted_holds {k q : Nat} (h : (b.bay k).descs = [d]) : b.Holds (b.granted k q d) k { d with running := true } := by
  have hne : ({ b.bay k with lastQueue := q } : Bay) ≠ {} := fun he => by
    have := congrArg Bay.descs he
    simp [h] at this
  have hset : b.Holds (b.setBay k { b.bay k with lastQueue := q }) k d :=
    ⟨rfl, fun j hj => bay_setBay_ne _ _ (by simpa using hj), by rw [bay_setBay_new _ _ _ hne]; exact h⟩
  exact hset.setDesc rfl

/-- A descriptor that ended goes no further by itself. -/
theorem descPump_ended {k serial : Nat} (h : (b.descOf k serial).any (fun d => d.out.isSome) = true) : b.descPump k serial = b := by
  have hadv : b.descAdvance k serial = b := by
    unfold Blk.descAdvance
    cases hd : b.descOf k serial with
    | none => rfl
    | some d =>
      rw [hd] at h
      simp only [Option.any_some] at h
      simp [h]
  unfold Blk.descPump
  exact foldl_same _ _ _ fun _ _ => hadv
theorem Blk.Holds.descEnd {k : Nat} {o : DescOut} (h : b.Holds t k e) (hs : e.serial = d.serial) :
    b.Holds ((t.descEnd k d o).descPump k d.serial) k { d with running := true, out := some o } := by
  have hend : b.Holds (t.descEnd k d o) k { d with running := true, out := some o } := h.setDesc hs
  rw [descPump_ended]
  · exact hend
  · simp [Blk.descOf, hend.descs]

/-! ### The grant of a queue (R365, R368) -/

theorem descStart_run {k q : Nat} {is : Desc → Bool} {run : Blk → Desc → Blk} (h : b.startable k q = some d) (his : is d = true) :
    b.descStart k q is run = (run (b.granted k q d) { d with running := true }).descPump k d.serial := by
  unfold Blk.descStart
  simp [h, his, Blk.granted]
/-- The row of a COPY or GATHER by its flags. -/
def Desc.row (d : Desc) (k q : Nat) : Instr :=
  if d.compresses then (if d.builds then .dmaBuild k q else .dmaCompress k q) else if d.expands then .dmaExpand k q
  else if d.op = 1 then .dmaCopy k q else .dmaGather k q
/-- The row of a COPY or GATHER whose turn it is starts it. -/
theorem does_move {s : State} {k q : Nat} (hk : k < nBays) (hq : q < 17) (h : s.blk.startable k q = some d) (hop : d.op = 1 ∨ d.op = 2)
    {P : Blk → Prop} (hP : P (((s.blk.granted k q d).startMove k { d with running := true }).descPump k d.serial)) : s.does (d.row k q) P := by
  have hunit : (decide (k < nBays) && decide (q < 17)) = true := by simp [hk, hq]
  have hkind : (d.op == 1 || d.op == 2) = true := by simpa using hop
  unfold Desc.row
  split
  · next hc =>
    split
    · next hb => exact does_of_updIf rfl hunit (by rw [descStart_run h (by simp [hkind, hc, hb])]; exact hP)
    · next hb => exact does_of_updIf rfl hunit (by rw [descStart_run h (by simp [hkind, hc, hb])]; exact hP)
  · next hc =>
    split
    · next he => exact does_of_updIf rfl hunit (by rw [descStart_run h (by simp [hkind, hc, he])]; exact hP)
    · next he =>
      split
      · next h1 => exact does_of_updIf rfl hunit (by rw [descStart_run h (by simp [h1, hc, he])]; exact hP)
      · next h1 => exact does_of_updIf rfl hunit (by rw [descStart_run h (by simp [hop.resolve_left h1, hc, he])]; exact hP)

/-! ### A transfer of no bytes -/

/-- Setting Bays changes no check of a range, and no byte that HBM reads. -/
theorem access_bays (h : { b with bays := t.bays } = t) : t.globalStatus = b.globalStatus ∧ t.isLocal = b.isLocal ∧ t.spanInput = b.spanInput ∧
    t.hbmHeld = b.hbmHeld ∧ t.progEnd = b.progEnd := by
  rw [← h]
  exact ⟨rfl, rfl, rfl, rfl, rfl⟩
theorem peekN_mem (h : t.mem = b.mem) : t.peekN a n = b.peekN a n := by
  induction n generalizing a with
  | zero => rfl
  | succ n ih => rw [Blk.peekN, Blk.peekN, ih, peek_congr h]
theorem validateFault_bays (h : { b with bays := t.bays } = t) : t.validateFault d = b.validateFault d := by
  obtain ⟨-, hlocal, -, -, hend⟩ := access_bays h
  have hread : ∀ c k, t.tpRead c k 64 = b.tpRead c k 64 := fun c k => peekN_mem (by rw [← h])
  unfold Blk.validateFault Blk.vTarget Blk.spDesc
  simp only [hlocal, hend, hread]
/-- A COPY of no bytes that nothing refuses ends as it starts. -/
theorem startMove_empty {k : Nat} (hfield : d.fieldFault = none) (hmove : d.moveFault = none) (haddr : d.addrFault = none)
    (hvalid : b.validateFault d = none) (hop : d.op = 1) (hlen : d.len = 0) (hbuild : d.compresses = true → d.builds = true) :
    b.startMove k d = b.descEnd k d (0, 0, 0) := by
  have hbound : (d.compresses && !d.builds && d.bound.isEmpty) = false := by
    cases hc : d.compresses with
    | false => rfl
    | true => simp [hbuild hc]
  unfold Blk.startMove
  simp [hfield, hmove, haddr, hvalid, hbound, hop, hlen]

/-! ### A COPY of one local run into HBM -/

/-- A descriptor is a COPY of one run from HBM to HBM of this device, which nothing refuses or holds and no unit fails. -/
structure Blk.PlainCopy (b : Blk) (d : Desc) : Prop where
  field : d.fieldFault = none
  move : d.moveFault = none
  addr : d.addrFault = none
  op : d.op = 1
  flags : d.flags = 0
  n1 : d.n1 = 1
  n2 : d.n2 = 1
  len : 0 < d.len
  src : d.src < 2 ^ 57
  dst : d.dst < 2 ^ 57
  srcOk : b.globalStatus d.part d.src d.len = (0, 0)
  dstOk : b.globalStatus d.part d.dst d.len = (0, 0)
  srcHere : b.isLocal d.src = true
  dstHere : b.isLocal d.dst = true
  free : b.heldBy d = none
  span : b.spanInput d.dst d.len = false
  srcHbm : regionOf (gLocal d.src) = 0
  dstHbm : regionOf (gLocal d.dst) = 0
  sound : b.ueUnits = []
  alone : b.slice.remotes = []
  apart : gLocal d.src + d.len ≤ gLocal d.dst ∨ gLocal d.dst + d.len ≤ gLocal d.src

theorem shiftAddr_zero (h : a < 2 ^ 64) : shiftAddr a 0 = a := by
  unfold shiftAddr
  rw [if_neg (by omega)]
  omega
section
variable (h : b.PlainCopy d)
include h
theorem Blk.PlainCopy.noFlag (i : Nat) : tbit d.flags i = false := by simp [h.flags, tbit]
theorem Blk.PlainCopy.runs : b.moveRuns d = [(d.src, d.dst, d.len)] := by
  have hsrc := h.src
  have hdst := h.dst
  unfold Blk.moveRuns Desc.copyRuns
  rw [if_neg (by rw [h.op]; decide), h.n1, h.n2]
  simp [shiftAddr_zero (show d.src < 2 ^ 64 by omega), shiftAddr_zero (show d.dst < 2 ^ 64 by omega)]
theorem Blk.PlainCopy.running : b.PlainCopy { d with running := true } :=
  ⟨h.field, h.move, h.addr, h.op, h.flags, h.n1, h.n2, h.len, h.src, h.dst, h.srcOk, h.dstOk, h.srcHere, h.dstHere, h.free, h.span, h.srcHbm,
    h.dstHbm, h.sound, h.alone, h.apart⟩
theorem Blk.PlainCopy.bays (ht : { b with bays := t.bays } = t) : t.PlainCopy d := by
  obtain ⟨hstatus, hlocal, hspan, hheld, -⟩ := access_bays ht
  have hruns : t.moveRuns d = b.moveRuns d := by
    unfold Blk.moveRuns
    rw [if_neg (by rw [h.op]; decide), if_neg (by rw [h.op]; decide)]
  have hby : t.heldBy d = b.heldBy d := by
    unfold Blk.heldBy
    rw [hruns, hlocal, hheld]
  exact { h with
    srcOk := by rw [hstatus, h.srcOk]
    dstOk := by rw [hstatus, h.dstOk]
    srcHere := by rw [hlocal, h.srcHere]
    dstHere := by rw [hlocal, h.dstHere]
    free := by rw [hby, h.free]
    span := by rw [hspan, h.span]
    sound := by rw [← ht]; exact h.sound
    alone := by rw [← ht]; exact h.alone }

omit h in
/-- One write to local HBM, of whose units none is uncorrectable, ends its descriptor. -/
theorem descWrites_one {k off : Nat} (hlocal : b.isLocal a = true) (hhbm : regionOf (gLocal a) = 0) (hue : b.partialUe (gLocal a) v.length = none) :
    b.descWrites k d [(a, off, v)] =
      ((b.memWrite d.part (some d.cove) (gLocal a) v).byCount k 0xA20 v.length).descEnd k { d with todo := [] } d.pend := by
  simp [Blk.descWrites, hlocal, hhbm, hue]
/-- Addresses of one device overlap only where their local parts do. -/
theorem Blk.PlainCopy.noOverlap : overlapRuns [(d.src, d.dst, d.len)] = false := by
  have hdev : gDev d.src = gDev d.dst := by
    have hsrc := h.srcHere
    have hdst := h.dstHere
    simp only [Blk.isLocal, beq_iff_eq] at hsrc hdst
    rw [hsrc, hdst]
  have hglobal : ∀ a, a < 2 ^ 57 → a = gDev a * 2 ^ 43 + gLocal a := fun a ha => by
    unfold gDev gLocal fld
    omega
  have hsrc := hglobal _ h.src
  have hdst := hglobal _ h.dst
  have hapart := h.apart
  simp only [overlapRuns, meets, List.any_cons, List.any_nil, Bool.or_false, Bool.and_eq_false_iff, decide_eq_false_iff_not]
  omega

/-- Every check passes, and all of its work is local. -/
theorem startMove_copy (k : Nat) : b.startMove k d = b.moveFinish k d := by
  have hvalid : b.validateFault d = none := by simp [Blk.validateFault, Desc.validates, h.noFlag]
  have hranges : b.moveRanges d = none := by
    have hcopy : d.copyRuns = [(d.src, d.dst, d.len)] := by
      rw [← h.runs, Blk.moveRuns, if_neg (by rw [h.op]; decide)]
    simp [Blk.moveRanges, h.op, Desc.expands, h.noFlag, hcopy, h.srcOk]
  have hdest : b.destRanges d = none := by simp [Blk.destRanges, h.runs, h.span, h.dstOk]
  have hcharge : b.chargeAll d k [(d.dst, d.len)] = some b := by simp [Blk.chargeAll, Blk.inboxBytes, h.dstHbm]
  have hlen : d.len ≠ 0 := Nat.ne_of_gt h.len
  unfold Blk.startMove
  simp [h.field, h.move, h.addr, hvalid, Desc.compresses, Desc.expands, h.noFlag, h.op, h.n1, h.n2, hlen, hranges, h.free, h.runs, runsLen, hdest,
    hcharge, h.srcHere]
/-- The bytes of the source, read in one piece. -/
theorem gather_copy (who : Requester) : b.gather d who (b.srcPieces d (b.moveRuns d)) 0 =
    (b.memRead d.part (gLocal d.src) d.len, none, false, b) := by
  have hpieces : b.srcPieces d (b.moveRuns d) = [(d.src, d.len, false)] := by
    rw [h.runs]
    simp [Blk.srcPieces, Blk.cacheServes, Desc.cached, h.noFlag, h.srcHere]
  rw [hpieces]
  simp [Blk.gather, h.srcHere, rangeUe_none h.sound, h.srcHbm]
/-- The machine with those bytes read and written, and both counted. -/
def Blk.copied (b : Blk) (k : Nat) (d : Desc) : Blk :=
  ((b.byCount k 0xA18 d.len).memWrite d.part (some d.cove) (gLocal d.dst) (b.memRead d.part (gLocal d.src) d.len)).byCount k 0xA20 d.len
theorem moveFinish_copy (k : Nat) : b.moveFinish k d =
    (b.copied k d).descEnd k { d with pend := (0, 0, d.len), todo := [] } (0, 0, d.len) := by
  have hdrop : ∀ who, b.dropRemotes who = b := fun who => by
    have halone := h.alone
    unfold Blk.dropRemotes
    rw [halone]
    show ({ b with slice := { b.slice with remotes := [] } } : Blk) = b
    rw [← halone]
  have hover := h.noOverlap
  have hlen : d.len ≠ 0 := Nat.ne_of_gt h.len
  unfold Blk.moveFinish
  simp only [gather_copy h, hdrop]
  simp only [h.runs, hover, Desc.compresses, h.noFlag]
  simp only [List.foldl_cons, List.foldl_nil, List.drop_zero, List.take_of_length_le, memRead_length, Nat.le_refl, Blk.cutWrite, h.dstHere,
    List.isEmpty_iff_length_eq_zero, hlen, Bool.false_eq_true, if_false, if_true, List.nil_append]
  rw [descWrites_one (by exact h.dstHere) h.dstHbm (partialUe_none (by exact h.sound))]
  simp [Blk.copied, Blk.writesLost, h.dstHbm, runsLen]
end

theorem memWrite_hbm {o : Option Nat} (h : regionOf a = 0) : b.memWrite p o a v = b.hbmWrite p a v := by
  unfold Blk.memWrite
  split
  · next hv => rw [List.isEmpty_iff.mp hv]; rfl
  · rfl
/-- What the copy leaves in memory is what the write of the source's bytes leaves there. -/
theorem copied_mem {k : Nat} (ht : { b with bays := t.bays } = t) (hsrc : regionOf (gLocal d.src) = 0) (hdst : regionOf (gLocal d.dst) = 0) :
    (t.copied k d).mem = (b.memWrite d.part (some d.cove) (gLocal d.dst) (b.memRead d.part (gLocal d.src) d.len)).mem := by
  have hsame : b.SameHbm (t.byCount k 0xA18 d.len) := by
    rw [← ht]
    exact ⟨rfl, rfl, rfl, rfl, rfl⟩
  have hread : t.memRead d.part (gLocal d.src) d.len = b.memRead d.part (gLocal d.src) d.len := by
    unfold Blk.memRead
    rw [if_pos hsrc, if_pos hsrc]
    exact hbmRead_sameHbm (x := b) (y := t) ⟨hsame.mem, hsame.keys, hsame.zeroed, hsame.units, hsame.parts⟩
  unfold Blk.copied
  rw [hread, memWrite_hbm hdst, memWrite_hbm hdst]
  exact (hbmWrite_sameHbm hsame).mem
theorem copied_frame {k : Nat} (hue : b.ueUnits = []) (hdst : regionOf (gLocal d.dst) = 0) :
    { b with cfg := (b.copied k d).cfg, mem := (b.copied k d).mem, unitKeys := (b.copied k d).unitKeys } = b.copied k d := by
  have hunits : (b.copied k d).ueUnits = b.ueUnits := by
    unfold Blk.copied
    rw [memWrite_hbm hdst, hue]
    exact hbmWrite_ueUnits hue
  have hchange : b.HbmChange (b.copied k d) := by
    unfold Blk.copied
    rw [memWrite_hbm hdst]
    exact ((count_hbmChange _).trans hbmWrite_hbmChange).trans (count_hbmChange _)
  have hframe := hchange.frame
  rwa [hunits] at hframe

theorem copied_bay {k : Nat} (hdst : regionOf (gLocal d.dst) = 0) (j : Nat) : (b.copied k d).bay j = b.bay j := by
  have hbays : (b.copied k d).bays = b.bays := by
    unfold Blk.copied
    rw [memWrite_hbm hdst]
    show (Blk.hbmWrite _ _ _ _).bays = _
    rw [← hbmWrite_hbmChange.frame]
    rfl
  unfold Blk.bay
  rw [hbays]
/-- A plain COPY has ended with its length once it has started. -/
theorem startMove_copied {k : Nat} (h : b.PlainCopy d) (hdescs : (b.bay k).descs = [d]) :
    ∃ e, (b.copied k d).Holds ((b.startMove k d).descPump k d.serial) k e ∧ e.out = some (0, 0, d.len) := by
  have hself : (b.copied k d).Holds (b.copied k d) k d := ⟨rfl, fun _ _ => rfl, by rw [copied_bay h.dstHbm, hdescs]⟩
  rw [startMove_copy h, moveFinish_copy h]
  exact ⟨_, hself.descEnd (d := { d with pend := (0, 0, d.len), todo := [] }) rfl, rfl⟩

/-! ### O33 -/

/-- The second clause of O33: a plain COPY of one run. -/
theorem does_plainCopy {s : State} {k q : Nat} (hk : k < nBays) (hq : q < 17) (hstart : s.blk.startable k q = some d) (h : s.blk.PlainCopy d)
    (hdescs : (s.blk.bay k).descs = [d]) :
    s.does (.dmaCopy k q) fun t =>
      t.mem = (s.blk.memWrite d.part (some d.cove) (gLocal d.dst) (s.blk.memRead d.part (gLocal d.src) d.len)).mem ∧
      (t.bay k).descs.map Desc.out = [some (0, 0, d.len)] ∧ s.blk.baysBut t [k] ∧
      { s.blk with cfg := t.cfg, mem := t.mem, unitKeys := t.unitKeys, bays := t.bays } = t := by
  have hrow : d.row k q = .dmaCopy k q := by simp [Desc.row, Desc.compresses, Desc.expands, h.noFlag, h.op]
  have hg := granted_holds (q := q) hdescs
  have hplain := (h.bays hg.eq).running
  have hframe := copied_frame (k := k) hplain.sound hplain.dstHbm
  have hmem := copied_mem (k := k) hg.eq hplain.srcHbm hplain.dstHbm
  rw [← hrow]
  obtain ⟨e, hend, hout⟩ := startMove_copied hplain hg.descs
  refine does_move hk hq hstart (.inl h.op) ?_
  generalize ((s.blk.granted k q d).startMove k { d with running := true }).descPump k d.serial = t at hend
  refine ⟨?_, ?_, fun j hj => ?_, ?_⟩
  · rw [← hend.eq]
    exact hmem
  · rw [hend.descs, List.map_singleton, hout]
    rfl
  · rw [hend.others j hj, copied_bay hplain.dstHbm, hg.others j hj]
  · rw [← hend.eq, ← hframe, ← hg.eq]
/-- The third clause of O33: a COPY of no bytes, coded or not. -/
theorem does_emptyCopy {s : State} {k q : Nat} (hk : k < nBays) (hq : q < 17) (hstart : s.blk.startable k q = some d)
    (hfield : d.fieldFault = none) (hop : d.op = 1) (hmove : d.moveFault = none) (haddr : d.addrFault = none)
    (hvalid : s.blk.validateFault d = none) (hlen : d.len = 0) (hbuild : d.compresses = true → d.builds = true) (hdescs : (s.blk.bay k).descs = [d]) :
    s.does (d.row k q) fun t => (t.bay k).descs.map Desc.out = [some (0, 0, 0)] ∧ s.blk.baysBut t [k] ∧ { s.blk with bays := t.bays } = t := by
  have hg := granted_holds (q := q) hdescs
  refine does_move hk hq hstart (.inl hop) ?_
  rw [startMove_empty (d := { d with running := true }) hfield hmove haddr ((validateFault_bays hg.eq).trans hvalid) hop hlen hbuild]
  have hend := hg.descEnd (d := { d with running := true }) (o := (0, 0, 0)) rfl
  exact ⟨by rw [hend.descs]; rfl, hend.others, hend.eq⟩

/-- Settles O33: the row of a transfer starts the descriptor whose turn it is; a plain COPY and a transfer of no bytes then end in the same step. -/
theorem transfersRun : Obligations.TransfersRun := by
  unfold Obligations.TransfersRun
  intro s k q d hk hq hstart
  refine ⟨?_, ?_, ?_⟩
  · rintro - hop i rfl
    exact does_move hk hq hstart hop rfl
  · intro hfield hop hflags h1 h2 hlen hmove haddr hsrcOk hdstOk hsrcHere hdstHere hsrc hdst hfree hspan hsrcHbm hdstHbm hsound hdescs halone hapart
    exact does_plainCopy hk hq hstart ⟨hfield, hmove, haddr, hop, hflags, h1, h2, hlen, hsrc, hdst, hsrcOk, hdstOk, hsrcHere, hdstHere, hfree, hspan,
      hsrcHbm, hdstHbm, hsound, halone, hapart⟩ hdescs
  · rintro hfield hop hmove haddr hvalid hlen hbuild hdescs - i hi
    have hrow : i = d.row k q := by
      rw [hi, Desc.row, if_pos hop]
      split
      · next hc => rw [if_pos (hbuild hc)]
      · rfl
    rw [hrow]
    exact does_emptyCopy hk hq hstart hfield hop hmove haddr hvalid hlen hbuild hdescs

end Sys2Proof.Machine
end

section
/-! SUPPORT. A command that is accepted with what its rule adds to it, and then waits; one that is refused as it starts; one that ends when
nothing else goes on (R42, R47, R48). -/
namespace Sys2Proof.Machine

variable {b x y z : Blk} {m : Msg} {c : Cmd}

/-! ### Acceptance -/

/-- An accepted command is marked as started and as queued. -/
def Cmd.taken (c : Cmd) : Cmd := { c with started := true, queued := true }

section
variable (hm : c.m = m) (hq : c.queued = false) (hy : y.host = (b.entered m).host)
include hm hq hy
theorem accept_taken_cmds : (y.accept c).host.cmds = [c.taken] := by
  rw [(accept_sends hq).cmds]
  simp [Blk.setCmd, hy, Cmd.taken, Blk.asCmd, Cmd.ctx, Cmd.seq, hm]
theorem accept_taken_hostFor : b.hostFor (y.accept c) m := by
  have hacc := accept_hostBut (x := y) (c := c) (pay := []) hq
  rw [show c.ctx = m.ctx by rw [← hm]; rfl] at hacc
  exact entered_hostBut.trans ((hostBut_of_host hy).trans hacc)
/-- A command that is accepted, whatever its rule then does beside the host side, waits: nothing else happens. -/
theorem command_accepts (h : b.takes m = true) (hr : (b.entered m).runOp (b.asCmd m) = z) (hz : z.host = (y.accept c).host) (hs : z.still = true) :
    b.command m = z ∧ z.awaits m ∧ b.hostFor z m := by
  have hcmds : z.host.cmds = [c.taken] := by rw [hz, accept_taken_cmds hm hq hy]
  refine ⟨command_waits h hr (by simp [Blk.noneReady, hcmds, Cmd.taken]) hs, ?_, Blk.hostBut.trans (accept_taken_hostFor hm hq hy) (hostBut_of_host hz)⟩
  rw [Blk.awaits, hcmds]
  simp [Cmd.taken, hm]
end

/-! ### Refusal -/

/-- A command refused as it starts is answered, and beside the host side nothing changes. -/
theorem command_refuses {st det : Nat} (h : b.takes m = true) (hr : (b.entered m).runOp (b.asCmd m) = x.reject (b.asCmd m) st det) (hst : st ≠ stOK)
    (hd : det < openDet) (hop : m.opcode ≠ 1) (hc : x.host.cmds = [b.asCmd m]) (hctx : (x.ctx m.ctx).st ≠ 0) (hs : x.still = true)
    (hl : x.logged m.ctx m.seq = false) : (b.command m).answered m st det [] ∧ x.SameButHost (b.command m) := by
  obtain ⟨-, -, -, h13, -⟩ := takes_facts h
  have hclose : x.closeDet det = (det, x) := by
    rw [Blk.closeDet, if_neg (Nat.ne_of_lt hd), Nat.mod_eq_of_lt (by exact hd)]
  rw [command_ends h hr hc hs hl]
  refine ⟨finish_answered h13 hl hop hctx hd, ?_⟩
  rw [finish_eq h13 hl, hclose, if_neg (by simp [hst])]
  exact dropCmd_sameButHost.trans (finalReply_sameButHost _ _ _ _)

/-! ### The end of the only command -/

theorem onlyWaits_of_facts (hstill : b.still = true) (hcmds : b.host.cmds = [c]) (hstart : c.started = true) (h13 : c.flag 13 = false)
    (hctx : (b.ctx c.ctx).st = 1) (hspans : b.spans = []) (hop : c.m.opcode ≠ 1) : b.onlyWaits c = true := by
  simp [Blk.onlyWaits, hstill, hcmds, hstart, h13, hctx, hspans, hop]
theorem onlyWaits_congr (hh : x.host = b.host) (hs : x.spans = b.spans) (hstill : x.still = b.still) : x.onlyWaits c = b.onlyWaits c := by
  unfold Blk.onlyWaits Blk.ctx
  rw [hh, hs, hstill]
theorem measureCmd_eq : { x with fw := (x.measureCmd m).fw, parts := (x.measureCmd m).parts } = x.measureCmd m := by
  unfold Blk.measureCmd
  simp only
  split
  · rw [show (x.extendCfg m).parts = x.parts by simp]
    exact extendCfg_eq.symm
  · split
    · rw [show (x.extendPm m.partition m []).fw = x.fw by simp]
      exact (extendPm_eq _ _).symm
    · rfl
/-- The only uncompleted command ends in ST_OK, of whichever kind: it is answered, and nothing else goes on. -/
theorem finish_waits {pay : List Byte} (h : b.onlyWaits c = true) :
    (b.finish c stOK 0 pay).pump.answered c.m stOK 0 pay ∧ (b.finish c stOK 0 pay).pump.host.cmds = [] ∧
    { b with fw := (b.finish c stOK 0 pay).pump.fw, parts := (b.finish c stOK 0 pay).pump.parts, host := (b.finish c stOK 0 pay).pump.host } =
      (b.finish c stOK 0 pay).pump := by
  cases hk : dKind c.m.opcode with
  | true =>
    obtain ⟨hcmds, hans, hsame, -⟩ := finish_only (pay := pay) h hk
    exact ⟨hans, hcmds, by rw [← hsame.eq]⟩
  | false =>
    obtain ⟨hstill, hcmds, -, h13, hctx, hspans, hop⟩ := onlyWaits_facts h
    have hlog : b.logged c.ctx c.seq = false := by simp [Blk.logged, hspans]
    have hnone : (b.finish c stOK 0 pay).host.cmds = [] := by simp [finish_cmds h13 hlog, hcmds]
    have hsame : (b.measureCmd c.m).SameButHost (b.finish c stOK 0 pay) := finish_ok_I_same h13 hlog hk
    have hrests : (b.finish c stOK 0 pay).rests = true := by
      simp [Blk.rests, hnone, hsame.still, still_congr (x := b.measureCmd c.m) (b := b) (by simp) (by simp) (by simp), hstill]
    rw [pump_rests hrests]
    exact ⟨finish_answered h13 hlog hop (by rw [show c.m.ctx = c.ctx from rfl, hctx]; decide) (by decide), hnone,
      by rw [← hsame.eq, ← measureCmd_eq (x := b)]⟩

/-! ### Bays with descriptors that do not run -/

theorem still_iff : x.still = true ↔ (∀ q ∈ x.bays, ∀ d ∈ q.2.descs, d.running = false) ∧ x.chans = [] ∧ x.slice.notices = [] ∧ x.slice.missing = [] := by
  simp [Blk.still, and_assoc]
/-- A Bay set to one none of whose descriptors runs. -/
theorem setBay_still {k : Nat} {v : Bay} (h : x.still = true) (hv : ∀ d ∈ v.descs, d.running = false) : (x.setBay k v).still = true := by
  rw [still_iff] at h ⊢
  obtain ⟨hbays, hrest⟩ := h
  refine ⟨fun q hq => ?_, hrest⟩
  rcases mem_sset hq with rfl | hq
  · exact hv
  · exact hbays q hq
theorem still_descs {k : Nat} (h : x.still = true) : ∀ d ∈ (x.bay k).descs, d.running = false := by
  by_cases he : x.bay k = {}
  · rw [he]
    simp
  · exact (still_iff.mp h).1 _ (mem_of_sget he)

end Sys2Proof.Machine
end

section
/-! SUPPORT. CMD_TABLE_BUILD: its slot reserved, and its table installed (R376, R381, R383). -/
namespace Sys2Proof.Machine

variable {b x y : Blk} {m : Msg} {c : Cmd} {k i tn : Nat}

/-! ### Slots -/

/-- The index that firstIdx finds has the property, and no lower one has it. -/
theorem firstIdx_range {p : Nat → Bool} {n : Nat} (hi : firstIdx p (List.range n) 0 = some i) : i < n ∧ p i = true ∧ ∀ j, j < i → p j = false := by
  by_cases hp : ∃ j, j < n ∧ p j = true
  · obtain ⟨hn, ht⟩ := Nat.find_spec hp
    have hlow : ∀ j, j < Nat.find hp → p j = false := fun j hj => by
      have := Nat.find_min hp hj
      simpa [Nat.lt_trans hj hn] using this
    have hfound := firstIdx_some (p := p) (l := List.range n) (i := Nat.find hp) (by simpa using hn) (by simpa using ht)
      (fun j hj => by simpa using hlow j hj) 0
    rw [hi, Nat.zero_add, Option.some.injEq] at hfound
    rw [hfound]
    exact ⟨hn, ht, hlow⟩
  · rw [firstIdx_none (fun j hj => by simpa using fun hpj => hp ⟨j, List.mem_range.mp hj, hpj⟩)] at hi
    exact absurd hi (by simp)
/-- What CMD_TABLE_BUILD and CMD_DMA_SUBMIT check looks at nothing of the host side. -/
theorem checks_congr (h : x.SameButHost y) : y.partOfHl = x.partOfHl ∧ y.coveScrub = x.coveScrub ∧ y.hlReady = x.hlReady ∧
    y.accessStatus = x.accessStatus ∧ y.covesOk = x.covesOk := by
  rw [← h.eq]
  exact ⟨rfl, rfl, rfl, rfl, rfl⟩
theorem slots_congr (h : x.SameButHost y) : y.tab = x.tab ∧ y.nextGen = x.nextGen ∧ (y.reserveTab k tn).isSome = (x.reserveTab k tn).isSome := by
  have htab : y.tab = x.tab := by rw [← h.eq]; rfl
  have hgen : y.nextGen = x.nextGen := by rw [← h.eq]; rfl
  refine ⟨htab, hgen, ?_⟩
  unfold Blk.reserveTab
  simp only [htab, hgen]
  split
  · rfl
  · split <;> rfl
/-- A slot is reserved where a lowest FREE one is, as BUILDING of the next generation. -/
theorem reserveTab_spec (hsome : (b.reserveTab k tn).isSome = true) : ∃ i, b.reserveTab k tn =
    some (i, b.setTab k i { st := 1, table := tn, gen := b.nextGen k tn }) ∧ i < 64 ∧ (b.tab k i).st = 0 ∧ ∀ j, j < i → (b.tab k j).st ≠ 0 := by
  unfold Blk.reserveTab at hsome ⊢
  simp only at hsome ⊢
  split at hsome
  · exact absurd hsome (by decide)
  · next hfree =>
    rw [if_neg hfree]
    cases hi : firstIdx (fun i => (b.tab k i).st == 0) (List.range 64) 0 with
    | none => rw [hi] at hsome; exact absurd hsome (by simp)
    | some i =>
      obtain ⟨hlt, hst, hlow⟩ := firstIdx_range hi
      exact ⟨i, rfl, hlt, by simpa using hst, fun j hj => by simpa using hlow j hj⟩

theorem TabSlot.ne_free {v : TabSlot} (hv : v.st ≠ 0) : v ≠ {} := fun e => hv (congrArg TabSlot.st e)
/-- One slot set, and the others as they were. -/
theorem setTab_tab {v : TabSlot} (hv : v.st ≠ 0) (ht : y.hls = (b.setTab k i v).hls) :
    y.tab k i = v ∧ ∀ g j, (g, j) ≠ (k, i) → y.tab g j = b.tab g j :=
  ⟨(tab_congr ht k i).trans (tab_setTab_new k i (TabSlot.ne_free hv)), fun g j hn => (tab_congr ht g j).trans (tab_setTab_ne (TabSlot.ne_free hv) hn)⟩
/-- Of a table that has no CURRENT slot, one is installed without a change of another. -/
theorem installTab_first {lens : List Nat} {hold : Bool} (hcur : b.curTab k (b.tab k i).table = none) :
    b.installTab k i lens hold = b.setTab k i { b.tab k i with st := 2, lens := lens, hold := hold } := by
  unfold Blk.installTab
  simp only [hcur]

/-! ### The command -/

section
variable {w n : Nat} (hop : m.opcode = 0x0303) (hk : k < 16) (htn : tn < 64) (hparam : m.param = k + tn * 256) (hw : leAt m.payload 8 8 = w)
  (hn : fld w 31 0 = n) (hpart : m.partition = 0xFF ∨ b.partOfHl k = some m.partition) (hscrub : b.coveScrub (256 * k) = false)
  (hready : b.hlReady k = none) (hlt : w < 2 ^ 34) (hne : n ≠ 0) (hmode : tbit w 32 = true → n = 128)
  (hstatus : b.accessStatus m.partition (leAt m.payload 0 8) n = (0, 0))
include hop hk htn hparam hw hn hpart hscrub hready hlt hne hmode hstatus
/-- Every check passes: the slot is reserved, and the command accepted with its number. -/
theorem runOp_tableBuild (hres : (b.entered m).reserveTab k tn =
      some (i, (b.entered m).setTab k i { st := 1, table := tn, gen := (b.entered m).nextGen k tn })) :
    (b.entered m).runOp (b.asCmd m) =
      ((b.entered m).setTab k i { st := 1, table := tn, gen := (b.entered m).nextGen k tn }).accept { b.asCmd m with vars := [i] } := by
  have hhl : fld m.param 3 0 = k := by rw [hparam]; unfold fld; omega
  have htab : fld m.param 13 8 = tn := by rw [hparam]; unfold fld; omega
  obtain ⟨hpart', hscrub', hready', hstatus', -⟩ := checks_congr (entered_sameButHost (b := b) (m := m))
  have hwhole : (tbit w 32 && n != 128) = false := by
    cases ht : tbit w 32 with
    | false => rfl
    | true => simp [hmode ht]
  have hmine : (m.partition != 0xFF && b.partOfHl k != some m.partition) = false := by
    rcases hpart with h | h <;> simp [h]
  rw [runOp_eq (op := 0x0303) hop rfl]
  show (b.entered m).doTableBuild (b.asCmd m) = _
  unfold Blk.doTableBuild
  simp only [show (b.asCmd m).m = m from rfl, show (b.asCmd m).part = m.partition from rfl, hhl, htab, hw, hn, hpart', hscrub', hready', hstatus',
    hmine, hscrub, hready, hwhole, hstatus, hres]
  have hfits : ¬ 17179869184 ≤ w := by omega
  simp [hparam, hfits, hne]
end

/-- The command waits with its slot reserved. -/
theorem command_tableBuild (h : b.takes m = true) (hop : m.opcode = 0x0303) {v : TabSlot}
    (hr : (b.entered m).runOp (b.asCmd m) = ((b.entered m).setTab k i v).accept { b.asCmd m with vars := [i] }) :
    (b.command m).awaits m ∧ b.hostFor (b.command m) m ∧ (b.setTab k i v).SameButHost (b.command m) := by
  obtain ⟨-, hstill, -⟩ := takes_facts h
  have hset : (b.setTab k i v).SameButHost ((b.entered m).setTab k i v) := ⟨by rw [← entered_host]; rfl⟩
  have hacc := accept_sameButHost (x := (b.entered m).setTab k i v) (c := { b.asCmd m with vars := [i] }) (pay := []) rfl
  rw [measureCmd_of_not_measured (.inr (.inr (.inr (by show m.opcode / 256 = 3; rw [hop]))))] at hacc
  have hsame := hset.trans hacc
  obtain ⟨he, hwait, hhost⟩ := command_accepts (m := m) (c := { b.asCmd m with vars := [i] }) (y := (b.entered m).setTab k i v) rfl rfl rfl h hr rfl
    (by rw [hsame.still]; exact hstill)
  rw [he]
  exact ⟨hwait, hhost, hsame⟩

/-! ### The end of the build -/

/-- A build from a histogram of bytes that can be read installs the lengths computed from it, and the command ends (R376, R383). -/
theorem tableDone_histogram {w n : Nat} (hcmds : b.host.cmds = [c]) (hstart : c.started = true) (hop : c.m.opcode = 0x0303) (hvars : c.vars = [i])
    (hk : fld c.m.param 3 0 = k) (hw : leAt c.m.payload 8 8 = w) (hn : fld w 31 0 = n) (hst : (b.tab k i).st = 1)
    (hheld : b.hbmHeld (leAt c.m.payload 0 8) n = none) (hue : b.rangeUe (leAt c.m.payload 0 8) n = none) (hmode : tbit w 32 = false) :
    b.tableDone c.ctx c.seq =
      (b.installTab k i (codeLengths (histogram (b.memRead c.m.partition (leAt c.m.payload 0 8) n))) (tbit w 33)).finish c stOK 0
        (leBytes 8 ((b.tab k i).table % 64 + (b.tab k i).gen % 16 * 2 ^ 8 + i * 2 ^ 16)) := by
  unfold Blk.tableDone
  simp [cmdOf_only hcmds, hvars, hop, hstart, hk, hw, hn, hst, hheld, hue, hmode, Cmd.part]

/-! ### O18 -/

/-- Settles O18: the command reserves a slot and waits; the end of its build sets that slot and answers the command. -/
theorem tablesBuild : Obligations.TablesBuild := by
  unfold Obligations.TablesBuild
  refine ⟨?_, ?_⟩
  · intro s m k tn h hop hk htn hparam w hpart hscrub hready hlt hne hmode hstatus hsome
    obtain ⟨htab, hgen, hres⟩ := slots_congr (k := k) (tn := tn) (entered_sameButHost (b := s.blk) (m := m))
    obtain ⟨i, hspec, hi, hfree, hlow⟩ := reserveTab_spec (hres.trans hsome)
    obtain ⟨hwait, hhost, hsame⟩ := command_tableBuild h hop
      (runOp_tableBuild hop hk htn hparam rfl rfl hpart hscrub hready hlt hne hmode hstatus hspec)
    rw [htab] at hfree hlow
    rw [hgen] at hsame
    obtain ⟨hnew, hrest⟩ := setTab_tab (b := s.blk) (k := k) (i := i) (y := s.blk.command m)
      (v := { st := 1, table := tn, gen := s.blk.nextGen k tn }) (by simp) (by rw [← hsame.eq])
    exact does_of_updIf rfl (isFor_takes h hop) ⟨hwait, i, hi, hfree, hlow, hnew, hrest, by rw [← hsame.eq]; rfl, hhost⟩
  · intro s c k i honly hop hvars hctx hk src w n v0 hst htable hgen hheld hue hmode hcur
    obtain ⟨-, hcmds, hstart, -⟩ := onlyWaits_facts honly
    have he := tableDone_histogram hcmds hstart hop hvars hk rfl rfl hst hheld hue hmode
    rw [installTab_first hcur, Nat.mod_eq_of_lt htable, Nat.mod_eq_of_lt hgen] at he
    generalize hv : ({ s.blk.tab k i with st := 2, lens := _, hold := _ } : TabSlot) = v at he
    obtain ⟨-, hans, hsame, hhost⟩ := finish_only (b := s.blk.setTab k i v) (c := c)
      (pay := leBytes 8 ((s.blk.tab k i).table + (s.blk.tab k i).gen * 2 ^ 8 + i * 2 ^ 16))
      (by rw [onlyWaits_congr rfl rfl rfl]; exact honly) (by rw [hop]; rfl)
    rw [← he] at hans hsame hhost
    obtain ⟨hnew, hrest⟩ := setTab_tab (b := s.blk) (k := k) (i := i) (y := (s.blk.tableDone c.ctx c.seq).pump) (v := v) (by rw [← hv]; simp)
      (by rw [← hsame.eq])
    exact does_of_updIf rfl (decide_eq_true hctx) ⟨hans, hnew, hrest, by rw [← hsame.eq]; rfl, hhost⟩

end Sys2Proof.Machine
end

section
/-! SUPPORT. CMD_DMA_SUBMIT queues descriptors, and the last one to complete ends it (R365, R370, R382). -/
namespace Sys2Proof.Machine

variable {b t : Blk} {m : Msg} {c : Cmd} {d : Desc} {k n : Nat}

/-! ### Descriptors queued one after another (R365) -/

/-- The i-th descriptor of a command queued at a Bay's engine. -/
def Blk.queueOne (b : Blk) (c : Cmd) (k i : Nat) : Blk :=
  let raw := bytesAt c.m.payload (64 * i) 64
  let r := b.bindDesc k raw
  let x := r.2.bay k
  r.2.setBay k { x with
    descs := x.descs ++ [{ serial := x.nextDesc, queue := 16, raw := raw, cove := 16 * k + leAt raw 2 1 % 16, part := c.part,
                           origin := .cmd c.ctx c.seq i, bound := r.1 }]
    nextDesc := x.nextDesc + 1 }
theorem queueDescs_eq : b.queueDescs c k n = (List.range n).foldl (fun x i => x.queueOne c k i) b := rfl
theorem bindDesc_frame (raw : List Byte) : { b with hls := (b.bindDesc k raw).2.hls } = (b.bindDesc k raw).2 := by
  unfold Blk.bindDesc
  simp only
  split
  · rfl
  · split <;> rfl
/-- What the statement says of a queued descriptor: its queue, its bytes, its partition, and whether it runs. -/
def Desc.queued (d : Desc) : Nat × List Byte × Nat × Bool := (d.queue, d.raw, d.part, d.running)
/-- Of the descriptors of a command those listed are queued at a Bay; nothing else changed but references to tables. -/
structure Blk.Queued (b t : Blk) (c : Cmd) (k : Nat) (l : List Nat) : Prop where
  eq : { b with hls := t.hls, bays := t.bays } = t
  others : b.baysBut t [k]
  descs : (t.bay k).descs.map Desc.queued = l.map fun i => (16, bytesAt c.m.payload (64 * i) 64, c.part, false)
  still : t.still = true

theorem Blk.Queued.one {l : List Nat} (h : b.Queued t c k l) (i : Nat) : b.Queued (t.queueOne c k i) c k (l ++ [i]) := by
  have hbind := bindDesc_frame (b := t) (k := k) (bytesAt c.m.payload (64 * i) 64)
  unfold Blk.queueOne
  simp only
  generalize t.bindDesc k (bytesAt c.m.payload (64 * i) 64) = r at hbind
  have hbay : ∀ j, r.2.bay j = t.bay j := fun j => by rw [← hbind]; rfl
  have hstill : r.2.still = true := by rw [← hbind]; exact h.still
  refine ⟨by rw [← hbind, ← h.eq]; rfl, fun j hj => ?_, ?_, setBay_still hstill ?_⟩
  · rw [bay_setBay_ne _ _ (by simpa using hj), hbay, h.others j hj]
  · rw [bay_setBay_new _ _ _ fun e => by simpa using congrArg Bay.descs e]
    simp [hbay, h.descs, Desc.queued]
  · intro e he
    rcases List.mem_append.mp he with he | he
    · exact still_descs hstill e he
    · rw [List.mem_singleton.mp he]
theorem Blk.Queued.all {l r : List Nat} (h : b.Queued t c k l) : b.Queued (r.foldl (fun x i => x.queueOne c k i) t) c k (l ++ r) := by
  induction r generalizing t l with
  | nil => simpa using h
  | cons i r ih => simpa using ih (h.one i)
/-- The descriptors of a command queue in order where there was none. -/
theorem queueDescs_queued (hdescs : (b.bay k).descs = []) (hstill : b.still = true) : b.Queued (b.queueDescs c k n) c k (List.range n) := by
  have hnone : b.Queued b c k [] := ⟨rfl, fun _ _ => rfl, by simp [hdescs], hstill⟩
  simpa [queueDescs_eq] using hnone.all (r := List.range n)

/-! ### The command -/

section
variable (hop : m.opcode = 0x0302) (hparam : m.param < 256) (hcoves : b.covesOk m.partition [16 * m.param] = true)
  (hscrub : b.coveScrub (16 * m.param) = false) (hready : b.hlReady (hlOf (16 * m.param)) = none) (hn0 : 0 < m.plen / 64) (hn : m.plen / 64 ≤ 1024)
  (hdescs : (b.bay m.param).descs = [])
include hop hparam hcoves hscrub hready hn0 hn hdescs
/-- Every check passes: the command is accepted with room for its results, and its descriptors queue. -/
theorem runOp_dmaSubmit : (b.entered m).runOp (b.asCmd m) =
    ((b.entered m).accept { b.asCmd m with vars := [m.plen / 64], bytes := zeros (8 * (m.plen / 64)) }).queueDescs (b.asCmd m) m.param (m.plen / 64) := by
  obtain ⟨-, hscrub', hready', -, hcoves'⟩ := checks_congr (entered_sameButHost (b := b) (m := m))
  have hbay : (b.entered m).bay m.param = b.bay m.param := by unfold Blk.bay; simp
  rw [runOp_eq (op := 0x0302) hop rfl]
  show (b.entered m).doDmaSubmit (b.asCmd m) = _
  unfold Blk.doDmaSubmit
  simp only [show (b.asCmd m).m = m from rfl, show (b.asCmd m).part = m.partition from rfl, hscrub', hready', hcoves', hbay, hcoves, hscrub, hready,
    hdescs]
  simp [Nat.not_le.mpr hparam, Nat.not_lt.mpr hn, Nat.ne_of_gt hn0]
/-- The command waits with its descriptors queued. -/
theorem command_dmaSubmit (h : b.takes m = true) : (b.command m).awaits m ∧ b.hostFor (b.command m) m ∧
    ((b.command m).bay m.param).descs.map Desc.queued =
      ((List.range (m.plen / 64)).map fun i => (16, bytesAt m.payload (64 * i) 64, m.partition, false)) ∧
    b.baysBut (b.command m) [m.param] ∧
    { b with hls := (b.command m).hls, bays := (b.command m).bays, host := (b.command m).host } = b.command m := by
  obtain ⟨-, hstill, -⟩ := takes_facts h
  have hr := runOp_dmaSubmit hop hparam hcoves hscrub hready hn0 hn hdescs
  have hacc := accept_sameButHost (x := b.entered m) (c := { b.asCmd m with vars := [m.plen / 64], bytes := zeros (8 * (m.plen / 64)) }) (pay := []) rfl
  rw [measureCmd_of_not_measured (.inr (.inr (.inr (by show m.opcode / 256 = 3; rw [hop]))))] at hacc
  have hsame := entered_sameButHost.trans hacc
  have hbay : ∀ j, ((b.entered m).accept { b.asCmd m with vars := [m.plen / 64], bytes := zeros (8 * (m.plen / 64)) }).bay j = b.bay j :=
    fun j => by rw [← hsame.eq]; rfl
  have hq := queueDescs_queued (c := b.asCmd m) (n := m.plen / 64) ((congrArg Bay.descs (hbay m.param)).trans hdescs) (by rw [hsame.still, hstill])
  obtain ⟨he, hwait, hhost⟩ := command_accepts (m := m) (c := { b.asCmd m with vars := [m.plen / 64], bytes := zeros (8 * (m.plen / 64)) })
    (y := b.entered m) rfl rfl rfl h hr (by rw [← hq.eq]) hq.still
  rw [he]
  exact ⟨hwait, hhost, hq.descs, fun j hj => by rw [hq.others j hj, hbay], by rw [← hq.eq, ← hsame.eq]⟩
end

/-! ### The last descriptor completes (R370) -/

/-- A Bay without descriptors. -/
def Bay.emptied (v : Bay) : Bay := { v with descs := [] }
/-- A map of one entry after that entry is set. -/
theorem sset_single {α : Type} [DecidableEq α] {d : Nat → α} {u v : α} : sset d [(k, u)] k v = if v = d k then [] else [(k, v)] := by
  simp [sset]
/-- The machine with the descriptors of its only Bay in use gone, and one of them counted as completed. -/
def Blk.submitted (b : Blk) (k : Nat) : Blk := (b.setBay k (b.bay k).emptied).byCount k 0xA08 1
theorem submitted_descs (hbays : b.bays = [(k, b.bay k)]) : ∀ q ∈ (b.submitted k).bays, q.2.descs = [] := by
  intro q hq
  have hset : (b.submitted k).bays = sset (fun _ => {}) [(k, b.bay k)] k (b.bay k).emptied := by rw [← hbays]; rfl
  rw [hset, sset_single] at hq
  split at hq
  · exact absurd hq (by simp)
  · rw [List.mem_singleton.mp hq]
    rfl
theorem submitted_bay (hbays : b.bays = [(k, b.bay k)]) : ((b.submitted k).bay k).descs = [] := by
  by_cases he : (b.submitted k).bay k = {}
  · rw [he]
  · exact submitted_descs hbays _ (mem_of_sget he)

/-- A command of one descriptor with the result that its descriptor ended ST_OK after a number of bytes. -/
def Cmd.delivered (c : Cmd) (prog : Nat) : Cmd := { c with bytes := leBytes 4 0 ++ leBytes 4 prog, vars := [0] }

section
variable {prog : Nat} (hcmds : b.host.cmds = [c]) (hplen : c.m.plen = 64) (hctx : (b.ctx c.ctx).st = 1) (hvars : c.vars = [1]) (hbytes : c.bytes = zeros 8)
  (hdescs : (b.bay k).descs = [d]) (horigin : d.origin = .cmd c.ctx c.seq 0) (hbound : d.bound = []) (hout : d.out = some (0, 0, prog))
  (hprog : prog < 2 ^ 31) (hvalid : d.validates = false)
include hcmds hplen hctx hvars hbytes hdescs horigin hbound hout hprog hvalid
/-- The descriptor leaves its queue, and its command ends with its result. -/
theorem descComplete_last : b.descComplete k d.serial =
    ((b.submitted k).setCmd (c.delivered prog)).finish (c.delivered prog) stOK 0 (leBytes 4 0 ++ leBytes 4 prog) := by
  have hof : b.descOf k d.serial = some d := by simp [Blk.descOf, hdescs]
  have hval : b.descValidated k d = (b, d) := by simp [Blk.descValidated, hout, hvalid]
  have hdet : descDetail d (0, 0, prog) = 0 := rfl
  have hopen : prog ≠ openProg := by unfold openProg; omega
  have hsmall : prog % 2 ^ 32 = prog := Nat.mod_eq_of_lt (by omega)
  have hcmd : (b.submitted k).cmdOf c.ctx c.seq = some c := cmdOf_only hcmds
  have hpatch : patch (zeros 8) (8 * 0) (leBytes 2 0 ++ leBytes 2 0 ++ leBytes 4 prog) = leBytes 4 0 ++ leBytes 4 prog := by
    simp [patch, show leBytes 4 0 = leBytes 2 0 ++ leBytes 2 0 from rfl]
  have hdone : ∀ x : Blk, (x.ctx c.ctx).st = 1 → x.submitDone (c.delivered prog) = x.finish (c.delivered prog) stOK 0 (leBytes 4 0 ++ leBytes 4 prog) := by
    intro x hx
    have hok : leAt (c.delivered prog).bytes (8 * 0) 2 = 0 := by simp [Cmd.delivered, leAt_succ, leBytes]
    have hnone : firstIdx (fun i => leAt (c.delivered prog).bytes (8 * i) 2 != 0) (List.range 1) 0 = none :=
      firstIdx_none (by simpa using hok) 0
    unfold Blk.submitDone
    rw [show (c.delivered prog).ctx = c.ctx from rfl, hx, show (c.delivered prog).m.plen / 64 = 1 by show c.m.plen / 64 = 1; rw [hplen]]
    simp only [hnone]
    rfl
  have hempty : (b.setBay k { b.bay k with descs := (b.bay k).descs.filter fun e => e.serial != d.serial }).byCount k 0xA08 1 = b.submitted k := by
    rw [hdescs]
    simp [Blk.submitted, Bay.emptied]
  unfold Blk.descComplete
  simp only [hof, hout, hval, hdet, closeDet_zero, hbound, Option.isNone_some, Option.getD_some, Bool.false_eq_true, if_false, if_true, List.foldl_nil,
    hempty, hopen, horigin, hcmd, hsmall, hbytes, hvars]
  rw [hpatch]
  exact hdone _ hctx
end

/-- With the result stored, its command is all that goes on. -/
theorem delivered_onlyWaits {prog : Nat} (hbays : b.bays = [(k, b.bay k)]) (h : ({ b with bays := [] } : Blk).onlyWaits c = true) :
    ((b.submitted k).setCmd (c.delivered prog)).onlyWaits (c.delivered prog) = true := by
  obtain ⟨hstill, hcmds, hstart, h13, hctx, hspans, hop⟩ := onlyWaits_facts h
  have hstill' : ((b.submitted k).setCmd (c.delivered prog)).still = true := by
    rw [still_iff] at hstill ⊢
    refine ⟨fun q hq e he => ?_, hstill.2⟩
    rw [submitted_descs hbays q hq] at he
    exact absurd he (by simp)
  have hcmds' : ((b.submitted k).setCmd (c.delivered prog)).host.cmds = [c.delivered prog] := by
    have hc : (b.submitted k).host.cmds = [c] := hcmds
    simp [Blk.setCmd, hc, Cmd.delivered, Cmd.ctx, Cmd.seq]
  exact onlyWaits_of_facts hstill' hcmds' hstart h13 hctx hspans hop

/-! ### O17 -/

/-- Settles O17: the command queues its descriptors in order and waits; the last of them to complete leaves nothing queued and ends it. -/
theorem descriptorsQueueAndComplete : Obligations.DescriptorsQueueAndComplete := by
  unfold Obligations.DescriptorsQueueAndComplete
  refine ⟨?_, ?_⟩
  · intro s m h hop hparam y n hcoves hscrub hready hn0 hn hdescs
    obtain ⟨hwait, hhost, hqueued, hothers, hframe⟩ := command_dmaSubmit hop hparam hcoves hscrub hready hn0 hn hdescs h
    exact does_of_updIf rfl (isFor_takes h hop) ⟨hwait, hqueued, hothers, hframe, hhost⟩
  · intro s k d c prog hk honly hbays hop hplen hvars hbytes hdescs horigin hbound hout hprog hvalid hdop hcanon
    obtain ⟨-, hcmds, -, -, hctx, -, -⟩ := onlyWaits_facts honly
    have he : s.blk.descEnded k d.serial =
        ((s.blk.submitted k).setCmd (c.delivered prog)).finish (c.delivered prog) stOK 0 (leBytes 4 0 ++ leBytes 4 prog) := by
      rw [← descComplete_last (b := s.blk) hcmds hplen hctx hvars hbytes hdescs horigin hbound hout hprog hvalid]
      unfold Blk.descEnded
      simp [Blk.descOf, hdescs, hdop]
    obtain ⟨hnone, hans, hsame, hhost⟩ := finish_only (pay := leBytes 4 0 ++ leBytes 4 prog) (delivered_onlyWaits (prog := prog) hbays honly)
      (by show dKind c.m.opcode = true; rw [hop]; rfl)
    rw [← he] at hnone hans hsame hhost
    have hget : ∀ q, (s.blk.descEnded k d.serial).pump.cfgGet q = (s.blk.count (cfgBY k + 0xA08) 1).cfgGet q :=
      cfgGet_congr (by rw [← hsame.eq]; rfl)
    have hbay : (s.blk.descEnded k d.serial).pump.bay k = (s.blk.submitted k).bay k := by rw [← hsame.eq]; rfl
    refine does_of_updIf rfl (decide_eq_true hk) ⟨hans, hnone, by rw [hbay, submitted_bay hbays], ?_, fun q hq => ?_, by rw [← hsame.eq]; rfl, ?_⟩
    · rw [hget]
      exact cfgGet_cfgSet _ _ _ hcanon.2.1
    · rw [hget, cfgGet_count_ne (by simpa using hq)]
    · exact Blk.hostBut.trans (setCmd_hostBut (x := s.blk)) (Blk.hostBut.trans (hostBut_of_host rfl) hhost)

end Sys2Proof.Machine
end

section
/-! SUPPORT. What of the repairs of Coves, rows and lanes holds (R361, R506, R508). -/
namespace Sys2Proof.Machine

variable {b x y : Blk} {m : Msg} {c : Cmd} {k pc bank row ch lane v slot : Nat}

/-! ### A command that holds a stack, and its end -/

theorem Blk.SameButHost.setStack {u : Stack} (h : x.SameButHost y) : (x.setStack k u).SameButHost (y.setStack k u) := ⟨by rw [← h.eq]; rfl⟩
theorem Stack.ne_new_of_held {u : Stack} {w : Nat × Nat} (h : u.busyCmd = some w) : u ≠ {} := fun e => by simp [e] at h
/-- One stack set, and the others as they were. -/
theorem setStack_stack {u : Stack} (hu : u ≠ {}) (hs : y.hbmStacks = (b.setStack k u).hbmStacks) : y.stack k = u ∧ b.stacksBut y [k] :=
  ⟨(stack_congr hs k).trans (stack_setStack_new b k u hu), fun d hd => (stack_congr hs d).trans (stack_setStack_ne b u (by simpa using hd))⟩
/-- An accepted command that sets a stack waits, and of the rest only what it is measured by changed. -/
theorem command_setStack {u : Stack} (h : b.takes m = true) (hm : c.m = m) (hq : c.queued = false)
    (hr : (b.entered m).runOp (b.asCmd m) = ((b.entered m).accept c).setStack k u) :
    (b.command m).awaits m ∧ ((b.measureCmd m).setStack k u).SameButHost (b.command m) := by
  obtain ⟨-, hstill, -⟩ := takes_facts h
  have hacc := accept_sameButHost (x := b.entered m) (c := c) (pay := []) hq
  rw [hm] at hacc
  have hsame := ((measureCmd_sameButHost (m := m) entered_sameButHost).trans hacc).setStack (k := k) (u := u)
  obtain ⟨he, hwait, -⟩ := command_accepts (m := m) (c := c) (y := b.entered m) hm hq rfl h hr rfl
    (by rw [hsame.still, still_congr (x := (b.measureCmd m).setStack k u) (b := b) (by simp) (by simp) (by simp)]; exact hstill)
  rw [he]
  exact ⟨hwait, hsame⟩
/-- The command that holds a stack ends with the stack set. -/
theorem finish_setStack {u : Stack} {pay : List Byte} (h : b.onlyWaits c = true) (hu : u ≠ {}) :
    let t := ((b.setStack k u).finish c stOK 0 pay).pump
    t.answered c.m stOK 0 pay ∧ t.host.cmds = [] ∧ t.stack k = u ∧ b.stacksBut t [k] ∧
      { b with hbmStacks := t.hbmStacks, fw := t.fw, parts := t.parts, host := t.host } = t := by
  obtain ⟨hans, hnone, hframe⟩ := finish_waits (b := b.setStack k u) (c := c) (pay := pay) (by rw [onlyWaits_congr rfl rfl rfl]; exact h)
  generalize ((b.setStack k u).finish c stOK 0 pay).pump = t at hans hnone hframe
  obtain ⟨hnew, hrest⟩ := setStack_stack (b := b) (k := k) (u := u) (y := t) hu (by rw [← hframe])
  exact ⟨hans, hnone, hnew, hrest, by rw [← hframe]; rfl⟩

/-! ### Rows (R361) -/

/-- The record of a row for which no repair row is left. -/
def noRowRec (m : Msg) (k pc bank row : Nat) : ErrRec :=
  { cls := 1, kind := 4, code := 0x13, path := k + pc * 16 + bank * 512 + row * 2 ^ 14 + 0xFF * 2 ^ 32, status := stHWERROR, ctx := m.ctx, seq := m.seq }
/-- A stack that repairs a row of a bank for a command. -/
def Stack.repairing (u : Stack) (m : Msg) (bank row : Nat) : Stack :=
  { u with bankBlocked := some bank, busyCmd := some (m.ctx, m.seq), repairs := u.repairs ++ [(bank, row)] }

section
variable (hop : m.opcode = 0x0902) (hparam : m.param = k + pc * 16 + bank * 512 + row * 2 ^ 14) (hk : k < 16) (hpc : pc < 32) (hbank : bank < 32)
  (hrow : row < 73728) (husable : (b.stack k).usable = true) (hretrain : (b.stack k).retrain = false) (hblock : (b.stack k).bankBlocked = none)
  (hbusy : (b.stack k).busyCmd = none)
include hop hparam hk hpc hbank hrow husable hretrain hblock hbusy
/-- Every check of CMD_HBM_REPAIR passes but the count of the repair rows left. -/
theorem runOp_hbmRepair : (b.entered m).runOp (b.asCmd m) =
    if b.pprLeft k pc (Config.bankGroup bank) = 0 then
      ((b.entered m).addError (noRowRec m k pc bank row)).reject (b.asCmd m) stHWERROR b.errDetail
    else ((b.entered m).accept { b.asCmd m with vars := [b.tide] }).setStack k
      ((b.stack k).repairing m (pc * 32 + bank) row) := by
  have hstack : (b.entered m).stack k = b.stack k := stack_congr (by simp) k
  have hleft : (b.entered m).pprLeft k pc (Config.bankGroup bank) = b.pprLeft k pc (Config.bankGroup bank) := by unfold Blk.pprLeft; rw [hstack]
  have hdetail : (b.entered m).errDetail = b.errDetail := by simp [Blk.errDetail]
  have h0 : fld m.param 3 0 = k := by rw [hparam]; unfold fld; omega
  have h4 : fld m.param 8 4 = pc := by rw [hparam]; unfold fld; omega
  have h9 : fld m.param 13 9 = bank := by rw [hparam]; unfold fld; omega
  have h14 : fld m.param 30 14 = row := by rw [hparam]; unfold fld; omega
  have hfits : m.param < 2 ^ 31 := by omega
  rw [runOp_eq (op := 0x0902) hop rfl]
  show (b.entered m).doHbmRepair (b.asCmd m) = _
  unfold Blk.doHbmRepair
  simp only [show (b.asCmd m).m = m from rfl, h0, h4, h9, h14, hstack, hleft, hdetail, Cmd.ctx, Cmd.seq,
    show (b.entered m).tide = b.tide by simp]
  rw [if_neg (by simp; omega), if_neg (by simp [husable, hretrain, hblock, hbusy])]
  rfl
end

/-- A command refused as it was entered is answered, and nothing else changes. -/
theorem command_refuses_entered {st det : Nat} (h : b.takes m = true) (hr : (b.entered m).runOp (b.asCmd m) = (b.entered m).reject (b.asCmd m) st det)
    (hst : st ≠ stOK) (hd : det < openDet) (hop : m.opcode ≠ 1) : (b.command m).answered m st det [] ∧ b.SameButHost (b.command m) := by
  obtain ⟨-, hstill, hlog, -⟩ := takes_facts h
  obtain ⟨hans, hsame⟩ := command_refuses h hr hst hd hop (by simp) (by rw [(entered_ctx_self h).1]; decide) (entered_sameButHost.still.trans hstill)
    ((logged_congr (by simp)).trans hlog)
  exact ⟨hans, entered_sameButHost.trans hsame⟩
/-- A command refused once a new record is made: the answer, and the record. -/
theorem command_refuses_record {st det : Nat} {r : ErrRec} (h : b.takes m = true) (hr : (b.entered m).runOp (b.asCmd m) =
      ((b.entered m).addError r).reject (b.asCmd m) st det) (hst : st ≠ stOK) (hd : det < openDet) (hop : m.opcode ≠ 1) (hcls : r.cls ≠ 0) :
    (b.command m).answered m st det [] ∧ (b.withRecord r).SameButHost (b.command m) := by
  obtain ⟨-, hstill, hlog, -⟩ := takes_facts h
  obtain ⟨hsends, hbut⟩ := addError_spec (x := b.entered m) r
  have hentered : ((b.entered m).ctx m.ctx).st = 1 := (entered_ctx_self h).1
  have hopen := (hsends.ctx m.ctx (by rw [hentered]; decide)).1
  have hspans : ((b.entered m).addError r).spans = b.spans := by rw [← hbut.eq]; simp
  obtain ⟨hans, hsame⟩ := command_refuses h hr hst hd hop (by rw [hsends.cmds]; simp) (by rw [hopen, hentered]; decide)
    (by rw [← hbut.eq]; exact (entered_sameButHost (b := b) (m := m)).still.trans hstill) ((logged_congr hspans).trans hlog)
  have hrec : (b.withRecord r).SameButHost ((b.entered m).withRecord r) := ⟨by rw [← entered_host (b := b) (m := m)]; rfl⟩
  exact ⟨hans, (hrec.trans (addError_new (.inl hcls))).trans hsame⟩

/-- The third clause of O53: a row is repaired while its bank group has a repair row left. -/
theorem does_hbmRepair {s : State} (h : s.blk.takes m = true) (hop : m.opcode = 0x0902)
    (hparam : m.param = k + pc * 16 + bank * 512 + row * 2 ^ 14) (hk : k < 16) (hpc : pc < 32) (hbank : bank < 32) (hrow : row < 73728)
    (husable : (s.blk.stack k).usable = true) (hretrain : (s.blk.stack k).retrain = false) (hblock : (s.blk.stack k).bankBlocked = none)
    (hbusy : (s.blk.stack k).busyCmd = none) :
    s.does (.cmdHbmRepair m) fun t =>
      if s.blk.pprLeft k pc (Config.bankGroup bank) = 0 then t.answered m stHWERROR s.blk.errDetail [] ∧ t.err.next = (s.blk.err.next + 1) % 2 ^ 32 ∧
        { s.blk with cfg := t.cfg, host := t.host, err := t.err } = t
      else t.awaits m ∧ t.stack k = (s.blk.stack k).repairing m (pc * 32 + bank) row ∧ s.blk.stacksBut t [k] ∧
        { s.blk.measureCmd m with hbmStacks := t.hbmStacks, host := t.host } = t := by
  have hrun := runOp_hbmRepair (b := s.blk) hop hparam hk hpc hbank hrow husable hretrain hblock hbusy
  refine does_of_updIf rfl (isFor_takes h hop) ?_
  split at hrun
  · next hleft =>
    rw [if_pos hleft]
    obtain ⟨hans, hsame⟩ := command_refuses_record h hrun (by decide) (Nat.mod_lt _ (by decide)) (by rw [hop]; decide) Nat.one_ne_zero
    exact ⟨hans, by rw [← hsame.eq]; rfl, by rw [← hsame.eq]; rfl⟩
  · next hleft =>
    rw [if_neg hleft]
    obtain ⟨hwait, hsame⟩ := command_setStack (c := { s.blk.asCmd m with vars := [s.blk.tide] }) h rfl rfl hrun
    obtain ⟨hnew, hrest⟩ := setStack_stack (b := s.blk.measureCmd m) (k := k) (y := s.blk.command m) (Stack.ne_new_of_held rfl) (by rw [← hsame.eq])
    refine ⟨hwait, hnew, fun d hd => (hrest d hd).trans (stack_congr (by simp) d), by rw [← hsame.eq]; rfl⟩
/-- The fourth clause of O53: a repair of a row without an uncorrectable unit ends. -/
theorem does_hbmRepairDone {s : State} {l : List (Nat × Nat)} (honly : s.blk.onlyWaits c = true) (hk : k < 16)
    (hblock : (s.blk.stack k).bankBlocked = some bank) (hbusy : (s.blk.stack k).busyCmd = some (c.ctx, c.seq))
    (hrepairs : (s.blk.stack k).repairs = l ++ [(bank, row)]) (hsound : s.blk.rowUes k bank row = []) :
    s.does (.hbmRepairDone k) fun t => t.answered c.m stOK 0 (leBytes 8 (s.blk.tide - c.vars.headD s.blk.tide)) ∧ t.host.cmds = [] ∧
      t.stack k = { s.blk.stack k with bankBlocked := none, busyCmd := none, pprDone := (s.blk.stack k).pprDone + 1 } ∧ s.blk.stacksBut t [k] ∧
      { s.blk with hbmStacks := t.hbmStacks, fw := t.fw, parts := t.parts, host := t.host } = t := by
  obtain ⟨-, hcmds, -⟩ := onlyWaits_facts honly
  have he : s.blk.repairDone k =
      (s.blk.setStack k { s.blk.stack k with bankBlocked := none, busyCmd := none, pprDone := (s.blk.stack k).pprDone + 1 }).finish c stOK 0
        (leBytes 8 (s.blk.tide - c.vars.headD s.blk.tide)) := by
    unfold Blk.repairDone
    simp [hblock, hbusy, hrepairs, hsound, cmdOf_only (b := s.blk.setStack k _) hcmds, stallBytes]
  refine does_of_updIf rfl (decide_eq_true hk) ?_
  rw [he]
  exact finish_setStack honly fun e => absurd (congrArg Stack.pprDone e) (Nat.succ_ne_zero _)

/-! ### Lanes (R506) -/

/-- A stack that switches a lane of a channel to a spare for a command. -/
def Stack.sparingLane (u : Stack) (m : Msg) (ch : Nat) : Stack :=
  { u with channelHeld := some ch, busyCmd := some (m.ctx, m.seq), spareUsed := sset (fun _ => 0) u.spareUsed ch (sget (fun _ => 0) u.spareUsed ch + 1) }

section
variable (hop : m.opcode = 0x0903) (hparam : m.param = k + ch * 16 + lane * 256) (hk : k < 16) (hch : ch < 16) (hlane : lane < 96)
include hop hparam hk hch hlane
/-- CMD_LANE_SPARE of a stack whose checks pass but for the count of the spare lanes left. -/
theorem runOp_laneSpareStack (husable : (b.stack k).usable = true) (hretrain : (b.stack k).retrain = false) (hheld : (b.stack k).channelHeld = none)
    (hbusy : (b.stack k).busyCmd = none) : (b.entered m).runOp (b.asCmd m) =
    if b.laneSpares k ch = 0 then (b.entered m).busy (b.asCmd m)
    else ((b.entered m).accept { b.asCmd m with vars := [b.tide] }).setStack k
      ((b.stack k).sparingLane m ch) := by
  have hstack : (b.entered m).stack k = b.stack k := stack_congr (by simp) k
  have hleft : (b.entered m).laneSpares k ch = b.laneSpares k ch := by unfold Blk.laneSpares; rw [hstack]
  have h0 : fld m.param 3 0 = k := by rw [hparam]; unfold fld; omega
  have h4 : fld m.param 7 4 = ch := by rw [hparam]; unfold fld; omega
  have h8 : fld m.param 15 8 = lane := by rw [hparam]; unfold fld; omega
  have hfits : m.param < 2 ^ 16 := by omega
  have hserves : (!(b.stack k).usable || (b.stack k).retrain || (b.stack k).channelHeld.isSome || (b.stack k).busyCmd.isSome) = false := by
    simp [husable, hretrain, hheld, hbusy]
  have hdie : tbit m.param 16 = false := by rw [tbit, Nat.shiftRight_eq_zero _ _ hfits]; rfl
  rw [runOp_eq (op := 0x0903) hop rfl]
  show (b.entered m).doLaneSpare (b.asCmd m) = _
  unfold Blk.doLaneSpare Blk.doLaneSpareStack
  simp only [show (b.asCmd m).m = m from rfl, h0, h4, h8, hdie, hstack, hleft, Cmd.ctx, Cmd.seq,
    show (b.entered m).tide = b.tide by simp]
  rw [if_neg (by simp), if_neg (by simp; omega)]
  simp only [hserves, Bool.false_or, decide_eq_true_eq]
  rfl

/-- The fifth clause of O53: a lane of a channel is switched while the channel has a spare. -/
theorem does_laneSpareStack {s : State} (h : s.blk.takes m = true) (husable : (s.blk.stack k).usable = true) (hretrain : (s.blk.stack k).retrain = false)
    (hheld : (s.blk.stack k).channelHeld = none) (hbusy : (s.blk.stack k).busyCmd = none) :
    s.does (.laneSpareStack m) fun t =>
      if s.blk.laneSpares k ch = 0 then t.answered m stBUSY 2 [] ∧ { s.blk with host := t.host } = t
      else t.awaits m ∧ (t.stack k).channelHeld = some ch ∧ (t.stack k).busyCmd = some (m.ctx, m.seq) ∧
        sget (fun _ => 0) (t.stack k).spareUsed ch = sget (fun _ => 0) (s.blk.stack k).spareUsed ch + 1 ∧ s.blk.stacksBut t [k] ∧
        { s.blk.measureCmd m with hbmStacks := t.hbmStacks, host := t.host } = t := by
  have hrun := runOp_laneSpareStack (b := s.blk) hop hparam hk hch hlane husable hretrain hheld hbusy
  have hdie : m.param < 2 ^ 16 := by omega
  refine does_of_updIf rfl (by simp [isFor_takes h hop, tbit, Nat.shiftRight_eq_zero _ _ hdie]) ?_
  split at hrun
  · next hleft =>
    rw [if_pos hleft]
    obtain ⟨hans, hsame⟩ := command_refuses_entered h hrun (by decide) (by decide) (by rw [hop]; decide)
    exact ⟨hans, hsame.eq⟩
  · next hleft =>
    rw [if_neg hleft]
    obtain ⟨hwait, hsame⟩ := command_setStack (c := { s.blk.asCmd m with vars := [s.blk.tide] }) h rfl rfl hrun
    obtain ⟨hnew, hrest⟩ := setStack_stack (b := s.blk.measureCmd m) (k := k) (y := s.blk.command m) (Stack.ne_new_of_held rfl) (by rw [← hsame.eq])
    rw [hnew]
    exact ⟨hwait, rfl, rfl, sget_sset_new (Nat.succ_ne_zero _), fun d hd => (hrest d hd).trans (stack_congr (by simp) d), by rw [← hsame.eq]; rfl⟩
end
/-- The sixth clause of O53: the switch of a lane ends. -/
theorem does_stackLaneSpareDone {s : State} (honly : s.blk.onlyWaits c = true) (hk : k < 16) (hheld : (s.blk.stack k).channelHeld = some ch)
    (hbusy : (s.blk.stack k).busyCmd = some (c.ctx, c.seq)) :
    s.does (.stackLaneSpareDone k) fun t => t.answered c.m stOK 0 (leBytes 8 (s.blk.tide - c.vars.headD s.blk.tide)) ∧ t.host.cmds = [] ∧
      t.stack k = { s.blk.stack k with channelHeld := none, busyCmd := none, spared := (s.blk.stack k).spared + 1 } ∧ s.blk.stacksBut t [k] ∧
      { s.blk with hbmStacks := t.hbmStacks, fw := t.fw, parts := t.parts, host := t.host } = t := by
  obtain ⟨-, hcmds, -⟩ := onlyWaits_facts honly
  have he : s.blk.stackLaneDone k =
      (s.blk.setStack k { s.blk.stack k with channelHeld := none, busyCmd := none, spared := (s.blk.stack k).spared + 1 }).finish c stOK 0
        (leBytes 8 (s.blk.tide - c.vars.headD s.blk.tide)) := by
    unfold Blk.stackLaneDone
    simp [hheld, hbusy, cmdOf_only (b := s.blk.setStack k _) hcmds, stallBytes]
  refine does_of_updIf rfl (decide_eq_true hk) ?_
  rw [he]
  exact finish_setStack honly fun e => absurd (congrArg Stack.spared e) (Nat.succ_ne_zero _)

/-! ### Coves (R508) -/

/-- No Cove of a quiet machine runs or is suspended, and no Bay has a descriptor. -/
theorem quiet_facts (h : b.quiet = true) : (∀ v, (b.seq v).st ≠ 1 ∧ (b.seq v).st ≠ 2) ∧ ∀ y, (b.bay y).descs = [] := by
  simp only [Blk.quiet, Bool.and_eq_true, List.all_eq_true] at h
  obtain ⟨⟨⟨⟨hcoves, hbays⟩, -⟩, -⟩, -⟩ := h
  refine ⟨fun v => ?_, fun y => ?_⟩
  · by_cases he : b.cove v = {}
    · simp [Blk.seq, he]
    · have hcove := hcoves _ (mem_of_sget he)
      simp at hcove
      exact hcove.1.1.1
  · by_cases he : b.bay y = {}
    · rw [he]
    · have hbay := hbays _ (mem_of_sget he)
      simp at hbay
      exact hbay.1
/-- Coves that do not run are not suspended, and Coves that are not held are not resumed. -/
theorem foldl_suspendCove {l : List Nat} {f : Nat → Nat} (h : ∀ v, (x.seq v).st ≠ 1) : l.foldl (fun b i => b.suspendCove (f i)) x = x := by
  induction l with
  | nil => rfl
  | cons i l ih => rw [List.foldl_cons, Blk.suspendCove, if_neg (by simp [h]), ih]
theorem foldl_resumeCove {l : List Nat} {f : Nat → Nat} (h : ∀ i ∈ l, (x.seq (f i)).st ≠ 2 ∧ (x.seq (f i)).stopping ≠ 3) :
    l.foldl (fun b i => b.resumeCove (f i)) x = x := by
  induction l with
  | nil => rfl
  | cons i l ih =>
    obtain ⟨hi, hl⟩ := List.forall_mem_cons.mp h
    rw [List.foldl_cons, Blk.resumeCove, if_neg hi.1, if_neg hi.2, ih hl]

theorem setBay_seq {k : Nat} (u : Bay) (w : Nat) : (x.setBay k u).seq w = x.seq w := rfl
theorem accept_entered_units : (∀ k, ((b.entered m).accept (b.asCmd m)).bay k = b.bay k) ∧
    ∀ w, ((b.entered m).accept (b.asCmd m)).seq w = b.seq w := by
  have hsame := accept_sameButHost (x := b.entered m) (c := b.asCmd m) (pay := []) rfl
  refine ⟨fun k => ?_, fun w => ?_⟩
  · rw [← hsame.eq]
    simp [Blk.bay]
  · rw [← hsame.eq]
    simp [Blk.seq, Blk.cove]

section
variable {fresh : Bool} (hop : m.opcode = 0x0901) (hparam : m.param = v + slot * 65536 + bnat fresh * 2 ^ 32) (hv : v < 4096) (hslot : slot < 17)
  (hcoves : b.covesOk m.partition [v] = true) (hscrub : b.coveScrub v = false) (hclear : (b.cove v).clearing = false)
  (hpower : b.powerChanging = false) (hsparing : (b.bay (bayOf v)).sparing = none)
include hop hparam hv hslot hcoves hscrub hclear hpower hsparing
/-- CMD_COVE_SPARE of a Cove that may be spared: the slot is taken or retired, or the copy begins and the Coves of the Bay are suspended. -/
theorem runOp_coveSpare (hrun : ∀ v, (b.seq v).st ≠ 1) : (b.entered m).runOp (b.asCmd m) =
    if ((List.range 16).any fun i => b.coveSlot (bayOf v) i == slot) || tbit (b.retiredSlots (bayOf v)) slot then
      (b.entered m).reject (b.asCmd m) stBADPARAM 0x18
    else ((b.entered m).accept (b.asCmd m)).setBay (bayOf v) { b.bay (bayOf v) with sparing := some (v, slot, bnat fresh, b.tide) } := by
  obtain ⟨-, hscrub', -, -, hcoves'⟩ := checks_congr (entered_sameButHost (b := b) (m := m))
  have hbay : (b.entered m).bay (bayOf v) = b.bay (bayOf v) := by unfold Blk.bay; simp
  have hmap : (b.entered m).coveSlot = b.coveSlot := by funext y i; unfold Blk.coveSlot Blk.bay; simp
  have hretired : (b.entered m).retiredSlots = b.retiredSlots := by funext y; unfold Blk.retiredSlots Blk.bay; simp
  have hpower' : (b.entered m).powerChanging = false := by
    simp only [Blk.powerChanging, Bool.or_eq_false_iff] at hpower ⊢
    simpa [Blk.asCmd] using hpower.1
  have h0 : fld m.param 11 0 = v := by rw [hparam]; unfold fld; omega
  have h16 : fld m.param 20 16 = slot := by rw [hparam]; unfold fld; omega
  have h32 : tbit m.param 32 = fresh := by
    have hlow : m.param >>> 32 = bnat fresh := by rw [hparam, Nat.shiftRight_eq_div_pow]; omega
    rw [tbit, hlow]
    cases fresh <;> rfl
  obtain ⟨hbays, hseq⟩ := accept_entered_units (b := b) (m := m)
  rw [runOp_eq (op := 0x0901) hop rfl]
  show (b.entered m).doCoveSpare (b.asCmd m) = _
  unfold Blk.doCoveSpare
  simp only [show (b.asCmd m).m = m from rfl, show (b.asCmd m).part = m.partition from rfl, h0, h16, h32, hmap, hretired, hcoves', hcoves, hscrub',
    hscrub, entered_cove, hclear, hpower', hbay, hsparing]
  rw [foldl_suspendCove (f := fun i => 16 * bayOf v + i) (fun w => by rw [setBay_seq, hseq]; exact hrun w), hbays, show (b.entered m).tide = b.tide by simp]
  have hform : (m.param != v + slot * 65536 + bnat fresh * 2 ^ 32) = false := by simp [hparam]
  have hbound : decide (17 ≤ slot) = false := by simpa using hslot
  simp only [hform, hbound, Bool.false_or, Option.isSome_none, Bool.not_true, Bool.false_eq_true, if_false]
  rfl
end

theorem Bay.ne_new_of_sparing {u : Bay} {w : Nat × Nat × Nat × Nat} (h : u.sparing = some w) : u ≠ {} := fun e => by simp [e] at h
/-- Commands of repairs are measured by the configuration of the device (R493). -/
theorem measureCmd_service (hop : m.opcode / 256 = 9) : x.measureCmd m = { x with fw := (x.measureCmd m).fw } := by
  have he : x.measureCmd m = x.extendCfg m := by
    unfold Blk.measureCmd
    simp [hop]
  rw [he]
  exact extendCfg_eq
/-- The first clause of O53: a slot that is taken or retired is refused, and a copy to another one begins. -/
theorem does_coveSpare {s : State} {fresh : Bool} (h : s.blk.takes m = true) (hop : m.opcode = 0x0901)
    (hparam : m.param = v + slot * 65536 + bnat fresh * 2 ^ 32) (hv : v < 4096) (hslot : slot < 17) (hquiet : s.blk.quiet = true)
    (hcoves : s.blk.covesOk m.partition [v] = true) (hscrub : s.blk.coveScrub v = false) (hclear : (s.blk.cove v).clearing = false)
    (hpower : s.blk.powerChanging = false) (hsparing : (s.blk.bay (bayOf v)).sparing = none) :
    s.does (.cmdCoveSpare m) fun t =>
      if ((List.range 16).any fun i => s.blk.coveSlot (bayOf v) i == slot) || tbit (s.blk.retiredSlots (bayOf v)) slot then
        t.answered m stBADPARAM 0x18 [] ∧ { s.blk with host := t.host } = t
      else t.awaits m ∧ (t.bay (bayOf v)).sparing = some (v, slot, bnat fresh, s.blk.tide) ∧ s.blk.baysBut t [bayOf v] ∧
        { s.blk with bays := t.bays, fw := t.fw, host := t.host } = t ∧ s.blk.hostFor t m := by
  obtain ⟨hcovesQuiet, hbaysQuiet⟩ := quiet_facts hquiet
  have hrun := runOp_coveSpare hop hparam hv hslot hcoves hscrub hclear hpower hsparing fun w => (hcovesQuiet w).1
  refine does_of_updIf rfl (isFor_takes h hop) ?_
  split at hrun
  · next htaken =>
    rw [if_pos htaken]
    obtain ⟨hans, hsame⟩ := command_refuses_entered h hrun (by decide) (by decide) (by rw [hop]; decide)
    exact ⟨hans, hsame.eq⟩
  · next htaken =>
    rw [if_neg htaken]
    obtain ⟨-, hstill, -⟩ := takes_facts h
    have hacc := (measureCmd_sameButHost (m := m) entered_sameButHost).trans
      (accept_sameButHost (x := s.blk.entered m) (c := s.blk.asCmd m) (pay := []) rfl)
    rw [measureCmd_service (by rw [hop])] at hacc
    have hbay := (accept_entered_units (b := s.blk) (m := m)).1
    obtain ⟨he, hwait, hhost⟩ := command_accepts (m := m) (c := s.blk.asCmd m) (y := s.blk.entered m) rfl rfl rfl h hrun rfl
      (setBay_still (hacc.still.trans hstill) (by simp [hbaysQuiet]))
    rw [he]
    generalize (s.blk.entered m).accept (s.blk.asCmd m) = y at hacc hbay hwait hhost
    refine ⟨hwait, ?_, fun d hd => (bay_setBay_ne y _ (by simpa using hd)).trans (hbay d), by rw [← hacc.eq]; rfl, hhost⟩
    rw [bay_setBay_new y _ _ (Bay.ne_new_of_sparing rfl)]
/-- A Bay with a Cove mapped to a new slot, and the old slot retired. -/
def Bay.spared (u : Bay) (v slot : Nat) : Bay :=
  let map := fun i => Config.fusedSlot (bayOf v) i
  { u with coveMap := sset map u.coveMap (v % 16) slot, retired := u.retired ||| 2 ^ sget map u.coveMap (v % 16), sparing := none }
theorem Bay.spared_ne_new {u : Bay} : u.spared v slot ≠ {} := fun e =>
  absurd (Nat.or_eq_zero_iff.mp (congrArg Bay.retired e)).2 (by simp)
/-- The machine with a Cove spared, which is then no longer bad. -/
def Blk.spared (b : Blk) (v slot : Nat) : Blk :=
  { (b.setBay (bayOf v) ((b.bay (bayOf v)).spared v slot)) with badCoves := b.badCoves.filter (· != v) }
/-- After a copy the Coves of the Bay go on, unless their partition is in SLACK. -/
def Blk.resumeBay (b : Blk) (v : Nat) : Blk :=
  if b.slackAt (b.partOfCove v) then b else (List.range 16).foldl (fun x i => x.resumeCove (16 * bayOf v + i)) b
theorem resumeBay_eq (h : ∀ i, i < 16 → (x.seq (16 * bayOf v + i)).st ≠ 2 ∧ (x.seq (16 * bayOf v + i)).stopping ≠ 3) : x.resumeBay v = x := by
  unfold Blk.resumeBay
  rw [foldl_resumeCove (f := fun i => 16 * bayOf v + i) fun i hi => h i (List.mem_range.mp hi), ite_self]
/-- A copy in a quiet machine that holds no Cove of the Bay ends: the Cove has its new slot, and the command is answered (R508, R513). -/
theorem spareDone_quiet {since : Nat} (hquiet : b.quiet = true) (hheld : ∀ i, i < 16 → (b.seq (16 * bayOf v + i)).stopping ≠ 3)
    (hsparing : (b.bay (bayOf v)).sparing = some (v, slot, 0, since)) (hcmds : b.host.cmds = [c]) (hstart : c.started = true)
    (hop : c.m.opcode = 0x0901) (hcove : fld c.m.param 11 0 = v) :
    b.spareDone (bayOf v) = (b.spared v slot).finish c stOK 0 (leBytes 8 (b.tide - since)) := by
  obtain ⟨hcoves, hbays⟩ := quiet_facts hquiet
  have hdrained : b.bayDrained (bayOf v) = true := by simp [Blk.bayDrained, hcoves, hbays]
  have hresume : (b.spared v slot).resumeBay v = b.spared v slot := resumeBay_eq fun i hi => ⟨(hcoves _).2, hheld i hi⟩
  have hmine : (b.host.cmds.filter fun d => d.m.opcode == 0x901 && d.started && bayOf (fld d.m.param 11 0) == bayOf v) = [c] := by
    simp [hcmds, hstart, hop, hcove]
  rw [Blk.spareDone, hsparing]
  show (if !b.bayDrained (bayOf v) then b else _) = _
  rw [if_neg (by simp [hdrained])]
  show (((b.spared v slot).resumeBay v).host.cmds.filter _).foldl _ ((b.spared v slot).resumeBay v) = _
  rw [hresume]
  show (b.host.cmds.filter _).foldl _ _ = _
  rw [hmine]
  rfl
/-- The second clause of O53 of a Bay none of whose Coves the copy holds: the copy ends. -/
theorem does_coveSpareCopyDone {s : State} {since : Nat} (honly : s.blk.onlyWaits c = true) (hop : c.m.opcode = 0x0901)
    (hparam : c.m.param = v + slot * 65536) (hv : v < 4096) (hquiet : s.blk.quiet = true)
    (hsparing : (s.blk.bay (bayOf v)).sparing = some (v, slot, 0, since))
    (hwf : swf (fun i => Config.fusedSlot (bayOf v) i) (s.blk.bay (bayOf v)).coveMap = true)
    (hheld : ∀ i, i < 16 → (s.blk.seq (16 * bayOf v + i)).stopping ≠ 3) :
    s.does (.coveSpareCopyDone (bayOf v)) fun t => t.answered c.m stOK 0 (leBytes 8 (s.blk.tide - since)) ∧ t.host.cmds = [] ∧
      t.coveSlot (bayOf v) (v % 16) = slot ∧ (t.bay (bayOf v)).sparing = none ∧
      (t.bay (bayOf v)).retired = (s.blk.bay (bayOf v)).retired ||| 2 ^ s.blk.coveSlot (bayOf v) (v % 16) ∧ s.blk.baysBut t [bayOf v] ∧
      { s.blk with bays := t.bays, badCoves := t.badCoves, host := t.host } = t := by
  obtain ⟨hstill, hcmds, hstart, -⟩ := onlyWaits_facts honly
  have hcove : fld c.m.param 11 0 = v := by rw [hparam]; unfold fld; omega
  have he := spareDone_quiet hquiet hheld hsparing hcmds hstart hop hcove
  have hbays := (quiet_facts hquiet).2
  have hx : (s.blk.spared v slot).onlyWaits c = true := by
    rw [onlyWaits_congr (x := s.blk.spared v slot) (b := s.blk) rfl rfl (Eq.trans (setBay_still hstill (by simp [Bay.spared, hbays])) hstill.symm)]
    exact honly
  obtain ⟨hnone, hans, hsame, -⟩ := finish_only (pay := leBytes 8 (s.blk.tide - since)) hx (by rw [hop]; rfl)
  rw [← he] at hnone hans hsame
  refine does_of_updIf rfl (decide_eq_true (by unfold bayOf nBays; omega)) ?_
  generalize (s.blk.spareDone (bayOf v)).pump = t at hnone hans hsame
  have hbay : ∀ d, t.bay d = (s.blk.spared v slot).bay d := fun d => by rw [← hsame.eq]; rfl
  have hnew : t.bay (bayOf v) = (s.blk.bay (bayOf v)).spared v slot := (hbay _).trans (bay_setBay_new s.blk _ _ Bay.spared_ne_new)
  refine ⟨hans, hnone, ?_, by rw [hnew]; rfl, by rw [hnew]; rfl, fun d hd => ?_, by rw [← hsame.eq]; rfl⟩
  · rw [Blk.coveSlot, hnew]
    exact sget_sset_same hwf
  · exact (hbay d).trans (bay_setBay_ne s.blk _ (by simpa using hd))

end Sys2Proof.Machine
end

section
/-! ### O53 -/
namespace Sys2Proof.Machine

/-- A CMD_COVE_SPARE of Cove 0 to slot 16. -/
def spareCmd : Cmd := { m := { opcode := 0x901, param := 16 * 65536 }, started := true }
/-- A machine that copies Cove 0 to slot 16 for that command, and holds Cove 1 of the same Bay stopped with no program. -/
def spareHeld : State where
  blk := { State.reset.blk with
    bays := [(0, { nextDesc := 1, sparing := some (0, 16, 0, 0) })]
    coves := [(1, { seq := { stopping := 3 } })]
    host := { State.reset.blk.host with ctxs := [(0, { st := 1 })], cmds := [spareCmd] } }
  pending := []

/-- The end of the copy resumes every held Cove of the Bay, Cove 1 too. -/
theorem spareHeld_resumes : ((spareHeld.blk.spareDone 0).pump.cove 1).seq.stopping = 0 := by decide +kernel

/-- Refutes O53: its second clause lets the end of a copy change no Cove, but the model then resumes each Cove of the Bay that the copy held
(`stopping` 3), and the clause does not ask that a Cove held so is a running one: a quiet machine may hold a Cove that has no program. The clause
holds of a Bay that holds no Cove (does_coveSpareCopyDone), and the others hold as they stand (does_coveSpare, does_hbmRepair,
does_hbmRepairDone, does_laneSpareStack, does_stackLaneSpareDone). -/
theorem not_repairs : ¬ Obligations.Repairs := by
  unfold Obligations.Repairs
  rintro ⟨-, hspare, -⟩
  have honly : spareHeld.blk.onlyWaits spareCmd = true := by decide +kernel
  have hquiet : spareHeld.blk.quiet = true := by decide +kernel
  have hrow : ∀ s : State, exec (.coveSpareCopyDone 0) s = s.updIf (decide (0 < nBays)) fun b => (b.spareDone 0).pump := fun _ => rfl
  obtain ⟨-, -, -, -, -, -, hframe⟩ := updated_of_does (hrow _) (hspare spareHeld spareCmd 0 16 0 honly rfl rfl (by decide) (by decide) hquiet rfl rfl)
  have hheld : ((spareHeld.blk.spareDone 0).pump.cove 1).seq.stopping = 3 := by rw [← hframe]; rfl
  rw [spareHeld_resumes] at hheld
  exact absurd hheld (by decide)

end Sys2Proof.Machine
end

section
/-! SUPPORT. The 32-byte header of a packet (R406): each field reads back from its place, and the bytes of a header are those that its fields spell. -/
namespace Sys2Proof.Machine

variable {u v r : List Byte} {n o k x : Nat}

/-! ### Fields one behind another -/

/-- The field at the start of a string. -/
theorem leAt_leBytes_append (n x : Nat) (r : List Byte) : leAt (leBytes n x ++ r) 0 n = x % 256 ^ n := by
  have h := bytesAt_append [] (leBytes n x) r
  rw [List.nil_append, List.length_nil, leBytes_length] at h
  rw [leAt, h, leNat_leBytes]
/-- A later place is read in what follows the first field. -/
theorem leAt_append_skip (h : k ≤ o) : leAt (leBytes k x ++ r) o n = leAt r (o - k) n := by
  have hdrop : (leBytes k x ++ r).drop o = r.drop (o - k) := by
    rw [List.drop_append, List.drop_eq_nil_of_le (by simpa using h), leBytes_length, List.nil_append]
  rw [leAt, bytesAt, hdrop, leAt, bytesAt]

/-! ### Bytes that spell a number read from them -/

theorem leBytes_leAt (v : List Byte) (o n : Nat) : leBytes n (leAt v o n) = bytesAt v o n := by
  induction n generalizing o with
  | zero => simp [leBytes, bytesAt, zeros]
  | succ n ih =>
    have hb := (v.getD o 0#8).isLt
    have hmod : leAt v o (n + 1) % 256 = (v.getD o 0#8).toNat := by rw [leAt_succ]; omega
    have hdiv : leAt v o (n + 1) / 256 = leAt v (o + 1) n := by rw [leAt_succ]; omega
    rw [leBytes, hmod, hdiv, ih, bytesAt_succ]
    simp
theorem bytesAt_append_bytesAt (v : List Byte) (o n k : Nat) : bytesAt v o n ++ bytesAt v (o + n) k = bytesAt v o (n + k) := by
  induction n generalizing o with
  | zero => simp [bytesAt, zeros]
  | succ n ih => rw [bytesAt_succ, Nat.add_right_comm n 1 k, bytesAt_succ, List.cons_append, ← ih, Nat.add_right_comm o 1 n, Nat.add_assoc o n 1]
theorem bytesAt_self (h : v.length = n) : bytesAt v 0 n = v := by
  simp [bytesAt, zeros, ← h]

/-! ### The flags of the header -/

/-- PHASE, DATELINE, ALT and RESENT read back from the byte that they make. -/
theorem flags_read (ph : Nat) (h : ph < 2) (dl alt rs : Bool) :
    (ph % 2 + 2 * bnat dl + 4 * bnat alt + 8 * bnat rs) % 256 ^ 1 % 2 = ph ∧
    tbit ((ph % 2 + 2 * bnat dl + 4 * bnat alt + 8 * bnat rs) % 256 ^ 1) 1 = dl ∧
    tbit ((ph % 2 + 2 * bnat dl + 4 * bnat alt + 8 * bnat rs) % 256 ^ 1) 2 = alt ∧
    tbit ((ph % 2 + 2 * bnat dl + 4 * bnat alt + 8 * bnat rs) % 256 ^ 1) 3 = rs := by
  revert ph dl alt rs
  decide
/-- The byte is the one that its four flags make, when no other bit of it is set. -/
theorem flags_spell (f : Nat) (h : f < 16) : f % 2 % 2 + 2 * bnat (tbit f 1) + 4 * bnat (tbit f 2) + 8 * bnat (tbit f 3) = f := by
  revert f
  decide

/-! ### O60 -/

theorem pktHeader_length (p : Pkt) : (pktHeader p).length = 32 := by simp [pktHeader]
/-- A packet whose fields fit reads back from its header and its data. -/
theorem pktParse_pktHeader (p : Pkt) (h : p.wf = true) : pktParse (pktHeader p ++ p.data) = p := by
  simp only [Pkt.wf, Bool.and_eq_true, decide_eq_true_eq] at h
  obtain ⟨⟨⟨⟨⟨⟨⟨⟨⟨⟨⟨⟨⟨hdst, hsrc⟩, hvia⟩, hkind⟩, hphase⟩, hpseq⟩, htag⟩, hhops⟩, hpart⟩, haddr⟩, hlen⟩, hstatus⟩, hcause⟩, -⟩ := h
  obtain ⟨f0, f1, f2, f3⟩ := flags_read p.phase hphase p.dateline p.alt p.resent
  have hdata : (pktHeader p ++ p.data).drop 32 = p.data := List.drop_left' (pktHeader_length p)
  have e2 : ∀ {w : Nat}, w < 2 ^ 16 → w % 256 ^ 2 = w := Nat.mod_eq_of_lt
  have e1 : ∀ {w : Nat}, w < 256 → w % 256 ^ 1 = w := Nat.mod_eq_of_lt
  have e4 : ∀ {w : Nat}, w < 2 ^ 32 → w % 256 ^ 4 = w := Nat.mod_eq_of_lt
  have e8 : ∀ {w : Nat}, w < 2 ^ 64 → w % 256 ^ 8 = w := Nat.mod_eq_of_lt
  unfold pktParse
  rw [hdata]
  simp only [pktHeader, List.append_assoc, leAt_append_skip, leAt_leBytes_append, Nat.reduceLeDiff, Nat.reduceSub, f0, f1, f2, f3, e2 hdst,
    e2 hsrc, e2 hvia, e1 hkind, e4 hpseq, e2 htag, e1 hhops, e1 hpart, e8 haddr, e4 hlen, e2 hstatus, e2 hcause]
/-- A header whose reserved flags are zero is spelt by the packet that it reads as. -/
theorem pktHeader_pktParse (hlen : v.length = 32) (hflags : leAt v 7 1 < 16) : pktHeader (pktParse v) = v := by
  have hf := flags_spell _ hflags
  simp only [pktHeader, pktParse, hf, leBytes_leAt]
  simp only [bytesAt_append_bytesAt v 0, Nat.reduceAdd, bytesAt_self hlen]

/-- Settles O60: each field is read at the place where the header has it, and the pieces of a header are its bytes. -/
theorem packetHeadersReadBack : Obligations.PacketHeadersReadBack :=
  ⟨pktParse_pktHeader, fun _ => pktHeader_pktParse⟩

end Sys2Proof.Machine
end

section
/-! SUPPORT. The SMBus target and boundary scan (O55), and the front of the queue (O56). -/
namespace Sys2Proof.Machine
open Sys2Proof Sys2Proof.Machine

/-! ### The SMBus target and boundary scan -/

section
variable {b : Blk} (hpow : b.dev.powered = true)
include hpow

theorem smbSay_powered (v : List Byte) : b.smbSay v = { b with board := { b.board with smb := v } } := if_pos hpow
theorem smbClear_powered (v : Nat) : b.smbClear v = { b with board := { b.board with alerts := alertsClear b.board.alerts v } } := if_pos hpow
theorem smbMask_powered (v : Nat) : b.smbMask v = b.cfgSet 0xF10 (fld v 3 1 * 0x200) := if_pos hpow
/-- BYPASS, IDCODE and SAMPLE/PRELOAD. -/
theorem tapLoad_low {ir : Nat} (dr : List Byte) (hir : ir < 3) : b.tapLoad ir dr = { b with board := { b.board with tapIr := ir, tapDr := dr } } := by
  simp [Blk.tapLoad, hpow, Nat.not_le.mpr hir]
/-- The three instructions that drive pins. -/
theorem tapLoad_high {ir : Nat} (dr : List Byte) (hir : 3 ≤ ir) : b.tapLoad ir dr =
    if b.dev.mrstLow then { b with board := { b.board with tapIr := ir } } else { b with board := { b.board with tapIr := 0, tapDr := [0#8] } } := by
  simp [Blk.tapLoad, hpow, hir]
end

theorem does_of_upd {s : State} {i : Instr} {f : Blk → Blk} {P : Blk → Prop} (he : exec i s = s.upd f) (hP : P (f s.blk)) : s.does i P :=
  ⟨f s.blk, he, hP⟩

theorem smbSay_does {s : State} {i : Instr} {f : Blk → List Byte} (hpow : s.blk.dev.powered = true) (he : exec i s = s.upd fun b => b.smbSay (f b)) :
    s.does i fun t => t = { s.blk with board := { s.blk.board with smb := f s.blk } } :=
  does_of_upd he (smbSay_powered hpow _)
theorem tapLoad_does {s : State} {i : Instr} {ir : Nat} {dr : List Byte} (hpow : s.blk.dev.powered = true) (hir : ir < 3)
    (he : exec i s = s.upd fun b => b.tapLoad ir dr) : s.does i fun t => t = { s.blk with board := { s.blk.board with tapIr := ir, tapDr := dr } } :=
  does_of_upd he (tapLoad_low hpow dr hir)

/-- Settles O55: each answer and each load is one assignment to the board's registers, and the mask is one configuration word. -/
theorem boardBus : Obligations.BoardBus := by
  intro s hpow
  refine ⟨smbSay_does (f := fun _ => leBytes 8 dvId) hpow rfl, smbSay_does (f := fun _ => leBytes 8 Config.serial.toNat) hpow rfl,
    smbSay_does (f := fun b => leBytes 2 (toTwos 16 b.board.tj)) hpow rfl, smbSay_does (f := fun b => leBytes 2 b.alertWord) hpow rfl,
    smbSay_does (f := Blk.smbSupply) hpow rfl, smbSay_does (f := Blk.smbStatus) hpow rfl, fun v => ?_, fun v hcanon => ?_,
    tapLoad_does hpow (by decide) rfl, tapLoad_does hpow (by decide) rfl, fun pins => tapLoad_does hpow (by decide) rfl, fun ir hir => ?_⟩
  · exact does_of_upd (f := fun b => b.smbClear v) rfl (by rw [smbClear_powered hpow]; exact ⟨rfl, rfl⟩)
  · obtain ⟨-, hcfg, -⟩ := hcanon
    have hfld : fld v 3 1 * 0x200 < 2 ^ 64 := by
      have : fld v 3 1 < 2 ^ 3 := by unfold fld; exact Nat.mod_lt _ (by decide)
      omega
    refine does_of_upd (f := fun b => b.smbMask v) rfl ?_
    rw [smbMask_powered hpow]
    exact ⟨rfl, by rw [cfgGet_cfgSet _ _ _ hcfg, Nat.mod_eq_of_lt hfld]⟩
  · have hrow : exec (if ir = 0 then Instr.tapExtest else if ir = 1 then .tapExtestPulse else .tapExtestTrain) s = s.upd fun b => b.tapLoad (3 + ir) [] := by
      obtain rfl | rfl | rfl : ir = 0 ∨ ir = 1 ∨ ir = 2 := by omega
      all_goals rfl
    have hload := tapLoad_high hpow (ir := 3 + ir) [] (Nat.le_add_right 3 ir)
    cases hlow : s.blk.dev.mrstLow with
    | true => exact does_of_upd hrow (by simp [hload, hlow])
    | false => exact does_of_upd hrow (by simp [hload, hlow])

/-! ### The front of the queue -/

/-- Settles O56: both cases of the step function. -/
theorem stepRunsTheFront : Obligations.StepRunsTheFront := ⟨fun _ _ _ => rfl, fun _ => rfl⟩

end Sys2Proof.Machine
end

section
/-! SUPPORT. The end of the only uncompleted command, whatever its status, and the events sent after it; firmware, certificate and reports (O7). -/
namespace Sys2Proof.Machine
open Sys2Proof Sys2Proof.Machine

variable {b x y z : Blk} {m : Msg} {c : Cmd} {st det : Nat} {pay : List Byte}

/-! ### The only command ends -/

theorem closeDet_given (hd : det < openDet) : x.closeDet det = (det, x) := by
  rw [Blk.closeDet, if_neg (Nat.ne_of_lt hd), Nat.mod_eq_of_lt (by exact hd)]
/-- What holds once the only uncompleted command has ended: it is answered, nothing goes on, and beside the host side nothing changed. -/
structure Blk.EndsOnly (b y : Blk) (c : Cmd) (st det : Nat) (pay : List Byte) : Prop where
  answered : y.answered c.m st det pay
  cmds : y.host.cmds = []
  same : b.SameButHost y
  opened : (y.ctx c.m.ctx).st ≠ 0
theorem Blk.EndsOnly.rests (h : b.EndsOnly y c st det pay) (hstill : b.still = true) : y.rests = true := by
  simp [Blk.rests, h.cmds, h.same.still, hstill]
/-- One command is uncompleted, which has no deadline, an open context and no place in the log of a span. -/
structure Blk.Alone (b : Blk) (c : Cmd) : Prop where
  cmds : b.host.cmds = [c]
  plain : c.flag 13 = false
  opened : (b.ctx c.m.ctx).st ≠ 0
  unlogged : b.logged c.m.ctx c.m.seq = false
  notHello : c.m.opcode ≠ 1
theorem Blk.Alone.of_onlyWaits (h : b.onlyWaits c = true) : b.Alone c := by
  obtain ⟨-, hcmds, -, h13, hctx, hspans, hop⟩ := onlyWaits_facts h
  refine ⟨hcmds, h13, ?_, by simp [Blk.logged, hspans], hop⟩
  rw [show b.ctx c.m.ctx = b.ctx c.ctx from rfl, hctx]
  decide
theorem Blk.Alone.congr (h : b.Alone c) (hh : y.host = b.host) (hs : y.spans = b.spans) : y.Alone c :=
  ⟨by rw [hh, h.cmds], h.plain, by unfold Blk.ctx; rw [hh]; exact h.opened, (logged_congr hs).trans h.unlogged, h.notHello⟩
theorem Blk.Alone.sends (h : b.Alone c) (hsend : b.Sends y) (hs : y.spans = b.spans) : y.Alone c :=
  ⟨hsend.cmds.trans h.cmds, h.plain, by rw [(hsend.ctx _ h.opened).1]; exact h.opened, (logged_congr hs).trans h.unlogged, h.notHello⟩
theorem finish_alone (h : b.Alone c) (hk : st ≠ stOK ∨ dKind c.m.opcode = true) (hd : det < openDet) :
    b.EndsOnly (b.finish c st det pay) c st det pay := by
  obtain ⟨hcmds, h13, hopen, hlog, hop⟩ := h
  have he : b.finish c st det pay = (b.dropCmd c).finalReply c.m (c.m.opcode != 1) st det pay := by
    rw [finish_eq h13 hlog, closeDet_given hd, if_neg]
    rcases hk with hk | hk <;> simp [hk]
  refine ⟨finish_answered h13 hlog hop hopen hd, by simp [finish_cmds h13 hlog, hcmds], ?_, ?_⟩
  · rw [he]
    exact dropCmd_sameButHost.trans (finalReply_sameButHost _ _ _ _)
  · rw [he, (finalReply_ctx _ _ _ _ _ _).1]
    exact hopen
theorem finish_end (h : b.onlyWaits c = true) (hk : st ≠ stOK ∨ dKind c.m.opcode = true) (hd : det < openDet) :
    b.EndsOnly (b.finish c st det pay) c st det pay := finish_alone (.of_onlyWaits h) hk hd
/-- What is sent afterwards changes nothing of this. -/
theorem Blk.EndsOnly.sends (h : b.EndsOnly y c st det pay) (hs : y.Sends z) (hsame : y.SameButHost z) : b.EndsOnly z c st det pay := by
  have hctx := hs.ctx _ h.opened
  refine ⟨?_, hs.cmds.trans h.cmds, h.same.trans hsame, by rw [hctx.1]; exact h.opened⟩
  have htide : z.tide = y.tide := by rw [← hsame.eq]
  obtain ⟨-, -, -, -, -, -, -, -, -, hreplies⟩ := hctx
  rw [Blk.answered, hreplies, htide]
  exact h.answered
theorem Blk.EndsOnly.event (h : b.EndsOnly y c st det pay) (l : List Nat) (op : Nat) (v : List Byte) : b.EndsOnly (y.eventTo l op v) c st det pay :=
  h.sends (eventTo_sends l op v) (eventTo_sameButHost l op v)

theorem Blk.SameButHost.exists_host (h : x.SameButHost y) : ∃ k, y = { x with host := k } := ⟨y.host, h.eq.symm⟩

/-! ### A command that is accepted (R48) -/

/-- An accepted command is the only one, and beside the host side its acceptance only measures it. -/
theorem accept_alone (h : b.takes m = true) (hop : m.opcode ≠ 1) : ((b.entered m).accept (b.asCmd m)).Alone (b.accepted m) := by
  obtain ⟨-, -, hlog, h13, -⟩ := takes_facts h
  refine ⟨accept_entered_cmds, h13, accept_open_of_host rfl h, ?_, hop⟩
  have hspans : ((b.entered m).accept (b.asCmd m)).spans = b.spans := accept_entered_sameButHost.spans.trans (by simp)
  exact (logged_congr hspans).trans hlog
theorem accept_still (h : b.takes m = true) : ((b.entered m).accept (b.asCmd m)).still = true := by
  obtain ⟨-, hstill, -⟩ := takes_facts h
  rw [accept_entered_sameButHost.still, still_congr (x := b.measureCmd m) (b := b) (by simp) (by simp) (by simp)]
  exact hstill
/-- It waits, where its rule leaves it so. -/
theorem command_wait (h : b.takes m = true) (hr : (b.entered m).runOp (b.asCmd m) = z) (hcmds : z.host.cmds = [b.accepted m]) (hs : z.still = true) :
    b.command m = z ∧ z.awaits m :=
  ⟨command_waits h hr (by simp [Blk.noneReady, hcmds, Blk.accepted]) hs, by simp [Blk.awaits, hcmds, Blk.accepted, Blk.asCmd]⟩
/-- It ends as it starts, where its rule ends it. -/
theorem command_end (h : b.takes m = true) (hr : (b.entered m).runOp (b.asCmd m) = x.finish (b.accepted m) st det pay) (ha : x.Alone (b.accepted m))
    (hs : x.still = true) (hk : st ≠ stOK ∨ dKind m.opcode = true) (hd : det < openDet) : x.EndsOnly (b.command m) (b.accepted m) st det pay := by
  rw [(command_ends_as (c := b.accepted m) h rfl hr (fun d hm => by rw [ha.cmds, List.mem_singleton] at hm; rw [hm]; rfl) hs ha.unlogged).1]
  exact finish_alone ha hk hd

/-! ### The load and verification of an image (R453, R489) -/

theorem measureCmd_other {op : Nat} (hop : m.opcode = op) (hm : op ∈ [0x002, 0x501, 0x502, 0x703]) : x.measureCmd m = x := by
  simp only [List.mem_cons, List.not_mem_nil, or_false] at hm
  unfold Blk.measureCmd
  rcases hm with rfl | rfl | rfl | rfl <;> simp [hop]
theorem doFwLoad_loads (hparam : 0 < c.m.param) (hmax : c.m.param ≤ imageMax) (hmain : b.board.mainOk = true) (hload : b.fw.loader = none) :
    b.doFwLoad c = { b.accept c with fw := { (b.accept c).fw with loader := some (c.ctx, c.seq), loading := c.got } } := by
  simp [Blk.doFwLoad, Nat.pos_iff_ne_zero.mp hparam, Nat.not_lt.mpr hmax, hmain, hload]
/-- What a fold over keys writes at each of them holds at each of them. -/
theorem sget_foldl_sset {α : Type} [DecidableEq α] {d : Nat → α} {f : Nat → α → α} {P : α → Prop} (hf : ∀ i v, f i v ≠ d i) (hP : ∀ i v, P (f i v))
    (l : List Nat) (a : List (Nat × α)) (k : Nat) (hk : k ∈ l ∨ P (sget d a k)) : P (sget d (l.foldl (fun a i => sset d a i (f i (sget d a i))) a) k) := by
  induction l generalizing a with
  | nil => exact hk.resolve_left (by simp)
  | cons i l ih =>
    refine ih _ ?_
    by_cases hi : k = i
    · rw [hi, sget_sset_new (hf _ _)]
      exact .inr (hP _ _)
    · rw [sget_sset_ne hi]
      exact hk.imp_left fun h => (List.mem_cons.mp h).resolve_left hi
/-- A boot accept: the firmware runs without a certificate, and every stack trains. -/
theorem bootAccept_fw (v : List Byte) : (x.bootAccept v).fw.running = some (imageRec v) ∧ (x.bootAccept v).fw.certReady = false ∧
    (x.bootAccept v).fw.loader = none := by
  simp only [Blk.bootAccept, Blk.draw, and_self]
theorem bootAccept_trains (v : List Byte) (k : Nat) (hk : k < nStacks) : ((x.bootAccept v).stack k).training = true := by
  have hall := sget_foldl_sset (d := fun _ => ({} : Stack)) (P := fun s : Stack => s.training = true) (f := fun _ s => { s with training := true })
    (fun _ _ => ne_of_apply_ne Stack.training (by simp)) (fun _ _ => rfl) (List.range nStacks) x.hbmStacks k (.inl (List.mem_range.mpr hk))
  unfold Blk.bootAccept Blk.draw Blk.stack
  generalize List.range nStacks = l at hall ⊢
  exact hall
theorem bootAccept_dev (v : List Byte) : (x.bootAccept v).dev = { x.dev with svc := true, reachedSvc := true } := by
  simp only [Blk.bootAccept, Blk.draw]
theorem bootAccept_frame (v : List Byte) :
    { x with free := (x.bootAccept v).free, fw := (x.bootAccept v).fw, dev := (x.bootAccept v).dev, hbmStacks := (x.bootAccept v).hbmStacks } = x.bootAccept v := by
  simp only [Blk.bootAccept, Blk.draw]

section
variable (hload : b.fw.loader = some (c.ctx, c.seq)) (hcmds : b.host.cmds = [c]) (hsvc : b.dev.svc = false)
include hload hcmds hsvc
theorem fwVerifyDone_accepts (hv : imageValid b.fw.loading = true) : b.fwVerifyDone =
    ((({ b with fw := { b.fw with loader := none, loading := [] } } : Blk).bootAccept b.fw.loading).finish c stOK 0 []).readyEvent 1 0 0 := by
  have hc : (({ b with fw := { b.fw with loader := none, loading := [] } } : Blk).bootAccept b.fw.loading).cmdOf c.ctx c.seq = some c := cmdOf_only hcmds
  unfold Blk.fwVerifyDone
  simp only [hload, hsvc, hv, hc]
  rfl
theorem fwVerifyDone_refuses (hv : imageValid b.fw.loading = false) : b.fwVerifyDone =
    ({ b with fw := { b.fw with loader := none, loading := [] } } : Blk).finish c stNOPERM 3 [] := by
  have hc : ({ b with fw := { b.fw with loader := none, loading := [] } } : Blk).cmdOf c.ctx c.seq = some c := cmdOf_only hcmds
  unfold Blk.fwVerifyDone
  simp only [hload, hsvc, hv, hc]
  rfl
end

/-! ### The certificate and reports (R492, R494) -/

theorem certSigned_signs (hrun : b.fw.running.isSome = true) (hcert : b.fw.certReady = false) : b.certSigned =
    { b with fw := { b.fw with cert := b.certBody ++ bytesAt (Config.slhSignId Config.fusedSeed b.certBody) 0 29792, certReady := true, idErased := true } } := by
  unfold Blk.certSigned
  rw [if_neg]
  simp [hcert, Option.isNone_eq_false_iff.mpr hrun]
/-- A report looks at nothing of the host side. -/
theorem report_congr (h : x.SameButHost y) (v : List Byte) (p : Nat) : y.report v p = x.report v p := by
  rw [← h.eq]
  rfl
theorem runOp_attest (hop : m.opcode = 0x0703) (hparam : m.param = 0) (hpart : nParts ≤ m.partition ∨ (b.part m.partition).st ≠ 0)
    (hcert : b.fw.certReady = true) : (b.entered m).runOp (b.asCmd m) =
      ((b.entered m).accept (b.asCmd m)).finish (b.accepted m) stOK 0 (b.report m.payload m.partition) := by
  have hsame : b.SameButHost ((b.entered m).accept (b.asCmd m)) := by
    have := accept_entered_sameButHost (b := b) (m := m) (pay := [])
    rwa [measureCmd_other hop (by decide)] at this
  have hready : ((b.entered m).accept (b.asCmd m)).fw.certReady = true := by rw [← hsame.eq]; exact hcert
  have hmay : (decide (m.partition < nParts) && decide (((b.entered m).part m.partition).st = 0)) = false := by
    rw [entered_part]
    rcases hpart with h | h
    · simp [Nat.not_lt.mpr h]
    · simp [h]
  rw [runOp_eq (op := 0x0703) hop rfl]
  show (b.entered m).doAttest (b.asCmd m) = _
  unfold Blk.doAttest Blk.pollAttest
  rw [if_neg (by simp [Blk.asCmd, hparam]), if_neg (by rw [show (b.asCmd m).part = m.partition from rfl, hmay]; decide), if_pos hready, report_congr hsame]
  rfl

/-! ### O7 -/

/-- Settles O7: each row runs its rule once, and the command that waits for the verification is the only one. -/
theorem firmwareLoadsAndReports : Obligations.FirmwareLoadsAndReports := by
  unfold Obligations.FirmwareLoadsAndReports
  refine ⟨?_, ?_, ?_, ?_⟩
  · intro s m h hop hparam hmax hmain hload
    obtain ⟨-, hstill, -⟩ := takes_facts h
    have hacc : s.blk.SameButHost ((s.blk.entered m).accept (s.blk.asCmd m)) := by
      have := accept_entered_sameButHost (b := s.blk) (m := m) (pay := [])
      rwa [measureCmd_other hop (by decide)] at this
    have hfw : ((s.blk.entered m).accept (s.blk.asCmd m)).fw = s.blk.fw := by rw [← hacc.eq]
    have hr : (s.blk.entered m).runOp (s.blk.asCmd m) = { (s.blk.entered m).accept (s.blk.asCmd m) with
        fw := { s.blk.fw with loader := some (m.ctx, m.seq), loading := m.bulk } } := by
      rw [runOp_eq (op := 0x0002) hop rfl, ← hfw]
      exact doFwLoad_loads hparam hmax (by simpa using hmain) (by simpa using hload)
    obtain ⟨he, hwait, hhost⟩ := command_accepts (c := s.blk.asCmd m) (y := s.blk.entered m) rfl rfl rfl h hr rfl
      (hacc.still.trans hstill :)
    refine does_of_updIf rfl (isFor_takes h hop) ?_
    change s.blk.command m = _ at he
    rw [he]
    exact ⟨hwait, rfl, rfl, rfl, by rw [← hacc.eq], hhost⟩
  · intro s c honly hop hsvc hload
    obtain ⟨hstill, hcmds, -⟩ := onlyWaits_facts honly
    have hd : dKind c.m.opcode = true := by rw [hop]; rfl
    cases hv : imageValid s.blk.fw.loading with
    | true =>
      have he := fwVerifyDone_accepts hload hcmds hsvc hv
      generalize hx : ({ s.blk with fw := { s.blk.fw with loader := none, loading := [] } } : Blk).bootAccept s.blk.fw.loading = x at he
      obtain ⟨hrun, hcert, hnone⟩ : x.fw.running = some (imageRec s.blk.fw.loading) ∧ x.fw.certReady = false ∧ x.fw.loader = none :=
        hx ▸ bootAccept_fw _
      have htrain : ∀ k, k < 16 → (x.stack k).training = true := hx ▸ bootAccept_trains _
      have hdev : x.dev = { s.blk.dev with svc := true, reachedSvc := true } := hx ▸ bootAccept_dev _
      have hframe : { s.blk with free := x.free, fw := x.fw, dev := x.dev, hbmStacks := x.hbmStacks } = x := hx ▸ bootAccept_frame _
      have honly' : x.onlyWaits c = true := by
        rw [← hframe]
        exact honly
      have hend := (finish_end (st := stOK) (det := 0) (pay := []) honly' (.inr hd) (by decide)).event [0] evREADY (readyBytes 1 0 0)
      rw [show (x.finish c stOK 0 []).eventTo [0] evREADY (readyBytes 1 0 0) = s.blk.fwVerifyDone from he.symm] at hend
      refine ⟨s.blk.fwVerifyDone, ?_, ?_⟩
      · rw [show exec .fwVerifyDone s = .next { s with blk := s.blk.fwVerifyDone.pump } from rfl, pump_rests (hend.rests (by rw [← hframe]; exact hstill))]
      · have hans := hend.answered
        have hcmds' := hend.cmds
        obtain ⟨k, hk⟩ := hend.same.exists_host
        rw [hk] at hans hcmds' ⊢
        exact ⟨hans, hcmds', hnone, by rw [hdev], fun _ => ⟨hrun, hcert, htrain⟩, by rw [hdev], by rw [← hframe]⟩
    | false =>
      have hend := finish_end (b := { s.blk with fw := { s.blk.fw with loader := none, loading := [] } }) (c := c) (st := stNOPERM) (det := 3) (pay := [])
        honly (.inl (by decide)) (by decide)
      rw [← fwVerifyDone_refuses hload hcmds hsvc hv] at hend
      refine ⟨s.blk.fwVerifyDone, ?_, ?_⟩
      · rw [show exec .fwVerifyDone s = .next { s with blk := s.blk.fwVerifyDone.pump } from rfl, pump_rests (hend.rests hstill)]
      · have hans := hend.answered
        have hcmds' := hend.cmds
        obtain ⟨k, hk⟩ := hend.same.exists_host
        rw [hk] at hans hcmds' ⊢
        exact ⟨hans, hcmds', rfl, hsvc, fun h => absurd h (by decide), rfl, rfl⟩
  · intro s hrests hrun hcert
    refine ⟨s.blk.certSigned, ?_, by rw [certSigned_signs hrun hcert]; exact ⟨rfl, rfl, rfl, rfl, rfl⟩⟩
    rw [show exec .certSigned s = .next { s with blk := s.blk.certSigned.pump } from rfl, pump_rests]
    rw [certSigned_signs hrun hcert]
    exact hrests
  · intro s m h hop hparam hpart hcert
    have hpart' : nParts ≤ m.partition ∨ (s.blk.part m.partition).st ≠ 0 := hpart.imp_left fun e => by rw [e]; decide
    have hr := runOp_attest hop hparam hpart' hcert
    have hend := command_end h hr (accept_alone h (by rw [hop]; decide)) (accept_still h) (.inr (by rw [hop]; rfl)) (by decide)
    have hacc := accept_entered_sameButHost (b := s.blk) (m := m) (pay := [])
    rw [measureCmd_other hop (by decide)] at hacc
    obtain ⟨-, hstill, hlog, -⟩ := takes_facts h
    obtain ⟨-, -, hhost⟩ := command_accept_ends (y := s.blk.entered m) h (by rw [hop]; rfl) (by rw [hop]; decide) (measureCmd_other hop (by decide))
      rfl (entered_still.trans hstill) ((entered_logged _ _).trans hlog) hr
    exact does_of_updIf rfl (isFor_takes h hop) ⟨hend.answered, hend.cmds, (hacc.trans hend.same).eq, hhost⟩

end Sys2Proof.Machine
end

section
/-! SUPPORT. What control packets, replies and floods change: queues of links, counters, sequence numbers and fallback flags, and nothing else (R407 to R411, R436, R447). -/
namespace Sys2Proof.Machine
open Sys2Proof Sys2Proof.Machine

variable {b x y z : Blk} {p : Pkt}

/-! ### What stays when packets leave -/

/-- Nothing changes but counters, the links, the sequence numbers of faces and fallback flags. -/
structure Blk.Leaves (x y : Blk) : Prop where
  eq : { x with cfg := y.cfg, links := y.links, slice := { x.slice with faceTx := y.slice.faceTx, fallback := y.slice.fallback } } = y
theorem Blk.Leaves.refl : x.Leaves x := ⟨rfl⟩
theorem Blk.Leaves.trans (h : x.Leaves y) (g : y.Leaves z) : x.Leaves z := ⟨by rw [← g.eq, ← h.eq]⟩
theorem Blk.Leaves.host (h : x.Leaves y) : y.host = x.host := by rw [← h.eq]
theorem Blk.Leaves.mode (h : x.Leaves y) : y.mode = x.mode := by rw [← h.eq]
theorem Blk.Leaves.chipSame (h : x.Leaves y) : x.chipSame y := by rw [← h.eq]; rfl
theorem leaves_foldl {α : Type} (f : Blk → α → Blk) (l : List α) (hf : ∀ (w : Blk) a, w.Leaves (f w a)) : x.Leaves (l.foldl f x) := by
  induction l generalizing x with
  | nil => exact .refl
  | cons a l ih => exact (hf x a).trans ih

/-! ### Packets that leave over a face -/

theorem count_leaves (off n : Nat) : x.Leaves (x.count off n) := ⟨rfl⟩
theorem setLink_leaves (k : Nat) (l : Link) : x.Leaves (x.setLink k l) := ⟨rfl⟩
theorem linkSend_leaves (k : Nat) (v : List Byte) : x.Leaves (x.linkSend k v) := ⟨rfl⟩
theorem transmit_leaves (k : Nat) : x.Leaves (x.transmit k) := (setLink_leaves _ _).trans (count_leaves _ _)
theorem enterFace_leaves (f : Nat) : x.Leaves (x.enterFace f p) := by
  unfold Blk.enterFace
  split
  · exact .refl
  · exact (Blk.Leaves.mk rfl : x.Leaves _).trans (transmit_leaves _)
theorem sendHop_leaves (f : Nat) : x.Leaves (x.sendHop p f) := enterFace_leaves f
theorem dropPkt_leaves : x.Leaves x.dropPkt := count_leaves _ _
theorem setFallback_leaves (d : Nat) : x.Leaves (x.setFallback d) := by
  unfold Blk.setFallback
  split
  · exact ⟨rfl⟩
  · exact .refl
/-- A packet that is not held in doubt about a mode change leaves over a face, or nothing of it remains (R410, R411, R449). -/
theorem originate_leaves (hheld : ¬ (x.mode.phase = 2 ∧ (kindClass p.kind = 1 ∨ kindClass p.kind = 3))) : x.Leaves (x.originate p).1 := by
  unfold Blk.originate
  simp only
  rw [if_neg (by simpa using hheld)]
  split
  · exact .refl
  · split
    · exact sendHop_leaves _
    · have hdrop : x.Leaves (x.dropPkt.setFallback p.dst) := dropPkt_leaves.trans (setFallback_leaves _)
      split
      · exact hdrop
      · split
        · exact hdrop
        · split
          · exact hdrop.trans ((count_leaves _ _).trans (sendHop_leaves _))
          · exact hdrop.trans dropPkt_leaves
/-- Replies, notices and control packets are never held. -/
theorem sendReply_leaves (hkind : kindClass p.kind = 0 ∨ kindClass p.kind = 2) : x.Leaves (x.sendReply p) := by
  have hsent := originate_leaves (x := x) (p := p) fun h => by omega
  unfold Blk.sendReply
  simp only
  split
  · exact hsent
  · exact hsent.trans dropPkt_leaves
theorem sendCtl_leaves {d kind n sig : Nat} {v : List Byte} (hkind : 0x20 ≤ kind) : x.Leaves (x.sendCtl (ctlPkt d kind n sig v)) :=
  sendReply_leaves (.inl (if_pos hkind))

/-! ### Floods (R447) -/

theorem floodOn_leaves (e : Option Nat) : x.Leaves (x.floodOn p e) := by
  refine leaves_foldl _ _ fun w f => ?_
  split
  · split
    · exact sendHop_leaves _
    · exact .refl
  · exact .refl

/-- Nothing changes but counters, the links, the sequence numbers of faces, fallback flags, and which floods were seen. -/
structure Blk.OnFabric (x y : Blk) : Prop where
  eq : { x with cfg := y.cfg, links := y.links, slice := { x.slice with faceTx := y.slice.faceTx, fallback := y.slice.fallback }, mode := { x.mode with seen := y.mode.seen, floods := y.mode.floods } } = y
theorem Blk.OnFabric.refl : x.OnFabric x := ⟨rfl⟩
theorem Blk.OnFabric.trans (h : x.OnFabric y) (g : y.OnFabric z) : x.OnFabric z := ⟨by rw [← g.eq, ← h.eq]⟩
theorem Blk.OnFabric.of_links (c l) : x.OnFabric { x with cfg := c, links := l } := ⟨rfl⟩
theorem Blk.OnFabric.host (h : x.OnFabric y) : y.host = x.host := by rw [← h.eq]
theorem Blk.OnFabric.still (h : x.OnFabric y) : y.still = x.still := by rw [← h.eq]; rfl
theorem Blk.OnFabric.rests (h : x.OnFabric y) : y.rests = x.rests := by rw [← h.eq]; rfl
theorem Blk.OnFabric.tide (h : x.OnFabric y) : y.tide = x.tide := by rw [← h.eq]
theorem Blk.OnFabric.chipSame (h : x.OnFabric y) : x.chipSame y := by rw [← h.eq]; rfl
theorem Blk.Leaves.onFabric (h : x.Leaves y) : x.OnFabric y := ⟨by rw [← h.eq]⟩
theorem sendCtl_onFabric {d kind n sig : Nat} {v : List Byte} (hkind : 0x20 ≤ kind) : x.OnFabric (x.sendCtl (ctlPkt d kind n sig v)) :=
  (sendCtl_leaves hkind).onFabric
theorem flood_onFabric : x.OnFabric (x.flood p) := .trans ⟨rfl⟩ ((floodOn_leaves _).onFabric)
theorem forwardFlood_onFabric (k : Nat) : x.OnFabric (x.forwardFlood k p) := .trans ⟨rfl⟩ ((floodOn_leaves _).onFabric)

/-! ### A machine on which only one started command waits -/

theorem Blk.OnFabric.onlyWaits {c : Cmd} (h : x.OnFabric y) : y.onlyWaits c = x.onlyWaits c := onlyWaits_congr h.host (by rw [← h.eq]) h.still
/-- The opcodes whose started commands are looked at again. -/
def polledOps : List Nat := [0x202, 0x300, 0x301, 0x402, 0x400, 0x100, 0x101, 0x004, 0x800, 0x703]
theorem pollCmd_other {c : Cmd} (hop : c.m.opcode ∉ polledOps) : b.pollCmd c = b := by
  simp only [polledOps, List.mem_cons, List.not_mem_nil, or_false, not_or] at hop
  unfold Blk.pollCmd
  simp [hop]
/-- With only a started command that is not looked at again, nothing goes on. -/
theorem pump_onlyWaits {c : Cmd} (h : b.onlyWaits c = true) (hop : c.m.opcode ∉ polledOps) : b.pump = b := by
  obtain ⟨hstill, hcmds, hstart, -⟩ := onlyWaits_facts h
  have hpoll : b.pollCmds = b := by
    unfold Blk.pollCmds
    simp [hcmds, hstart, cmdOf_only hcmds, pollCmd_other hop]
  have hcmd : b.pumpCmds = b := by
    unfold Blk.pumpCmds
    split
    · rfl
    · rw [hpoll, startReady_none _ (by simp [Blk.noneReady, hcmds, hstart])]
  rw [Blk.pump, hcmd, still_tail hstill]

end Sys2Proof.Machine
end

section
/-! SUPPORT. Slice barriers arrive and release (R444). -/
namespace Sys2Proof.Machine
open Sys2Proof Sys2Proof.Machine

variable {b x y : Blk} {m : Msg} {c : Cmd} {p : Pkt} {n : Nat} {pay : List Byte}

/-- The end of the only barrier that waits here is the end of its command. -/
theorem barEnd_only (hcmds : x.host.cmds = [c]) (h13 : c.flag 13 = false) (hw : x.bars.waiting = [(n, c.ctx, c.seq)]) :
    x.barEnd n stOK 0 pay = ({ x with bars := { x.bars with waiting := [] } } : Blk).finish c stOK 0 pay := by
  have hc : ({ x with bars := { x.bars with waiting := [] } } : Blk).cmdOf c.ctx c.seq = some c := cmdOf_only hcmds
  unfold Blk.barEnd
  simp only [hw, List.find?_cons_of_pos, beq_self_eq_true, List.filter_cons, bne_self_eq_false, Bool.false_eq_true, if_false, List.filter_nil, hc, h13]
  simp

/-! ### Arrivals at the Harbourmaster -/

/-- The devices that have arrived, once one more has. -/
def Blk.arrivedWith (b : Blk) (dev n : Nat) : List Nat :=
  let l := sget (fun _ => ([] : List Nat)) b.bars.arrived n
  if l.contains dev then l else l ++ [dev]
theorem arrivedWith_ne_nil (dev : Nat) : b.arrivedWith dev n ≠ [] := by
  unfold Blk.arrivedWith
  simp only
  split
  · next h => exact fun e => by rw [e] at h; exact absurd h (by simp)
  · simp
theorem barArrive_counts {dev : Nat} (hh : b.slice.harbour = true) (hall : b.members.all (b.arrivedWith dev n).contains = false) :
    b.barArrive dev n = { b with bars := { b.bars with arrived := sset (fun _ => []) b.bars.arrived n (b.arrivedWith dev n) } } := by
  unfold Blk.barArrive
  rw [if_neg (by simp [hh])]
  exact if_neg (by rw [Bool.not_eq_true]; exact hall)
/-- The machine as the last arrival releases a barrier: its number is no longer counted, and the release leaves. -/
def Blk.barReleased (b : Blk) (n : Nat) : Blk :=
  ({ b with bars := { b.bars with arrived := sset (fun _ => []) b.bars.arrived n [] } } : Blk).flood (ctlPkt 0 0x24 n 0 (leBytes 8 b.tide))
theorem barArrive_releases {dev : Nat} (hh : b.slice.harbour = true) (hall : b.members.all (b.arrivedWith dev n).contains = true) :
    b.barArrive dev n = (b.barReleased n).barEnd n stOK 0 (leBytes 8 b.tide) := by
  unfold Blk.barArrive
  rw [if_neg (by simp [hh])]
  exact if_pos hall
theorem barReleased_onFabric : ({ b with bars := { b.bars with arrived := sset (fun _ => []) b.bars.arrived n [] } } : Blk).OnFabric (b.barReleased n) :=
  flood_onFabric

/-! ### The command -/

/-- The accepted command among those that wait at a barrier. -/
def Blk.barWaits (b : Blk) (n ctx seq : Nat) : Blk := { b with bars := { b.bars with waiting := b.bars.waiting ++ [(n, ctx, seq)] } }
theorem runOp_sliceBarrier (hop : m.opcode = 0x0502) (hparam : m.param < 256) (hj : b.slice.joined = true) (hw : b.bars.waiting = [])
    (hmiss : b.slice.missing = []) : (b.entered m).runOp (b.asCmd m) =
      let w := ((b.entered m).accept (b.asCmd m)).barWaits m.param m.ctx m.seq
      if b.slice.harbour then w.barArrive b.slice.devid m.param else w.sendCtl (ctlPkt b.slice.hmid 0x23 m.param 0) := by
  rw [runOp_eq (op := 0x0502) hop rfl]
  show (b.entered m).doSliceBarrier (b.asCmd m) = _
  have hs : (b.entered m).slice = b.slice := by simp
  have hb : (b.entered m).bars = b.bars := by simp
  unfold Blk.doSliceBarrier
  simp only [show (b.asCmd m).m = m from rfl, hs, hb, hj, hw, hmiss, List.find?_nil, Nat.not_le.mpr hparam]
  rfl

/-- The machine on which the accepted command is the only one that waits at a barrier, and what its rule then does. -/
theorem sliceBarrier_runOp (h : b.takes m = true) (hop : m.opcode = 0x0502) (hparam : m.param < 256) (hj : b.slice.joined = true)
    (hw : b.bars.waiting = []) : ∃ w : Blk, w.Alone (b.accepted m) ∧ { b with host := w.host, bars := { b.bars with waiting := [(m.param, m.ctx, m.seq)] } } = w ∧
      (b.entered m).runOp (b.asCmd m) = if b.slice.harbour then w.barArrive b.slice.devid m.param else w.sendCtl (ctlPkt b.slice.hmid 0x23 m.param 0) := by
  have hacc := accept_entered_sameButHost (b := b) (m := m) (pay := [])
  rw [measureCmd_other hop (by decide)] at hacc
  refine ⟨((b.entered m).accept (b.asCmd m)).barWaits m.param m.ctx m.seq, (accept_alone h (by rw [hop]; decide)).congr rfl rfl, ?_,
    runOp_sliceBarrier hop hparam hj hw (still_iff.mp (takes_facts h).2.1).2.2.2⟩
  obtain ⟨k, hk⟩ := hacc.exists_host
  simp [hk, Blk.barWaits, hw]

/-! ### O45 -/

/-- The command at a barrier (the first clause of O45): it arrives at the Harbourmaster, by a packet or at once. -/
theorem sliceBarrier_command (h : b.takes m = true) (hop : m.opcode = 0x0502) (hparam : m.param < 256) (hj : b.slice.joined = true)
    (hw : b.bars.waiting = []) (hwf : swf (fun _ => ([] : List Nat)) b.bars.arrived = true) :
    let l1 := b.arrivedWith b.slice.devid m.param
    (b.slice.harbour = false → (b.command m).awaits m ∧ (b.command m).bars.waiting = [(m.param, m.ctx, m.seq)] ∧
      (b.command m).bars.arrived = b.bars.arrived ∧ b.chipSame (b.command m)) ∧
    (b.slice.harbour = true → b.members.all l1.contains = false → (b.command m).awaits m ∧ (b.command m).bars.waiting = [(m.param, m.ctx, m.seq)] ∧
      sget (fun _ => []) (b.command m).bars.arrived m.param = l1 ∧ b.chipSame (b.command m)) ∧
    (b.slice.harbour = true → b.members.all l1.contains = true → (b.command m).answered m stOK 0 (leBytes 8 b.tide) ∧ (b.command m).host.cmds = [] ∧
      (b.command m).bars.waiting = [] ∧ sget (fun _ => []) (b.command m).bars.arrived m.param = [] ∧ b.chipSame (b.command m)) := by
  obtain ⟨-, hstill, -⟩ := takes_facts h
  obtain ⟨w, halone, hframe, hr⟩ := sliceBarrier_runOp h hop hparam hj hw
  have hwstill : w.still = true := by rw [← hframe]; exact hstill
  refine ⟨fun hh => ?_, fun hh hall => ?_, fun hh hall => ?_⟩
  · rw [if_neg (by simp [hh])] at hr
    have hsent := sendCtl_onFabric (x := w) (d := b.slice.hmid) (kind := 0x23) (n := m.param) (sig := 0) (v := []) (by decide)
    obtain ⟨he, hwait⟩ := command_wait h hr (by rw [hsent.host]; exact halone.cmds) (hsent.still.trans hwstill)
    refine ⟨he ▸ hwait, ?_⟩
    rw [he, ← hsent.eq, ← hframe]
    exact ⟨rfl, rfl, rfl⟩
  · have hall' : w.members.all (w.arrivedWith b.slice.devid m.param).contains = false := by rw [← hframe]; exact hall
    rw [if_pos hh, barArrive_counts (by rw [← hframe]; exact hh) hall'] at hr
    obtain ⟨he, hwait⟩ := command_wait h hr halone.cmds hwstill
    refine ⟨he ▸ hwait, ?_⟩
    rw [he, ← hframe]
    exact ⟨rfl, sget_sset_new (arrivedWith_ne_nil _), rfl⟩
  · have hall' : w.members.all (w.arrivedWith b.slice.devid m.param).contains = true := by rw [← hframe]; exact hall
    have hrel := barReleased_onFabric (b := w) (n := m.param)
    rw [if_pos hh, barArrive_releases (by rw [← hframe]; exact hh) hall', barEnd_only (c := b.accepted m) (by rw [hrel.host]; exact halone.cmds)
      halone.plain (by rw [← hrel.eq, ← hframe]; rfl)] at hr
    have hend := command_end h hr ((halone.congr (y := w.barReleased m.param) hrel.host (by rw [← hrel.eq])).congr rfl rfl) (hrel.still.trans hwstill)
      (.inr (by rw [hop]; rfl)) (by decide)
    have hans := hend.answered
    refine ⟨?_, hend.cmds, ?_⟩
    · rwa [show w.tide = b.tide by rw [← hframe]] at hans
    · rw [← hend.same.eq, ← hrel.eq, ← hframe]
      exact ⟨rfl, sget_sset_same hwf, rfl⟩

/-- The only waiting command ends, of either kind: it is answered, and the machine beside the host, the firmware and the partitions is as it was. -/
theorem barEnd_pump (h : x.onlyWaits c = true) (hw : x.bars.waiting = [(n, c.ctx, c.seq)]) :
    (x.barEnd n stOK 0 pay).pump.answered c.m stOK 0 pay ∧ (x.barEnd n stOK 0 pay).pump.host.cmds = [] ∧ (x.barEnd n stOK 0 pay).pump.bars.waiting = [] ∧
    (x.barEnd n stOK 0 pay).pump.mem = x.mem ∧ (x.barEnd n stOK 0 pay).pump.coves = x.coves := by
  obtain ⟨-, hcmds, -, h13, -⟩ := onlyWaits_facts h
  rw [barEnd_only hcmds h13 hw]
  obtain ⟨hans, hnone, hframe⟩ := finish_waits (b := { x with bars := { x.bars with waiting := [] } }) (pay := pay) ((onlyWaits_congr rfl rfl rfl).trans h)
  refine ⟨hans, hnone, ?_⟩
  rw [← hframe]
  exact ⟨rfl, rfl, rfl⟩
theorem mine_does {s : State} {i : Instr} {ok : Bool} {f : Blk → Blk} {P : Blk → Prop} (he : exec i s = s.updIf ok fun b => (b.mine p f).pump)
    (hok : ok = true) (hdst : p.dst = s.blk.slice.devid) (hP : P (f s.blk).pump) : s.does i P :=
  does_of_updIf he hok (by rw [Blk.mine, if_pos hdst]; exact hP)

/-- Settles O45: an arrival is counted or releases, and the release ends the barrier that waits here. -/
theorem sliceBarriers : Obligations.SliceBarriers := by
  unfold Obligations.SliceBarriers
  refine ⟨?_, ?_, ?_⟩
  · intro s m h hop hparam hj hw hwf
    obtain ⟨hmember, hcounts, hlast⟩ := sliceBarrier_command h hop hparam hj hw hwf
    exact ⟨fun hh => does_of_updIf rfl (isFor_takes h hop) (hmember hh), fun hh hall => does_of_updIf rfl (isFor_takes h hop) (hcounts hh hall),
      fun hh hall => does_of_updIf rfl (isFor_takes h hop) (hlast hh hall)⟩
  · intro s p hkind hdst hh n l l1
    refine ⟨fun hrests hall => ?_, fun c honly hall hw => ?_⟩
    · refine mine_does rfl (beq_iff_eq.mpr hkind) hdst ?_
      rw [Blk.barArriveRx, barArrive_counts hh hall, pump_rests (by exact hrests)]
      exact ⟨rfl, rfl, sget_sset_new (arrivedWith_ne_nil _), fun k hk => sget_sset_ne hk⟩
    · refine mine_does rfl (beq_iff_eq.mpr hkind) hdst ?_
      have hrel := barReleased_onFabric (b := s.blk) (n := n)
      rw [Blk.barArriveRx, barArrive_releases hh hall]
      obtain ⟨hans, hnone, hwait, hmem, hcoves⟩ := barEnd_pump (pay := leBytes 8 s.blk.tide) (hrel.onlyWaits.trans honly) (by rw [← hrel.eq]; exact hw)
      exact ⟨hans, hnone, hwait, hmem.trans (by rw [← hrel.eq]), hcoves.trans (by rw [← hrel.eq])⟩
  · intro s p k hkind hk
    have hok : (decide (k < nLinks) && p.kind == 0x24) = true := by simp [hk, hkind]
    refine ⟨fun c honly hfirst hw => does_of_updIf rfl hok ?_, fun hrests hfirst => does_of_updIf rfl hok ?_⟩
    · have hsent := forwardFlood_onFabric (x := s.blk) (p := p) k
      rw [Blk.barReleaseRx, if_pos hfirst]
      obtain ⟨hans, hnone, hwait, hmem, hcoves⟩ := barEnd_pump (pay := bytesAt p.data 0 8) (hsent.onlyWaits.trans honly) (by rw [← hsent.eq]; exact hw)
      exact ⟨hans, hnone, hwait, hmem.trans (by rw [← hsent.eq]), hcoves.trans (by rw [← hsent.eq])⟩
    · rw [Blk.barReleaseRx, if_neg (by simp [hfirst]), pump_rests hrests]

end Sys2Proof.Machine
end

section
/-! SUPPORT. Devices marked missing and cleared, and crossings that reopen (R413, R476). -/
namespace Sys2Proof.Machine
open Sys2Proof Sys2Proof.Machine

variable {b x y : Blk} {p : Pkt} {d k n : Nat}

/-! ### A machine on which at most a missing device waits -/

/-- The machine would rest if no device were missing. -/
def Blk.restsButMissing (b : Blk) : Prop := ({ b with slice := { b.slice with missing := [] } } : Blk).rests = true
theorem pump_restsButMissing (h : b.restsButMissing) : b.pump = b.clearMissing := by
  have h' : ({ b with slice := { b.slice with missing := [] } } : Blk).rests = true := h
  simp only [Blk.rests, Bool.and_eq_true, still_iff, List.isEmpty_iff] at h'
  obtain ⟨⟨hbays, hchans, hnotices, -⟩, hcmds⟩ := h'
  have hcmd : b.pumpCmds = b := by
    unfold Blk.pumpCmds
    split
    · rfl
    · rw [show b.pollCmds = b by simp [Blk.pollCmds, show b.host.cmds = [] from hcmds]]
      exact startReady_none _ (by simp [Blk.noneReady, show b.host.cmds = [] from hcmds])
  have hdescs : b.pumpDescs = b := by
    unfold Blk.pumpDescs
    refine foldl_same _ _ _ fun q hq => foldl_same _ _ _ fun d hd => ?_
    rw [hbays q hq d hd]
    rfl
  have hcoll : b.collPump = b := by
    simp [Blk.collPump, collNotices_none _ (show b.slice.notices = [] from hnotices), show b.chans = [] from hchans]
  rw [Blk.pump, hcmd, hdescs, hcoll]
theorem restsButMissing_of_rests (h : b.rests = true) : b.restsButMissing := by
  simp only [Blk.rests, Bool.and_eq_true, still_iff] at h
  simp only [Blk.restsButMissing, Blk.rests, Bool.and_eq_true, still_iff, and_true]
  exact ⟨⟨h.1.1, h.1.2.1, h.1.2.2.1⟩, h.2⟩
theorem rests_iff : b.rests = true ↔ b.restsButMissing ∧ b.slice.missing = [] := by
  simp only [Blk.restsButMissing, Blk.rests, Bool.and_eq_true, still_iff, and_true]
  tauto

/-! ### A mark set or cleared -/

/-- With no command uncompleted, a barrier that ends here only leaves the list of those that wait. -/
theorem barEnd_noCmd {st det : Nat} {pay : List Byte} (h : x.host.cmds = []) : { x with bars := (x.barEnd n st det pay).bars } = x.barEnd n st det pay := by
  unfold Blk.barEnd
  split
  · rfl
  · simp [Blk.cmdOf, h]
theorem barMissing_noCmd (h : x.host.cmds = []) (d : Nat) : { x with bars := (x.barMissing d).bars } = x.barMissing d := by
  unfold Blk.barMissing
  generalize x.bars.waiting.map Prod.fst = l
  induction l generalizing x with
  | nil => rfl
  | cons n l ih =>
    have hend := barEnd_noCmd (x := x) (n := n) (st := stABSENT) (det := d) (pay := []) h
    have hnone : (x.barEnd n stABSENT d []).host.cmds = [] := by rw [← hend]; exact h
    have hrest := ih hnone
    rw [List.foldl_cons, ← hrest, ← hend]

/-- A change of what is marked missing, with what the host side hears of it and the barriers that it ends. -/
structure Blk.Marked (x y : Blk) (l : List Nat) : Prop where
  eq : { x with slice := { x.slice with missing := l }, host := y.host, bars := y.bars } = y
  cmds : y.host.cmds = []
theorem event0_only (h : x.chans = []) : (0 :: ((x.chans.filter fun q => q.2.opened && q.2.members.contains d).map fun q => q.2.ctx)).eraseDups = [0] := by
  rw [h]
  rfl
section
variable (hcmds : x.host.cmds = []) (hchans : x.chans = [])
include hcmds hchans
theorem setMissing_sets (hphase : x.mode.phase = 0) (hd : x.isMissing d = false) : x.Marked (x.setMissing d true) (x.slice.missing ++ [d]) := by
  generalize hb1 : ({ x with slice := { x.slice with missing := x.slice.missing ++ [d] } } : Blk) = b1
  have hnone : b1.chans = [] := by rw [← hb1]; exact hchans
  have hsent := eventTo_sends (x := b1) [0] evDEVICEMISSING (leBytes 2 d ++ leBytes 1 (bnat true) ++ zeros 5)
  have hsame := eventTo_sameButHost (x := b1) [0] evDEVICEMISSING (leBytes 2 d ++ leBytes 1 (bnat true) ++ zeros 5)
  generalize hb2 : b1.eventTo [0] evDEVICEMISSING (leBytes 2 d ++ leBytes 1 (bnat true) ++ zeros 5) = b2 at hsent hsame
  have hnone2 : b2.host.cmds = [] := by rw [hsent.cmds, ← hb1]; exact hcmds
  have hbar := barMissing_noCmd hnone2 d
  have hset : x.setMissing d true = b2.barMissing d := by
    have hcoll : b2.collMissing d = b2 := by simp [Blk.collMissing, show b2.chans = [] by rw [← hsame.eq]; exact hnone]
    have hmode : (b2.barMissing d).mode.phase = 0 := by rw [← hbar, ← hsame.eq, ← hb1]; exact hphase
    unfold Blk.setMissing
    rw [if_neg (by simp [hd])]
    simp only [if_true, hb1, event0_only hchans]
    rw [hb2, hcoll]
    simp [hmode]
  rw [hset]
  refine ⟨?_, by rw [← hbar]; exact hnone2⟩
  rw [← hbar, ← hsame.eq, ← hb1]
theorem setMissing_clears (hd : x.isMissing d = true) : x.Marked (x.setMissing d false) (x.slice.missing.filter fun e => e != d) := by
  generalize hb1 : ({ x with slice := { x.slice with missing := x.slice.missing.filter fun e => e != d } } : Blk) = b1
  have hsent := eventTo_sends (x := b1) [0] evDEVICEMISSING (leBytes 2 d ++ leBytes 1 (bnat false) ++ zeros 5)
  have hsame := eventTo_sameButHost (x := b1) [0] evDEVICEMISSING (leBytes 2 d ++ leBytes 1 (bnat false) ++ zeros 5)
  have hset : x.setMissing d false = b1.eventTo [0] evDEVICEMISSING (leBytes 2 d ++ leBytes 1 (bnat false) ++ zeros 5) := by
    unfold Blk.setMissing
    rw [if_neg (by simp [hd])]
    simp only [Bool.false_eq_true, if_false, hb1, event0_only hchans]
    rfl
  rw [hset]
  refine ⟨?_, by rw [hsent.cmds, ← hb1]; exact hcmds⟩
  rw [← hsame.eq, ← hb1]
end
theorem Blk.Marked.restsButMissing {l : List Nat} (h : x.Marked y l) (hx : x.restsButMissing) : y.restsButMissing := by
  have hcmds := h.cmds
  simp only [Blk.restsButMissing, Blk.rests, Bool.and_eq_true, List.isEmpty_iff] at hx ⊢
  refine ⟨?_, hcmds⟩
  rw [← h.eq]
  exact hx.1
theorem Blk.Marked.chipSame {l : List Nat} (h : x.Marked y l) : x.chipSame y := by
  rw [← h.eq]
  rfl

/-! ### The Harbourmaster's reports (R413) -/

/-- With no device missing, a report that arrives is noted and nothing else happens. -/
theorem faceStateRx_notes (hmiss : b.slice.missing = []) (hj : b.slice.joined = true) (hh : b.slice.harbour = true) :
    let code := faceCode (fld (pktSig p) 29 16) (tbit (pktSig p) 3) (tbit (pktSig p) 4)
    b.faceStateRx p = { b with slice := { b.slice with darkFaces := sset (fun _ => 0) b.slice.darkFaces (p.src * 8 + pktSig p % 8) code } } := by
  unfold Blk.faceStateRx Blk.clearMissing
  simp [hj, hh, hmiss]
theorem faceCode_ne_zero (d : Nat) (up live : Bool) : faceCode d up live ≠ 0 := by
  unfold faceCode
  cases up <;> cases live <;> simp
/-- What others say of a device does not change when the reports of one that is dark to all are dropped. -/
theorem darkTo_dropReports (hb : y.slice.darkFaces = b.slice.darkFaces.filter fun q => q.1 / 8 != d) (hm : ∀ e, e ≠ d → y.isMissing e = b.isMissing e)
    (e : Nat) : y.darkTo e d = b.darkTo e d := by
  have hreports : y.reportsOf e d = b.reportsOf e d := by
    unfold Blk.reportsOf
    rw [hb, List.filter_filter]
    refine congrArg (List.map _) (List.filter_congr fun q _ => ?_)
    by_cases hq : q.1 / 8 = d
    · simp [hq]
    · simp [hq, hm _ hq]
  unfold Blk.darkTo
  rw [hreports]
/-- A device that every face shows dark is live on none, so that its mark stays. -/
theorem clearMissing_allDark (hall : b.allDark d = true) (hb : y.slice.darkFaces = b.slice.darkFaces.filter fun q => q.1 / 8 != d)
    (hm : ∀ e, e ≠ d → y.isMissing e = b.isMissing e) (hmiss : y.slice.missing = [d]) : y.clearMissing = y := by
  have hlive : (y.slice.darkFaces.any fun q => q.2 == 4 * d + 3 && q.1 / 8 != d && !y.isMissing (q.1 / 8) && !y.darkTo (q.1 / 8) d) = false := by
    rw [List.any_eq_false]
    intro q hq hlive
    rw [hb, List.mem_filter] at hq
    simp only [Bool.and_eq_true, beq_iff_eq, bne_iff_ne, Bool.not_eq_true', darkTo_dropReports hb hm] at hlive
    obtain ⟨⟨⟨hcode, hother⟩, hhere⟩, hsay⟩ := hlive
    rw [hm _ hother] at hhere
    simp only [Blk.allDark, Bool.and_eq_true, List.all_eq_true] at hall
    have hdark := hall.2 q (List.mem_filter.mpr ⟨hq.1, by simp [hcode, hother, hhere, hsay]; omega⟩)
    simp only [beq_iff_eq] at hdark
    omega
  unfold Blk.clearMissing
  split
  · rfl
  · rw [hmiss, List.filter_cons, hlive]
    rfl

/-! ### O46 -/

theorem rests_facts (h : b.rests = true) : b.host.cmds = [] ∧ b.chans = [] ∧ b.slice.missing = [] := by
  simp only [Blk.rests, Bool.and_eq_true, still_iff, List.isEmpty_iff] at h
  exact ⟨h.2, h.1.2.1, h.1.2.2.2⟩
/-- The mark of a device that no face shows live goes to every member, and is set here. -/
theorem missingTimer_marks (hrests : b.rests = true) (hphase : b.mode.phase = 0) (hj : b.slice.joined = true) (hh : b.slice.harbour = true)
    (hd : d ≠ b.slice.devid) (hall : b.allDark d = true) :
    (b.missingTimer d).pump.slice.missing = [d] ∧ (b.missingTimer d).pump.isMissing d = true ∧ b.chipSame (b.missingTimer d).pump := by
  obtain ⟨hcmds, hchans, hmiss⟩ := rests_facts hrests
  have hno : b.isMissing d = false := by simp [Blk.isMissing, hmiss]
  have hrun : b.missingTimer d = (({ b with slice := { b.slice with darkFaces := b.slice.darkFaces.filter fun q => q.1 / 8 != d } } : Blk).flood
      (ctlPkt 0 0x22 0 (d + 65536 * bnat true))).setMissing d true := by
    unfold Blk.missingTimer Blk.broadcastMissing
    rw [if_pos (by simp [hj, hh, hd, hno, hall]), if_pos rfl]
  have hflood := flood_onFabric (x := { b with slice := { b.slice with darkFaces := b.slice.darkFaces.filter fun q => q.1 / 8 != d } })
    (p := ctlPkt 0 0x22 0 (d + 65536 * bnat true))
  rw [hrun]
  generalize Blk.flood _ (ctlPkt 0 0x22 0 (d + 65536 * bnat true)) = b2 at hflood
  have hmark := setMissing_sets (x := b2) (d := d) (by rw [hflood.host]; exact hcmds) (by rw [← hflood.eq]; exact hchans) (by rw [← hflood.eq]; exact hphase)
    (by rw [← hflood.eq]; exact hno)
  have hone : b2.slice.missing ++ [d] = [d] := by rw [← hflood.eq]; simp [hmiss]
  rw [hone] at hmark
  have hbut := hmark.restsButMissing (restsButMissing_of_rests (hflood.rests.trans hrests))
  have hlist : (b2.setMissing d true).slice.missing = [d] := by rw [← hmark.eq]
  rw [pump_restsButMissing hbut, clearMissing_allDark hall (by rw [← hmark.eq, ← hflood.eq]) (fun e he => by simp [Blk.isMissing, hlist, hmiss, he]) hlist]
  refine ⟨hlist, by simp [Blk.isMissing, hlist], ?_⟩
  rw [← hmark.eq, ← hflood.eq]
  rfl

/-- Settles O46: a report is one entry of the map; a mark is set or cleared with no operation, barrier or change left to end. -/
theorem missingDevices : Obligations.MissingDevices := by
  unfold Obligations.MissingDevices
  refine ⟨?_, ?_, ?_, ?_⟩
  · intro s p hrests hkind hdst hj hh g
    obtain ⟨-, -, hmiss⟩ := rests_facts hrests
    refine mine_does rfl (beq_iff_eq.mpr hkind) hdst ?_
    rw [faceStateRx_notes hmiss hj hh, pump_rests (by exact hrests)]
    exact ⟨rfl, rfl, sget_sset_new (faceCode_ne_zero _ _ _)⟩
  · intro s d hrests hd hphase hj hh hne
    refine ⟨fun hall => does_of_updIf rfl (decide_eq_true hd) (missingTimer_marks hrests hphase hj hh hne hall), fun hall => ?_⟩
    refine does_of_updIf rfl (decide_eq_true hd) ?_
    rw [Blk.missingTimer, if_neg (by simp [hall]), pump_rests hrests]
  · intro s p k d hk hkind hfirst hh hphase hd
    have hok : (decide (k < nLinks) && p.kind == 0x22) = true := by simp [hk, hkind]
    have hflood := forwardFlood_onFabric (x := s.blk) (p := p) k
    have hno : ∀ w : Blk, w.slice.harbour = false → w.clearMissing = w := fun w hw => by simp [Blk.clearMissing, hw]
    refine ⟨fun hbit hrests => does_of_updIf rfl hok ?_, fun hbit hmiss hrests => does_of_updIf rfl hok ?_⟩
    · obtain ⟨hcmds, hchans, hmiss⟩ := rests_facts hrests
      rw [Blk.missingRx, if_pos hfirst, hbit, ← hd]
      have hmark := setMissing_sets (x := s.blk.forwardFlood k p) (d := d) (by rw [hflood.host]; exact hcmds) (by rw [← hflood.eq]; exact hchans)
        (by rw [← hflood.eq]; exact hphase) (by rw [← hflood.eq]; simp [Blk.isMissing, hmiss])
      rw [pump_restsButMissing (hmark.restsButMissing (restsButMissing_of_rests (hflood.rests.trans hrests))),
        hno _ (by rw [← hmark.eq, ← hflood.eq]; exact hh), ← hmark.eq, ← hflood.eq]
      exact ⟨by simp [hmiss], rfl⟩
    · obtain ⟨hcmds, hchans, -⟩ := rests_facts hrests
      rw [Blk.missingRx, if_pos hfirst, hbit, ← hd]
      have hmark := setMissing_clears (x := s.blk.forwardFlood k p) (d := d) (by rw [hflood.host]; exact hcmds) (by rw [← hflood.eq]; exact hchans)
        (by rw [← hflood.eq]; simp [Blk.isMissing, hmiss])
      have hbut : (s.blk.forwardFlood k p).restsButMissing := by rw [← hflood.eq]; exact hrests
      rw [pump_restsButMissing (hmark.restsButMissing hbut), hno _ (by rw [← hmark.eq, ← hflood.eq]; exact hh), ← hmark.eq, ← hflood.eq]
      exact ⟨by simp [hmiss], rfl⟩
  · intro s kind i hkind hi hrests
    have hok : (decide (kind < 4) && decide (i < nCoves)) = true := by simp [hkind, hi]
    refine ⟨fun hready => does_of_updIf rfl hok ?_, fun hready => does_of_updIf rfl hok ?_⟩
    · rw [Blk.xingReopen, if_pos hready, pump_rests (by exact hrests)]
      rfl
    · rw [Blk.xingReopen, if_neg (by simp [hready]), pump_rests hrests]

end Sys2Proof.Machine
end

section
/-! SUPPORT. Mode changes are prepared, acknowledged and committed, or end without effect (R445 to R450). -/
namespace Sys2Proof.Machine
open Sys2Proof Sys2Proof.Machine

variable {b x y z : Blk} {m : Msg} {c : Cmd} {p : Pkt} {st det : Nat}

/-! ### What stays while a mode change goes on -/

/-- Nothing changes but counters, the links, the sequence numbers of faces, fallback flags and the state of the mode change. -/
structure Blk.OnMode (x y : Blk) : Prop where
  eq : { x with cfg := y.cfg, links := y.links, slice := { x.slice with faceTx := y.slice.faceTx, fallback := y.slice.fallback }, mode := y.mode } = y
theorem Blk.OnMode.trans (h : x.OnMode y) (g : y.OnMode z) : x.OnMode z := ⟨by rw [← g.eq, ← h.eq]⟩
theorem Blk.OnFabric.onMode (h : x.OnFabric y) : x.OnMode y := ⟨by rw [← h.eq]⟩
theorem Blk.OnMode.of_mode (w) : x.OnMode { x with mode := w } := ⟨rfl⟩
theorem Blk.OnMode.host (h : x.OnMode y) : y.host = x.host := by rw [← h.eq]
theorem Blk.OnMode.still (h : x.OnMode y) : y.still = x.still := by rw [← h.eq]; rfl
theorem Blk.OnMode.chipSame (h : x.OnMode y) : x.chipSame y := by rw [← h.eq]; rfl
theorem Blk.OnMode.rests (h : x.OnMode y) : y.rests = x.rests := by rw [← h.eq]; rfl
theorem Blk.OnMode.onlyWaits (h : x.OnMode y) : y.onlyWaits c = x.onlyWaits c := onlyWaits_congr h.host (by rw [← h.eq]) h.still
theorem Blk.OnMode.alone (h : x.OnMode y) (ha : x.Alone c) : y.Alone c := ha.congr h.host (by rw [← h.eq])
/-- Packets change of a mode change only which floods were seen. -/
theorem Blk.OnFabric.mode (h : x.OnFabric y) : y.mode = { x.mode with seen := y.mode.seen, floods := y.mode.floods } := by rw [← h.eq]

/-! ### The commit (R447 step 3, R450) -/

theorem epochFrom_eq (t : Nat) : epochFrom (t + 2 ^ 20) = (t + 2 ^ 20 + (2 ^ 20 - 1)) / 2 ^ 20 * 2 ^ 20 := by
  unfold epochFrom cdiv
  rw [Nat.add_sub_assoc (by decide)]
/-- Does the staged change concern the slice? -/
def Blk.changesSlice (b : Blk) : Bool := match b.mode.staged with | some v => tbit (mcBits v) 0 | none => false
/-- The epoch set, and the members that are to be told of it. -/
def Blk.commitSet (b : Blk) : Blk :=
  let told := if b.changesSlice then b.members.filter fun d => d != b.slice.devid else []
  { b with mode := { b.mode with commit := some (epochFrom (b.tide + 2 ^ 20)), uncommitted := told } }
theorem modeCommit_eq : x.modeCommit = if x.changesSlice then
    x.commitSet.flood (ctlPkt 0 0x27 x.mode.change 0 (leBytes 8 (epochFrom (x.tide + 2 ^ 20)))) else x.commitSet := rfl
theorem modeCommit_onMode : x.OnMode x.modeCommit := by
  have hset : x.OnMode x.commitSet := .of_mode _
  rw [modeCommit_eq]
  split
  · exact hset.trans flood_onFabric.onMode
  · exact hset
theorem modeCommit_mode : ∃ u v n, x.modeCommit.mode = { x.mode with commit := some (epochFrom (x.tide + 2 ^ 20)), uncommitted := u, seen := v, floods := n } := by
  rw [modeCommit_eq]
  split
  · rw [flood_onFabric.mode]
    exact ⟨_, _, _, rfl⟩
  · exact ⟨_, _, _, rfl⟩
theorem modeAcked_onMode : x.OnMode x.modeAcked := by
  unfold Blk.modeAcked
  split
  · exact modeCommit_onMode
  · exact .of_mode _
/-- Once every member has acknowledged, the epoch of the commit is set. -/
theorem modeAcked_mode (hnone : x.mode.commit = none) :
    let e := if x.members.all x.mode.acks.contains then some (epochFrom (x.tide + 2 ^ 20)) else none
    ∃ u v n, x.modeAcked.mode = { x.mode with commit := e, uncommitted := u, seen := v, floods := n } := by
  unfold Blk.modeAcked
  split
  · exact modeCommit_mode
  · exact ⟨_, _, _, by rw [← hnone]⟩

/-! ### The end without effect (R448) -/

/-- A change that is forgotten. -/
def Blk.unstaged (x : Blk) : Blk := { x with mode := { x.mode with phase := 0, staged := none, coord := false, cmd := none, acks := [], commit := none } }
/-- With no packet held in doubt, a change that ends here without effect is forgotten, and the host hears of it. -/
theorem modeDrop_spec (hheld : x.mode.held = []) (dev unit : Nat) : x.unstaged.Sends (x.modeDrop dev unit) ∧ x.unstaged.SameButHost (x.modeDrop dev unit) := by
  have hdrop : x.modeDrop dev unit = x.unstaged.event0 evMODEABORTED (leBytes 4 x.mode.change ++ leBytes 2 dev ++ leBytes 1 unit ++ zeros 1) := by
    unfold Blk.modeDrop Blk.releaseHeld Blk.unstaged
    simp only [hheld, List.foldl_nil]
  rw [hdrop]
  exact ⟨eventTo_sends _ _ _, eventTo_sameButHost _ _ _⟩
theorem chipSame_trans (h : x.chipSame y) (g : y.chipSame z) : x.chipSame z := by
  unfold Blk.chipSame at h g ⊢
  rw [← g, ← h]
theorem Blk.SameButHost.chipSame (h : x.SameButHost y) : x.chipSame y := by
  rw [← h.eq]
  rfl
theorem chipSame_of_mode (w) : x.chipSame { x with mode := w } := rfl

/-! ### CMD_MODE_PREPARE (R445 to R447, R450) -/

/-- A change staged by its coordinator, which has acknowledged it. -/
def Blk.prepared (x : Blk) (v : List Byte) (who : Nat × Nat) : Blk :=
  { x with mode := { x.mode with change := mcChange v, phase := 1, staged := some v, coord := true, cmd := some who, acks := [x.slice.devid], uncommitted := [], commit := none } }
/-- What the command does once it is accepted: in slice scope every member is asked, in device scope the units of the device are. -/
def Blk.prepareRun (x : Blk) (v : List Byte) (who : Nat × Nat) : Blk :=
  let w := x.prepared v who
  if tbit (mcBits v) 0 then (w.flood (ctlPkt 0 0x25 (mcChange v) 0 v)).modeAcked
  else
    let r := w.freeVal 0x450
    if r.1 % 4 = 3 then r.2.modeCommit else { r.2 with mode := { r.2.mode with acks := [r.1 % 4] } }
theorem runOp_modePrepare (hop : m.opcode = 0x0604) (hparam : m.param = 0) (hv : modeFault m.payload = none) (hphase : b.mode.phase = 0)
    (hmiss : b.slice.missing = []) (hscope : if tbit (mcBits m.payload) 0 then b.slice.joined = true ∧ b.slice.harbour = true
      else tbit (mcBits m.payload) 2 = true → b.slice.joined = false) :
    (b.entered m).runOp (b.asCmd m) = ((b.entered m).accept (b.asCmd m)).prepareRun m.payload (m.ctx, m.seq) := by
  have hs : (b.entered m).slice = b.slice := by simp
  have hm : (b.entered m).mode = b.mode := by simp
  have hs' : ((b.entered m).accept (b.asCmd m)).slice.devid = b.slice.devid := by
    rw [← accept_entered_sameButHost.eq]
    simp
  have hok : (tbit (mcBits m.payload) 0 && !(b.slice.joined && b.slice.harbour) || !tbit (mcBits m.payload) 0 && tbit (mcBits m.payload) 2 && b.slice.joined) = false := by
    cases h0 : tbit (mcBits m.payload) 0 <;> rw [h0] at hscope
    · cases h2 : tbit (mcBits m.payload) 2 <;> simp_all
    · obtain ⟨hj, hh⟩ := hscope
      simp [hj, hh]
  rw [runOp_eq (op := 0x0604) hop rfl]
  show (b.entered m).doModePrepare (b.asCmd m) = _
  unfold Blk.doModePrepare Blk.prepareRun Blk.prepared
  simp only [show (b.asCmd m).m = m from rfl, hs, hm, hparam, hv, hok, hphase, hmiss, hs']
  rfl
theorem members_onFabric (h : x.OnFabric y) : y.members = x.members := by
  rw [← h.eq]
  rfl
theorem prepareRun_slice {v : List Byte} {who : Nat × Nat} (h0 : tbit (mcBits v) 0 = true) :
    let e := if x.members.all (· == x.slice.devid) then some (epochFrom (x.tide + 2 ^ 20)) else none
    x.OnMode (x.prepareRun v who) ∧ ∃ u k n, (x.prepareRun v who).mode =
      { x.mode with change := mcChange v, phase := 1, staged := some v, coord := true, cmd := some who, acks := [x.slice.devid], uncommitted := u, commit := e, seen := k, floods := n } := by
  have hflood := flood_onFabric (x := x.prepared v who) (p := ctlPkt 0 0x25 (mcChange v) 0 v)
  have hrun : x.prepareRun v who = ((x.prepared v who).flood (ctlPkt 0 0x25 (mcChange v) 0 v)).modeAcked := by
    unfold Blk.prepareRun
    exact if_pos h0
  have hnone : ((x.prepared v who).flood (ctlPkt 0 0x25 (mcChange v) 0 v)).mode.commit = none := by rw [hflood.mode]; rfl
  obtain ⟨u, k, n, hmode⟩ := modeAcked_mode hnone
  rw [hrun]
  refine ⟨(Blk.OnMode.of_mode _).trans (hflood.onMode.trans modeAcked_onMode), u, k, n, ?_⟩
  have hall : x.members.all [x.slice.devid].contains = x.members.all (· == x.slice.devid) :=
    congrArg x.members.all (funext fun d => by rw [Bool.eq_iff_iff]; simp)
  rw [hmode, hflood.mode, members_onFabric hflood, hflood.tide]
  rw [show (x.prepared v who).members = x.members from rfl, show (x.prepared v who).mode.acks = [x.slice.devid] from rfl, hall]
  rfl
theorem prepareRun_device {v : List Byte} {who : Nat × Nat} (h0 : tbit (mcBits v) 0 = false) :
    x.chipSame (x.prepareRun v who) ∧ (x.prepareRun v who).host = x.host ∧ (x.prepareRun v who).still = x.still ∧ ∃ a e u k n, (x.prepareRun v who).mode =
      { x.mode with change := mcChange v, phase := 1, staged := some v, coord := true, cmd := some who, acks := a, commit := e, uncommitted := u, seen := k, floods := n } ∧
      (e = some (epochFrom (x.tide + 2 ^ 20)) ∨ e = none ∧ ∃ i, i < 3 ∧ a = [i]) := by
  generalize hr : ((x.prepared v who).freeVal 0x450) = r
  have hfree : r.2 = { x.prepared v who with free := x.free + 1 } := by rw [← hr]; rfl
  have hrun : x.prepareRun v who = if r.1 % 4 = 3 then r.2.modeCommit else { r.2 with mode := { r.2.mode with acks := [r.1 % 4] } } := by
    unfold Blk.prepareRun
    simp only [h0, hr]
    rfl
  rw [hrun]
  by_cases hall : r.1 % 4 = 3
  · rw [if_pos hall]
    have hon := modeCommit_onMode (x := r.2)
    obtain ⟨u, k, n, hmode⟩ := modeCommit_mode (x := r.2)
    refine ⟨chipSame_trans ?_ hon.chipSame, ?_, ?_, [x.slice.devid], _, u, k, n, ?_, .inl rfl⟩
    · rw [hfree]; rfl
    · rw [hon.host, hfree]; rfl
    · rw [hon.still, hfree]; rfl
    · rw [hmode, hfree]; rfl
  · rw [if_neg hall, hfree]
    exact ⟨rfl, rfl, rfl, [r.1 % 4], none, [], _, _, rfl, .inr ⟨rfl, _, by omega, rfl⟩⟩

/-- The first clause of O48. -/
theorem modePrepare_does {s : State} (h : s.blk.takes m = true) (hop : m.opcode = 0x0604) (hparam : m.param = 0) (hv : modeFault m.payload = none)
    (hphase : s.blk.mode.phase = 0) :
    let e := (s.blk.tide + 2 ^ 20 + (2 ^ 20 - 1)) / 2 ^ 20 * 2 ^ 20
    let staged := fun (t : Blk) => t.awaits m ∧ t.mode.phase = 1 ∧ t.mode.change = leAt m.payload 0 4 ∧ t.mode.staged = some m.payload ∧ t.mode.coord = true ∧ t.mode.cmd = some (m.ctx, m.seq) ∧
      (s.blk.measureCmd m).chipSame t
    (tbit (mcBits m.payload) 0 = true → s.blk.slice.joined = true → s.blk.slice.harbour = true → s.does (.cmdModePrepare m) fun t => staged t ∧ t.mode.acks = [s.blk.slice.devid] ∧
      t.mode.commit = if s.blk.members.all (· == s.blk.slice.devid) then some e else none) ∧
    (tbit (mcBits m.payload) 0 = false → (tbit (mcBits m.payload) 2 = true → s.blk.slice.joined = false) → s.does (.cmdModePrepare m) fun t => staged t ∧
      (t.mode.commit = some e ∨ (t.mode.commit = none ∧ ∃ u, u < 3 ∧ t.mode.acks = [u]))) := by
  intro e staged
  have hmiss := (still_iff.mp (takes_facts h).2.1).2.2.2
  have hacc := accept_entered_sameButHost (b := s.blk) (m := m) (pay := [])
  have halone := accept_alone h (by rw [hop]; decide)
  have hstill := accept_still h
  generalize hw : (s.blk.entered m).accept (s.blk.asCmd m) = w at hacc halone hstill
  have htide : w.tide = s.blk.tide := by rw [← hacc.eq]; simp
  have hslice : w.slice = s.blk.slice := by rw [← hacc.eq]; simp
  have hmembers : w.members = s.blk.members := by unfold Blk.members; rw [hslice]
  refine ⟨fun h0 hj hh => does_of_updIf rfl (isFor_takes h hop) ?_, fun h0 hscope => does_of_updIf rfl (isFor_takes h hop) ?_⟩
  · have hr := runOp_modePrepare hop hparam hv hphase hmiss (by rw [if_pos h0]; exact ⟨hj, hh⟩)
    rw [hw] at hr
    obtain ⟨hon, u, k, n, hmode⟩ := prepareRun_slice (x := w) (who := (m.ctx, m.seq)) h0
    obtain ⟨he, hwait⟩ := command_wait h hr (by rw [hon.host]; exact halone.cmds) (hon.still.trans hstill)
    rw [he]
    refine ⟨⟨he ▸ hwait, ?_⟩, ?_⟩
    · rw [hmode]
      exact ⟨rfl, rfl, rfl, rfl, rfl, chipSame_trans hacc.chipSame hon.chipSame⟩
    · rw [hmode, hmembers, hslice, htide, epochFrom_eq]
      exact ⟨rfl, rfl⟩
  · have hr := runOp_modePrepare hop hparam hv hphase hmiss (by rw [if_neg (by simp [h0])]; exact hscope)
    rw [hw] at hr
    obtain ⟨hsame, hhost, hst, a, e', u, k, n, hmode, hfree⟩ := prepareRun_device (x := w) (who := (m.ctx, m.seq)) h0
    obtain ⟨he, hwait⟩ := command_wait h hr (by rw [hhost]; exact halone.cmds) (hst.trans hstill)
    rw [he]
    refine ⟨⟨he ▸ hwait, ?_⟩, ?_⟩
    · rw [hmode]
      exact ⟨rfl, rfl, rfl, rfl, rfl, chipSame_trans hacc.chipSame hsame⟩
    · rw [hmode]
      rw [htide, epochFrom_eq] at hfree
      exact hfree

/-! ### Members and acknowledgements (R447, R448) -/

/-- The change that a packet carries, staged at a member. -/
def Blk.staging (x : Blk) (p : Pkt) : Blk :=
  { x with mode := { x.mode with change := pktOpseq p, phase := 1, staged := some (bytesAt p.data 0 16), coord := false, commit := none } }
/-- A member that is LOCKED and has nothing staged stages what arrives, and answers. -/
theorem modePrepareRx_stages {k : Nat} (hfirst : b.firstCopy p = true) (hsync : b.sync.st = 2) (hnone : b.mode.staged = none) :
    ∃ w, b.OnFabric w ∧ (w.staging p).OnFabric (b.modePrepareRx k p) := by
  have hflood := forwardFlood_onFabric (x := b) (p := p) k
  have hok : ((b.forwardFlood k p).sync.st != 2 || (b.forwardFlood k p).mode.staged.isSome) = false := by
    rw [← hflood.eq]
    simp [hsync, hnone]
  have hrun : b.modePrepareRx k p = ((b.forwardFlood k p).staging p).sendCtl (ctlPkt p.src 0x26 (pktOpseq p) 0) := by
    unfold Blk.modePrepareRx
    rw [if_neg (by simp [hfirst])]
    exact if_neg (by rw [hok]; decide)
  rw [hrun]
  exact ⟨_, hflood, sendCtl_onFabric (by decide)⟩
/-- Another refuses, and what is staged stays. -/
theorem modePrepareRx_refuses {k : Nat} (hfirst : b.firstCopy p = true) (hbusy : b.sync.st ≠ 2 ∨ b.mode.staged.isSome = true) :
    b.OnFabric (b.modePrepareRx k p) := by
  have hflood := forwardFlood_onFabric (x := b) (p := p) k
  have hok : ((b.forwardFlood k p).sync.st != 2 || (b.forwardFlood k p).mode.staged.isSome) = true := by
    rw [← hflood.eq]
    simpa using hbusy
  have hrun : b.modePrepareRx k p = (b.forwardFlood k p).sendCtl (ctlPkt p.src 0x26 (pktOpseq p) 1) := by
    unfold Blk.modePrepareRx
    rw [if_neg (by simp [hfirst])]
    exact if_pos hok
  rw [hrun]
  exact hflood.trans (sendCtl_onFabric (by decide))

/-- A coordinator's change that ends with its command, the only one: the members are told in slice scope, and nothing is staged any more. -/
theorem modeAbort_ends (h : x.Alone c) (hcmd : x.mode.cmd = some (c.ctx, c.seq)) (hheld : x.mode.held = []) (hst : st ≠ stOK) (hdet : det < openDet)
    (dev unit : Nat) : (x.modeAbort dev unit st det).answered c.m st det [] ∧ (x.modeAbort dev unit st det).host.cmds = [] ∧
      (x.modeAbort dev unit st det).mode.phase = 0 ∧ (x.modeAbort dev unit st det).mode.staged = none ∧ x.chipSame (x.modeAbort dev unit st det) ∧
      (x.modeAbort dev unit st det).err = x.err ∧ (x.modeAbort dev unit st det).still = x.still := by
  obtain ⟨w, hw, hrun⟩ : ∃ w, x.OnFabric w ∧ x.modeAbort dev unit st det =
      match (w.modeDrop dev unit).cmdOf c.ctx c.seq with | some c => (w.modeDrop dev unit).finish c st det [] | none => w.modeDrop dev unit := by
    unfold Blk.modeAbort
    simp only [hcmd]
    refine ⟨if x.changesSlice then x.flood (ctlPkt 0 0x28 x.mode.change (dev + unit * 65536)) else x, ?_, rfl⟩
    split
    · exact flood_onFabric
    · exact .refl
  obtain ⟨hsends, hsame⟩ := modeDrop_spec (x := w) (by rw [hw.mode]; exact hheld) dev unit
  generalize w.modeDrop dev unit = y at hsends hsame hrun
  have hy : y.Alone c := ((h.congr hw.host (by rw [← hw.eq])).congr (y := w.unstaged) rfl rfl).sends hsends hsame.spans
  rw [cmdOf_only hy.cmds] at hrun
  change _ = y.finish c st det [] at hrun
  have hend := finish_alone (pay := []) hy (.inl hst) hdet
  rw [hrun]
  refine ⟨hend.answered, hend.cmds, ?_⟩
  rw [← hend.same.eq, ← hsame.eq, ← hw.eq]
  exact ⟨rfl, rfl, rfl, rfl, rfl⟩
/-- An acknowledgement counted; with the last one the commit follows. -/
def Blk.acked (x : Blk) (d : Nat) : Blk := { x with mode := { x.mode with acks := if x.mode.acks.contains d then x.mode.acks else x.mode.acks ++ [d] } }
section
variable (hcoord : b.mode.coord = true) (hcommit : b.mode.commit = none) (hphase : b.mode.phase = 1)
include hcoord hcommit hphase
theorem modeAckRx_counts (hchange : b.mode.change = pktOpseq p) (hbit : tbit (pktSig p) 0 = false) : b.modeAckRx p = (b.acked p.src).modeAcked := by
  unfold Blk.modeAckRx
  rw [if_neg (by simp [hcoord, hchange, hcommit, hphase]), if_neg (by simp [hbit])]
  rfl
theorem modeAckRx_aborts (hchange : b.mode.change = pktOpseq p) (hbit : tbit (pktSig p) 0 = true) :
    b.modeAckRx p = b.modeAbort p.src (fld (pktSig p) 2 1) stBUSY 2 := by
  unfold Blk.modeAckRx
  rw [if_neg (by simp [hcoord, hchange, hcommit, hphase]), if_pos hbit]
theorem modeAckTimeout_aborts : ∃ dev unit, b.modeAckTimeout =
    (b.addError { cls := 1, kind := 0, code := 0x51, status := stHWERROR, detail := dev + unit * 65536 }).modeAbort dev unit stHWERROR b.errDetail := by
  unfold Blk.modeAckTimeout
  rw [if_neg (by simp [hcoord, hcommit, hphase])]
  exact ⟨_, _, rfl⟩
end

theorem rests_of_ended (hcmds : y.host.cmds = []) (hstill : y.still = true) : y.rests = true := by simp [Blk.rests, hcmds, hstill]

/-- Settles O48: each row stages, counts or drops the change; the command that waits for it is the only one. -/
theorem modeChangesBegin : Obligations.ModeChangesBegin := by
  unfold Obligations.ModeChangesBegin
  refine ⟨fun s m h hop hparam hv hphase => modePrepare_does h hop hparam hv hphase, ?_, ?_, ?_⟩
  · intro s k p hk hkind hrests hfirst
    have hok : (decide (k < nLinks) && p.kind == 0x25) = true := by simp [hk, hkind]
    refine ⟨fun hsync hnone => ?_, fun hbusy => ?_⟩
    · obtain ⟨w, hw, hstaged⟩ := modePrepareRx_stages (k := k) hfirst hsync hnone
      have hon : s.blk.OnMode (s.blk.modePrepareRx k p) := hw.onMode.trans ((Blk.OnMode.of_mode _).trans hstaged.onMode)
      refine does_of_rests rfl hok (hon.rests.trans hrests) ?_
      have hmode := hstaged.mode
      exact ⟨by rw [hmode]; rfl, by rw [hmode]; rfl, by rw [hmode]; rfl, by rw [hmode]; rfl, by rw [hmode]; rfl, hon.chipSame⟩
    · have hon := modePrepareRx_refuses (k := k) hfirst hbusy
      refine does_of_rests rfl hok (hon.rests.trans hrests) ?_
      exact ⟨by rw [hon.mode], by rw [hon.mode], hon.chipSame⟩
  · intro s p c honly hop hkind hdst hcoord hchange hcommit hphase hcmd hheld l
    obtain ⟨hstill, -⟩ := onlyWaits_facts honly
    refine ⟨fun hbit => mine_does rfl (beq_iff_eq.mpr hkind) hdst ?_, fun hbit => mine_does rfl (beq_iff_eq.mpr hkind) hdst ?_⟩
    · rw [modeAckRx_aborts hcoord hcommit hphase hchange hbit]
      obtain ⟨hans, hcmds, hph, hnone, hsame, -, hst⟩ := modeAbort_ends (st := stBUSY) (det := 2) (.of_onlyWaits honly) hcmd hheld (by decide) (by decide)
        p.src (fld (pktSig p) 2 1)
      rw [pump_rests (rests_of_ended hcmds (hst.trans hstill))]
      exact ⟨hans, hcmds, hph, hnone, hsame⟩
    · rw [modeAckRx_counts hcoord hcommit hphase hchange hbit]
      have hon : s.blk.OnMode (s.blk.acked p.src).modeAcked := (Blk.OnMode.of_mode _).trans modeAcked_onMode
      obtain ⟨u, v, n, hmode⟩ := modeAcked_mode (x := s.blk.acked p.src) hcommit
      rw [pump_onlyWaits (hon.onlyWaits.trans honly) (by rw [hop]; decide), hmode]
      refine ⟨rfl, hphase, ?_, hon.chipSame⟩
      rw [← epochFrom_eq]
      rfl
  · intro s c honly hcoord hcommit hphase hcmd hheld
    obtain ⟨hstill, -⟩ := onlyWaits_facts honly
    refine does_of_upd (f := fun b => b.modeAckTimeout.pump) rfl ?_
    obtain ⟨dev, unit, hrun⟩ := modeAckTimeout_aborts hcoord hcommit hphase
    obtain ⟨hsends, hlog⟩ := addError_spec (x := s.blk) { cls := 1, kind := 0, code := 0x51, status := stHWERROR, detail := dev + unit * 65536 }
    have hrec := addError_new (x := s.blk) (r := { cls := 1, kind := 0, code := 0x51, status := stHWERROR, detail := dev + unit * 65536 }) (.inl (by simp))
    rw [hrun]
    generalize s.blk.addError { cls := 1, kind := 0, code := 0x51, status := stHWERROR, detail := dev + unit * 65536 } = x at hsends hlog hrec
    obtain ⟨hans, hcmds, hph, hnone, hsame, herr, hst⟩ := modeAbort_ends (x := x) (st := stHWERROR) (det := s.blk.errDetail)
      ((Blk.Alone.of_onlyWaits honly).sends hsends (by rw [← hlog.eq])) (by rw [← hlog.eq]; exact hcmd) (by rw [← hlog.eq]; exact hheld) (by decide)
      (Nat.mod_lt _ (by decide)) dev unit
    have hxstill : x.still = true := by rw [← hlog.eq]; exact hstill
    rw [pump_rests (rests_of_ended hcmds (hst.trans hxstill))]
    refine ⟨hans, hcmds, hph, hnone, ?_, chipSame_trans (by rw [← hlog.eq]; rfl) hsame⟩
    rw [herr, ← hrec.eq]
    rfl

end Sys2Proof.Machine
end

section
/-! SUPPORT. Mode changes commit, abort and take effect at the epoch (R447 to R449). -/
namespace Sys2Proof.Machine
open Sys2Proof Sys2Proof.Machine

variable {b x y z : Blk} {m : Msg} {c : Cmd} {p : Pkt} {v : List Byte} {e k : Nat}

/-! ### The change takes effect (R405, R409, R416) -/

/-- The route tables exchanged, where the change says so. -/
def Blk.routesSwapped (x : Blk) (v : List Byte) : Blk :=
  if tbit (mcBits v) 1 then { x with slice := { x.slice with routes := x.slice.shadow, shadow := x.slice.routes, fallback := [] } } else x
/-- The fabric mode set, where the change says so, and the windows closed that it does not allow. -/
def Blk.modeSet (x : Blk) (v : List Byte) : Blk :=
  if tbit (mcBits v) 2 then
    let w : Blk := { x with slice := { x.slice with fmode := leAt v 5 1 % 4 } }
    if leAt v 5 1 % 4 = 1 then w.closeWindows (fun _ => true) else w
  else x
/-- The hop excess set, where the change says so. -/
def Blk.excessSet (x : Blk) (v : List Byte) : Blk :=
  if tbit (mcBits v) 3 then x.cfgSet 0x810 (setFld (x.cfgGet 0x810) 23 16 (leAt v 6 1)) else x
/-- The change in effect, and no longer staged. -/
def Blk.switched (x : Blk) (e : Nat) (v : List Byte) : Blk :=
  let y := ((x.routesSwapped v).modeSet v).excessSet v
  { y with mode := { y.mode with phase := 0, staged := none, coord := false, cmd := none, acks := [], commit := none, epoch := e } }
/-- What a change may touch: the rate ceiling, the route tables, the fabric mode and the windows. -/
structure Blk.Switches (x y : Blk) : Prop where
  eq : { x with cfg := y.cfg, slice := { x.slice with routes := y.slice.routes, shadow := y.slice.shadow, fallback := y.slice.fallback, fmode := y.slice.fmode, windows := y.slice.windows } } = y
theorem Blk.Switches.trans (h : x.Switches y) (g : y.Switches z) : x.Switches z := ⟨by rw [← g.eq, ← h.eq]⟩
theorem routesSwapped_switches : x.Switches (x.routesSwapped v) := by unfold Blk.routesSwapped; split <;> exact ⟨rfl⟩
theorem modeSet_switches : x.Switches (x.modeSet v) := by
  unfold Blk.modeSet
  simp only
  split
  · split <;> exact ⟨rfl⟩
  · exact ⟨rfl⟩
theorem excessSet_switches : x.Switches (x.excessSet v) := by unfold Blk.excessSet; split <;> exact ⟨rfl⟩
/-- The change in effect, before the state of the change is cleared. -/
theorem switched_switches : ∃ y, x.Switches y ∧
    { y with mode := { y.mode with phase := 0, staged := none, coord := false, cmd := none, acks := [], commit := none, epoch := e } } = x.switched e v :=
  ⟨_, routesSwapped_switches.trans (modeSet_switches.trans excessSet_switches), rfl⟩
theorem switched_chipSame : x.chipSame (x.switched e v) := by
  obtain ⟨y, hy, hs⟩ := switched_switches (x := x) (e := e) (v := v)
  rw [← hs, ← hy.eq]
  rfl
theorem switched_host : (x.switched e v).host = x.host := by
  obtain ⟨y, hy, hs⟩ := switched_switches (x := x) (e := e) (v := v)
  rw [← hs, ← hy.eq]
theorem switched_still : (x.switched e v).still = x.still := by
  obtain ⟨y, hy, hs⟩ := switched_switches (x := x) (e := e) (v := v)
  rw [← hs, ← hy.eq]
  rfl
theorem switched_tide : (x.switched e v).tide = x.tide := by
  obtain ⟨y, hy, hs⟩ := switched_switches (x := x) (e := e) (v := v)
  rw [← hs, ← hy.eq]
theorem switched_routes (h1 : tbit (mcBits v) 1 = true) :
    (x.switched e v).slice.routes = x.slice.shadow ∧ (x.switched e v).slice.shadow = x.slice.routes := by
  have hset : ∀ w : Blk, (w.modeSet v).slice.routes = w.slice.routes ∧ (w.modeSet v).slice.shadow = w.slice.shadow := fun w => by
    unfold Blk.modeSet
    simp only
    split
    · split <;> exact ⟨rfl, rfl⟩
    · exact ⟨rfl, rfl⟩
  have hexcess : ∀ w : Blk, (w.excessSet v).slice = w.slice := fun w => by unfold Blk.excessSet; split <;> rfl
  unfold Blk.switched
  simp only [hexcess, hset]
  simp [Blk.routesSwapped, h1]
theorem switched_fmode (h2 : tbit (mcBits v) 2 = true) : (x.switched e v).slice.fmode = leAt v 5 1 % 4 := by
  have hexcess : ∀ w : Blk, (w.excessSet v).slice = w.slice := fun w => by unfold Blk.excessSet; split <;> rfl
  unfold Blk.switched
  simp only [hexcess]
  unfold Blk.modeSet
  rw [if_pos h2]
  simp only
  split <;> rfl
theorem switched_excess (h3 : tbit (mcBits v) 3 = true) (hwf : swf cfgReset x.cfg = true) :
    (x.switched e v).cfgGet 0x810 = setFld (x.cfgGet 0x810) 23 16 (leAt v 6 1) % 2 ^ 64 := by
  have hcfg : ∀ w : Blk, w.cfg = x.cfg → (w.excessSet v).cfgGet 0x810 = setFld (x.cfgGet 0x810) 23 16 (leAt v 6 1) % 2 ^ 64 := fun w hw => by
    unfold Blk.excessSet
    rw [if_pos h3, cfgGet_cfgSet _ _ _ (by rw [hw]; exact hwf)]
    unfold Blk.cfgGet
    rw [hw]
  refine hcfg _ ?_
  have h1 : (x.routesSwapped v).cfg = x.cfg := by unfold Blk.routesSwapped; split <;> rfl
  rw [← h1]
  unfold Blk.modeSet
  simp only
  split
  · split <;> rfl
  · rfl
theorem releaseHeld_none (h : x.mode.held = []) : x.releaseHeld = x := by
  unfold Blk.releaseHeld
  rw [h, List.foldl_nil, ← h]
/-- With no packet held in doubt: the change is in effect, the host hears of it, and the command that waits ends with the epoch. -/
theorem modeSwitch_eq (hheld : x.mode.held = []) :
    let y := (x.switched e v).event0 evMODECOMMITTED (leBytes 4 (mcChange v) ++ zeros 4 ++ leBytes 8 e)
    x.modeSwitch e v = match x.mode.cmd with
      | some q => (match y.cmdOf q.1 q.2 with | some c => y.finish c stOK 0 (leBytes 8 e) | none => y)
      | none => y := by
  intro y
  have hmode : (((x.routesSwapped v).modeSet v).excessSet v).mode = x.mode := by
    rw [← (routesSwapped_switches.trans (modeSet_switches.trans excessSet_switches)).eq]
  have hrun : x.modeSwitch e v =
      let y := (x.switched e v).releaseHeld.event0 evMODECOMMITTED (leBytes 4 (mcChange v) ++ zeros 4 ++ leBytes 8 e)
      match (((x.routesSwapped v).modeSet v).excessSet v).mode.cmd with
      | some q => (match y.cmdOf q.1 q.2 with | some c => y.finish c stOK 0 (leBytes 8 e) | none => y)
      | none => y := rfl
  rw [hrun, releaseHeld_none (x := x.switched e v) (show (((x.routesSwapped v).modeSet v).excessSet v).mode.held = [] by rw [hmode]; exact hheld), hmode]
theorem cmdOf_none (h : x.host.cmds = []) (n q : Nat) : x.cmdOf n q = none := by simp [Blk.cmdOf, h]
/-- With no command left, the change is in effect and only the host hears of it. -/
theorem modeSwitch_rests (hheld : x.mode.held = []) (hcmds : x.host.cmds = []) : (x.switched e v).SameButHost (x.modeSwitch e v) ∧ (x.modeSwitch e v).host.cmds = [] := by
  have hsame := eventTo_sameButHost (x := x.switched e v) [0] evMODECOMMITTED (leBytes 4 (mcChange v) ++ zeros 4 ++ leBytes 8 e)
  have hnone : ((x.switched e v).event0 evMODECOMMITTED (leBytes 4 (mcChange v) ++ zeros 4 ++ leBytes 8 e)).host.cmds = [] := by
    refine (eventTo_sends (x := x.switched e v) [0] _ _).cmds.trans ?_
    rw [switched_host, hcmds]
  rw [modeSwitch_eq hheld]
  split
  · rw [cmdOf_none hnone]
    exact ⟨hsame, hnone⟩
  · exact ⟨hsame, hnone⟩

/-! ### Packets and the end of the wait (R447, R448) -/

theorem modeCommitRx_runs (hcoord : b.mode.coord = false) (hchange : b.mode.change = pktOpseq p) (hstaged : b.mode.staged = some v) :
    ∃ w, b.OnFabric w ∧ b.modeCommitRx k p = if leAt p.data 0 8 ≤ b.tide then w.modeSwitch (leAt p.data 0 8) v
      else ({ w with mode := { w.mode with commit := some (leAt p.data 0 8), phase := 1 } } : Blk).releaseHeld := by
  obtain ⟨u, hu, hrun⟩ : ∃ u, b.OnFabric u ∧ u = (if b.firstCopy p then b.forwardFlood k p else b) := by
    refine ⟨_, ?_, rfl⟩
    split
    · exact forwardFlood_onFabric k
    · exact .refl
  have hsent := sendCtl_onFabric (x := u) (d := p.src) (kind := 0x29) (n := pktOpseq p) (sig := 0) (v := []) (by decide)
  have hall := hu.trans hsent
  refine ⟨_, hall, ?_⟩
  have hgo : (u.mode.coord || u.mode.change != pktOpseq p) = false := by
    rw [hu.mode]
    simp [hcoord, hchange]
  have hst : (u.sendCtl (ctlPkt p.src 0x29 (pktOpseq p) 0)).mode.staged = some v := by rw [hall.mode, hstaged]
  unfold Blk.modeCommitRx
  simp only [← hrun, hgo, hst, hall.tide]
  rfl
theorem modeAbortRx_drops (hcoord : b.mode.coord = false) (hchange : b.mode.change = pktOpseq p) (hstaged : b.mode.staged = some v) (hnone : b.mode.commit = none) :
    ∃ w dev unit, b.OnFabric w ∧ b.modeAbortRx k p = w.modeDrop dev unit := by
  obtain ⟨u, hu, hrun⟩ : ∃ u, b.OnFabric u ∧ u = (if b.firstCopy p then b.forwardFlood k p else b) := by
    refine ⟨_, ?_, rfl⟩
    split
    · exact forwardFlood_onFabric k
    · exact .refl
  refine ⟨u, pktSig p % 2 ^ 14, fld (pktSig p) 17 16, hu, ?_⟩
  have hgo : (u.mode.coord || u.mode.change != pktOpseq p || u.mode.staged.isNone || u.mode.commit.isSome) = false := by
    rw [hu.mode]
    simp [hcoord, hchange, hstaged, hnone]
  unfold Blk.modeAbortRx
  simp only [← hrun, hgo]
  rfl
theorem modeResend_leaves : b.Leaves b.modeResend := leaves_foldl _ _ fun _ _ => sendCtl_leaves (by decide)
theorem modeInDoubt_doubts (hcoord : b.mode.coord = false) (hphase : b.mode.phase = 1) (hnone : b.mode.commit = none) :
    b.modeInDoubt = ({ b with mode := { b.mode with phase := 2 } } : Blk).addError { cls := 2, kind := 0, code := 0x52, detail := b.mode.change } := by
  unfold Blk.modeInDoubt
  rw [if_neg (by simp [hcoord, hphase, hnone])]
theorem eventTo_onlyWaits (l : List Nat) (op : Nat) (pay : List Byte) (h : x.onlyWaits c = true) : (x.eventTo l op pay).onlyWaits c = true := by
  obtain ⟨hstill, hcmds, hstart, h13, hctx, hspans, hop⟩ := onlyWaits_facts h
  have hsends := eventTo_sends (x := x) l op pay
  have hsame := eventTo_sameButHost (x := x) l op pay
  exact onlyWaits_of_facts (hsame.still.trans hstill) (hsends.cmds.trans hcmds) hstart h13 (by rw [(hsends.ctx _ (by rw [hctx]; decide)).1, hctx])
    (hsame.spans.trans hspans) hop
/-- At the epoch the only command ends with it, whatever its kind. -/
theorem modeEpoch_ends (honly : b.onlyWaits c = true) (hcmd : b.mode.cmd = some (c.ctx, c.seq)) (hcommit : b.mode.commit = some e) (hstaged : b.mode.staged = some v)
    (hheld : b.mode.held = []) : ∃ y, (({ b with tide := max b.tide e } : Blk).switched e v).SameButHost y ∧ y.onlyWaits c = true ∧
      b.modeEpoch = y.finish c stOK 0 (leBytes 8 e) := by
  obtain ⟨hstill, hcmds, hstart, h13, hctx, hspans, hop⟩ := onlyWaits_facts honly
  generalize hx : ({ b with tide := max b.tide e } : Blk) = x
  have hrun : b.modeEpoch = x.modeSwitch e v := by
    unfold Blk.modeEpoch
    rw [hcommit, hstaged, ← hx]
  have hsw : (x.switched e v).onlyWaits c = true := by
    refine (onlyWaits_congr (b := x) switched_host ?_ switched_still).trans ?_
    · obtain ⟨y, hy, hs⟩ := switched_switches (x := x) (e := e) (v := v)
      rw [← hs, ← hy.eq]
    · rw [← hx]
      exact honly
  have hwaits : ((x.switched e v).event0 evMODECOMMITTED (leBytes 4 (mcChange v) ++ zeros 4 ++ leBytes 8 e)).onlyWaits c = true := eventTo_onlyWaits _ _ _ hsw
  refine ⟨_, eventTo_sameButHost [0] evMODECOMMITTED (leBytes 4 (mcChange v) ++ zeros 4 ++ leBytes 8 e), hwaits, ?_⟩
  have heq := modeSwitch_eq (x := x) (v := v) (e := e) (by rw [← hx]; exact hheld)
  rw [show x.mode.cmd = some (c.ctx, c.seq) by rw [← hx]; exact hcmd] at heq
  dsimp only at heq
  rw [hrun, heq, cmdOf_only (onlyWaits_facts hwaits).2.1]
  rfl

theorem rests_still (h : b.rests = true) : b.still = true := by
  simp only [Blk.rests, Bool.and_eq_true] at h
  exact h.1

/-! ### O49 -/

/-- A packet of the change that arrives at a member (the first clause of O49). -/
theorem modePackets_do {s : State} (hk : k < nLinks) (hrests : s.blk.rests = true) (hcoord : s.blk.mode.coord = false)
    (hchange : s.blk.mode.change = pktOpseq p) (hstaged : s.blk.mode.staged = some v) (hheld : s.blk.mode.held = []) :
    let e := leAt p.data 0 8
    (p.kind = 0x27 → s.blk.tide < e → s.does (.modeCommitRx k p) fun t => t.mode.commit = some e ∧ t.mode.phase = 1 ∧ t.mode.staged = some v ∧ s.blk.chipSame t) ∧
    (p.kind = 0x27 → e ≤ s.blk.tide → s.does (.modeCommitRx k p) fun t => t.mode.staged = none ∧ t.mode.phase = 0 ∧ t.mode.epoch = e ∧
      (tbit (mcBits v) 1 = true → t.slice.routes = s.blk.slice.shadow ∧ t.slice.shadow = s.blk.slice.routes) ∧ s.blk.chipSame t) ∧
    (p.kind = 0x28 → s.blk.mode.commit = none → s.does (.modeAbortRx k p) fun t => t.mode.staged = none ∧ t.mode.phase = 0 ∧ t.slice.routes = s.blk.slice.routes ∧ s.blk.chipSame t) := by
  intro e
  obtain ⟨hcmds, -⟩ := rests_facts hrests
  refine ⟨fun hkind he => ?_, fun hkind he => ?_, fun hkind hnone => ?_⟩
  · obtain ⟨w, hw, hrun⟩ := modeCommitRx_runs (k := k) hcoord hchange hstaged
    have hw' : w.mode.held = [] := by rw [hw.mode]; exact hheld
    rw [if_neg (Nat.not_le.mpr he), releaseHeld_none (x := { w with mode := { w.mode with commit := some (leAt p.data 0 8), phase := 1 } }) hw'] at hrun
    refine does_of_rests (f := fun b => b.modeCommitRx k p) rfl (by simp [hk, hkind]) ?_ ?_
    · rw [hrun, ← hw.eq]
      exact hrests
    · rw [hrun, ← hw.eq]
      exact ⟨rfl, rfl, hstaged, rfl⟩
  · obtain ⟨w, hw, hrun⟩ := modeCommitRx_runs (k := k) hcoord hchange hstaged
    rw [if_pos he] at hrun
    obtain ⟨hsame, hnone⟩ := modeSwitch_rests (x := w) (e := e) (v := v) (by rw [hw.mode]; exact hheld) (by rw [hw.host]; exact hcmds)
    rw [← hrun] at hsame hnone
    have hrests' : (s.blk.modeCommitRx k p).rests = true :=
      rests_of_ended hnone (hsame.still.trans (switched_still.trans (hw.still.trans (rests_still hrests))))
    refine does_of_rests (f := fun b => b.modeCommitRx k p) rfl (by simp [hk, hkind]) hrests' ?_
    refine ⟨by rw [← hsame.eq]; rfl, by rw [← hsame.eq]; rfl, by rw [← hsame.eq]; rfl, fun h1 => ?_, chipSame_trans hw.chipSame (chipSame_trans switched_chipSame hsame.chipSame)⟩
    obtain ⟨hroutes, hshadow⟩ := switched_routes (x := w) (e := e) h1
    rw [← hsame.eq]
    refine ⟨hroutes.trans ?_, hshadow.trans ?_⟩
    · rw [← hw.eq]
    · rw [← hw.eq]
  · obtain ⟨w, dev, unit, hw, hrun⟩ := modeAbortRx_drops (k := k) hcoord hchange hstaged hnone
    obtain ⟨hsends, hsame⟩ := modeDrop_spec (x := w) (by rw [hw.mode]; exact hheld) dev unit
    rw [← hrun] at hsends hsame
    have hrests' : (s.blk.modeAbortRx k p).rests = true := by
      refine rests_of_ended (hsends.cmds.trans (by rw [← hw.eq]; exact hcmds)) (hsame.still.trans ?_)
      have hstill := rests_still hrests
      rw [← hw.eq]
      exact hstill
    refine does_of_rests (f := fun b => b.modeAbortRx k p) rfl (by simp [hk, hkind]) hrests' ?_
    rw [← hsame.eq, ← hw.eq]
    exact ⟨rfl, rfl, rfl, rfl⟩

/-- Settles O49: packets move the change on at a member, and the epoch puts it in effect and ends the command. -/
theorem modeChangesEnd : Obligations.ModeChangesEnd := by
  unfold Obligations.ModeChangesEnd
  refine ⟨fun s k p v hk hrests hcoord hchange hstaged hheld => modePackets_do hk hrests hcoord hchange hstaged hheld, ?_, ?_, ?_, ?_⟩
  · intro s p hrests hkind hdst hchange
    refine mine_does rfl (beq_iff_eq.mpr hkind) hdst ?_
    rw [Blk.commitAckRx, if_pos hchange, pump_rests (by exact hrests)]
  · intro s
    refine does_of_upd (f := Blk.modeResend) rfl ⟨modeResend_leaves.chipSame, modeResend_leaves.mode, modeResend_leaves.host, fun d hd => ?_⟩
    unfold Blk.modeResend
    rw [hd]
    rfl
  · intro s hrests hcoord hphase hnone
    have hrun := modeInDoubt_doubts hcoord hphase hnone
    obtain ⟨hsends, hlog⟩ := addError_spec (x := { s.blk with mode := { s.blk.mode with phase := 2 } }) { cls := 2, kind := 0, code := 0x52, detail := s.blk.mode.change }
    have hrec := addError_new (x := { s.blk with mode := { s.blk.mode with phase := 2 } }) (r := { cls := 2, kind := 0, code := 0x52, detail := s.blk.mode.change }) (.inl (by simp))
    rw [← hrun] at hsends hlog hrec
    obtain ⟨hcmds, -⟩ := rests_facts hrests
    have hrests' : s.blk.modeInDoubt.rests = true := by
      have hstill := rests_still hrests
      refine rests_of_ended (hsends.cmds.trans hcmds) ?_
      rw [← hlog.eq]
      exact hstill
    refine does_of_upd (f := fun b => b.modeInDoubt.pump) rfl ?_
    rw [pump_rests hrests']
    refine ⟨by rw [← hlog.eq], by rw [← hrec.eq]; rfl, ?_⟩
    rw [← hlog.eq]
  · intro s c e v honly hcmd hcommit hstaged hheld hcanon
    obtain ⟨y, hsame, hwaits, hrun⟩ := modeEpoch_ends honly hcmd hcommit hstaged hheld
    obtain ⟨hans, hcmds, hframe⟩ := finish_waits (pay := leBytes 8 e) hwaits
    refine does_of_upd (f := fun b => b.modeEpoch.pump) rfl ?_
    rw [hrun]
    refine ⟨hans, hcmds, ?_⟩
    obtain ⟨-, hcfg, -⟩ := hcanon
    generalize hx : ({ s.blk with tide := max s.blk.tide e } : Blk) = x at hsame
    have hxcfg : x.cfg = s.blk.cfg := by rw [← hx]
    have hxslice : x.slice = s.blk.slice := by rw [← hx]
    have hsw := switched_chipSame (x := x) (e := e) (v := v)
    have hslice : y.slice = (x.switched e v).slice := by rw [← hsame.eq]
    have hmode : y.mode = (x.switched e v).mode := by rw [← hsame.eq]
    have htide : y.tide = max s.blk.tide e := by
      rw [← hsame.eq]
      exact (switched_tide (e := e)).trans (by rw [← hx])
    have hmem : y.mem = s.blk.mem ∧ y.coves = s.blk.coves := by
      rw [← hsame.eq, ← hsw, ← hx]
      exact ⟨rfl, rfl⟩
    have hget : y.cfg = (x.switched e v).cfg := by rw [← hsame.eq]
    rw [← hframe]
    refine ⟨htide, by rw [hmode]; rfl, by rw [hmode]; rfl, by rw [hmode]; rfl, fun h1 => ?_, fun h2 => ?_, hmem.1, hmem.2, fun h3 => ?_⟩
    · rw [hslice, ← hxslice]
      exact switched_routes h1
    · rw [hslice]
      exact switched_fmode h2
    · have hex := switched_excess (x := x) (e := e) h3 (by rw [hxcfg]; exact hcfg)
      unfold Blk.cfgGet at hex ⊢
      rw [hget, hex, hxcfg]
end Sys2Proof.Machine
end

section
/-! ### O40, O42, O50, O52 and O54: what fails, each with the state that refutes it -/
namespace Sys2Proof.Machine
open Sys2Proof Sys2Proof.Machine

/-! ### A link listed twice (O42, O54) -/

/-- A powered machine whose map of links lists link 0 twice, each time as a link that trains. -/
def linkTwice : State where
  blk := { State.reset.blk with links := [(0, { st := 2 }), (0, { st := 2 })] }
  pending := []

/-- A first entry that falls back to the default state is no longer listed, and link 0 is the other one. -/
theorem linkTwice_times_out : (((linkTwice.blk.linkTrainFail 0).pump).link 0).st = 2 := by decide +kernel

theorem linkTwice_loses_reference : ((linkTwice.blk.lrefLoss 0).link 0).st = 2 := by decide +kernel

/-- Refutes O42: its third clause ends a training that has no end in time in state DOWN, but DOWN with nothing else is the default of the map of
links, and the clause does not ask that the map lists each link once (`Blk.canon`): with link 0 listed twice the second entry, TRAINING, is the link
after the step. -/
theorem not_linksTrainAndFence : ¬ Obligations.LinksTrainAndFence := by
  unfold Obligations.LinksTrainAndFence
  rintro ⟨htrain, -⟩
  have hrow : ∀ s : State, exec (.linkTrainingTimeout 0) s = s.updIf true fun b => (b.linkTrainFail 0).pump := fun _ => rfl
  obtain ⟨-, -, htimeout⟩ := htrain linkTwice 0 (by decide)
  obtain ⟨hdown, -⟩ := updated_of_does (hrow _) (htimeout rfl (by decide +kernel) rfl)
  rw [linkTwice_times_out] at hdown
  exact absurd hdown (by decide)

/-- Refutes O54: the loss of a link reference takes its links DOWN, which with nothing else is the default of the map of links, and the clause does
not ask that the map lists each link once (`Blk.canon`): with link 0 listed twice the second entry still trains. -/
theorem not_boardPins : ¬ Obligations.BoardPins := by
  unfold Obligations.BoardPins
  rintro ⟨-, -, hlref, -⟩
  have hrow : ∀ s : State, exec (.lrefLoss 0) s = s.updIf true fun b => b.lrefLoss 0 := fun _ => rfl
  obtain ⟨hloss, -⟩ := hlref linkTwice 0 (by decide) (by decide)
  obtain ⟨-, -, hdown⟩ := updated_of_does (hrow _) hloss
  have hlow := hdown 0 (by decide) (by decide)
  rw [linkTwice_loses_reference] at hlow
  exact absurd hlow (by decide)

/-! ### A partition listed twice (O50) -/

/-- A CMD_PART_KILL with DISSOLVE of partition 0. -/
def dissolveCmd : Cmd := { m := { opcode := 0x702, param := 2 ^ 33 }, started := true }
/-- A machine whose map of partitions lists partition 0 twice, each time scrub-pending for that command. -/
def partTwice : State where
  blk := { State.reset.blk with
    parts := [(0, { st := 3, dissolving := true, killer := some (0, 0) }), (0, { st := 3, dissolving := true, killer := some (0, 0) })]
    host := { State.reset.blk.host with ctxs := [(0, { st := 1 })], cmds := [dissolveCmd] } }
  pending := []

/-- The first entry is dissolved and no longer listed, and partition 0 is the other one. -/
theorem partTwice_dissolves : (((partTwice.blk.killDone 0).pump).part 0).st = 3 := by decide +kernel

/-- Refutes O50: the end of a kill with DISSOLVE leaves the partition in the default state of the map of partitions, and the clause does not ask
that the map lists each partition once (`Blk.canon`): with partition 0 listed twice the second entry is scrub-pending still. -/
theorem not_partitionCommands : ¬ Obligations.PartitionCommands := by
  unfold Obligations.PartitionCommands
  rintro ⟨-, -, -, hscrubbed, -⟩
  have hrow : ∀ s : State, exec (.killScrubDone 0) s = s.updIf true fun b => (b.killDone 0).pump := fun _ => rfl
  have honly : partTwice.blk.onlyWaits dissolveCmd = true := by decide +kernel
  have hquiet : partTwice.blk.quiet = true := by decide +kernel
  obtain ⟨-, -, hgone, -⟩ := updated_of_does (hrow _) (hscrubbed partTwice dissolveCmd 0 honly rfl (by decide) hquiet rfl rfl rfl fun _ => rfl)
  have hfree : (((partTwice.blk.killDone 0).pump).part 0).st = 0 := hgone
  rw [partTwice_dissolves] at hfree
  exact absurd hfree (by decide)

/-! ### A credit for the reset Cove (O52) -/

/-- A device in service: firmware runs, port A is up and context 0 is open at its home port. -/
def inService : Blk := { State.reset.blk with
  dev := { State.reset.blk.dev with svc := true, reachedSvc := true }
  fw := { State.reset.blk.fw with running := some {} }
  host := { State.reset.blk.host with portA := { up := true, trained := true, lanes := 4 }, ctxs := [(0, { st := 1, homeSet := true })] } }

/-- The same, and Cove 1 holds a credit entry for an inbox of Cove 0. -/
def creditHeld : State where
  blk := { inService with coves := [(1, { creds := [(0, { valid := true })] })] }
  pending := []

/-- The CMD_RESET of kind COVE of Cove 0. -/
def resetCove0 : Msg := { opcode := 0x801, param := 4 }

/-- The reset of Cove 0 takes the credit from Cove 1. -/
theorem creditHeld_loses_credit : ((creditHeld.blk.command resetCove0).cove 1).creds = [] := by decide +kernel

/-- Refutes O52: its COVE clause leaves every other Cove as it was, but a Cove that is reset ends what others hold for it: a credit entry whose target
it is goes from the Cove that holds it, and a quiet machine may hold one. -/
theorem not_resets : ¬ Obligations.Resets := by
  unfold Obligations.Resets
  rintro ⟨hreset, -⟩
  have hrow : ∀ s : State, exec (.resetCove resetCove0) s = s.updIf true fun b => b.command resetCove0 := fun _ => rfl
  obtain ⟨-, -, -, hcove, -⟩ := hreset creditHeld resetCove0 (by decide +kernel) rfl rfl
  obtain ⟨-, -, -, -, -, -, -, hothers⟩ := updated_of_does (hrow _)
    (hcove 0 rfl (by decide) (by decide +kernel) (by decide +kernel) (by decide +kernel) (by decide +kernel) (by decide +kernel))
  have hkept := congrArg Cove.creds (hothers 1 (by decide))
  rw [creditHeld_loses_credit] at hkept
  exact absurd hkept (by decide +kernel)

/-! ### A link whose reset waits for its check (O40) -/

/-- A cabling plan that names a peer for every link. -/
def planImage : List Byte := (List.range 24).flatMap fun _ => leBytes 8 77 ++ leBytes 2 1 ++ leBytes 1 20 ++ zeros 1 ++ leBytes 4 1
/-- The CMD_CABLING_PLAN with that plan. -/
def planMsg : Msg := { opcode := 0x601, payload := planImage, plen := planImage.length }

/-- A device in service whose link 16 has come up after the CMD_RESET of kind LINK that it still serves, and has heard of its peer. -/
def resetWaits : State where
  blk := { inService with links := [(16, { st := 3, reported := true, cmd := some (5, 5), cmdKind := 5 })] }
  pending := []

/-- The check under the new plan ends that reset, and the device tells what was lost by a reset of kind LINK. -/
theorem resetWaits_ends : (resetWaits.blk.command planMsg).dev.lostKind = 5 := by decide +kernel

/-- Refutes O40: its CMD_CABLING_PLAN clause leaves the chip beside the slice, the links, the configuration words and the host as it was, but the
check of a link under the new plan ends a CMD_RESET of kind LINK that the link serves, and the device then holds that kind as the last reset's
(R458, R466). -/
theorem not_sliceCommands : ¬ Obligations.SliceCommands := by
  unfold Obligations.SliceCommands
  rintro ⟨-, -, hplan, -⟩
  have hrow : ∀ s : State, exec (.cmdCablingPlan planMsg) s = s.updIf true fun b => b.command planMsg := fun _ => rfl
  obtain ⟨-, -, hchip⟩ := updated_of_does (hrow _) (hplan resetWaits planMsg (by decide +kernel) rfl rfl (by decide +kernel))
  have hkind : (resetWaits.blk.command planMsg).dev.lostKind = (resetWaits.blk.measureCmd planMsg).dev.lostKind := by rw [← hchip]
  rw [resetWaits_ends] at hkind
  exact absurd hkind (by decide +kernel)

end Sys2Proof.Machine
end

section
/-! ### O39: what fails, with the state that refutes it -/
namespace Sys2Proof.Machine
open Sys2Proof Sys2Proof.Machine

/-- The barrier as it runs, its record with OP 5. -/
def barrierOp : CollOp where
  seq := 0
  sig := 5
  recs := [[5#8]]
  start := 0

/-- Channel 5 of two members, in which this device runs the barrier that its one participant posted; the participant's completion ring is ring 2 of
Cove 3. -/
def barrierChan : Chan where
  opened := true
  window := 1
  gen := 7
  members := [0, 2]
  parts := [(3, 2, 0x1000, 0x2000)]
  timeout := 100
  part := 0
  counts := [1]
  posted := [(0, 0, [5#8])]
  op := some barrierOp

/-- A device in service with that channel. Ring 2 of Cove 3 is enabled, and the Cove's own producer entry for it holds one credit. -/
def ringHasCredit : State where
  blk := { inService with
    coves := [(3, { rings := [(2, { word := 1 })], prods := [(0, { valid := true, owner := 3, ring := 2, credits := 1 })] })]
    chans := [(5, barrierChan)] }
  pending := []

/-- The COLL_FAIL of member 1 for the barrier. -/
def barrierFails : Pkt where
  src := 2
  kind := 0x15
  tag := 5
  addr := 0
  len := 7 * 65536
  status := 5

/-- The failure's completion record takes the credit of the ring. -/
theorem ringHasCredit_spends : (((ringHasCredit.blk.mine barrierFails fun b => b.collRx barrierFails).pump.cove 3).prodEnt 0).credits = 0 := by
  decide +kernel

/-- Refutes O39: its COLL_FAIL clause leaves the Coves as they were, but the completion record of each posted operation goes at once into the
participant's completion ring when that has credit (R427), which takes a credit of the producer entry and moves its tail. -/
theorem not_collectivePacketsArriveOrFail : ¬ Obligations.CollectivePacketsArriveOrFail := by
  unfold Obligations.CollectivePacketsArriveOrFail
  rintro ⟨-, -, -, -, -, -, -, hends⟩
  have hrow : ∀ s : State, exec (.collFailRx barrierFails) s = s.updIf true fun b => (b.mine barrierFails fun b => b.collRx barrierFails).pump := fun _ => rfl
  obtain ⟨hfails, -⟩ := hends ringHasCredit barrierFails 5 1 barrierOp (by decide +kernel) (by decide +kernel)
  obtain ⟨-, -, -, hchip⟩ := updated_of_does (hrow _) (hfails rfl)
  have hkept : (((ringHasCredit.blk.mine barrierFails fun b => b.collRx barrierFails).pump.cove 3).prodEnt 0).credits = 1 := by
    rw [← hchip]
    decide +kernel
  rw [ringHasCredit_spends] at hkept
  exact absurd hkept (by decide)

end Sys2Proof.Machine
end

section
/-! ### O44: packets are forwarded, stored, answered and reported -/
namespace Sys2Proof.Machine
open Sys2Proof Sys2Proof.Machine
variable {b x : Blk} {p : Pkt} {r : Remote} {s : State}

/-! ### Packets that pass and packets that are served -/

/-- A packet on its way goes out over the face of its next hop. -/
theorem forward_hops {f : Nat} (hh : p.hops < 96) (hlive : b.faceLive f = true) :
    let q := if p.phase = 0 && p.via = b.slice.devid then { p with phase := 1, dateline := false } else p
    b.slice.hopFace b.slice.devid (if q.phase = 0 then q.via else q.dst) = some f → b.forward p = b.sendHop q f := by
  intro q hface
  have hhops : ¬ 96 ≤ q.hops := by
    have : q.hops = p.hops := by unfold q; split <;> rfl
    omega
  change (if 96 ≤ q.hops then _ else match b.slice.hopFace b.slice.devid (if q.phase = 0 then q.via else q.dst) with | none => b | some f => _) = _
  rw [if_neg hhops, hface]
  exact if_pos hlive
/-- An access to memory that no stack holds goes on at once. -/
theorem pktHold_none (h : regionOf p.addr = 0 → b.hbmHeld p.addr (pktLen p) = none) : b.pktHold p = b := by
  unfold Blk.pktHold
  split
  · next hreg => rw [h hreg]
  · rfl
/-- A WRITE that is permitted is stored, and then acknowledged. -/
theorem pktWrite_stores (hst : b.pktStatus p true = 0)
    (hhbm : regionOf p.addr = 0 → b.hbmHeld p.addr (pktLen p) = none ∧ b.partialUe p.addr p.data.length = none) (hlost : b.rangeLost p.addr (pktLen p) = false) :
    b.pktWrite p = (b.memWrite p.part none p.addr p.data).sendReply { dst := p.src, kind := 4, part := p.part, tag := p.tag, addr := p.addr, status := 0 } := by
  have hue : (if regionOf p.addr = 0 then b.partialUe p.addr p.data.length else none) = none := by
    split
    · next hreg => exact (hhbm hreg).2
    · rfl
  rw [Blk.pktWrite]
  simp only [hst, hue, hlost, pktHold_none fun h => (hhbm h).1]
  rfl
/-- The answer to a READ. -/
def readAnswer (b : Blk) (p : Pkt) : Pkt :=
  let v := b.memRead p.part p.addr (pktLen p)
  { dst := p.src, kind := 3, part := p.part, tag := p.tag, addr := p.addr, len := v.length, status := 0, data := v }
/-- A READ of HBM is answered with the bytes there. -/
theorem pktRead_answers (hst : b.pktStatus p false = 0) (hreg : regionOf p.addr = 0) (hheld : b.hbmHeld p.addr (pktLen p) = none)
    (hue : b.rangeUe p.addr (pktLen p) = none) (hlost : b.rangeLost p.addr (pktLen p) = false) : b.pktRead p = b.sendReply (readAnswer b p) := by
  rw [Blk.pktRead]
  simp [hst, hue, hlost, hreg, pktHold_none fun _ => hheld, readAnswer]

/-! ### The one request that is outstanding -/

/-- The one request of the machine, with what it has come to. -/
def Blk.withRemote (b : Blk) (r : Remote) : Blk := { b with slice := { b.slice with remotes := [r] } }
theorem withRemote_rests (h : b.rests = true) : (b.withRemote r).rests = true := h
theorem remoteOf_only {tag : Nat} (h : b.slice.remotes = [r]) (hopen : r.st = none) (htag : r.pkt.tag = tag) : b.remoteOf tag = some r := by
  simp [Blk.remoteOf, h, hopen, htag]
theorem setRemote_only {r' : Remote} (h : b.slice.remotes = [r]) (htag : r.pkt.tag = r'.pkt.tag) : b.setRemote r' = b.withRemote r' := by
  simp [Blk.setRemote, Blk.withRemote, h, htag]
theorem pktReply_answers {kind : Nat} (h : b.slice.remotes = [r]) (hopen : r.st = none) (htag : r.pkt.tag = p.tag) (hkind : r.pkt.kind = kind)
    (hfrom : r.pkt.dst = p.src) : b.pktReply p kind = b.withRemote { r with st := some p.status, data := p.data } := by
  rw [Blk.pktReply, remoteOf_only h hopen htag]
  simp only [hkind, hfrom, decide_true, Bool.and_self, if_true]
  exact setRemote_only h rfl
theorem remoteTimeout_ends {tag : Nat} (h : b.slice.remotes = [r]) (hopen : r.st = none) (htag : r.pkt.tag = tag) :
    b.remoteTimeout tag = b.withRemote { r with st := some stROUTELOST } := by
  rw [Blk.remoteTimeout, remoteOf_only h hopen htag]
  exact setRemote_only h rfl
/-- A NOTICE of too many hops is counted and ends its request. -/
theorem pktNotice_hops (h : b.slice.remotes = [r]) (hopen : r.st = none) (htag : r.pkt.tag = p.tag) (hcause : p.cause % 256 = 3)
    (hshort : (pktParse (bytesAt p.data 0 32)).kind < 0x10) (hlong : (pktParse p.data).kind < 0x10) :
    b.pktNotice p = (b.count 0x820 1).withRemote { r with st := some stROUTELOST } := by
  have hreq : ¬ 0x10 ≤ (if p.data.length < 32 then pktParse (bytesAt p.data 0 32) else pktParse p.data).kind := by
    split <;> omega
  rw [Blk.pktNotice]
  simp only
  rw [if_neg hreq, remoteOf_only (b := b.count 0x820 1) h hopen htag]
  simp only [hcause, if_true]
  exact setRemote_only h rfl
theorem cfgGet_count_pos {off k : Nat} (hk : k ≠ 0) (h : swf cfgReset x.cfg = true) : (x.count off k).cfgGet off = (x.cfgGet off + k) % 2 ^ 64 := by
  rw [cfgGet_congr (x := x.cfgSet off (x.cfgGet off + k)) (by simp [Blk.count, hk]), cfgGet_cfgSet _ _ _ h]

/-- Settles O44. -/
theorem packetsAct : Obligations.PacketsAct := by
  unfold Obligations.PacketsAct
  refine ⟨?_, ?_, ?_, ?_⟩
  · intro s p f hdst hhops hlive q hface
    refine does_of_upd (f := fun b => if p.dst = b.slice.devid then b else b.forward p) rfl ?_
    rw [if_neg hdst]
    exact forward_hops hhops hlive hface
  · intro s p hdst hkind hst hlen hhbm hlost
    refine does_of_updIf (f := fun b => b.mine p fun b => b.pktWrite p) rfl (beq_iff_eq.mpr hkind) ?_
    rw [Blk.mine, if_pos hdst, pktWrite_stores hst hhbm hlost]
    exact ⟨sendReply_mem _, rfl⟩
  · intro s p hdst hkind hst hreg hheld hue hlost
    refine does_of_updIf (f := fun b => b.mine p fun b => b.pktRead p) rfl (beq_iff_eq.mpr hkind) ?_
    rw [Blk.mine, if_pos hdst, pktRead_answers hst hreg hheld hue hlost]
    exact ⟨sendReply_mem _, rfl⟩
  · intro s p r hrests hrem hopen htag hdst
    refine ⟨fun hkind hk hfrom => ?_, fun hkind hk hfrom => ?_, fun hkind hcause hcanon hshort hlong => ?_, fun ht => ?_⟩
    · refine mine_does rfl (beq_iff_eq.mpr hkind) hdst ?_
      rw [pktReply_answers hrem hopen htag hk hfrom, pump_rests (withRemote_rests hrests)]
      rfl
    · refine mine_does rfl (beq_iff_eq.mpr hkind) hdst ?_
      rw [pktReply_answers hrem hopen htag hk hfrom, pump_rests (withRemote_rests hrests)]
      rfl
    · refine mine_does rfl (beq_iff_eq.mpr hkind) hdst ?_
      rw [pktNotice_hops hrem hopen htag hcause hshort hlong, pump_rests (withRemote_rests (b := s.blk.count 0x820 1) hrests)]
      obtain ⟨-, hcfg, -⟩ := hcanon
      have hread := cfgGet_congr (t := (s.blk.count 0x820 1).withRemote { r with st := some stROUTELOST }) (x := s.blk.count 0x820 1) rfl
      exact ⟨rfl, (hread _).trans (cfgGet_count_pos (by decide) hcfg), fun q hq => (hread q).trans (cfgGet_count_ne (by simpa using hq)), rfl⟩
    · refine does_of_rests rfl (decide_eq_true ht) ?_ ?_
      · rw [remoteTimeout_ends hrem hopen htag]
        exact withRemote_rests hrests
      · rw [remoteTimeout_ends hrem hopen htag]
        rfl

end Sys2Proof.Machine
end

section
/-! SUPPORT. What the links and faces change when packets leave, are discarded or move, and when a link enters a state: counters, events, queues, notices and
requests, and nothing else of a link but its traffic (R391 to R399, R408, R410, R411, R413). -/
namespace Sys2Proof.Machine
open Sys2Proof Sys2Proof.Machine

variable {b x y z w : Blk} {p : Pkt} {l l' : Link} {k : Nat}

/-! ### A link but for its traffic -/

/-- Nothing of a link changes but its traffic: queues, credits, sequence numbers, the replay buffer and what is partly received. -/
structure Link.SameButTraffic (l l' : Link) : Prop where
  eq : { l with txNext := l'.txNext, rxNext := l'.rxNext, nakSent := l'.nakSent, resends := l'.resends, credits := l'.credits, txq := l'.txq, txPart := l'.txPart, sent := l'.sent, asm := l'.asm } = l'
theorem Link.SameButTraffic.refl : l.SameButTraffic l := ⟨rfl⟩
theorem Link.SameButTraffic.trans {l'' : Link} (h : l.SameButTraffic l') (g : l'.SameButTraffic l'') : l.SameButTraffic l'' := ⟨by rw [← g.eq, ← h.eq]⟩
theorem Link.SameButTraffic.st (h : l.SameButTraffic l') : l'.st = l.st := by rw [← h.eq]
theorem Link.SameButTraffic.carries (h : l.SameButTraffic l') : l'.carries = l.carries := by rw [← h.eq]; rfl
/-- Nothing of a link changes but what it sends: its queue, credits, sequence number and the replay buffer. -/
structure Link.SameButSent (l l' : Link) : Prop where
  eq : { l with txNext := l'.txNext, credits := l'.credits, txq := l'.txq, txPart := l'.txPart, sent := l'.sent } = l'
theorem Link.SameButSent.refl : l.SameButSent l := ⟨rfl⟩
theorem Link.SameButSent.trans {l'' : Link} (h : l.SameButSent l') (g : l'.SameButSent l'') : l.SameButSent l'' := ⟨by rw [← g.eq, ← h.eq]⟩
theorem Link.SameButSent.traffic (h : l.SameButSent l') : l.SameButTraffic l' := ⟨by rw [← h.eq]⟩
theorem sendFlits_same (n i : Nat) : l.SameButSent (l.sendFlits p n i).1 := by
  induction n generalizing l i with
  | zero => exact .refl
  | succ n ih =>
    unfold Link.sendFlits
    split
    · exact .refl
    · exact .trans ⟨rfl⟩ (ih _)
theorem sendVc_same (vc : Nat) (ps : List Pkt) : l.SameButSent (l.sendVc vc ps) := by
  induction ps generalizing l with
  | nil => exact .refl
  | cons p ps ih =>
    have hflits := sendFlits_same (l := l) (p := p) (pktFlits p - sget (fun _ => 0) l.txPart vc) (sget (fun _ => 0) l.txPart vc)
    unfold Link.sendVc
    simp only
    split
    · exact hflits.trans (.trans ⟨rfl⟩ ih)
    · exact hflits.trans ⟨rfl⟩
theorem transmit_same : l.SameButSent l.transmit := by
  unfold Link.transmit
  split
  · exact .refl
  · have hfold : ∀ (vcs : List Nat) (l : Link), l.SameButSent (vcs.foldl (fun l vc => l.sendVc vc (l.txq.filter fun p => pktVc p == vc)) l) := by
      intro vcs
      induction vcs with
      | nil => exact fun _ => .refl
      | cons vc vcs ih => exact fun l => (sendVc_same vc _).trans (ih _)
    exact hfold _ _
/-- A link that carries traffic is in the state ACTIVE or DEGRADED, so it is not the default of the map of links. -/
theorem ne_default_of_st (h : l.st ≠ 1) : l ≠ {} := fun e => h (congrArg Link.st e)
theorem ne_default_of_cmd (h : l.cmd ≠ none) : l ≠ {} := fun e => h (congrArg Link.cmd e)
theorem carries_st (h : l.carries = true) : l.st ≠ 1 := by
  intro e
  simp [Link.carries, e] at h

/-! ### What stays when packets travel -/

/-- Nothing changes but counters, events, the slice's notes of its packets and faces, what waits for a mode change, and the traffic of links. -/
structure Blk.Travels (x y : Blk) : Prop where
  frame : { x with cfg := y.cfg, host := y.host, links := y.links, slice := y.slice, mode := y.mode } = y
  slice : { x.slice with fallback := y.slice.fallback, darkFaces := y.slice.darkFaces, faceTx := y.slice.faceTx, notices := y.slice.notices, remotes := y.slice.remotes } = y.slice
  sends : x.Sends y
  links : ∀ j, (x.link j).SameButTraffic (y.link j)
theorem Blk.Travels.refl : x.Travels x := ⟨rfl, rfl, .of_host rfl, fun _ => .refl⟩
theorem Blk.Travels.trans (h : x.Travels y) (g : y.Travels z) : x.Travels z :=
  ⟨by rw [← g.frame, ← h.frame], by rw [← g.slice, ← h.slice], h.sends.trans g.sends, fun j => (h.links j).trans (g.links j)⟩
theorem Blk.Travels.chipSame (h : x.Travels y) : x.chipSame y := by rw [← h.frame]; rfl
theorem Blk.Travels.carries (h : x.Travels y) {j : Nat} (hj : (x.link j).carries = true) : (y.link j).carries = true := (h.links j).carries.trans hj
/-- What leaves the links and the host side as they are. -/
theorem Blk.Leaves.travels (h : x.Leaves y) (hl : y.links = x.links) : x.Travels y where
  frame := by rw [← h.eq]
  slice := by rw [← h.eq]
  sends := .of_host h.host
  links j := by rw [show y.link j = x.link j by unfold Blk.link; rw [hl]]; exact .refl
theorem count_travels (off n : Nat) : x.Travels (x.count off n) := (count_leaves off n).travels rfl
theorem dropPkt_travels : x.Travels x.dropPkt := count_travels _ _
theorem setFallback_travels (d : Nat) : x.Travels (x.setFallback d) :=
  (setFallback_leaves d).travels (by unfold Blk.setFallback; split <;> rfl)
theorem setRemote_travels (r : Remote) : x.Travels (x.setRemote r) := ⟨rfl, rfl, .of_host rfl, fun _ => .refl⟩
theorem eventTo_travels (ns : List Nat) (op : Nat) (v : List Byte) : x.Travels (x.eventTo ns op v) := by
  obtain ⟨h, hh⟩ := (eventTo_sameButHost (x := x) ns op v).exists_host
  have hsends := eventTo_sends (x := x) ns op v
  rw [hh] at hsends ⊢
  exact ⟨rfl, rfl, hsends, fun _ => .refl⟩
/-- A link whose traffic changes, when it is not the default of the map of links. -/
theorem setLink_travels (hl : (x.link k).SameButTraffic l) (hst : (x.link k).st ≠ 1) : x.Travels (x.setLink k l) := by
  refine ⟨rfl, rfl, .of_host rfl, fun j => ?_⟩
  by_cases hj : j = k
  · rw [hj, link_setLink_new _ _ _ (ne_default_of_st (by rw [hl.st]; exact hst))]
    exact hl
  · rw [link_setLink_ne _ _ hj]
    exact .refl
theorem transmit_travels (h : (x.link k).carries = true) : x.Travels (x.transmit k) :=
  (setLink_travels transmit_same.traffic (carries_st h)).trans (count_travels _ _)
theorem foldl_travels {α : Type} (f : Blk → α → Blk) (as : List α) (hf : ∀ w a, a ∈ as → x.Travels w → w.Travels (f w a)) : x.Travels (as.foldl f x) := by
  have hgo : ∀ (as' : List α) (w : Blk), (∀ a ∈ as', a ∈ as) → x.Travels w → x.Travels (as'.foldl f w) := by
    intro as'
    induction as' with
    | nil => exact fun _ _ h => h
    | cons a as' ih => exact fun w hmem h => ih _ (fun c hc => hmem c (.tail _ hc)) (h.trans (hf w a (hmem a (.head _)) h))
  exact hgo as x (fun _ h => h) .refl

/-! ### Packets leave, or are discarded -/

theorem pickLink_live {f : Nat} (h : x.pickLink f = some k) : k ∈ x.liveLinks f := by
  have hgo : ∀ (ks : List Nat) (best : Option Nat) (g : Option Nat → Nat → Option Nat), (∀ o j, g o j = some j ∨ g o j = o) →
      ks.foldl g best = some k → k ∈ ks ∨ best = some k := by
    intro ks
    induction ks with
    | nil => exact fun _ _ _ h => .inr h
    | cons j ks ih =>
      intro best g hg hfold
      rcases ih _ g hg hfold with hmem | hbest
      · exact .inl (.tail _ hmem)
      · rcases hg best j with e | e
        · rw [e] at hbest
          exact .inl (by rw [Option.some.inj hbest]; exact .head _)
        · exact .inr (e ▸ hbest)
  refine (hgo _ none _ (fun o j => ?_) h).resolve_right (by simp)
  cases o with
  | none => exact .inl rfl
  | some i =>
    exact ite_eq_or_eq _ _ _
theorem pickLink_carries {f : Nat} (h : x.pickLink f = some k) : (x.link k).carries = true := (List.mem_filter.mp (pickLink_live h)).2
theorem enterFace_travels (f : Nat) : x.Travels (x.enterFace f p) := by
  unfold Blk.enterFace
  split
  · exact .refl
  · next k hk =>
    have hcar := pickLink_carries hk
    have hface : x.Travels { x with slice := { x.slice with faceTx := sset (fun _ => 0) x.slice.faceTx f ((sget (fun _ => 0) x.slice.faceTx f + 1) % 2 ^ 32) } } :=
      ⟨rfl, rfl, .of_host rfl, fun _ => .refl⟩
    have hput := hface.trans (setLink_travels (k := k) (l := { x.link k with txq := (x.link k).txq ++ [{ p with pseq := sget (fun _ => 0) x.slice.faceTx f }] }) ⟨rfl⟩ (carries_st hcar))
    exact hput.trans (transmit_travels (hput.carries hcar))
theorem sendHop_travels (f : Nat) : x.Travels (x.sendHop p f) := enterFace_travels f
theorem originate_travels : x.Travels (x.originate p).1 := by
  unfold Blk.originate
  simp only
  split
  · exact ⟨rfl, rfl, .of_host rfl, fun _ => .refl⟩
  · split
    · exact .refl
    · split
      · exact sendHop_travels _
      · have hdrop : x.Travels (x.dropPkt.setFallback p.dst) := dropPkt_travels.trans (setFallback_travels _)
        split
        · exact hdrop
        · split
          · exact hdrop
          · split
            · exact hdrop.trans ((count_travels _ _).trans (sendHop_travels _))
            · exact hdrop.trans dropPkt_travels
theorem sendReply_travels : x.Travels (x.sendReply p) := by
  unfold Blk.sendReply
  simp only
  split
  · exact originate_travels
  · exact originate_travels.trans dropPkt_travels
theorem noticeFor_travels (cause : Nat) : x.Travels (x.noticeFor p cause) := by
  unfold Blk.noticeFor
  split
  · exact .refl
  · split
    · exact ⟨rfl, rfl, .of_host rfl, fun _ => .refl⟩
    · split
      · split
        · exact .refl
        · split
          · exact .refl
          · split
            · exact setRemote_travels _
            · simp only
              split
              · exact (setFallback_travels _).trans (setRemote_travels _)
              · exact (setFallback_travels _).trans ((count_travels _ _).trans (originate_travels.trans (setRemote_travels _)))
      · exact sendReply_travels
theorem discardAt_travels (f : Nat) : x.Travels (x.discardAt f p) := dropPkt_travels.trans (noticeFor_travels _)

/-! ### A link enters a state -/

/-- The machine with a link in a state, and nothing else of that (R399). -/
def Blk.inState (b : Blk) (k st : Nat) : Blk :=
  if (b.link k).st = st then b else b.setLink k { b.link k with st := st, width := if st = 6 then 8 else if st = 7 then 4 else 0 }
theorem inState_leaves (st : Nat) : x.Leaves (x.inState k st) := by
  unfold Blk.inState
  split
  · exact .refl
  · exact setLink_leaves _ _
theorem inState_link_new (st : Nat) (hne : ∀ u, ({ x.link k with st := st, width := u } : Link) ≠ {}) :
    { x.link k with st := st, width := ((x.inState k st).link k).width } = (x.inState k st).link k := by
  unfold Blk.inState
  split
  · next h => rw [← h]
  · rw [link_setLink_new _ _ _ (hne _)]
theorem inState_link (st : Nat) (hne : st ≠ 1) : { x.link k with st := st, width := ((x.inState k st).link k).width } = (x.inState k st).link k :=
  inState_link_new st fun _ => ne_default_of_st hne
theorem inState_link_ne {j : Nat} (st : Nat) (hj : j ≠ k) : (x.inState k st).link j = x.link j := by
  unfold Blk.inState
  split
  · rfl
  · exact link_setLink_ne _ _ hj
theorem reportFace_travels (f : Nat) : x.Travels (x.reportFace f) := by
  unfold Blk.reportFace
  split
  · exact .refl
  · simp only
    split
    · exact .refl
    · split
      · exact ⟨rfl, rfl, .of_host rfl, fun _ => .refl⟩
      · exact sendReply_travels
theorem linkState_travels (st : Nat) : (x.inState k st).Travels (x.linkState k st) := by
  unfold Blk.linkState Blk.inState
  by_cases hst : (x.link k).st = st
  · simp only [hst, if_true]
    exact .refl
  · simp only [if_neg hst]
    generalize x.setLink k _ = x1
    have hcount : x1.Travels (if st = 1 then x1.count (cfgLK k + 0x78) 1 else x1) := by
      split
      · exact count_travels _ _
      · exact .refl
    generalize (if st = 1 then x1.count (cfgLK k + 0x78) 1 else x1) = x2 at hcount ⊢
    have hevent := hcount.trans (eventTo_travels [0] evLINKSTATE (leBytes 1 k ++ leBytes 1 (x.link k).st ++ leBytes 1 st ++ zeros 5))
    split
    · exact hevent
    · exact hevent.trans (reportFace_travels _)
/-- The traffic of a link that leaves the states that carry it moves to the links beside it, or is discarded (R396, R411). -/
theorem moveTraffic_travels (hst : (x.link k).st ≠ 1) : x.Travels (x.moveTraffic k) := by
  unfold Blk.moveTraffic
  simp only
  have hempty : x.Travels (x.setLink k { x.link k with txq := [], txPart := [], sent := [], asm := [], credits := [], txNext := 0, rxNext := 0, nakSent := false, resends := 0 }) :=
    setLink_travels ⟨rfl⟩ hst
  refine hempty.trans ?_
  generalize x.setLink k _ = x1
  split
  · have hmoved : x1.Travels ((x.link k).backlog.zipIdx.foldl (fun b q => match b.pickLink (k / 4) with
        | some j => b.setLink j ((b.link j).putAhead q.2 q.1)
        | none => b) x1) := by
      refine foldl_travels _ _ fun w q _ _ => ?_
      split
      · next j hj => exact setLink_travels ⟨rfl⟩ (carries_st (pickLink_carries hj))
      · exact .refl
    refine hmoved.trans (.trans (foldl_travels _ _ fun w j hj htr => ?_) (count_travels _ _))
    exact transmit_travels (htr.carries (hmoved.carries (List.mem_filter.mp hj).2))
  · exact foldl_travels _ _ fun _ _ _ _ => discardAt_travels _
theorem linkLeave_travels {st : Nat} (hne : st ≠ 1) : (x.inState k st).Travels (x.linkLeave k st) := by
  unfold Blk.linkLeave
  simp only
  split
  · refine (linkState_travels st).trans (moveTraffic_travels ?_)
    rw [((linkState_travels st).links k).st, ← inState_link st hne]
    exact hne
  · exact linkState_travels st

/-! ### Nothing goes on but notices that no channel acts on -/

/-- Nothing goes on by itself: no descriptor runs, no channel is open and no mark waits to be cleared; notices of collective packets may wait. -/
def Blk.stillButNotices (b : Blk) : Prop := ({ b with slice := { b.slice with notices := [] } } : Blk).still = true
theorem stillButNotices_of_still (h : b.still = true) : b.stillButNotices := by
  simp only [still_iff] at h
  simp only [Blk.stillButNotices, still_iff]
  tauto
theorem Blk.Travels.stillButNotices (h : x.Travels y) (hs : x.stillButNotices) : y.stillButNotices := by
  have hmiss : y.slice.missing = x.slice.missing := by rw [← h.slice]
  have hbays : y.bays = x.bays := by rw [← h.frame]
  have hchans : y.chans = x.chans := by rw [← h.frame]
  simp only [Blk.stillButNotices, still_iff] at hs ⊢
  rw [hmiss, hbays, hchans]
  exact hs
/-- The machine with no notice waiting. -/
def Blk.noNotices (b : Blk) : Blk := { b with slice := { b.slice with notices := [] } }
theorem collNotice_noChan (h : b.chans = []) (cause : Nat) : b.collNotice cause p = b := by
  have hch : b.chan (p.tag % 128) = {} := by simp [Blk.chan, h]
  rw [Blk.collNotice]
  simp only
  rw [hch]
  rfl
theorem collNotices_noChan (h : b.chans = []) {n : Nat} (hn : b.slice.notices.length ≤ n) : b.collNotices n = b.noNotices := by
  induction n generalizing b with
  | zero =>
    have hnil : b.slice.notices = [] := List.length_eq_zero_iff.mp (Nat.le_zero.mp hn)
    rw [Blk.collNotices, Blk.noNotices, ← hnil]
  | succ n ih =>
    cases hq : b.slice.notices with
    | nil => rw [collNotices_none _ hq, Blk.noNotices, ← hq]
    | cons q rest =>
      have hrest : rest.length ≤ n := by simpa [hq] using hn
      have hnext : ({ b with slice := { b.slice with notices := rest } } : Blk).chans = [] := h
      rw [Blk.collNotices, hq]
      simp only
      rw [collNotice_noChan hnext, ih hnext hrest]
      rfl
/-- With no channel open, what remains of the pump drops the notices that wait. -/
theorem tail_drops (h : b.stillButNotices) : b.pumpDescs.collPump.clearMissing = b.noNotices := by
  simp only [Blk.stillButNotices, still_iff, true_and] at h
  obtain ⟨hbays, hchans, hmiss⟩ := h
  have hdescs : b.pumpDescs = b := by
    unfold Blk.pumpDescs
    refine foldl_same _ _ _ fun q hq => foldl_same _ _ _ fun d hd => ?_
    simp [hbays q hq d hd]
  have hcoll : b.collPump = b.noNotices := by
    rw [Blk.collPump, collNotices_noChan hchans (Nat.le_add_right _ _)]
    simp [Blk.noNotices, hchans]
  have hmiss' : b.noNotices.slice.missing = [] := hmiss
  rw [hdescs, hcoll, Blk.clearMissing]
  split
  · rfl
  · simp [hmiss']
theorem noNotices_chipSame : x.chipSame x.noNotices := rfl
/-- With no command uncompleted and no channel open, the pump drops the notices that wait. -/
theorem pump_drops (hcmds : b.host.cmds = []) (h : b.stillButNotices) : b.pump = b.noNotices := by
  have hcmd : b.pumpCmds = b := by
    unfold Blk.pumpCmds
    split
    · rfl
    · rw [show b.pollCmds = b by simp [Blk.pollCmds, hcmds], startReady_none _ (by simp [Blk.noneReady, hcmds])]
  rw [Blk.pump, hcmd, tail_drops h]

end Sys2Proof.Machine
end

section
/-! ### O41: CMD_LINK_SET and a lane spare of a link -/
namespace Sys2Proof.Machine
open Sys2Proof Sys2Proof.Machine
variable {b x y z : Blk} {m : Msg} {c : Cmd} {k st det : Nat} {pay : List Byte}

/-! ### A command after which notices may wait -/

/-- What a command leaves is what its own rules leave, without the notices that no channel acts on. -/
theorem command_drops (h : b.takes m = true) (hr : (b.entered m).runOp (b.asCmd m) = z) (hready : z.noneReady = true) (hs : z.stillButNotices) :
    b.command m = z.noNotices := by
  rw [command_takes h, hr, startReady_none 1 hready, tail_drops hs]
/-- A message that the device takes is the only command of the machine as it was entered, and after whatever then travels. -/
theorem entered_alone (h : b.takes m = true) (hop : m.opcode ≠ 1) : (b.entered m).Alone (b.asCmd m) := by
  obtain ⟨-, -, hlog, h13, -⟩ := takes_facts h
  refine ⟨entered_frame.2.2.2.2.2.1, h13, ?_, (entered_logged _ _).trans hlog, hop⟩
  rw [show (b.asCmd m).m.ctx = m.ctx from rfl, (entered_ctx_self h).1]
  decide
theorem Blk.Travels.alone (h : x.Travels y) (ha : x.Alone c) : y.Alone c := ha.sends h.sends (by rw [← h.frame])
/-- The only command stays so as it is accepted. -/
theorem Blk.Alone.accept (h : x.Alone c) (hq : c.queued = false) : (x.accept c).Alone { c with started := true, queued := true } := by
  have hctx : ∀ n, ((x.measureCmd c.m).setCmd { c with started := true, queued := true }).ctx n = x.ctx n := fun n => by simp [Blk.ctx, Blk.setCmd]
  have hsends := accept_sends (x := x) (c := c) (pay := []) hq
  refine ⟨?_, h.plain, ?_, ?_, h.notHello⟩
  · rw [hsends.cmds]
    simp [Blk.setCmd, h.cmds, Cmd.ctx, Cmd.seq]
  · rw [(hsends.ctx _ (by rw [hctx]; exact h.opened)).1, hctx]
    exact h.opened
  · refine (logged_congr ?_).trans h.unlogged
    rw [(accept_sameButHost (x := x) hq).spans]
    simp
theorem measureCmd_chipSame (h : x.chipSame y) : (x.measureCmd m).chipSame (y.measureCmd m) := by
  unfold Blk.chipSame at h
  generalize y.free = a1, y.tide = a2, y.cfg = a3, y.host = a4, y.err = a5, y.links = a6, y.chans = a7, y.slice = a8, y.sync = a9, y.mode = a10, y.bars = a11 at h
  subst h
  unfold Blk.measureCmd Blk.extendCfg Blk.extendPm Blk.part
  simp only
  split
  · split <;> rfl
  · split
    · split <;> rfl
    · rfl
theorem accept_chipSame (h : x.chipSame y) (hq : c.queued = false) : (x.measureCmd c.m).chipSame (y.accept c) :=
  chipSame_trans (measureCmd_chipSame h) (accept_sameButHost hq).chipSame
theorem accept_links (hq : c.queued = false) : (x.accept c).links = x.links := by
  rw [← (accept_sameButHost hq).eq]
  simp
theorem link_congr (h : y.links = x.links) (j : Nat) : y.link j = x.link j := by unfold Blk.link; rw [h]
theorem entered_links : (b.entered m).links = b.links := by rw [← (entered_sameButHost (b := b) (m := m)).eq]
theorem entered_chipSame : b.chipSame (b.entered m) := entered_sameButHost.chipSame
theorem Blk.SameButHost.stillBut (h : x.SameButHost y) (hs : x.stillButNotices) : y.stillButNotices := by
  obtain ⟨k, rfl⟩ := h.exists_host
  exact hs

/-- The machine y stands some way into the rules of the only command: the chip is as in x, and nothing else goes on. -/
structure Blk.Serves (x y : Blk) (c : Cmd) : Prop where
  alone : y.Alone c
  chip : x.chipSame y
  quiet : y.stillButNotices
theorem entered_serves (h : b.takes m = true) (hop : m.opcode ≠ 1) : b.Serves (b.entered m) (b.asCmd m) := by
  obtain ⟨-, hstill, -⟩ := takes_facts h
  exact ⟨entered_alone h hop, entered_sameButHost.chipSame, stillButNotices_of_still (entered_still.trans hstill)⟩
theorem Blk.Serves.travels (h : x.Serves y c) (g : y.Travels z) : x.Serves z c := ⟨g.alone h.alone, chipSame_trans h.chip g.chipSame, g.stillButNotices h.quiet⟩
theorem Blk.Serves.leaves (h : x.Serves y c) (g : y.Leaves z) : x.Serves z c := by
  refine ⟨h.alone.congr g.host (by rw [← g.eq]), chipSame_trans h.chip g.chipSame, ?_⟩
  have hquiet := h.quiet
  rw [← g.eq]
  exact hquiet
theorem Blk.Serves.accept (h : x.Serves y c) (hq : c.queued = false) : (x.measureCmd c.m).Serves (y.accept c) { c with started := true, queued := true } := by
  refine ⟨h.alone.accept hq, accept_chipSame h.chip hq, (accept_sameButHost hq).stillBut ?_⟩
  have hquiet := h.quiet
  simp only [Blk.stillButNotices, still_iff] at hquiet ⊢
  simpa using hquiet
theorem accept_serves (h : b.takes m = true) (hop : m.opcode ≠ 1) : (b.measureCmd m).Serves ((b.entered m).accept (b.asCmd m)) (b.accepted m) :=
  (entered_serves h hop).accept rfl
/-- A command whose rules leave it waiting. -/
theorem Blk.Serves.waits (hz : x.Serves z c) (h : b.takes m = true) (hr : (b.entered m).runOp (b.asCmd m) = z) (hc : c.m = m) (hs : c.started = true) :
    b.command m = z.noNotices ∧ z.noNotices.awaits m ∧ x.chipSame z.noNotices := by
  refine ⟨command_drops h hr (by simp [Blk.noneReady, hz.alone.cmds, hs]) hz.quiet, ?_, chipSame_trans hz.chip noNotices_chipSame⟩
  have hcmds : z.noNotices.host.cmds = [c] := hz.alone.cmds
  simp [Blk.awaits, hcmds, hc, hs]
/-- A command whose rules end it. -/
theorem Blk.Serves.ends (hy : x.Serves y c) (h : b.takes m = true) (hr : (b.entered m).runOp (b.asCmd m) = y.finish c st det pay) (hc : c.m = m)
    (hk : st ≠ stOK ∨ dKind m.opcode = true) (hd : det < openDet) :
    b.command m = (y.finish c st det pay).noNotices ∧ (b.command m).answered m st det pay ∧ (b.command m).links = y.links ∧ x.chipSame (b.command m) := by
  subst hc
  have hend := finish_alone (pay := pay) hy.alone hk hd
  have he := command_drops h hr (by simp [Blk.noneReady, hend.cmds]) (hend.same.stillBut hy.quiet)
  have hlinks : (y.finish c st det pay).links = y.links := by rw [← hend.same.eq]
  rw [he]
  exact ⟨rfl, hend.answered, hlinks, chipSame_trans hy.chip (chipSame_trans hend.same.chipSame noNotices_chipSame)⟩

/-! ### A command that waits for a link -/

/-- A link with the command that waits for it, and what that waits for. -/
def Link.awaited (l : Link) (c : Cmd) (kind : Nat) : Link := { l with cmd := some (c.ctx, c.seq), cmdKind := kind }
theorem linkWait_eq (hq : c.queued = false) {kind : Nat} : x.linkWait k kind c = (x.accept c).setLink k ((x.link k).awaited c kind) := by
  rw [Blk.linkWait, link_congr (accept_links hq)]
  rfl
theorem linkWait_link (hq : c.queued = false) (kind : Nat) : (x.linkWait k kind c).link k = (x.link k).awaited c kind := by
  rw [linkWait_eq hq]
  exact link_setLink_new _ _ _ (ne_default_of_cmd (by simp [Link.awaited]))
theorem linkWait_serves (h : b.takes m = true) (hop : m.opcode ≠ 1) (kind : Nat) : (b.measureCmd m).Serves ((b.entered m).linkWait k kind (b.asCmd m)) (b.accepted m) :=
  (accept_serves h hop).leaves (setLink_leaves _ _)
/-- The command that waits for a link ends. -/
theorem linkCmdEnd_finishes {kinds : List Nat} (hcmds : x.host.cmds = [c]) (hcmd : (x.link k).cmd = some (c.ctx, c.seq)) (hkind : kinds.contains (x.link k).cmdKind = true)
    (h5 : (x.link k).cmdKind ≠ 5) : x.linkCmdEnd k kinds st det pay = (x.setLink k { x.link k with cmd := none }).finish c st det pay := by
  have hof : (x.setLink k { x.link k with cmd := none }).cmdOf c.ctx c.seq = some c := cmdOf_only hcmds
  unfold Blk.linkCmdEnd
  simp only [hcmd, hkind, hof, if_neg h5]
  rfl

/-- With both ends' requests a FENCED link carries traffic, and the command that waits for it ends. -/
theorem linkActivate_ends (hx : b.Serves x c) (h5 : (x.link k).st = 5) (hself : (x.link k).askedSelf = true) (hpeer : (x.link k).askedPeer = true)
    (hkind : (x.link k).cmdKind = 3) (hcmd : (x.link k).cmd = some (c.ctx, c.seq)) :
    ∃ y, x.linkActivate k = y.finish c stOK 0 [] ∧ b.Serves y c ∧ (y.link k).st = if (x.link k).four then 7 else 6 := by
  have hst1 : (if (x.link k).four then 7 else 6) ≠ 1 := by split <;> decide
  have hrun : x.linkActivate k = ((x.setLink k { x.link k with askedSelf := false, askedPeer := false, fencedPeer := false }).linkState k
      (if (x.link k).four then 7 else 6)).linkCmdEnd k [3] stOK 0 := by
    unfold Blk.linkActivate
    exact if_pos (by simp [h5, hself, hpeer])
  have hset : (x.setLink k { x.link k with askedSelf := false, askedPeer := false, fencedPeer := false }).link k =
      { x.link k with askedSelf := false, askedPeer := false, fencedPeer := false } := link_setLink_new _ _ _ (ne_default_of_cmd (by simp [hcmd]))
  have hy := hx.leaves (setLink_leaves k { x.link k with askedSelf := false, askedPeer := false, fencedPeer := false })
  generalize x.setLink k { x.link k with askedSelf := false, askedPeer := false, fencedPeer := false } = y at hrun hset hy
  generalize (if (x.link k).four then 7 else 6) = st at hst1 hrun ⊢
  have hstate := linkState_travels (x := y) (k := k) st
  have hz := (hy.leaves (inState_leaves st)).travels hstate
  have hlink := (hstate.links k).eq
  rw [← inState_link st hst1, hset] at hlink
  generalize y.linkState k st = z at hrun hz hlink
  refine ⟨z.setLink k { z.link k with cmd := none }, ?_, hz.leaves (setLink_leaves _ _), ?_⟩
  · rw [hrun]
    exact linkCmdEnd_finishes hz.alone.cmds (by rw [← hlink]; exact hcmd) (by rw [← hlink]; simp [hkind]) (by rw [← hlink]; simp [hkind])
  · rw [link_setLink_new _ _ _ (ne_default_of_st (by rw [← hlink]; exact hst1)), ← hlink]

/-! ### What CMD_LINK_SET does (R403) -/

theorem link_param {t : Nat} (hk : k < nLinks) (ht : t < 4) : fld (k + t * 256) 4 0 = k ∧ fld (k + t * 256) 10 8 = t := by
  have hk' : k < 24 := hk
  simp only [fld, Nat.shiftRight_eq_div_pow]
  omega

section
variable {t : Nat} (hk : k < nLinks) (hcmd : (x.link k).cmd = none) (ht : t < 4) (hp : c.m.param = k + t * 256)
include hk hcmd ht hp
/-- CMD_LINK_SET of a link that no other command waits for, by what it asks for. -/
theorem doLinkSet_eq : x.doLinkSet c =
    if t = 0 then ((x.linkLeave k 0).setLink k { (x.linkLeave k 0).link k with enabled := false, cause := 0 }).acceptEnd c stOK 0 []
    else if t = 1 then
      (if (x.link k).trained && (x.link k).st != 7 then (if (x.link k).reported then (x.linkWait k 1 c).recheck k else x.linkWait k 1 c) else (x.linkWait k 1 c).retrain k)
    else if t = 2 then
      (if !(x.link k).trained then x.busy c else if (x.link k).st = 5 && (x.link k).fencedPeer then x.acceptEnd c stOK 0 []
       else ((x.linkWait k 2 c).linkLeave k 5).linkSend k ctlFence)
    else if (x.link k).st != 5 || !(x.link k).reported || (x.checkLink k).1 != 6 then x.busy c
    else (((x.linkWait k 3 c).linkSend k ctlActive).setLink k { ((x.linkWait k 3 c).linkSend k ctlActive).link k with askedSelf := true, cause := 0 }).linkActivate k := by
  obtain ⟨hfk, hft⟩ := link_param hk ht
  unfold Blk.doLinkSet
  simp only [hp, hfk, hft, hcmd]
  rw [if_neg (by simp [ht, hk]), if_neg (by simp)]
end

/-! ### What CMD_LINK_SET leaves -/

theorem entered_link (j : Nat) : (b.entered m).link j = b.link j := link_congr entered_links j
/-- A link that has asked its peer for ACTIVE, for a command that waits. -/
def Link.asking (l : Link) (c : Cmd) : Link := { l with ctlOut := l.ctlOut ++ [ctlActive], askedSelf := true, cause := 0, cmd := some (c.ctx, c.seq), cmdKind := 3 }
theorem entered_checkLink : (b.entered m).checkLink k = b.checkLink k := by
  rw [← (entered_sameButHost (b := b) (m := m)).eq]
  rfl
/-- A FENCED link that passes its check asks its peer, and carries traffic when the peer has asked too. -/
theorem runOp_linkSetActive (hk : k < nLinks) (hcmd : (b.link k).cmd = none) (hop : m.opcode = 0x0602) (hp : m.param = k + 0x300) (h5 : (b.link k).st = 5)
    (hrep : (b.link k).reported = true) (hchk : (b.checkLink k).1 = 6) : (b.entered m).runOp (b.asCmd m) =
      ((((b.entered m).linkWait k 3 (b.asCmd m)).linkSend k ctlActive).setLink k ((b.link k).asking (b.asCmd m))).linkActivate k := by
  have hwait : ((b.entered m).linkWait k 3 (b.asCmd m)).link k = (b.link k).awaited (b.asCmd m) 3 := by rw [linkWait_link rfl, entered_link]
  have hsent : (((b.entered m).linkWait k 3 (b.asCmd m)).linkSend k ctlActive).link k =
      { (b.link k).awaited (b.asCmd m) 3 with ctlOut := (b.link k).ctlOut ++ [ctlActive] } := by
    rw [Blk.linkSend, hwait]
    exact link_setLink_new _ _ _ (ne_default_of_cmd (by simp [Link.awaited]))
  rw [runOp_eq (op := 0x0602) hop rfl]
  show (b.entered m).doLinkSet (b.asCmd m) = _
  rw [doLinkSet_eq (t := 3) hk (by rw [entered_link]; exact hcmd) (by decide) hp, if_neg (by decide), if_neg (by decide), if_neg (by decide), entered_link,
    entered_checkLink, if_neg (by simp [h5, hrep, hchk]), hsent]
  rfl

section
variable (h : b.takes m = true) (hk : k < nLinks) (hcmd : (b.link k).cmd = none) (hop : m.opcode = 0x0602)
include h hk hcmd hop
theorem setsDisabled (hp : m.param = k) :
    (b.command m).answered m stOK 0 [] ∧ ((b.command m).link k).st = 0 ∧ ((b.command m).link k).enabled = false ∧ (b.measureCmd m).chipSame (b.command m) := by
  have hne : m.opcode ≠ 1 := by rw [hop]; decide
  have hleft := linkLeave_travels (x := b.entered m) (k := k) (st := 0) (by decide)
  have hst : (((b.entered m).linkLeave k 0).link k).st = 0 := by
    rw [(hleft.links k).st, ← inState_link 0 (by decide)]
  generalize hx : (b.entered m).linkLeave k 0 = x at hleft hst
  have hr : (b.entered m).runOp (b.asCmd m) = ((x.setLink k { x.link k with enabled := false, cause := 0 }).accept (b.asCmd m)).finish (b.accepted m) stOK 0 [] := by
    rw [runOp_eq (op := 0x0602) hop rfl]
    show (b.entered m).doLinkSet (b.asCmd m) = _
    rw [doLinkSet_eq (t := 0) hk (by rw [entered_link]; exact hcmd) (by decide) hp, if_pos rfl, hx]
    rfl
  have hserves := ((((entered_serves h hne).leaves (inState_leaves 0)).travels hleft).leaves (setLink_leaves k { x.link k with enabled := false, cause := 0 })).accept rfl
  obtain ⟨-, hans, hlinks, hchip⟩ := hserves.ends h hr rfl (.inr (by rw [hop]; rfl)) (by decide)
  have hlink : (b.command m).link k = { x.link k with enabled := false, cause := 0 } := by
    rw [link_congr hlinks, link_congr (accept_links rfl)]
    exact link_setLink_new _ _ _ fun e => Bool.false_ne_true (congrArg Link.enabled e)
  rw [hlink]
  exact ⟨hans, hst, rfl, hchip⟩

/-- A link that is enabled and does not train yet: the command waits, and a link that was DISABLED is DOWN. -/
theorem setsEnabled (hp : m.param = k + 0x100) (htr : (b.link k).trained = false) :
    (b.command m).awaits m ∧ ((b.command m).link k).enabled = true ∧ ((b.command m).link k).trainFails = 0 ∧ ((b.command m).link k).st = max (b.link k).st 1 ∧
      ((b.command m).link k).cmd = some (m.ctx, m.seq) ∧ (b.measureCmd m).chipSame (b.command m) := by
  have hne : m.opcode ≠ 1 := by rw [hop]; decide
  have hserves := linkWait_serves (k := k) h hne 1
  have hwait : ((b.entered m).linkWait k 1 (b.asCmd m)).link k = (b.link k).awaited (b.asCmd m) 1 := by rw [linkWait_link rfl, entered_link]
  generalize hw : (b.entered m).linkWait k 1 (b.asCmd m) = w at hserves hwait
  let l : Link := { (b.link k).awaited (b.asCmd m) 1 with enabled := true, trainFails := 0 }
  have hlne : ∀ st u, ({ l with st := st, width := u } : Link) ≠ {} := fun st u => ne_default_of_cmd (by simp [l, Link.awaited])
  have hset : (w.setLink k l).link k = l := link_setLink_new _ _ _ (hlne l.st l.width)
  have hr : (b.entered m).runOp (b.asCmd m) = if (b.link k).st = 0 then (w.setLink k l).linkState k 1 else w.setLink k l := by
    rw [runOp_eq (op := 0x0602) hop rfl]
    show (b.entered m).doLinkSet (b.asCmd m) = _
    rw [doLinkSet_eq (t := 1) hk (by rw [entered_link]; exact hcmd) (by decide) hp, if_neg (by decide), if_pos rfl, entered_link, htr, hw]
    rw [Blk.retrain, hwait, show ((b.link k).awaited (b.asCmd m) 1).trained = false from htr]
    rfl
  have hl := hserves.leaves (setLink_leaves k l)
  by_cases h0 : (b.link k).st = 0
  · rw [if_pos h0] at hr
    have hstate := linkState_travels (x := w.setLink k l) (k := k) 1
    have hin : { l with st := 1, width := (((w.setLink k l).inState k 1).link k).width } = ((w.setLink k l).inState k 1).link k := by
      rw [← inState_link_new 1 (by rw [hset]; exact hlne 1), hset]
    obtain ⟨he, hawaits, hchip⟩ := ((hl.leaves (inState_leaves 1)).travels hstate).waits h hr rfl rfl
    rw [he]
    have hlink : ((w.setLink k l).linkState k 1).noNotices.link k = ((w.setLink k l).linkState k 1).link k := rfl
    rw [hlink, ← (hstate.links k).eq, ← hin]
    exact ⟨hawaits, rfl, rfl, by rw [h0]; rfl, rfl, hchip⟩
  · rw [if_neg h0] at hr
    obtain ⟨he, hawaits, hchip⟩ := hl.waits h hr rfl rfl
    have hlink : (w.setLink k l).noNotices.link k = l := hset
    rw [he, hlink]
    exact ⟨hawaits, rfl, rfl, (max_eq_left (Nat.one_le_iff_ne_zero.mpr h0)).symm, rfl, hchip⟩

/-- A trained link is FENCED, and the peer is told. -/
theorem setsFenced (hp : m.param = k + 0x200) (htr : (b.link k).trained = true) (h5 : (b.link k).st ≠ 5) :
    ((b.command m).link k).st = 5 ∧ ((b.command m).link k).ctlOut = (b.link k).ctlOut ++ [ctlFence] ∧ ((b.command m).link k).cmd = some (m.ctx, m.seq) ∧
      (b.command m).awaits m ∧ (b.measureCmd m).chipSame (b.command m) := by
  have hne : m.opcode ≠ 1 := by rw [hop]; decide
  have hserves := linkWait_serves (k := k) h hne 2
  have hwait : ((b.entered m).linkWait k 2 (b.asCmd m)).link k = (b.link k).awaited (b.asCmd m) 2 := by rw [linkWait_link rfl, entered_link]
  generalize hw : (b.entered m).linkWait k 2 (b.asCmd m) = w at hserves hwait
  have hr : (b.entered m).runOp (b.asCmd m) = (w.linkLeave k 5).linkSend k ctlFence := by
    rw [runOp_eq (op := 0x0602) hop rfl]
    show (b.entered m).doLinkSet (b.asCmd m) = _
    rw [doLinkSet_eq (t := 2) hk (by rw [entered_link]; exact hcmd) (by decide) hp, if_neg (by decide), if_neg (by decide), if_pos rfl, entered_link, hw,
      if_neg (by simp [htr]), if_neg (by simp [h5])]
  have hleft := linkLeave_travels (x := w) (k := k) (st := 5) (by decide)
  have hlink := (hleft.links k).eq
  rw [← inState_link 5 (by decide), hwait] at hlink
  obtain ⟨he, hawaits, hchip⟩ := (((hserves.leaves (inState_leaves 5)).travels hleft).leaves (linkSend_leaves k ctlFence)).waits h hr rfl rfl
  have hsent : ((w.linkLeave k 5).linkSend k ctlFence).noNotices.link k = { (w.linkLeave k 5).link k with ctlOut := ((w.linkLeave k 5).link k).ctlOut ++ [ctlFence] } :=
    link_setLink_new _ _ _ (ne_default_of_st (by rw [← hlink]; exact (by decide : 5 ≠ 1)))
  rw [he, hsent, ← hlink]
  exact ⟨rfl, rfl, rfl, hawaits, hchip⟩

/-- The peer has asked for ACTIVE too: the link carries traffic, and the command ends. -/
theorem setsActive_both (hp : m.param = k + 0x300) (h5 : (b.link k).st = 5) (hrep : (b.link k).reported = true) (hchk : (b.checkLink k).1 = 6)
    (hpeer : (b.link k).askedPeer = true) : (b.command m).answered m stOK 0 [] ∧ ((b.command m).link k).st = (if (b.link k).four then 7 else 6) ∧
      (b.measureCmd m).chipSame (b.command m) := by
  have hne : m.opcode ≠ 1 := by rw [hop]; decide
  have hr := runOp_linkSetActive hk hcmd hop hp h5 hrep hchk
  have hx := (linkWait_serves (k := k) h hne 3).leaves (linkSend_leaves k ctlActive)
  generalize ((b.entered m).linkWait k 3 (b.asCmd m)).linkSend k ctlActive = x at hr hx
  have hask : (x.setLink k ((b.link k).asking (b.asCmd m))).link k = (b.link k).asking (b.asCmd m) :=
    link_setLink_new _ _ _ (ne_default_of_cmd (by simp [Link.asking]))
  have hl := hx.leaves (setLink_leaves k ((b.link k).asking (b.asCmd m)))
  generalize x.setLink k ((b.link k).asking (b.asCmd m)) = y at hr hask hl
  obtain ⟨z, he, hz, hst⟩ := linkActivate_ends (c := b.accepted m) hl (by rw [hask]; exact h5) (by rw [hask]; rfl) (by rw [hask]; exact hpeer) (by rw [hask]; rfl) (by rw [hask]; rfl)
  obtain ⟨-, hans, hlinks, hchip⟩ := hz.ends h (hr.trans he) rfl (.inr (by rw [hop]; rfl)) (by decide)
  rw [link_congr hlinks, hst, hask]
  exact ⟨hans, rfl, hchip⟩
end

/-! ### A link that only waits -/

/-- Nothing changes but the links. -/
structure Blk.SameButLinks (x y : Blk) : Prop where
  eq : { x with links := y.links } = y
theorem Blk.SameButLinks.trans (h : x.SameButLinks y) (g : y.SameButLinks z) : x.SameButLinks z := ⟨by rw [← g.eq, ← h.eq]⟩
theorem setLink_sameButLinks (l : Link) : x.SameButLinks (x.setLink k l) := ⟨rfl⟩
theorem linkWait_sameButLinks {kind : Nat} : (x.accept c).SameButLinks (x.linkWait k kind c) := setLink_sameButLinks _
theorem linkSend_sameButLinks {v : List Byte} : x.SameButLinks (x.linkSend k v) := setLink_sameButLinks _
theorem startSwitch_sameButLinks {lane : Nat} : x.SameButLinks (x.startSwitch k 0 lane) := (setLink_sameButLinks _).trans linkSend_sameButLinks
/-- What waits and changed only one link. -/
theorem waits_onLink {c' : Cmd} (h : b.takes m = true) (hm : c'.m = m) (hq : c'.queued = false) (hr : (b.entered m).runOp (b.asCmd m) = z)
    (hz : ((b.entered m).accept c').SameButLinks z) (hl : ∀ j, j ≠ k → z.link j = b.link j) :
    b.command m = z ∧ z.awaits m ∧ b.linksBut z [k] ∧ { b.measureCmd m with links := z.links, host := z.host } = z := by
  have hacc : (b.measureCmd m).SameButHost ((b.entered m).accept c') := by
    have := (measureCmd_sameButHost (entered_sameButHost (b := b) (m := m))).trans (accept_sameButHost (x := b.entered m) (pay := []) hq)
    rwa [hm] at this
  obtain ⟨-, hstill, -⟩ := takes_facts h
  have hzstill : z.still = true := by
    rw [← hz.eq, ← hacc.eq]
    refine Eq.trans ?_ hstill
    exact still_congr (by simp) (by simp) (by simp)
  obtain ⟨he, hawaits, -⟩ := command_accepts hm hq (y := b.entered m) rfl h hr (by rw [← hz.eq]) hzstill
  refine ⟨he, hawaits, fun j hj => hl j (by simpa using hj), ?_⟩
  rw [← hz.eq, ← hacc.eq]

/-- It only waits, while the peer has not asked. -/
theorem runOp_asks (hk : k < nLinks) (hcmd : (b.link k).cmd = none) (hop : m.opcode = 0x0602) (hp : m.param = k + 0x300) (h5 : (b.link k).st = 5)
    (hrep : (b.link k).reported = true) (hchk : (b.checkLink k).1 = 6) (hpeer : (b.link k).askedPeer = false) : (b.entered m).runOp (b.asCmd m) =
      (((b.entered m).linkWait k 3 (b.asCmd m)).linkSend k ctlActive).setLink k ((b.link k).asking (b.asCmd m)) := by
  rw [runOp_linkSetActive hk hcmd hop hp h5 hrep hchk, Blk.linkActivate, link_setLink_new _ _ _ (ne_default_of_cmd (by simp [Link.asking]))]
  exact if_neg (by simp [Link.asking, hpeer])
theorem linkWait_link_ne {kind j : Nat} (hq : c.queued = false) (hj : j ≠ k) : ((b.entered m).linkWait k kind c).link j = b.link j :=
  (link_setLink_ne _ _ hj).trans ((link_congr (accept_links hq) j).trans (entered_link j))
/-- The other links, while a message to the peer of a link is noted. -/
theorem linkSent_link_ne {kind j : Nat} {v : List Byte} (hq : c.queued = false) (hj : j ≠ k) : (((b.entered m).linkWait k kind c).linkSend k v).link j = b.link j :=
  (link_setLink_ne _ _ hj).trans (linkWait_link_ne hq hj)
/-- A lane switch begins on a link that is up or that something waits for. -/
theorem startSwitch_link {lane : Nat} (hne : (x.link k).st ≠ 1 ∨ (x.link k).cmd ≠ none) :
    (x.startSwitch k 0 lane).link k = { x.link k with switching := some (0, lane), ctlOut := (x.link k).ctlOut ++ [ctlLane lane] } := by
  have hset : (x.setLink k { x.link k with switching := some (0, lane) }).link k = { x.link k with switching := some (0, lane) } :=
    link_setLink_new _ _ _ (hne.elim (fun e => ne_default_of_st e) fun e => ne_default_of_cmd e)
  rw [Blk.startSwitch, Blk.linkSend]
  simp only
  rw [hset]
  exact link_setLink_new _ _ _ (hne.elim (fun e => ne_default_of_st e) fun e => ne_default_of_cmd e)
theorem startSwitch_link_ne {lane j : Nat} (hj : j ≠ k) : (x.startSwitch k 0 lane).link j = x.link j :=
  (link_setLink_ne _ _ hj).trans (link_setLink_ne _ _ hj)
/-- CMD_LANE_SPARE of a lane in use, while a spare is free and no switch runs (R398). -/
theorem runOp_laneSpareLink {lane : Nat} (hk : k < nLinks) (hop : m.opcode = 0x0903) (hp : m.param = k + lane * 256 + 65536) (hst : (b.link k).st = 6)
    (hspare : (b.link k).spare < 9) (hlane : lane < 9) (hne : lane ≠ (b.link k).spare) (hsw : (b.link k).switching = none) (hcmd : (b.link k).cmd = none)
    (hin : (b.link k).lanes.contains lane = true) : (b.entered m).runOp (b.asCmd m) =
      (((b.entered m).linkWait k 4 { b.asCmd m with vars := [b.tide] }).startSwitch k 0 lane) := by
  have hk' : k < 24 := hk
  obtain ⟨hfk, hfl, h16⟩ : fld (k + lane * 256 + 65536) 4 0 = k ∧ fld (k + lane * 256 + 65536) 11 8 = lane ∧ tbit (k + lane * 256 + 65536) 16 = true := by
    simp only [fld, tbit, Nat.shiftRight_eq_div_pow, beq_iff_eq]
    omega
  have htide : (b.entered m).tide = b.tide := entered_frame.2.2.2.2.2.2
  have hparam : (b.asCmd m).m.param = k + lane * 256 + 65536 := hp
  rw [runOp_eq (op := 0x0903) hop rfl]
  show (b.entered m).doLaneSpare (b.asCmd m) = _
  unfold Blk.doLaneSpare Blk.doLaneSpareLink
  simp only [hparam, hfk, hfl, h16, entered_link, htide]
  rw [if_pos trivial, if_neg (by simp [hk, hlane, hne]), if_neg]
  simpa [hst, hsw, hcmd, show (b.link k).spare ≠ 15 by omega] using hin

/-- Settles O41: CMD_LINK_SET runs by what it asks for, and CMD_LANE_SPARE begins a switch. -/
theorem linkCommands : Obligations.LinkCommands := by
  unfold Obligations.LinkCommands
  intro s m k h hk hcmd l
  have hset : ∀ {t : Nat}, t < 4 → m.opcode = 0x0602 → m.param = k + t * 256 → (isFor m 0x0602 && fld m.param 10 8 == t) = true := fun ht hop hp => by
    rw [isFor_takes h hop, hp, (link_param hk ht).2]
    simp
  refine ⟨fun hop hp => ?_, fun hop hp htr => ?_, fun hop hp htr h5 => ?_, fun hop hp h5 hrep hchk => ⟨fun hpeer => ?_, fun hpeer => ?_⟩,
    fun lane hop hp hst hspare hlane hne hsw hin => ?_⟩
  · exact does_of_updIf rfl (hset (t := 0) (by decide) hop hp) (setsDisabled h hk hcmd hop hp)
  · exact does_of_updIf rfl (hset (t := 1) (by decide) hop hp) (setsEnabled h hk hcmd hop hp htr)
  · exact does_of_updIf rfl (hset (t := 2) (by decide) hop hp) (setsFenced h hk hcmd hop hp htr h5)
  · exact does_of_updIf rfl (hset (t := 3) (by decide) hop hp) (setsActive_both h hk hcmd hop hp h5 hrep hchk hpeer)
  · refine does_of_updIf rfl (hset (t := 3) (by decide) hop hp) ?_
    obtain ⟨he, hawaits, hothers, hframe⟩ := waits_onLink (k := k) (c' := s.blk.asCmd m) h rfl rfl (runOp_asks hk hcmd hop hp h5 hrep hchk hpeer)
      (linkWait_sameButLinks.trans (linkSend_sameButLinks.trans (setLink_sameButLinks _)))
      fun j hj => (link_setLink_ne _ _ hj).trans (linkSent_link_ne rfl hj)
    have hlink : (s.blk.command m).link k = l.asking (s.blk.asCmd m) := by
      rw [he]
      exact link_setLink_new _ _ _ (ne_default_of_cmd (by simp [Link.asking]))
    rw [← he] at hawaits hothers hframe
    exact ⟨hawaits, hlink, hothers, hframe⟩
  · have hbit : (isFor m 0x0903 && tbit m.param 16) = true := by
      have hk' : k < 24 := hk
      rw [isFor_takes h hop, hp]
      simp only [tbit, Nat.shiftRight_eq_div_pow, Bool.true_and, beq_iff_eq]
      omega
    refine does_of_updIf rfl hbit ?_
    obtain ⟨he, hawaits, hothers, hframe⟩ := waits_onLink (k := k) (c' := { s.blk.asCmd m with vars := [s.blk.tide] }) h rfl rfl
      (runOp_laneSpareLink hk hop hp hst hspare hlane hne hsw hcmd hin) (linkWait_sameButLinks.trans startSwitch_sameButLinks)
      fun j hj => (startSwitch_link_ne hj).trans (linkWait_link_ne rfl hj)
    have hwait : ((s.blk.entered m).linkWait k 4 { s.blk.asCmd m with vars := [s.blk.tide] }).link k = l.awaited (s.blk.asCmd m) 4 := by
      rw [linkWait_link rfl, entered_link]
      rfl
    have hlink : (s.blk.command m).link k = { l with switching := some (0, lane), ctlOut := l.ctlOut ++ [ctlLane lane], cmd := some (m.ctx, m.seq), cmdKind := 4 } := by
      rw [he, startSwitch_link (.inr (by rw [hwait]; simp [Link.awaited])), hwait]
      rfl
    rw [← he] at hawaits hothers hframe
    exact ⟨hawaits, hlink, hothers, hframe⟩

end Sys2Proof.Machine
end

section
/-! ### O43: flits are resent and taken, and lanes are spared -/
namespace Sys2Proof.Machine
open Sys2Proof Sys2Proof.Machine
variable {b x y : Blk} {k i lane off n q : Nat} {f : List Byte}

/-! ### Flits are sent again (R394) -/

theorem firstIdx_lt {α : Type} {p : α → Bool} {l : List α} {j : Nat} (h : firstIdx p l j = some i) : i < j + l.length := by
  induction l generalizing j with
  | nil => exact absurd h (by simp [firstIdx])
  | cons a r ih =>
    unfold firstIdx at h
    split at h
    · rw [← Option.some.inj h]
      simp
    · have := ih h
      simp only [List.length_cons]
      omega
/-- Fewer than sixteen resends: the flits from the i-th on leave again, and are counted. -/
theorem resend_counts (hcar : (x.link k).carries = true) (hr : (x.link k).resends < 15) (hi : i < (x.link k).sent.length) (hwf : swf cfgReset x.cfg = true) :
    let t := x.resend k i
    let l := x.link k
    t.link k = { l with resends := l.resends + 1 } ∧ t.cfgGet (cfgLK k + 0x58) = (x.cfgGet (cfgLK k + 0x58) + (l.sent.length - i)) % 2 ^ 64 ∧
      x.linksBut t [k] ∧ x.cfgBut t [cfgLK k + 0x58] ∧ { x with cfg := t.cfg, links := t.links } = t := by
  intro t l
  have hrun : t = (x.setLink k { l with resends := l.resends + 1 }).count (cfgLK k + 0x58) (l.sent.length - i) := if_neg (by omega)
  rw [hrun]
  refine ⟨link_setLink_new _ _ _ (ne_default_of_st (carries_st hcar)), ?_, fun j hj => link_setLink_ne _ _ (by simpa using hj), fun j hj => ?_, rfl⟩
  · exact cfgGet_count_pos (x := x.setLink k { l with resends := l.resends + 1 }) (Nat.sub_ne_zero_of_lt hi) hwf
  · exact cfgGet_count_ne (by simpa using hj)

/-! ### A lane fails (R397) -/

theorem newError_withRecord (r : ErrRec) : (x.withRecord r).SameButHost (x.newError r) := by
  unfold Blk.newError
  simp only
  split
  · exact (errorEvent_sameButHost _).trans (eventTo_sameButHost _ _ _)
  · exact errorEvent_sameButHost _
theorem propose_cfg (r : ErrRec) : (x.propose r).cfg = x.cfg := (congrArg Blk.cfg (eventTo_sameButHost (x := x) _ _ _).eq).symm
theorem mergeError_cfg (r : ErrRec) : (x.mergeError r).cfg = x.cfg := by
  unfold Blk.mergeError
  simp only
  split
  · exact propose_cfg _
  · rfl
/-- Recording a fault changes no configuration word but the counter of its class. -/
theorem addError_cfgGet {r : ErrRec} (h : q ≠ 0xE10 + 8 * (r.cls % 4)) : (x.addError r).cfgGet q = x.cfgGet q := by
  unfold Blk.addError
  split
  · exact cfgGet_congr (mergeError_cfg _) q
  · rw [cfgGet_congr (x := x.withRecord r) (by rw [← (newError_withRecord r).eq])]
    exact withRecord_cfgGet h

/-- The one failed lane of those in use is the one that is found. -/
theorem find_failed {ls : List Nat} (h : ls.contains lane = true) : ls.find? (fun j => tbit (2 ^ lane) j) = some lane := by
  have hbit : ∀ j, tbit (2 ^ lane) j = decide (lane = j) := fun j => by rw [tbit_eq_testBit, Nat.testBit_two_pow]
  cases hf : ls.find? fun j => tbit (2 ^ lane) j with
  | none => exact absurd (List.find?_eq_none.mp hf lane (by simpa using h)) (by simp [hbit])
  | some j =>
    have := List.find?_some hf
    rw [hbit, decide_eq_true_eq] at this
    rw [this]

theorem laneRecord_log (sp : Bool) : x.SameButLog (x.laneRecord k lane sp) := (addError_spec _).2
theorem Blk.SameButLog.links (h : x.SameButLog y) : y.links = x.links := by rw [← h.eq]

/-- A failed lane among those in use, while a spare is free and AUTO_SPARE is set: the switch to the spare begins. -/
theorem recoverLanes_spares (hcar : (x.link k).carries = true) (hsw : (x.link k).switching = none) (hf : (x.link k).failed = 2 ^ lane) (hsp : (x.link k).spare < 9)
    (hauto : tbit (x.cfgGet (cfgLK k)) 0 = true) (hact : (x.link k).active.contains lane = true) : x.recoverLanes k = x.startSwitch k 0 lane := by
  have hspare : ((x.link k).spare != 0xF) = true := by simp; omega
  unfold Blk.recoverLanes
  simp only [hf, find_failed hact, hspare, hauto]
  rw [if_neg (by simp [hcar, hsw])]
  rfl

section
variable (hcar : (x.link k).carries = true) (hsw : (x.link k).switching = none) (hne : lane ≠ (x.link k).spare) (hf : (x.link k).failed = 0) (hsp : (x.link k).spare < 9)
  (hauto : tbit (x.cfgGet (cfgLK k)) 0 = true) (hact : (x.link k).active.contains lane = true)
include hcar hsw hne hf hsp hauto hact
/-- A lane that fails while a spare is free, and AUTO_SPARE is set, is recorded, and its switch begins. -/
theorem laneFail_spares : let y := (x.setLink k { x.link k with failed := 2 ^ lane }).laneRecord k lane true
    x.laneFail k lane = y.startSwitch k 0 lane ∧ y.link k = { x.link k with failed := 2 ^ lane } := by
  intro y
  have hlink : y.link k = { x.link k with failed := 2 ^ lane } := by
    rw [link_congr (laneRecord_log true).links]
    exact link_setLink_new _ _ _ (ne_default_of_st (carries_st hcar))
  have hword : y.cfgGet (cfgLK k) = x.cfgGet (cfgLK k) := addError_cfgGet (by simp [cfgLK]; omega)
  refine ⟨?_, hlink⟩
  rw [← recoverLanes_spares (x := y) (by rw [hlink]; exact hcar) (by rw [hlink]; exact hsw) (by rw [hlink]) (by rw [hlink]; exact hsp) (by rw [hword]; exact hauto)
    (by rw [hlink]; exact hact)]
  have hspared : ((x.link k).spare != 0xF && tbit (x.cfgGet (cfgLK k)) 0 && (x.link k).switching.isNone && (x.link k).active.contains lane) = true := by
    rw [hauto, hsw, hact]
    simp
    omega
  unfold Blk.laneFail
  simp only
  rw [if_neg (by simp [hcar, hf, tbit]), if_neg hne, hf, Nat.zero_add, hspared]
/-- What the failure changes: the link, and by its record the log, its counter and the host side. -/
theorem laneFail_frame :
    (x.laneFail k lane).link k = { x.link k with failed := 2 ^ lane, switching := some (0, lane), ctlOut := (x.link k).ctlOut ++ [ctlLane lane] } ∧ x.linksBut (x.laneFail k lane) [k] ∧
      { x with cfg := (x.laneFail k lane).cfg, host := (x.laneFail k lane).host, err := (x.laneFail k lane).err, links := (x.laneFail k lane).links } = x.laneFail k lane := by
  obtain ⟨hrun, hlink⟩ := laneFail_spares hcar hsw hne hf hsp hauto hact
  have hlog := laneRecord_log (x := x.setLink k { x.link k with failed := 2 ^ lane }) (k := k) (lane := lane) true
  rw [hrun]
  generalize (x.setLink k { x.link k with failed := 2 ^ lane }).laneRecord k lane true = y at hlink hlog
  refine ⟨by rw [startSwitch_link (.inl (by rw [hlink]; exact carries_st hcar)), hlink], fun j hj => ?_, ?_⟩
  · have hj' : j ≠ k := by simpa using hj
    rw [startSwitch_link_ne hj', link_congr hlog.links, link_setLink_ne _ _ hj']
  · rw [← (startSwitch_sameButLinks (x := y)).eq, ← hlog.eq]
    rfl
theorem laneFail_records (hrecs : x.err.recs = []) : (x.laneFail k lane).err.next = (x.err.next + 1) % 2 ^ 32 := by
  obtain ⟨hrun, -⟩ := laneFail_spares hcar hsw hne hf hsp hauto hact
  rw [hrun, ← (startSwitch_sameButLinks (lane := lane)).eq]
  have hrec := addError_new (x := x.setLink k { x.link k with failed := 2 ^ lane }) (r := { cls := bnat (!true), kind := 5, code := 0x20, path := k + lane * 256, proposal := 0 }) (.inr hrecs)
  exact (congrArg (fun b : Blk => b.err.next) hrec.eq).symm
end

/-- The first lane of a link that loses signal fails. -/
theorem laneDark_few (hlane : lane < 9) (hdark : (x.link k).darkLanes = 0) :
    x.laneDark k lane = (x.setLink k { x.link k with darkLanes := 2 ^ lane }).laneFail k lane := by
  have hone : popCount (2 ^ lane) 9 < 5 := (by decide : ∀ i < 9, popCount (2 ^ i) 9 < 5) lane hlane
  unfold Blk.laneDark
  simp only [hdark, Nat.zero_add]
  rw [if_neg (by simp [tbit]), if_neg (by simp [hone])]

/-! ### A lane switch ends (R397) -/

/-- The link with the spare in the place of a lane. -/
def Link.spared (l : Link) (lane : Nat) : Link := { l with lanes := l.lanes.map (fun j => if j = lane then l.spare else j), spare := 0xF, switching := none }
/-- With no packet waiting there is nothing to send. -/
theorem transmit_idle {l : Link} (h : l.txq = []) : l.transmit = l := by
  unfold Link.transmit
  split
  · rfl
  · refine foldl_same _ _ _ fun vc _ => ?_
    simp [h, Link.sendVc]
/-- The failed lane is not among those that the switch leaves. -/
theorem spared_finds {l : Link} (h4 : l.four = false) (hf : l.failed = 2 ^ lane) (hne : l.spare ≠ lane) :
    (l.spared lane).active.find? (fun j => tbit (l.spared lane).failed j) = none := by
  rw [List.find?_eq_none]
  intro j hj
  simp only [Link.active, Link.spared, h4, Bool.not_false, if_true, List.mem_map] at hj
  obtain ⟨i, -, rfl⟩ := hj
  have hi : (if i = lane then l.spare else i) ≠ lane := by
    split
    · exact hne
    · assumption
  simp [Link.spared, hf, tbit_eq_testBit, hi.symm]
theorem switchDone_eq {l : Link} (hl : x.link k = l) (h4 : l.four = false) (hsw : l.switching = some (0, lane)) (hcmd : l.cmd = none) : x.switchDone k =
    ((((x.setLink k (l.spared lane)).count (cfgLK k + 0x80) 1).linkCmdEnd k [4] stOK 0 (leBytes 8 0)).transmit k).recoverLanes k := by
  unfold Blk.switchDone
  rw [hl]
  cases l
  subst h4 hsw hcmd
  rfl
/-- With no packet waiting, and no command, the end of a switch puts the spare in the place of the lane, and counts it. -/
theorem switchDone_spares (hst : (x.link k).st = 6) (h4 : (x.link k).four = false) (hsw : (x.link k).switching = some (0, lane)) (hcmd : (x.link k).cmd = none)
    (hf : (x.link k).failed = 2 ^ lane) (hne : (x.link k).spare ≠ lane) (hq : (x.link k).txq = []) :
    let y := (x.setLink k ((x.link k).spared lane)).count (cfgLK k + 0x80) 1
    x.switchDone k = (y.setLink k ((x.link k).spared lane)).count (cfgLK k + 0x68) 0 := by
  intro y
  have hlink : y.link k = (x.link k).spared lane := link_setLink_new _ _ _ (ne_default_of_st (by simp [Link.spared, hst]))
  have hsend : y.transmit k = (y.setLink k ((x.link k).spared lane)).count (cfgLK k + 0x68) 0 := by
    rw [Blk.transmit, hlink, transmit_idle (show ((x.link k).spared lane).txq = [] from hq)]
    simp
  have hlink' : ((y.setLink k ((x.link k).spared lane)).count (cfgLK k + 0x68) 0).link k = (x.link k).spared lane :=
    link_setLink_new _ _ _ (ne_default_of_st (by simp [Link.spared, hst]))
  have hrecover : ((y.setLink k ((x.link k).spared lane)).count (cfgLK k + 0x68) 0).recoverLanes k = (y.setLink k ((x.link k).spared lane)).count (cfgLK k + 0x68) 0 := by
    unfold Blk.recoverLanes
    simp only [hlink', spared_finds h4 hf hne]
    split <;> rfl
  have hend : y.linkCmdEnd k [4] stOK 0 (leBytes 8 0) = y := by
    unfold Blk.linkCmdEnd
    simp only [hlink, show ((x.link k).spared lane).cmd = none from hcmd]
  rw [switchDone_eq rfl h4 hsw hcmd, hend, hsend, hrecover]

/-! ### A flit in order is taken (R390, R394) -/

theorem ack_same (l : Link) (n : Nat) : { l with sent := (l.ack n).sent, resends := (l.ack n).resends } = l.ack n := by
  unfold Link.ack
  split <;> rfl
/-- What a link takes of an intact flit before its data: the acknowledgement and the credits. -/
def Link.heard (l : Link) (f : List Byte) : Link :=
  { l.ack (leAt f 3 2) with credits := sset (fun _ => 8) l.credits (leAt f 5 1 % 16) (l.credit (leAt f 5 1 % 16) + leAt f 6 1), ctlOut := [] }
/-- The data of a flit, appended to what its virtual channel has received of a packet. -/
def Link.extended (l : Link) (f : List Byte) : Link :=
  let vc := fld (leAt f 0 1) 7 4
  { l with rxNext := (l.rxNext + 1) % 65536, nakSent := false, asm := sset (fun _ => []) l.asm vc (sget (fun _ => []) l.asm vc ++ bytesAt f 0xC (min (leAt f 7 1) 240)) }
theorem heard_transmit_eq (l : Link) (f : List Byte) : ((l.heard f).transmit).st = l.st ∧ ((l.heard f).transmit).rxNext = l.rxNext ∧ ((l.heard f).transmit).asm = l.asm := by
  rw [← (transmit_same (l := l.heard f)).eq, Link.heard, ← ack_same l]
  exact ⟨rfl, rfl, rfl⟩
/-- An intact flit in order that ends no packet only extends what has been received. -/
theorem flitRx_takes {g : Blk → Nat → Pkt → Blk} (hcar : (x.link k).carries = true) (hlen : f.length = 256) (hcrc : crc32c (f.take 252) = leAt f 252 4)
    (hkind : leAt f 0 1 % 8 = 1) (hseq : leAt f 1 2 = (x.link k).rxNext) :
    let y := (x.setLink k ((x.link k).heard f)).transmit k
    y.link k = ((x.link k).heard f).transmit ∧ x.flitRx k f g = (y.setLink k ((y.link k).extended f)).count (cfgLK k + 0x70) 1 := by
  intro y
  have hst : (x.link k).st ≠ 1 := carries_st hcar
  obtain ⟨hst', hrx, -⟩ := heard_transmit_eq (x.link k) f
  have hheard : (x.setLink k ((x.link k).heard f)).link k = (x.link k).heard f := by
    refine link_setLink_new _ _ _ (ne_default_of_st ?_)
    rw [Link.heard, ← ack_same]
    exact hst
  have hlink : y.link k = ((x.link k).heard f).transmit := by
    rw [show y = ((x.setLink k ((x.link k).heard f)).setLink k ((x.setLink k ((x.link k).heard f)).link k).transmit).count _ _ from rfl, hheard]
    exact link_setLink_new _ _ _ (ne_default_of_st (by rw [hst']; exact hst))
  refine ⟨hlink, ?_⟩
  have hcar' : (y.link k).carries = true := by
    rw [hlink, Link.carries, hst']
    exact hcar
  have hseq' : leAt f 1 2 = (y.link k).rxNext := by rw [hlink, hrx]; exact hseq
  have htr : (x.link k).trained = true := by
    simp only [Link.carries, Bool.or_eq_true, beq_iff_eq] at hcar
    simp only [Link.trained, decide_eq_true_eq]
    omega
  have hmore : tbit (leAt f 0 1) 2 = false := by
    simp only [tbit, Nat.shiftRight_eq_div_pow, beq_eq_false_iff_ne]
    omega
  have hdata : x.flitRx k f g = y.flitData k f g := by
    unfold Blk.flitRx
    simp only
    rw [if_neg (by simp [htr]), if_neg (by simp [hlen, hcrc]), if_pos (by omega)]
    rfl
  rw [hdata, Blk.flitData]
  simp only [hcar', hseq', hmore]
  rw [if_neg (by decide), if_neg (by simp), if_neg (by decide)]
  rfl

/-- Settles O43: resending, sparing and receiving each run once, on the link and the counters they name. -/
theorem lanesAndFlits : Obligations.LanesAndFlits := by
  unfold Obligations.LanesAndFlits
  refine ⟨?_, ?_, ?_, ?_⟩
  · intro s k i fseq hk hcanon l hcar hres
    obtain ⟨-, hcfg, -⟩ := hcanon
    refine ⟨fun hi => ?_, fun hsent => ?_⟩
    · refine does_of_updIf rfl (decide_eq_true hk) ?_
      have hrun : s.blk.linkNakRx k fseq = s.blk.resend k i := by
        unfold Blk.linkNakRx
        rw [show firstIdx _ (s.blk.link k).sent 0 = some i from hi]
        exact if_pos hcar
      have hlt := firstIdx_lt hi
      rw [hrun]
      exact resend_counts hcar hres (by simpa using hlt) hcfg
    · refine does_of_updIf rfl (decide_eq_true hk) ?_
      have hpos := List.length_pos_iff.mpr hsent
      have hrun : s.blk.replayTimeout k = s.blk.resend k 0 := if_pos (by rw [show (s.blk.link k).carries = true from hcar]; simpa using hsent)
      rw [hrun]
      exact resend_counts hcar hres hpos hcfg
  · intro s k lane hk hlane l hcar hsw hfail hne
    have hok : (decide (k < nLinks) && decide (lane < 9)) = true := by simp [hk, hlane]
    refine ⟨fun hf hsp hauto hact hrecs => ?_, fun hf hdark hsp hauto hact => ?_, fun hsp hin => ?_⟩
    · obtain ⟨hlink, hothers, hframe⟩ := laneFail_frame hcar hsw hne hf hsp hauto hact
      exact does_of_updIf rfl hok ⟨hlink, laneFail_records hcar hsw hne hf hsp hauto hact hrecs, hothers, hframe⟩
    · refine does_of_updIf rfl hok ?_
      let l1 : Link := { l with darkLanes := 2 ^ lane }
      have hl1 : (s.blk.setLink k l1).link k = l1 := link_setLink_new _ _ _ (ne_default_of_st (carries_st hcar))
      have hrun : s.blk.laneDark k lane = (s.blk.setLink k l1).laneFail k lane := laneDark_few hlane hdark
      obtain ⟨hlink, hothers, hframe⟩ := laneFail_frame (x := s.blk.setLink k l1) (k := k) (lane := lane) (by rw [hl1]; exact hcar) (by rw [hl1]; exact hsw) (by rw [hl1]; exact hne)
        (by rw [hl1]; exact hf) (by rw [hl1]; exact hsp) hauto (by rw [hl1]; exact hact)
      rw [hrun]
      rw [hl1] at hlink
      refine ⟨hlink, fun j hj => (hothers j hj).trans (link_setLink_ne _ _ (by simpa using hj)), hframe⟩
    · refine does_of_updIf rfl hok ?_
      have hrun : s.blk.laneMsg k 0 lane = s.blk.setLink k { l with switching := some (0, lane) } := by
        have hspare : (l.spare != 0xF) = true := by simp; omega
        unfold Blk.laneMsg
        simp only
        rw [if_neg (by simp [show (s.blk.link k).carries = true from hcar, show (s.blk.link k).switching = none from hsw]), if_pos]
        simpa [show ((s.blk.link k).spare != 0xF) = true from hspare] using hin
      rw [hrun]
      exact ⟨link_setLink_new _ _ _ (ne_default_of_st (carries_st hcar)), fun j hj => link_setLink_ne _ _ (by simpa using hj), rfl⟩
  · intro s k lane hk hrests hcanon l hst h4 hsw hcmd hf hsp hne hq
    obtain ⟨-, hcfg, -⟩ := hcanon
    refine does_of_rests rfl (decide_eq_true hk) ?_ ?_
    · rw [switchDone_spares hst h4 hsw hcmd hf hne hq]
      exact hrests
    · rw [switchDone_spares hst h4 hsw hcmd hf hne hq]
      have hcount : ∀ q, (((s.blk.setLink k (l.spared lane)).count (cfgLK k + 0x80) 1).setLink k (l.spared lane) |>.count (cfgLK k + 0x68) 0).cfgGet q =
          ((s.blk.setLink k (l.spared lane)).count (cfgLK k + 0x80) 1).cfgGet q := cfgGet_congr (by simp [Blk.count])
      have hl : (l.spared lane).st ≠ 1 := by
        rw [show (l.spared lane).st = 6 from hst]
        decide
      refine ⟨link_setLink_new _ _ _ (ne_default_of_st hl), (hcount _).trans (cfgGet_count_pos (x := s.blk.setLink k (l.spared lane)) (by decide) hcfg), fun j hj => ?_,
        fun q hq => (hcount q).trans (cfgGet_count_ne (by simpa using hq)), rfl⟩
      have hj' : j ≠ k := by simpa using hj
      exact (link_setLink_ne _ _ hj').trans (link_setLink_ne _ _ hj')
  · intro s k f hk hrests l vc hcar hlen hcrc hkind hseq hpay
    obtain ⟨hlink, hrun⟩ := flitRx_takes (g := fun b k p => b.deliverPkt k p) hcar hlen hcrc hkind hseq
    obtain ⟨hst, hrx, hasm⟩ := heard_transmit_eq (s.blk.link k) f
    refine does_of_rests rfl (decide_eq_true hk) ?_ ?_
    · rw [hrun]
      exact hrests
    · rw [hrun, hlink]
      generalize (s.blk.setLink k ((s.blk.link k).heard f)).transmit k = y
      have htaken : ((y.setLink k (((s.blk.link k).heard f).transmit.extended f)).count (cfgLK k + 0x70) 1).link k = ((s.blk.link k).heard f).transmit.extended f := by
        refine link_setLink_new _ _ _ (ne_default_of_st ?_)
        rw [show (((s.blk.link k).heard f).transmit.extended f).st = ((s.blk.link k).heard f).transmit.st from rfl, hst]
        exact carries_st hcar
      rw [htaken]
      refine ⟨by rw [Link.extended, hrx], rfl, ?_⟩
      simp only [Link.extended, hasm]
      refine sget_sset_new fun e => ?_
      have hlen := congrArg List.length e
      simp only [List.length_append, bytesAt_length, List.length_nil] at hlen
      omega

end Sys2Proof.Machine
end

section
/-! ### O51: power states are entered and left -/
namespace Sys2Proof.Machine
open Sys2Proof Sys2Proof.Machine
variable {b x y z : Blk} {m : Msg} {c : Cmd} {v p : Nat} {k : Option Nat}

/-! ### Coves that run nothing (R469) -/

/-- Every listed Cove runs nothing and has no instruction uncompleted. -/
def Blk.covesIdle (b : Blk) : Prop := ∀ q ∈ b.coves, (q.2.seq.st ≠ 1 ∧ q.2.seq.st ≠ 2) ∧ q.2.seq.inflight = []
theorem covesIdle_of_quiet (h : b.quiet = true) : b.covesIdle := by
  simp only [Blk.quiet, Bool.and_eq_true, List.all_eq_true] at h
  obtain ⟨⟨⟨⟨hcoves, -⟩, -⟩, -⟩, -⟩ := h
  intro q hq
  have hcove := hcoves q hq
  simp at hcove
  exact hcove.1.1
theorem Blk.covesIdle.seq (h : b.covesIdle) (v : Nat) : ((b.seq v).st ≠ 1 ∧ (b.seq v).st ≠ 2) ∧ (b.seq v).inflight = [] := by
  by_cases he : b.cove v = {}
  · simp [Blk.seq, he]
  · exact h _ (mem_of_sget he)
theorem kick_stopped (h1 : (b.seq v).st ≠ 1) (hfly : (b.seq v).inflight = []) : b.kick v = b :=
  kick_eq (startAll_idle hfly) (if_pos h1) rfl
/-- What resuming such a Cove changes is only that it is no longer held. -/
theorem resumeCove_idle (h : b.covesIdle) : (b.resumeCove v).covesIdle ∧ { b with coves := (b.resumeCove v).coves } = b.resumeCove v := by
  obtain ⟨⟨h1, h2⟩, hfly⟩ := h.seq v
  unfold Blk.resumeCove
  simp only [if_neg h2]
  split
  · have hset : (b.setSeq v { b.seq v with stopping := 0 }).covesIdle := fun q hq => by
      rcases mem_sset hq with rfl | hq
      · exact ⟨⟨h1, h2⟩, hfly⟩
      · exact h q hq
    obtain ⟨⟨h1', -⟩, hfly'⟩ := hset.seq v
    rw [kick_stopped h1' hfly']
    exact ⟨hset, rfl⟩
  · exact ⟨h, rfl⟩

/-! ### Scopes enter and leave SLACK -/

/-- Between two machines only the SLACK of scopes and Coves that stay idle change; a scope whose SLACK is as wanted keeps it. -/
structure Blk.Slacks (want : Bool) (x y : Blk) : Prop where
  frame : { x with coves := y.coves, parts := y.parts, dev := { x.dev with slack := y.dev.slack } } = y
  idle : y.covesIdle
  st : ∀ p, (y.part p).st = (x.part p).st
  keeps : ∀ k, x.slackAt k = want → y.slackAt k = want
variable {want : Bool}
theorem Blk.Slacks.refl (h : x.covesIdle) : x.Slacks want x := ⟨rfl, h, fun _ => rfl, fun _ h => h⟩
theorem Blk.Slacks.trans (h : x.Slacks want y) (g : y.Slacks want z) : x.Slacks want z :=
  ⟨by rw [← g.frame, ← h.frame], g.idle, fun p => (g.st p).trans (h.st p), fun k hk => g.keeps k (h.keeps k hk)⟩
theorem Blk.Slacks.coves (h : y.covesIdle) (hy : { x with coves := y.coves } = y) : x.Slacks want y := by
  refine ⟨by rw [← hy], h, fun p => by rw [← hy]; rfl, fun k hk => ?_⟩
  rw [← hk, ← hy]
  rfl
theorem setSlack_slacks (h : x.covesIdle) (hk : ∀ p, k = some p → want = true ∨ (x.part p).st ≠ 0) :
    x.Slacks want (x.setSlack want k) ∧ (x.setSlack want k).slackAt k = want := by
  cases k with
  | none =>
    refine ⟨⟨rfl, h, fun _ => rfl, fun k hk => ?_⟩, rfl⟩
    cases k with
    | none => rfl
    | some p => exact hk
  | some p =>
    have hnew : (x.setSlack want (some p)).part p = { x.part p with slack := want } := part_setPart_new _ _ _ fun e => by
      rcases hk p rfl with hw | hst
      · exact absurd (congrArg Part.slack e) (by simp [hw])
      · exact hst (congrArg Part.st e)
    have hother : ∀ q, q ≠ p → (x.setSlack want (some p)).part q = x.part q := fun q hq => part_setPart_ne _ _ hq
    refine ⟨⟨rfl, h, fun q => ?_, fun k hk => ?_⟩, congrArg Part.slack hnew⟩
    · by_cases hq : q = p
      · rw [hq, hnew]
      · rw [hother q hq]
    · cases k with
      | none => exact hk
      | some q =>
        by_cases hq : q = p
        · rw [hq]
          exact congrArg Part.slack hnew
        · exact (congrArg Part.slack (hother q hq)).trans hk
/-- Scopes treated in turn: each is as wanted at the end. -/
theorem foldl_slacks {f : Blk → Option Nat → Blk} (ks : List (Option Nat)) (h : x.covesIdle)
    (hf : ∀ w k, k ∈ ks → w.covesIdle → (∀ p, (w.part p).st = (x.part p).st) → w.Slacks want (f w k) ∧ (f w k).slackAt k = want) :
    x.Slacks want (ks.foldl f x) ∧ ∀ k ∈ ks, (ks.foldl f x).slackAt k = want := by
  have hgo : ∀ (ls : List (Option Nat)) (w : Blk), (∀ k ∈ ls, k ∈ ks) → x.Slacks want w → w.Slacks want (ls.foldl f w) ∧ ∀ k ∈ ls, (ls.foldl f w).slackAt k = want := by
    intro ls
    induction ls with
    | nil => exact fun w _ hw => ⟨.refl hw.idle, by simp⟩
    | cons k ls ih =>
      intro w hmem hw
      obtain ⟨hstep, hk⟩ := hf w k (hmem k (.head _)) hw.idle hw.st
      obtain ⟨hrest, hall⟩ := ih (f w k) (fun j hj => hmem j (.tail _ hj)) (hw.trans hstep)
      refine ⟨hstep.trans hrest, fun j hj => ?_⟩
      rcases List.mem_cons.mp hj with rfl | hj
      · exact hrest.keeps _ hk
      · exact hall j hj
  exact hgo ks x (fun _ h => h) (.refl h)
theorem enterSlack_slacks (ks : List (Option Nat)) (h : (x.accept c).covesIdle) :
    (x.accept c).Slacks true (x.enterSlack c ks) ∧ ∀ k ∈ ks, (x.enterSlack c ks).slackAt k = true := by
  refine foldl_slacks ks h fun w k _ hw _ => ?_
  obtain ⟨hset, hk⟩ := setSlack_slacks (want := true) (k := k) hw fun _ _ => .inl rfl
  rw [foldl_suspendCove (f := fun v => v) fun v => (hset.idle.seq v).1.1]
  exact ⟨hset, hk⟩
theorem wakePart_slacks (h : x.covesIdle) (hk : ∀ p, k = some p → (x.part p).st ≠ 0) : x.Slacks false (x.wakePart k) ∧ (x.wakePart k).slackAt k = false := by
  unfold Blk.wakePart
  split
  · obtain ⟨hset, hoff⟩ := setSlack_slacks (want := false) (k := k) h fun p hp => .inr (hk p hp)
    have hresumed : ∀ (vs : List Nat) (w : Blk), w.covesIdle → w.Slacks false (vs.foldl (fun b c => if (b.bay (bayOf c)).sparing.isSome then b else b.resumeCove c) w) := by
      intro vs
      induction vs with
      | nil => exact fun w hw => .refl hw
      | cons v vs ih =>
        intro w hw
        rw [List.foldl_cons]
        split
        · exact ih w hw
        · obtain ⟨hidle, hframe⟩ := resumeCove_idle (v := v) hw
          exact (Blk.Slacks.coves hidle hframe).trans (ih _ hidle)
    have hall := hresumed (x.scopeCoves k) _ hset.idle
    exact ⟨hset.trans hall, hall.keeps k hoff⟩
  · next hoff => exact ⟨.refl h, by simpa using hoff⟩

/-- Some scopes leave SLACK, with one WAKE for all of them (R472). -/
theorem wakeParts_slacks (ks : List (Option Nat)) (h : x.covesIdle) (hk : ∀ p, some p ∈ ks → (x.part p).st ≠ 0) :
    (∀ k ∈ ks, (x.wakeParts ks).slackAt k = false) ∧ x.Sends (x.wakeParts ks) ∧
      { x with coves := (x.wakeParts ks).coves, parts := (x.wakeParts ks).parts, dev := (x.wakeParts ks).dev, host := (x.wakeParts ks).host } = x.wakeParts ks := by
  unfold Blk.wakeParts
  split
  · next hnil =>
    refine ⟨fun k hk => ?_, .refl, rfl⟩
    have := List.filter_eq_nil_iff.mp hnil k hk
    simpa using this
  · next l hl =>
    have hmem : ∀ k, k ∈ ks.filter x.slackAt ↔ k ∈ ks ∧ x.slackAt k = true := fun k => List.mem_filter
    obtain ⟨hs, hall⟩ := foldl_slacks (want := false) (f := fun b p => b.wakePart p) (ks.filter x.slackAt) h fun w k hin hw hst =>
      wakePart_slacks hw fun p hp => by rw [hst]; exact hk p (hp ▸ ((hmem k).mp hin).1)
    generalize (ks.filter x.slackAt).foldl (fun b p => b.wakePart p) x = y at hs hall
    have hy : ∀ k ∈ ks, y.slackAt k = false := fun k hin => by
      cases hon : x.slackAt k with
      | true => exact hall k ((hmem k).mpr ⟨hin, hon⟩)
      | false => exact hs.keeps k hon
    have hlost : x.Sends { y with dev := { y.dev with lost := 0, lostKind := 0 } } := .of_host (by rw [← hs.frame])
    obtain ⟨h', he⟩ := (eventTo_sameButHost (x := { y with dev := { y.dev with lost := 0, lostKind := 0 } }) [0] evWAKE (leBytes 4 0 ++ leBytes 4 0)).exists_host
    have hsent := hlost.trans (eventTo_sends [0] evWAKE (leBytes 4 0 ++ leBytes 4 0))
    unfold Blk.wakeEvent Blk.event0
    rw [he] at hsent ⊢
    refine ⟨fun k hin => (hy k hin : y.slackAt k = false), hsent, ?_⟩
    rw [← hs.frame]

theorem haltServing_frame : { x with serves := x.haltServing.serves } = x.haltServing := by
  have hgo : ∀ (ps : List Nat) (f : Blk → Nat → Blk) (w : Blk), (∀ w p, { w with serves := (f w p).serves } = f w p) → { w with serves := (ps.foldl f w).serves } = ps.foldl f w := by
    intro ps f
    induction ps with
    | nil => exact fun _ _ => rfl
    | cons p ps ih =>
      intro w hf
      rw [List.foldl_cons, ← ih (f w p) hf, ← hf w p]
  refine hgo _ _ x fun w p => ?_
  simp only
  split
  · rfl
  · split <;> rfl

/-! ### CMD_POWER_STATE (R469, R470, R472) -/

theorem entered_changing (hset : b.settled = true) : (b.entered m).changing = false := by
  have hb : b.changing = false := by
    simp only [Blk.settled, Bool.and_eq_true, Bool.not_eq_true'] at hset
    exact hset.1
  have hcmds : ((b.entered m).host.cmds.any fun c => c.m.opcode == 0x800 && c.started) = false := by simp [Blk.asCmd]
  unfold Blk.changing at hb ⊢
  simp only [Bool.or_eq_false_iff] at hb ⊢
  rw [← entered_host (b := b) (m := m)] at hcmds ⊢
  exact ⟨hb.1, hcmds⟩
/-- What CMD_POWER_STATE of the whole device does, by what it asks for. -/
theorem doPower_device {t : Nat} (ht : t < 4) (hp : c.m.param = t) (hc : c.part = 0xFF) (hch : x.changing = false) : x.doPower c =
    if t = 1 then
      (if 2 ≤ x.dev.power || (x.scopeParts c).any fun p => (x.serve p).engine == 1 then x.busy c
       else if (x.scopeKeys c).all x.slackAt then x.acceptEnd c stOK 0 []
       else match (x.enterSlack c ((x.scopeKeys c).filter fun k => !x.slackAt k)).cmdOf c.ctx c.seq with
         | some d => (x.enterSlack c ((x.scopeKeys c).filter fun k => !x.slackAt k)).pollSlack d
         | none => x.enterSlack c ((x.scopeKeys c).filter fun k => !x.slackAt k))
    else if t = 0 then (if 2 ≤ x.dev.power then x.wake c else (x.wakeParts (x.scopeKeys c)).acceptEnd c stOK 0 [])
    else if x.dev.power = t then x.acceptEnd c stOK 0 []
    else if x.dev.power = 3 || x.coveOutside || x.mode.phase != 0 then x.busy c else x.enterLow c t := by
  have hf : fld t 1 0 = t ∧ tbit t 8 = false ∧ fld t 19 16 = 0 := by
    simp only [fld, tbit, Nat.shiftRight_eq_div_pow, beq_eq_false_iff_ne]
    omega
  obtain ⟨hf1, hf2, hf3⟩ := hf
  unfold Blk.doPower
  simp only [hp, hf1, hf2, hf3, hc, hch]
  rw [if_neg (by simp [bnat])]
  rfl

theorem scopeKeys_device (hp : tbit c.m.param 8 = false) : none ∈ x.scopeKeys c ∧ (∀ p, p < 16 → (x.part p).st ≠ 0 → some p ∈ x.scopeKeys c) ∧
    ∀ p, some p ∈ x.scopeKeys c → (x.part p).st ≠ 0 := by
  have hks : x.scopeKeys c = none :: ((List.range nParts).filter fun p => (x.part p).st != 0).map some := by simp [Blk.scopeKeys, Blk.scopeParts, hp]
  rw [hks]
  refine ⟨.head _, fun p hp hst => .tail _ ?_, fun p hp => ?_⟩
  · exact List.mem_map.mpr ⟨p, List.mem_filter.mpr ⟨List.mem_range.mpr hp, by simpa using hst⟩, rfl⟩
  · simpa using (List.mem_filter.mp (List.mem_map_of_injective (Option.some_injective _) |>.mp ((List.mem_cons.mp hp).resolve_left (by simp)))).2

/-- A command of the power state is accepted: beside the host side only the measurement changes. -/
theorem accept_measures (hop : c.m.opcode = 0x0800) (hq : c.queued = false) : { x with fw := (x.accept c).fw, host := (x.accept c).host } = x.accept c := by
  have hmeas : x.measureCmd c.m = { x with fw := (x.measureCmd c.m).fw } := by
    have he : x.measureCmd c.m = x.extendCfg c.m := by
      unfold Blk.measureCmd
      simp [hop]
    rw [he]
    exact extendCfg_eq
  have hacc := (accept_sameButHost (x := x) (c := c) (pay := []) hq).eq
  rw [hmeas] at hacc
  rw [← hacc]
theorem accept_power (hop : m.opcode = 0x0800) :
    { b with fw := ((b.entered m).accept (b.asCmd m)).fw, host := ((b.entered m).accept (b.asCmd m)).host } = (b.entered m).accept (b.asCmd m) := by
  rw [← accept_measures (x := b.entered m) (c := b.asCmd m) hop rfl, ← entered_host (b := b) (m := m)]

section
variable (hop : m.opcode = 0x0800) (hpart : m.partition = 0xFF) (hset : b.settled = true)
include hop hpart hset
theorem runOp_power {t : Nat} (hp : m.param = t) : (b.entered m).runOp (b.asCmd m) = (b.entered m).doPower (b.asCmd m) ∧
    ((b.entered m).changing = false) ∧ (b.asCmd m).m.param = t ∧ (b.asCmd m).part = 0xFF :=
  ⟨runOp_eq (op := 0x0800) hop rfl, entered_changing hset, hp, hpart⟩
/-- Of a device whose Coves run nothing, every scope is in SLACK at once, and the command ends. -/
theorem enterSlack_ends (hp : m.param = 1) (hpow : b.dev.power = 0) (hq : b.quiet = true) :
    ∃ x, (b.entered m).runOp (b.asCmd m) = x.finish (b.accepted m) stOK 0 [] ∧ ((b.entered m).accept (b.asCmd m)).Slacks true x ∧
      ∀ k ∈ (b.entered m).scopeKeys (b.asCmd m), x.slackAt k = true := by
  have hacc := accept_power (b := b) hop
  have hidle : ((b.entered m).accept (b.asCmd m)).covesIdle := by
    rw [← hacc]
    exact covesIdle_of_quiet (b := b) hq
  have hslack : ((b.entered m).accept (b.asCmd m)).slackAt = (b.entered m).slackAt := by
    rw [← hacc, ← entered_host (b := b) (m := m)]
    rfl
  have hserve : ∀ p, ((b.entered m).serve p).engine = 0 := fun p => by
    have hserves : b.serves = [] := by
      simp only [Blk.quiet, Bool.and_eq_true, List.isEmpty_iff] at hq
      exact hq.1.1.2
    rw [entered_serve, Blk.serve, hserves]
    rfl
  have hnone : ¬ ((decide (2 ≤ (b.entered m).dev.power) || ((b.entered m).scopeParts (b.asCmd m)).any fun p => ((b.entered m).serve p).engine == 1) = true) := by
    simp [hserve, hpow]
  obtain ⟨hr, hch, hpar, hc⟩ := runOp_power hop hpart hset (t := 1) hp
  rw [hr, doPower_device (t := 1) (by decide) hpar hc hch, if_pos rfl, if_neg hnone]
  by_cases hall : ((b.entered m).scopeKeys (b.asCmd m)).all (b.entered m).slackAt = true
  · rw [if_pos hall]
    refine ⟨_, rfl, .refl hidle, fun k hk => ?_⟩
    rw [hslack]
    exact List.all_eq_true.mp hall k hk
  · rw [if_neg hall]
    obtain ⟨hs, hon⟩ := enterSlack_slacks ((b.entered m).scopeKeys (b.asCmd m) |>.filter fun k => !(b.entered m).slackAt k) hidle
    generalize hx : (b.entered m).enterSlack (b.asCmd m) (((b.entered m).scopeKeys (b.asCmd m)).filter fun k => !(b.entered m).slackAt k) = x at hs hon
    have hcmds : x.host.cmds = [b.accepted m] := by
      rw [← hs.frame]
      exact accept_entered_cmds
    have hcmd : x.cmdOf (b.asCmd m).ctx (b.asCmd m).seq = some (b.accepted m) := cmdOf_only hcmds
    rw [hcmd]
    refine ⟨x, ?_, hs, fun k hk => ?_⟩
    · refine if_pos ?_
      have hst : ∀ v, ((x.seq v).st != 1) = true := fun v => by simpa using (hs.idle.seq v).1.1
      have hpar' : (b.accepted m).m.param % 4 = 1 := by rw [show (b.accepted m).m.param = 1 from hp]
      simp [hpar', hst]
    · cases hoff : (b.entered m).slackAt k with
      | true => exact hs.keeps k (by rw [hslack]; exact hoff)
      | false => exact hon k (List.mem_filter.mpr ⟨hk, by simp [hoff]⟩)
variable (h : b.takes m = true)
include h
/-- CMD_POWER_STATE to SLACK of a device whose Coves run nothing. -/
theorem entersSlack (hp : m.param = 1) (hpow : b.dev.power = 0) (hq : b.quiet = true) :
    (b.command m).answered m stOK 0 [] ∧ (b.command m).dev.slack = true ∧ (∀ p, p < 16 → (b.part p).st ≠ 0 → ((b.command m).part p).slack = true) ∧
      { b.dev with slack := true } = (b.command m).dev ∧ (b.command m).mem = b.mem := by
  have hne : m.opcode ≠ 1 := by rw [hop]; decide
  obtain ⟨x, hr, hs, hon⟩ := enterSlack_ends hop hpart hset hp hpow hq
  have hacc := accept_power (b := b) hop
  have halone : x.Alone (b.accepted m) := (accept_alone h hne).congr (by rw [← hs.frame]) (by rw [← hs.frame])
  have hstill : x.still = true := by
    rw [← hs.frame]
    exact accept_still h
  have hend := command_end h hr halone hstill (.inr (by rw [hop]; rfl)) (by decide)
  obtain ⟨k, hk⟩ := hend.same.exists_host
  have hans := hend.answered
  obtain ⟨hdevice, hparts, -⟩ := scopeKeys_device (x := b.entered m) (c := b.asCmd m) (by rw [show (b.asCmd m).m.param = 1 from hp]; rfl)
  have hslack : x.dev.slack = true := hon none hdevice
  have hdev : x.dev = { b.dev with slack := true } := by
    rw [← hslack, ← hs.frame, ← hacc]
  have hmem : x.mem = b.mem := by rw [← hs.frame, ← hacc]
  rw [hk] at hans ⊢
  exact ⟨hans, hslack, fun p hp16 hst => hon (some p) (hparts p hp16 (by rw [entered_part]; exact hst)), hdev.symm, hmem⟩
/-- CMD_POWER_STATE to ACTIVE of a device in SLACK. -/
theorem leavesSlack (hp : m.param = 0) (hpow : b.dev.power = 0) (hq : b.quiet = true) :
    (b.command m).answered m stOK 0 [] ∧ (b.command m).dev.slack = false ∧ (∀ p, p < 16 → (b.part p).st ≠ 0 → ((b.command m).part p).slack = false) ∧
      (b.command m).mem = b.mem := by
  have hne : m.opcode ≠ 1 := by rw [hop]; decide
  obtain ⟨hr, hch, hpar, hc⟩ := runOp_power hop hpart hset (t := 0) hp
  rw [doPower_device (t := 0) (by decide) hpar hc hch, if_neg (by decide), if_pos rfl, if_neg (by simp [hpow])] at hr
  obtain ⟨hdevice, hparts, hopen⟩ := scopeKeys_device (x := b.entered m) (c := b.asCmd m) (by rw [hpar]; rfl)
  have hidle : (b.entered m).covesIdle := by
    rw [← entered_host (b := b) (m := m)]
    exact covesIdle_of_quiet (b := b) hq
  obtain ⟨hoff, hsends, hframe⟩ := wakeParts_slacks _ hidle hopen
  generalize (b.entered m).wakeParts ((b.entered m).scopeKeys (b.asCmd m)) = x at hr hoff hsends hframe
  have halone : x.Alone (b.asCmd m) := (entered_alone h hne).sends hsends (by rw [← hframe])
  have hacc := accept_measures (x := x) (c := b.asCmd m) hop rfl
  have hstill : (x.accept (b.asCmd m)).still = true := by
    obtain ⟨-, hstill, -⟩ := takes_facts h
    rw [← hacc, ← hframe]
    exact entered_still.trans hstill
  have hend := command_end h hr (halone.accept rfl) hstill (.inr (by rw [hop]; rfl)) (by decide)
  obtain ⟨k, hk⟩ := hend.same.exists_host
  have hans := hend.answered
  have hmem : x.mem = b.mem := by
    rw [← hframe]
    exact entered_sameButHost.eq ▸ rfl
  rw [hk, ← hacc] at hans ⊢
  exact ⟨hans, hoff none hdevice, fun p hp16 hst => hoff (some p) (hparts p hp16 (by rw [entered_part]; exact hst)), hmem⟩
/-- CMD_POWER_STATE to NEAP or DORMANT: the entry begins. -/
theorem entersLow {t : Nat} (ht : t = 2 ∨ t = 3) (hp : m.param = t) (hpow : b.dev.power < t) (h3 : b.dev.power ≠ 3) (hout : b.coveOutside = false) (hph : b.mode.phase = 0) :
    (b.command m).awaits m ∧ (b.command m).dev = { b.dev with changing := 1, target := t, changer := some (m.ctx, m.seq) } ∧
      { b with dev := (b.command m).dev, fw := (b.command m).fw, serves := (b.command m).serves, host := (b.command m).host } = b.command m := by
  have hne : m.opcode ≠ 1 := by rw [hop]; decide
  obtain ⟨hr, hch, hpar, hc⟩ := runOp_power hop hpart hset hp
  have hmay : ¬ ((decide ((b.entered m).dev.power = 3) || (b.entered m).coveOutside || (b.entered m).mode.phase != 0) = true) := by
    have hout' : (b.entered m).coveOutside = false := by
      rw [← entered_host (b := b) (m := m)]
      exact hout
    simp [hout', h3, hph]
  rw [doPower_device (t := t) (by omega) hpar hc hch, if_neg (by omega), if_neg (by omega), if_neg (by simp; omega), if_neg hmay] at hr
  have hacc := accept_power (b := b) hop
  let y : Blk := { (b.entered m).accept (b.asCmd m) with dev := { b.dev with changing := 1, target := t, changer := some (m.ctx, m.seq) } }
  have hy : (b.entered m).enterLow (b.asCmd m) t = y.haltServing := by
    have hdev : ((b.entered m).accept (b.asCmd m)).dev = b.dev := by rw [← hacc]
    unfold Blk.enterLow
    simp only [hdev]
    rfl
  have hframe := haltServing_frame (x := y)
  rw [hy] at hr
  have hcmds : y.haltServing.host.cmds = [b.accepted m] := by
    rw [← hframe]
    exact accept_entered_cmds
  have hstill : y.haltServing.still = true := by
    rw [← hframe]
    exact accept_still h
  obtain ⟨he, hawaits⟩ := command_wait h hr hcmds hstill
  rw [he]
  refine ⟨hawaits, by rw [← hframe], ?_⟩
  rw [← hframe]
  show _ = { y with serves := y.haltServing.serves }
  simp only [y]
  rw [← hacc]
/-- CMD_POWER_STATE to ACTIVE in NEAP or DORMANT: the wake begins. -/
theorem wakes (hp : m.param = 0) (hpow : 2 ≤ b.dev.power) :
    (b.command m).awaits m ∧ (b.command m).dev = { b.dev with changing := 2, target := 0, changer := some (m.ctx, m.seq) } ∧
      { b with dev := (b.command m).dev, fw := (b.command m).fw, host := (b.command m).host } = b.command m ∧ b.hostFor (b.command m) m := by
  obtain ⟨hr, hch, hpar, hc⟩ := runOp_power hop hpart hset (t := 0) hp
  rw [doPower_device (t := 0) (by decide) hpar hc hch, if_neg (by decide), if_pos rfl, if_pos (by simpa using hpow)] at hr
  have hacc := accept_power (b := b) hop
  let y : Blk := { (b.entered m).accept (b.asCmd m) with dev := { b.dev with changing := 2, target := 0, changer := some (m.ctx, m.seq) } }
  have hy : (b.entered m).wake (b.asCmd m) = y := by
    have hdev : ((b.entered m).accept (b.asCmd m)).dev = b.dev := by rw [← hacc]
    unfold Blk.wake
    simp only [hdev]
    rfl
  rw [hy] at hr
  obtain ⟨he, hawaits, hhost⟩ := command_accepts (m := m) (c := b.asCmd m) (y := b.entered m) rfl rfl rfl h hr rfl (accept_still h)
  rw [he]
  refine ⟨hawaits, rfl, ?_, hhost⟩
  simp only [y]
  rw [← hacc]
end

/-! ### The entry and the wake end (R459, R470, R472) -/

/-- The only uncompleted command ends in ST_OK, of whichever kind: beside the host side only measurements change. -/
theorem finish_measures {pay : List Byte} (h : b.Alone c) : (b.finish c stOK 0 pay).answered c.m stOK 0 pay ∧ (b.finish c stOK 0 pay).host.cmds = [] ∧
    { b with fw := (b.finish c stOK 0 pay).fw, parts := (b.finish c stOK 0 pay).parts, host := (b.finish c stOK 0 pay).host } = b.finish c stOK 0 pay := by
  refine ⟨finish_answered h.plain h.unlogged h.notHello h.opened (by decide), by simp [finish_cmds h.plain h.unlogged, h.cmds], ?_⟩
  cases hk : dKind c.m.opcode with
  | true => rw [← (finish_ok_D_same (pay := pay) h.plain h.unlogged hk).eq]
  | false => rw [← (finish_ok_I_same (pay := pay) h.plain h.unlogged hk).eq, ← measureCmd_eq (x := b) (m := c.m)]
/-- The command that changes the power state ends, and notices that no channel acts on are dropped. -/
theorem changerEnd_pump (h : x.Alone c) (hw : x.dev.changer = some (c.ctx, c.seq)) (hq : x.stillButNotices) :
    x.changerEnd.pump.answered c.m stOK 0 [] ∧ x.changerEnd.pump.host.cmds = [] ∧
      { x with dev := { x.dev with changing := 0, changer := none }, fw := x.changerEnd.pump.fw, parts := x.changerEnd.pump.parts, host := x.changerEnd.pump.host, slice := { x.slice with notices := [] } } = x.changerEnd.pump := by
  have hy : ({ x with dev := { x.dev with changing := 0, changer := none } } : Blk).Alone c := h.congr rfl rfl
  have hcmd : ({ x with dev := { x.dev with changing := 0, changer := none } } : Blk).cmdOf c.ctx c.seq = some c := cmdOf_only h.cmds
  have hrun : x.changerEnd = ({ x with dev := { x.dev with changing := 0, changer := none } } : Blk).finish c stOK 0 [] := by
    unfold Blk.changerEnd
    simp only [hw, hcmd]
  obtain ⟨hans, hcmds, hframe⟩ := finish_measures (pay := []) hy
  rw [← hrun] at hans hcmds hframe
  have hdrop : x.changerEnd.pump = x.changerEnd.noNotices := pump_drops hcmds (by rw [← hframe]; exact hq)
  rw [hdrop]
  refine ⟨hans, hcmds, ?_⟩
  rw [Blk.noNotices, ← hframe]

theorem mem_smap {α : Type} [DecidableEq α] {d : Nat → α} {f : Nat → α → α} {l : List (Nat × α)} {q : Nat × α} (h : q ∈ smap d f l) : ∃ r ∈ l, q = (r.1, f r.1 r.2) := by
  obtain ⟨r, hr, hq⟩ := List.mem_filterMap.mp h
  refine ⟨r, hr, ?_⟩
  simp only at hq
  split at hq
  · exact absurd hq (by simp)
  · exact (Option.some.inj hq).symm
/-- No listed Cove has a program, runs, or holds accumulators. -/
def Blk.covesLost (b : Blk) : Prop := ∀ q ∈ b.coves, q.2.seq.prog = [] ∧ q.2.seq.st = 0 ∧ q.2.acm = []
theorem Blk.covesLost.cove (h : b.covesLost) (v : Nat) : (b.seq v).prog = [] ∧ (b.seq v).st = 0 ∧ (b.cove v).acm = [] := by
  by_cases he : b.cove v = {}
  · rw [Blk.seq, he]
    exact ⟨rfl, rfl, rfl⟩
  · exact h _ (mem_of_sget he)

/-- Nothing changes but counters, the host side, the links, the slice and the mode change, and no device is marked missing or cleared. -/
structure Blk.Roams (x y : Blk) : Prop where
  frame : { x with cfg := y.cfg, host := y.host, links := y.links, slice := y.slice, mode := y.mode } = y
  missing : y.slice.missing = x.slice.missing
  sends : x.Sends y
theorem Blk.Roams.refl : x.Roams x := ⟨rfl, rfl, .refl⟩
theorem Blk.Roams.trans (h : x.Roams y) (g : y.Roams z) : x.Roams z := ⟨by rw [← g.frame, ← h.frame], g.missing.trans h.missing, h.sends.trans g.sends⟩
theorem Blk.Leaves.roams (h : x.Leaves y) : x.Roams y := ⟨by rw [← h.eq], by rw [← h.eq], .of_host h.host⟩
theorem Blk.Travels.roams (h : x.Travels y) : x.Roams y := ⟨h.frame, by rw [← h.slice], h.sends⟩
theorem foldl_roams {f : Blk → Nat → Blk} (ls : List Nat) (hf : ∀ (w : Blk) j, w.Roams (f w j)) : x.Roams (ls.foldl f x) := by
  induction ls generalizing x with
  | nil => exact .refl
  | cons j ls ih => exact (hf x j).trans ih

/-- What DORMANT loses besides NEAP, before the links go DISABLED. -/
def Blk.dormantLost (b : Blk) : Blk := { b.zeroTidepools (fun _ => true) with
  coves := smap (fun _ => {}) (fun _ x => x.loseTidepool) b.coves
  bays := smap (fun _ => {}) (fun _ y => { y with creds := [] }) b.bays
  chans := []
  slice := { b.slice with windows := [] }
  cfg := b.cfg.filter fun q => (cfgWhere q.1).1 != 7
  sync := if b.sync.st = 0 || b.slice.harbour then b.sync else { b.sync with st := 3 } }
theorem loseDormant_roams (h : b.chans = []) : b.dormantLost.Roams b.loseDormant := by
  unfold Blk.loseDormant
  rw [h]
  exact foldl_roams (List.range nLinks) fun w j => (inState_leaves (k := j) 0).roams.trans (linkLeave_travels (by decide)).roams
/-- What an entry loses, by the state that it leads to. -/
def Blk.lowLost (b : Blk) : Blk := if b.dev.target = 3 then b.loseNeap.loseDormant else b.loseNeap
/-- The machine in the lower power state. -/
def Blk.lowered (b : Blk) : Blk := { b.lowLost with
  hbmStacks := (List.range nStacks).foldl (fun m k => sset (fun _ => {}) m k { sget (fun _ => ({} : Stack)) m k with selfref := true }) b.lowLost.hbmStacks
  parts := smap (fun _ => {}) (fun _ x => { x with slack := false }) b.lowLost.parts
  dev := { b.lowLost.dev with power := b.dev.target, slack := false } }
theorem entryDrained_eq (hch : b.dev.changing = 1) (hdr : b.drained = true) : b.entryDrained = b.lowered.changerEnd := by
  unfold Blk.entryDrained
  rw [if_neg (by simp [hch, hdr])]
  rfl
theorem loseNeap_covesLost : b.loseNeap.covesLost := fun q hq => by
  obtain ⟨r, -, rfl⟩ := mem_smap (show q ∈ smap (fun _ => {}) (fun _ x => { x.loseAcm.loseProgram with gens := [], spill := {} }) b.coves from hq)
  exact ⟨rfl, rfl, rfl⟩
theorem dormantLost_covesLost (h : b.covesLost) : b.dormantLost.covesLost := fun q hq => by
  obtain ⟨r, hr, rfl⟩ := mem_smap (show q ∈ smap (fun _ => {}) (fun _ x => x.loseTidepool) b.coves from hq)
  exact h r hr
/-- No Bay has a descriptor. -/
def Blk.noDescs (b : Blk) : Prop := ∀ q ∈ b.bays, q.2.descs = []
theorem loseNeap_noDescs (h : b.noDescs) : b.loseNeap.noDescs := fun q hq => by
  obtain ⟨r, hr, rfl⟩ := mem_smap (show q ∈ smap (fun _ => {}) (fun _ y => y.loseScatter) b.bays from hq)
  exact h r hr
theorem dormantLost_noDescs (h : b.noDescs) : b.dormantLost.noDescs := fun q hq => by
  obtain ⟨r, hr, rfl⟩ := mem_smap (show q ∈ smap (fun _ => {}) (fun _ y => { y with creds := [] }) b.bays from hq)
  exact h r hr
theorem lowLost_spec (hchans : b.chans = []) (hdescs : b.noDescs) : b.lowLost.covesLost ∧ b.lowLost.noDescs ∧ b.lowLost.mem = (if b.dev.target = 3 then b.mem.filter (fun q => !(regionOf q.1 == 1)) else b.mem) ∧
    b.Sends b.lowLost ∧ b.lowLost.slice.missing = b.slice.missing ∧ b.lowLost.chans = [] ∧
    { b with cfg := b.lowLost.cfg, mem := b.lowLost.mem, coves := b.lowLost.coves, bays := b.lowLost.bays, barriers := b.lowLost.barriers, host := b.lowLost.host,
             links := b.lowLost.links, slice := b.lowLost.slice, chans := b.lowLost.chans, sync := b.lowLost.sync, mode := b.lowLost.mode } = b.lowLost := by
  unfold Blk.lowLost
  split
  · have hr := loseDormant_roams (b := b.loseNeap) hchans
    generalize b.loseNeap.loseDormant = y at hr
    have hlost := dormantLost_covesLost (loseNeap_covesLost (b := b))
    have hmem : y.mem = b.mem.filter fun q => !(regionOf q.1 == 1) := by
      rw [← hr.frame]
      exact List.filter_congr fun q _ => by simp
    refine ⟨?_, ?_, hmem, (Blk.Sends.of_host (x := b) (y := b.loseNeap.dormantLost) rfl).trans hr.sends, hr.missing, by rw [← hr.frame]; rfl, by rw [← hr.frame]; rfl⟩
    · rw [← hr.frame]
      exact hlost
    · rw [← hr.frame]
      exact dormantLost_noDescs (loseNeap_noDescs hdescs)
  · exact ⟨loseNeap_covesLost, loseNeap_noDescs hdescs, rfl, .of_host rfl, rfl, hchans, rfl⟩

/-- The drain has ended: the device lowers its power, with what that loses, and the command ends. -/
theorem entryDrained_ends {t : Blk} (hrun : b.entryDrained.pump = t) (honly : b.onlyWaits c = true) (hw : b.dev.changer = some (c.ctx, c.seq)) (hch : b.dev.changing = 1) (hdr : b.drained = true) :
    t.answered c.m stOK 0 [] ∧ t.host.cmds = [] ∧ t.dev.power = b.dev.target ∧ t.dev.changing = 0 ∧ (∀ v, (t.seq v).prog = [] ∧ (t.seq v).st = 0 ∧ (t.cove v).acm = []) ∧
      t.mem = (if b.dev.target = 3 then b.mem.filter (fun q => !(regionOf q.1 == 1)) else b.mem) ∧
      t.unitKeys = b.unitKeys ∧ t.cores = b.cores ∧ t.board = b.board ∧ t.accounts = b.accounts ∧ t.hls = b.hls := by
  obtain ⟨hstill, -⟩ := onlyWaits_facts honly
  obtain ⟨-, hchans, hnotices, hmiss⟩ := still_iff.mp hstill
  have hdescs : b.noDescs := fun q hq => by
    simp only [Blk.drained, Bool.and_eq_true, List.all_eq_true, List.isEmpty_iff] at hdr
    exact hdr.1.2 q hq
  obtain ⟨hlost, hnone, hmem, hsends, hmissing, hchans', hframe⟩ := lowLost_spec hchans hdescs
  have halone : b.lowered.Alone c := (Blk.Alone.of_onlyWaits honly).sends (hsends.trans (.of_host (y := b.lowered) rfl)) (by
    show b.lowLost.spans = b.spans
    rw [← hframe])
  have hquiet : b.lowered.stillButNotices := by
    simp only [Blk.stillButNotices, still_iff]
    refine ⟨fun q hq d hd => ?_, hchans', trivial, hmissing.trans hmiss⟩
    rw [hnone q hq] at hd
    exact absurd hd (by simp)
  have hchanger : b.lowered.dev.changer = some (c.ctx, c.seq) := by
    show b.lowLost.dev.changer = _
    rw [← hframe]
    exact hw
  obtain ⟨hans, hcmds, ht⟩ := changerEnd_pump halone hchanger hquiet
  rw [← entryDrained_eq hch hdr, hrun] at hans hcmds ht
  refine ⟨hans, hcmds, ?_⟩
  rw [← ht]
  refine ⟨rfl, rfl, fun v => hlost.cove v, hmem, ?_⟩
  show b.lowLost.unitKeys = _ ∧ b.lowLost.cores = _ ∧ b.lowLost.board = _ ∧ b.lowLost.accounts = _ ∧ b.lowLost.hls = _
  rw [← hframe]
  exact ⟨rfl, rfl, rfl, rfl, rfl⟩

/-- The machine awake, with links that may train again. -/
def Blk.awake (b : Blk) : Blk :=
  let b1 := { b with hbmStacks := smap (fun _ => {}) (fun _ k => { k with selfref := false }) b.hbmStacks, dev := { b.dev with power := 0 } }
  if b.dev.power = 3 then (List.range nLinks).foldl (fun b k => if (b.link k).enabled && (b.link k).st = 0 then b.linkState k 1 else b) b1 else b1
theorem awake_roams : ({ b with hbmStacks := b.awake.hbmStacks, dev := { b.dev with power := 0 } } : Blk).Roams b.awake := by
  have hgo : ∀ x : Blk, x.Roams ((List.range nLinks).foldl (fun b k => if (b.link k).enabled && (b.link k).st = 0 then b.linkState k 1 else b) x) := fun x => by
    refine foldl_roams _ fun w j => ?_
    split
    · exact (inState_leaves (k := j) 1).roams.trans (linkState_travels 1).roams
    · exact .refl
  unfold Blk.awake
  simp only
  split
  · have hr := hgo { b with hbmStacks := smap (fun _ => {}) (fun _ k => { k with selfref := false }) b.hbmStacks, dev := { b.dev with power := 0 } }
    generalize (List.range nLinks).foldl _ _ = y at hr ⊢
    have hstacks : y.hbmStacks = smap (fun _ => {}) (fun _ k => { k with selfref := false }) b.hbmStacks := by rw [← hr.frame]
    rw [hstacks]
    exact hr
  · exact .refl
theorem wakeDone_eq (hch : b.dev.changing = 2) : b.wakeDone = (b.awake.wakeEvent (if b.dev.power = 3 then 0x017E0E00 else 0x003A0A00)).changerEnd := by
  unfold Blk.wakeDone
  rw [if_neg (by simp [hch])]
  unfold Blk.awake
  by_cases h3 : b.dev.power = 3
  · simp [h3]
  · simp [h3]
/-- The wake has ended: WAKE tells what was lost, and the command ends. -/
theorem wakeDone_ends {t : Blk} (hrun : b.wakeDone.pump = t) (honly : b.onlyWaits c = true) (hw : b.dev.changer = some (c.ctx, c.seq)) (hch : b.dev.changing = 2) :
    t.answered c.m stOK 0 [] ∧ t.host.cmds = [] ∧ t.dev.power = 0 ∧ t.dev.changing = 0 ∧ t.dev.lost = (if b.dev.power = 3 then 0x017E0E00 else 0x003A0A00) ∧
      t.mem = b.mem ∧ t.coves = b.coves ∧ t.bays = b.bays ∧ t.board = b.board := by
  obtain ⟨hstill, -⟩ := onlyWaits_facts honly
  obtain ⟨hbays, hchans, -, hmiss⟩ := still_iff.mp hstill
  have hr := awake_roams (b := b)
  have he := wakeDone_eq hch
  generalize (if b.dev.power = 3 then 0x017E0E00 else 0x003A0A00) = lost at he ⊢
  generalize b.awake = x at hr he
  have hsame := eventTo_sameButHost (x := { x with dev := { x.dev with lost := lost, lostKind := 0 } }) [0] evWAKE (leBytes 4 0 ++ leBytes 4 lost)
  have hsent := eventTo_sends (x := { x with dev := { x.dev with lost := lost, lostKind := 0 } }) [0] evWAKE (leBytes 4 0 ++ leBytes 4 lost)
  change Blk.SameButHost _ (x.wakeEvent lost) at hsame
  change Blk.Sends _ (x.wakeEvent lost) at hsent
  generalize x.wakeEvent lost = y at he hsame hsent
  have hsends : b.Sends y := ((Blk.Sends.of_host (x := b) (y := { b with hbmStacks := x.hbmStacks, dev := { b.dev with power := 0 } }) rfl).trans hr.sends).trans
    ((Blk.Sends.of_host (x := x) (y := { x with dev := { x.dev with lost := lost, lostKind := 0 } }) rfl).trans hsent)
  have hframe : { b with cfg := y.cfg, host := y.host, hbmStacks := y.hbmStacks, dev := { b.dev with power := 0, lost := lost, lostKind := 0 }, links := y.links, slice := y.slice, mode := y.mode } = y := by
    rw [← hsame.eq, ← hr.frame]
  have hmissing : y.slice.missing = b.slice.missing := by
    rw [← hsame.eq]
    exact hr.missing
  have hquiet : y.stillButNotices := by
    simp only [Blk.stillButNotices, still_iff, true_and]
    refine ⟨?_, ?_, hmissing.trans hmiss⟩
    · rw [← hframe]
      exact hbays
    · rw [← hframe]
      exact hchans
  obtain ⟨hans, hcmds, ht⟩ := changerEnd_pump ((Blk.Alone.of_onlyWaits honly).sends hsends (by rw [← hframe])) (by rw [← hframe]; exact hw) hquiet
  rw [← he, hrun] at hans hcmds ht
  refine ⟨hans, hcmds, ?_⟩
  rw [← ht, ← hframe]
  exact ⟨rfl, rfl, rfl, rfl, rfl, rfl, rfl⟩

/-- Settles O51: the rules of CMD_POWER_STATE, and what the ends of an entry and of a wake leave. -/
theorem powerStates : Obligations.PowerStates := by
  unfold Obligations.PowerStates
  refine ⟨fun s m h hop hpart hset => ?_, fun s c honly hw => ?_⟩
  · have hrow : ∀ {t : Nat}, t < 4 → m.param = t → (isFor m 0x0800 && fld m.param 1 0 == t) = true := fun ht hp => by
      rw [isFor_takes h hop, hp]
      simp only [fld, Nat.shiftRight_eq_div_pow, Bool.true_and, beq_iff_eq]
      omega
    refine ⟨fun hp hpow hq => ?_, fun hp hpow hout hph => ?_, fun hp hpow hout hph => ?_, fun hp hpow => ?_, fun hp hpow hq => ?_⟩
    · exact does_of_updIf rfl (hrow (t := 1) (by decide) hp) (entersSlack hop hpart hset h hp hpow hq)
    · exact does_of_updIf rfl (hrow (t := 2) (by decide) hp) (entersLow hop hpart hset h (.inl rfl) hp (by omega) (by omega) hout hph)
    · exact does_of_updIf rfl (hrow (t := 3) (by decide) hp) (entersLow hop hpart hset h (.inr rfl) hp hpow (by omega) hout hph)
    · exact does_of_updIf rfl (hrow (t := 0) (by decide) hp) (wakes hop hpart hset h hp hpow)
    · exact does_of_updIf rfl (hrow (t := 0) (by decide) hp) (leavesSlack hop hpart hset h hp hpow hq)
  · exact ⟨fun hch hdr _ => does_of_upd (f := fun b => b.entryDrained.pump) rfl (entryDrained_ends rfl honly hw hch hdr), fun hch => does_of_upd (f := fun b => b.wakeDone.pump) rfl (wakeDone_ends rfl honly hw hch)⟩

end Sys2Proof.Machine
end

section
/-! ### O38: channels open and close, and participants post -/
namespace Sys2Proof.Machine
open Sys2Proof Sys2Proof.Machine
variable {b x y z : Blk} {m : Msg} {c : Cmd} {ch i n part : Nat} {u w : Chan} {l : List (Nat × Chan)} {v : List Byte}

/-! ### The one channel that is listed -/

theorem chan_ne_default (h : w.opened = true) : w ≠ {} := by
  rintro rfl
  exact absurd h (by decide)
theorem chan_single (h : b.chans = [(ch, u)]) : b.chan ch = u := by
  rw [Blk.chan, h]
  simp [sget]
theorem setChan_single (h : b.chans = [(ch, u)]) (hw : w.opened = true) : b.setChan ch w = { b with chans := [(ch, w)] } := by
  rw [Blk.setChan, h, sset_single, if_neg (chan_ne_default hw)]
theorem setChan_first (h : b.chans = []) (hw : w.opened = true) : b.setChan ch w = { b with chans := [(ch, w)] } := by
  rw [Blk.setChan, h, sset, if_neg (chan_ne_default hw)]

/-- One channel is listed, and it is open; no operation of it runs or can start, and no completion record of it waits for credit. -/
structure Blk.OneIdle (b : Blk) (ch : Nat) (u : Chan) : Prop where
  chans : b.chans = [(ch, u)]
  opened : u.opened = true
  idle : u.op = none
  owed : u.owed = []
  unready : u.ready = none

theorem flushOwed_idle (h : b.OneIdle ch u) : b.flushOwed ch = b := by
  have hu : { u with owed := [] } = u := by rw [← h.owed]
  simp only [Blk.flushOwed, chan_single h.chans, h.owed, List.foldl_nil, hu]
  rw [setChan_single h.chans h.opened, ← h.chans]
theorem collStep_idle (h : b.OneIdle ch u) : b.collStep ch = b := by
  simp only [Blk.collStep, chan_single h.chans, h.idle]
theorem collStart_idle (h : b.OneIdle ch u) : b.collStart ch = b := by
  simp only [Blk.collStart, chan_single h.chans, h.unready, ite_self]
theorem collRun_idle (h : b.OneIdle ch u) : b.collRun ch = b := foldl_same _ _ _ fun _ _ => collStart_idle h
theorem collPump_idle (h : b.OneIdle ch u) (hn : b.slice.notices = []) : b.collPump = b := by
  simp only [Blk.collPump, collNotices_none _ hn, h.chans, List.map_cons, List.map_nil, List.foldl_cons, List.foldl_nil, flushOwed_idle h, collStep_idle h,
    collRun_idle h]
/-- Beside such a channel, what remains of the pump once the commands have run changes nothing. -/
theorem tail_idle (h : b.OneIdle ch u) (hs : ({ b with chans := [] } : Blk).still = true) : b.pumpDescs.collPump.clearMissing = b := by
  rw [still_iff] at hs
  obtain ⟨hbays, -, hn, hmiss⟩ := hs
  have hdescs : b.pumpDescs = b := by
    unfold Blk.pumpDescs
    refine foldl_same _ _ _ fun q hq => foldl_same _ _ _ fun d hd => ?_
    simp [hbays q hq d hd]
  have hmiss' : b.slice.missing = [] := hmiss
  rw [hdescs, collPump_idle h hn, Blk.clearMissing]
  simp [hmiss']
theorem pump_idle (h : b.OneIdle ch u) (hs : ({ b with chans := [] } : Blk).rests = true) : b.pump = b := by
  simp only [Blk.rests, Bool.and_eq_true, List.isEmpty_iff] at hs
  obtain ⟨hstill, hcmds⟩ := hs
  have hcmd : b.pumpCmds = b := by
    unfold Blk.pumpCmds
    split
    · rfl
    · rw [show b.pollCmds = b by simp [Blk.pollCmds, hcmds], startReady_none _ (by simp [Blk.noneReady, hcmds])]
  rw [Blk.pump, hcmd, tail_idle h hstill]

/-! ### Which operation can start (R426) -/

theorem mapM_none {α β : Type} {f : α → Option β} {l : List α} {a : α} (ha : a ∈ l) (h : f a = none) : l.mapM f = none := by
  induction l with
  | nil => exact absurd ha List.not_mem_nil
  | cons d l ih =>
    rw [List.mapM_cons]
    rcases List.mem_cons.mp ha with rfl | hl
    · simp [h]
    · cases f d with
      | none => rfl
      | some e => simp [ih hl]
/-- No operation can start while a participant has posted nothing for it. -/
theorem ready_none (hi : i < u.parts.length) (h : u.posted.all (fun q => q.1 != i) = true) : u.ready = none := by
  refine mapM_none (List.mem_range.mpr hi) ?_
  rw [Option.map_eq_none_iff, List.find?_eq_none]
  intro q hq hqi
  have hne := List.all_eq_true.mp h q hq
  simp_all

/-! ### CMD_CHAN_OPEN (R420, R421, R423) -/

/-- The channel of one member that a CMD_CHAN_OPEN describes. -/
def chanOpened (m : Msg) : Chan :=
  let v := m.payload
  { opened := true, kind := leAt v 0 1, window := leAt v 1 1, gen := leAt v 2 2, members := [leAt v 0x20 2]
    parts := (List.range (leAt v 8 4)).map (chanPart v (0x20 + 8 * cdiv 2 8)), timeout := leAt v 0xC 4, part := m.partition, ctx := m.ctx
    counts := List.replicate (leAt v 8 4) 0 }
/-- A payload without a fault names participants, and this device among the members. -/
theorem chanFault_none (h : b.chanFault ch part v = none) (hn : leAt v 4 4 = 1) : leAt v 8 4 ≠ 0 ∧ leAt v 0x20 2 = b.slice.devid := by
  unfold Blk.chanFault at h
  simp only [hn] at h
  repeat' split at h
  all_goals simp_all
theorem upstream_one {d : Nat} (h : u.members = [d]) (hself : u.self = 0) : u.upstream = [] := by
  unfold Chan.upstream
  rw [Chan.n, h, hself]
  split
  · rfl
  · rw [List.length_singleton]
    decide
theorem measureCmd_chans : ({ x with chans := l } : Blk).measureCmd m = { x.measureCmd m with chans := l } := by
  unfold Blk.measureCmd Blk.extendCfg Blk.extendPm Blk.part
  simp only
  split
  · split <;> rfl
  · split
    · split <;> rfl
    · rfl

section
variable (h : b.takes m = true) (hop : m.opcode = 0x0500) (hpart : m.partition < 16) (hst : (b.part m.partition).st = 1 ∨ (b.part m.partition).st = 2)
  (hparam : m.param < 128) (hctx : m.ctx = 0) (hfault : (b.entered m).chanFault m.param m.partition m.payload = none) (hn : leAt m.payload 4 4 = 1)
include h hop hpart hst hparam hctx hfault hn

theorem runOp_chanOpen :
    (b.entered m).runOp (b.asCmd m) = ({ b.entered m with chans := [(m.param, chanOpened m)] } : Blk).finish (b.asCmd m) stOK 0 [] := by
  obtain ⟨-, hself⟩ := chanFault_none hfault hn
  obtain ⟨-, hstill, -⟩ := takes_facts h
  obtain ⟨-, hchans, -, hmiss⟩ := still_iff.mp hstill
  have hchans' : (b.entered m).chans = [] := by simpa using hchans
  have hnone : (b.entered m).chan m.param = {} := by rw [Blk.chan, hchans']; rfl
  have hmem : (List.range 1).map (fun k => leAt m.payload (0x20 + 2 * k) 2) = [(b.entered m).slice.devid] := by simp [hself]
  have hbuf : chanBuf (leAt m.payload 0 1) (leAt m.payload 1 1) 1 = 0 := rfl
  rw [runOp_eq (op := 0x0500) hop rfl]
  show (b.entered m).doChanOpen (b.asCmd m) = _
  unfold Blk.doChanOpen
  rw [withPart_open (c := b.asCmd m) hpart (by rw [entered_part]; exact hst)]
  have hpresent : [(b.entered m).slice.devid].findIdx? (b.entered m).isMissing = none := by simp [Blk.isMissing, hmiss]
  have hrouted : [(b.entered m).slice.devid].findIdx? (fun d => d != (b.entered m).slice.devid && !rtMember ((b.entered m).route d)) = none := by simp
  simp only [show (b.asCmd m).m = m from rfl, show (b.asCmd m).ctx = m.ctx from rfl, hn, hmem, hbuf, hfault, hnone, hchans', hctx, hpresent, hrouted]
  rw [if_neg (by omega), if_neg (by simp), if_neg (by decide), if_neg (by simp)]
  rw [upstream_one (d := (b.entered m).slice.devid) rfl (by simp [firstIdx]), List.foldl_nil, setChan_first hchans' rfl]
  simp [chanOpened, firstIdx, hself, hctx]
/-- The channel is open, nothing of it is posted, and the command is answered. -/
theorem command_chanOpen {t : Blk} (hrun : b.command m = t) : t.answered m stOK 0 [] ∧ t.chans = [(m.param, chanOpened m)] ∧
    { b.measureCmd m with chans := t.chans, host := t.host } = t ∧ b.hostFor t m := by
  obtain ⟨-, hstill, -⟩ := takes_facts h
  obtain ⟨hparts, -⟩ := chanFault_none hfault hn
  have hr := runOp_chanOpen h hop hpart hst hparam hctx hfault hn
  generalize hx : ({ b.entered m with chans := [(m.param, chanOpened m)] } : Blk) = x at hr
  have halone : x.Alone (b.asCmd m) := (entered_alone h (by omega)).congr (by rw [← hx]) (by rw [← hx])
  generalize hz : x.finish (b.asCmd m) stOK 0 [] = z at hr
  obtain ⟨hans, hcmds, -⟩ := finish_measures (pay := []) halone
  have hsame := finish_ok_I_same (pay := []) halone.plain halone.unlogged (by rw [show (b.asCmd m).m = m from rfl, hop]; rfl)
  have hbut := finish_hostBut (st := stOK) (det := 0) (pay := []) halone.plain halone.unlogged
  rw [hz] at hans hcmds hsame hbut
  have hframe : ({ b.measureCmd m with chans := [(m.param, chanOpened m)], host := z.host } : Blk) = z := by
    obtain ⟨k, hk⟩ := hsame.exists_host
    obtain ⟨j, hj⟩ := (measureCmd_sameButHost (m := m) (entered_sameButHost (b := b) (m := m))).exists_host
    rw [hk, ← hx, show (b.asCmd m).m = m from rfl, measureCmd_chans (x := b.entered m), hj]
  have hidle : z.OneIdle m.param (chanOpened m) := by
    refine ⟨by rw [← hframe], rfl, rfl, rfl, ready_none (i := 0) ?_ rfl⟩
    simpa [chanOpened] using Nat.pos_of_ne_zero hparts
  have hquiet : ({ z with chans := [] } : Blk).still = true := by
    rw [← hframe, ← hstill]
    exact still_congr (by simp) (by simpa using (still_iff.mp hstill).2.1.symm) (by simp)
  have he : b.command m = z := by
    rw [command_takes h, hr, startReady_none 1 (by simp [Blk.noneReady, hcmds]), tail_idle hidle hquiet]
  subst hrun
  rw [he]
  refine ⟨hans, hidle.chans, by rw [hidle.chans]; exact hframe, ?_⟩
  exact entered_hostBut.trans ((hostBut_of_host (by rw [← hx])).trans hbut)
end

/-! ### CMD_CHAN_CLOSE (R440) -/

/-- A channel of which nothing runs, waits or is owed leaves the map. -/
theorem closeChan_only (hc : b.chans = [(ch, u)]) (hopen : u.opened = true) (hidle : u.op = none) (hposted : u.posted = []) (howed : u.owed = []) :
    b.closeChan ch = { b with chans := [] } := by
  have hflush : ∀ w : Chan, w.opened = true → w.owed = [] → ({ b with chans := [(ch, w)] } : Blk).flushOwed ch = { b with chans := [(ch, w)] } := by
    intro w hw hnone
    have hk : ({ b with chans := [(ch, w)] } : Blk).chan ch = w := chan_single rfl
    have hkeep : { w with owed := [] } = w := by rw [← hnone]
    simp only [Blk.flushOwed, hk, hnone, List.foldl_nil, hkeep]
    rw [setChan_single rfl hw]
  unfold Blk.closeChan
  simp only [chan_single hc, hidle, hposted, howed, Option.isSome_none, Bool.false_eq_true, if_false, List.map_nil, List.append_nil]
  rw [setChan_single hc (by exact hopen), hflush _ (by exact hopen) rfl, chan_single (ch := ch) rfl, Blk.setChan, sset_single, if_pos rfl]

/-- What a device checks of a message that it takes looks at no channel. -/
theorem receive_besideChans (h : ({ b with chans := [] } : Blk).takes m = true) (hop : m.opcode ≠ 1) : b.receive m = b.entered m := by
  obtain ⟨hst, -, -⟩ := takes_facts h
  have hst' : (b.ctx m.ctx).st = 1 := hst
  simp only [Blk.takes, msgPlain, Bool.and_eq_true, beq_iff_eq, Bool.not_eq_true', List.isEmpty_iff, Option.isNone_iff_eq_none, Bool.or_eq_true,
    decide_eq_true_eq] at h
  obtain ⟨⟨⟨⟨⟨⟨⟨⟨⟨⟨⟨⟨⟨⟨⟨⟨⟨⟨hv, hmin⟩, hcls⟩, hpart⟩, -⟩, -⟩, hup⟩, hpow⟩, hint⟩, -⟩, hhome⟩, hseq⟩, hhdr⟩, -⟩, -⟩, -⟩, hcm⟩, -⟩, -⟩ := h
  obtain ⟨o, ho, hheader⟩ : ∃ o, opInfo m.opcode = some o ∧ b.headerCheck m o = none := by
    cases e : opInfo m.opcode with
    | none => simp [e] at hhdr
    | some o =>
      rw [e] at hhdr
      exact ⟨o, rfl, Option.isNone_iff_eq_none.mp hhdr⟩
  have hup' : (b.port m.port).up = true := hup
  have hopen : ((b.ctx m.ctx).st != 1) = false := by simp [hst']
  have hhome' : (decide (m.ctx = 0) && decide ((b.ctx m.ctx).st = 1) && !(b.ctx m.ctx).homeSet) = false := by
    simp [show (b.ctx m.ctx).homeSet = true from hhome]
  have hplain : asMinor0 m = m := by simp [asMinor0, hmin]
  have hturn : (m.opcode != 1 && (b.ctx m.ctx).series && m.seq != (b.ctx m.ctx).expect) = false := by
    rcases hseq with (hk | hk) | hk
    · simp [hk]
    · simp [show (b.ctx m.ctx).series = false from hk]
    · simp [show m.seq = (b.ctx m.ctx).expect from hk]
  have hpart' : (decide (15 < m.partition) && m.partition != 0xFF) = false := by
    rcases hpart with hk | hk
    · simp [Nat.not_lt.mpr (Nat.le_of_lt_succ hk)]
    · simp [hk]
  simp only [Blk.receive, hup', if_true, Blk.arrive, devMode_powered (b := b) hpow, if_false, show b.host.intakeStopped = false from hint,
    Bool.false_eq_true, Blk.takeMsg, hplain, hv, hcls, hhome', hpart', ho, hopen, hturn, Nat.not_lt.mpr (Nat.zero_le 2)]
  have hcm' : b.host.cmds = [] := hcm
  simp only [hop, if_false, headerCheck_series hst', hheader, setCtx_host, hcm', Blk.entered, Blk.asCmd, List.nil_append, setCtx_frame]
/-- Neither does its turn, and a command that no span logs runs at once. -/
theorem pumpCmds_besideChans (h : ({ b with chans := [] } : Blk).takes m = true) (hop : logOps.contains m.opcode = false) :
    (b.entered m).pumpCmds = ((b.entered m).runOp (b.asCmd m)).startReady 1 := by
  simp only [Blk.takes, msgPlain, Bool.and_eq_true, beq_iff_eq, Bool.not_eq_true', Option.isNone_iff_eq_none] at h
  obtain ⟨⟨⟨⟨⟨⟨⟨⟨⟨⟨⟨⟨⟨⟨⟨⟨⟨⟨-, -⟩, hcls⟩, -⟩, -⟩, -⟩, -⟩, -⟩, hint⟩, -⟩, -⟩, -⟩, -⟩, hstart⟩, hdata⟩, -⟩, -⟩, -⟩, -⟩ := h
  obtain ⟨hdev, hparts, -, -, hstop, hcmds, -⟩ := entered_frame (b := b) (m := m)
  have hpoll : (b.entered m).pollCmds = b.entered m := by simp [Blk.pollCmds, Blk.asCmd]
  have hdata' : (b.asCmd m).dataIn = true := hdata
  have hstart' : (b.entered m).startCheck (b.asCmd m) = none := (startCheck_congr hdev hparts).trans hstart
  have hop' : logOps.contains (b.asCmd m).m.opcode = false := hop
  have hrun : (b.entered m).mayRun (b.asCmd m) = true := by
    simp only [Blk.mayRun, hcmds, hop', Bool.false_and]
    simp [Blk.asCmd]
  have hadmit : (b.entered m).admits (b.asCmd m) = (true, b.entered m) := by simp [Blk.admits, Blk.asCmd, hcls]
  have hlog : (b.entered m).logCmd (b.asCmd m) = .ok (b.entered m) := by
    have hnone : (b.entered m).logsOf (b.asCmd m) = [] := by
      unfold Blk.logsOf
      rw [hop']
      rfl
    simp [Blk.logCmd, hnone]
  have hnext : (b.entered m).nextReady = some (b.asCmd m) := by simp [Blk.nextReady, hrun, hdata']
  have hint' : (b.entered m).host.intakeStopped = false := hstop.trans hint
  have hq : (b.asCmd m).queued = false := rfl
  rw [Blk.pumpCmds, hint', if_neg Bool.false_ne_true, hpoll, hcmds, List.length_singleton, Blk.startReady, hnext]
  simp [Blk.runCmd, hq, hstart', hadmit, hlog, hdata']

theorem entered_besideChans : ({ b with chans := l } : Blk).entered m = { b.entered m with chans := l } := by
  unfold Blk.entered
  split <;> rfl
section
variable (h : ({ b with chans := [] } : Blk).takes m = true) (hop : m.opcode = 0x0501) (hparam : m.param < 128) (hc : b.chans = [(m.param, u)])
  (hopen : u.opened = true) (hidle : u.op = none) (hposted : u.posted = []) (howed : u.owed = []) (hpart : m.partition = 0xFF ∨ u.part = m.partition)
include h hop hparam hc hopen hidle hposted howed hpart

omit h in
theorem runOp_chanClose : (b.entered m).runOp (b.asCmd m) =
    ((({ b with chans := [] } : Blk).entered m).accept (({ b with chans := [] } : Blk).asCmd m)).finish (({ b with chans := [] } : Blk).accepted m) stOK 0 [] := by
  have hc' : (b.entered m).chans = [(m.param, u)] := by simpa using hc
  rw [runOp_eq (op := 0x0501) hop rfl]
  show (b.entered m).doChanClose (b.asCmd m) = _
  unfold Blk.doChanClose
  simp only [show (b.asCmd m).m = m from rfl, show (b.asCmd m).part = m.partition from rfl, chan_single hc', hopen]
  rw [if_neg (by omega), if_neg (by simp), if_neg (by simpa [or_iff_not_imp_left] using hpart), closeChan_only hc' hopen hidle hposted howed]
  rw [entered_besideChans (b := b) (l := [])]
  rfl
/-- The channel is closed, and the command is answered. -/
theorem command_chanClose {t : Blk} (hrun : b.command m = t) : t.answered m stOK 0 [] ∧ t.chans = [] ∧
    { b with chans := t.chans, host := t.host } = t ∧ b.hostFor t m := by
  have hr := runOp_chanClose hop hparam hc hopen hidle hposted howed hpart
  have halone := accept_alone h (by omega)
  have hacc := accept_entered_sameButHost (b := { b with chans := [] }) (m := m) (pay := [])
  rw [measureCmd_other hop (by decide)] at hacc
  have hends := finish_alone (st := stOK) (det := 0) (pay := []) halone (.inr (by rw [show (Blk.accepted _ m).m = m from rfl, hop]; rfl)) (by decide)
  have hbut := finish_hostBut (st := stOK) (det := 0) (pay := []) halone.plain halone.unlogged
  have hrests := hends.rests (accept_still h)
  generalize hz : Blk.finish _ (Blk.accepted { b with chans := [] } m) stOK 0 [] = z at hr hends hbut hrests
  have he : b.command m = z := by
    rw [Blk.command, receive_besideChans h (by omega), Blk.pump, pumpCmds_besideChans h (by rw [hop]; rfl), hr,
      startReady_none 1 (by simp [Blk.noneReady, hends.cmds]), still_tail (rests_still hrests)]
  have hframe := (hacc.trans hends.same).eq
  have hchans : z.chans = [] := (congrArg Blk.chans hframe).symm
  subst hrun
  rw [he, hchans]
  exact ⟨hends.answered, rfl, hframe, (accept_entered_hostBut (b := { b with chans := [] }) (pay := [])).trans hbut⟩
end

/-! ### A participant writes its post word (R424) -/

section
variable {was : Nat} {w : Nat × Nat × Nat × Nat} (hc : b.chans = [(ch, u)]) (hopen : u.opened = true) (hfailed : u.failed = false) (hidle : u.op = none)
  (howed : u.owed = []) (hi : i < u.parts.length) (hw : nth u.parts i (0, 0, 0, 0) = w) (hwas : u.counts[i]? = some was) (hnear : was ≤ u.done + 7)
  (hother : ∃ j, j < u.parts.length ∧ j ≠ i ∧ u.posted.all (fun q => q.1 != j) = true) (hlost : b.tpLost w.1 = false) (hlt : was < 2 ^ 32 - 1)
include hc hopen hfailed hidle howed hi hw hwas hnear hother hlost hlt

/-- The channel once the participant has posted one record more. -/
def Blk.posted (b : Blk) (u : Chan) (i was : Nat) (w : Nat × Nat × Nat × Nat) : Chan :=
  { u with counts := u.counts.set i (was + 1), posted := u.posted ++ [(i, was, b.tpRead w.1 (w.2.2.1 + 64 * (was % 8)) 64)] }

/-- One record is posted, and no operation can start while another participant has posted none. -/
theorem collPost_next : b.collPost ch i (was + 1) = { b.tpWrite w.1 w.2.2.2 (leBytes 8 (was + 1)) with chans := [(ch, b.posted u i was w)] } ∧
    (b.posted u i was w).ready = none := by
  obtain ⟨j, hj, hji, hnone⟩ := hother
  have hready : (b.posted u i was w).ready = none := by
    refine ready_none (i := j) hj ?_
    simp [Blk.posted, hnone, Ne.symm hji]
  have hchans : (b.tpWrite w.1 w.2.2.2 (leBytes 8 (was + 1))).chans = [(ch, u)] := by
    rw [← (tpWrite_oneCove (b := b) (c := w.1) (a := w.2.2.2) (w := leBytes 8 (was + 1))).frame]
    exact hc
  have hmod : (was + 1) % 2 ^ 32 = was + 1 := Nat.mod_eq_of_lt (by omega)
  have hcount : nth u.counts i 0 = was := by simp [nth, hwas]
  refine ⟨?_, hready⟩
  unfold Blk.collPost
  simp only [chan_single hc, hw, hlost, hmod, hcount, Nat.add_sub_cancel_left]
  rw [if_neg (by simpa [hopen] using hi), if_neg (by simp [hfailed]), if_neg (by simp; omega), if_neg Bool.false_ne_true]
  rw [setChan_single hchans (by exact hopen)]
  exact collRun_idle (u := b.posted u i was w) ⟨rfl, hopen, hidle, howed, hready⟩
end

/-- Settles O38: opening and closing run the command on a machine with that one channel or none, and a post adds its record to a channel that cannot
start yet. -/
theorem channelsOpenAndPost : Obligations.ChannelsOpenAndPost := by
  unfold Obligations.ChannelsOpenAndPost
  refine ⟨?_, ?_, ?_⟩
  · intro s m h hop hpart hst hparam hctx v hfault hn
    refine does_of_updIf rfl (isFor_takes h hop) ?_
    obtain ⟨hans, hchans, hframe, hhost⟩ := command_chanOpen h hop hpart hst hparam hctx hfault hn rfl
    have hnone : s.blk.chans = [] := (still_iff.mp (takes_facts h).2.1).2.1
    refine ⟨hans, ?_, fun k hk => ?_, hframe, hhost⟩
    · rw [chan_single hchans]
      exact ⟨rfl, rfl, rfl, rfl, rfl, rfl, by simp [chanOpened, v], rfl, rfl, rfl, rfl, rfl⟩
    · rw [Blk.chan, Blk.chan, hchans, hnone]
      simp [sget, Ne.symm hk]
  · intro s m ch h hop hparam hch hc hopen hidle hposted howed hpart
    subst hparam
    refine does_of_updIf rfl (isFor_takes h hop) ?_
    obtain ⟨hans, hchans, hframe, hhost⟩ := command_chanClose h hop hch hc hopen hidle hposted howed hpart rfl
    refine ⟨hans, ?_, hframe, hhost⟩
    rw [Blk.chan, hchans]
    rfl
  · intro s ch i was honly u w hi hwas hnear hidle howed hother hlost hlt hwf hapart
    simp only [Blk.onlyChan, Bool.and_eq_true, decide_eq_true_eq, Bool.not_eq_true'] at honly
    obtain ⟨⟨⟨⟨⟨⟨⟨hrests, hc⟩, hopen⟩, hfailed⟩, -⟩, hch⟩, -⟩, -⟩ := honly
    obtain ⟨he, hready⟩ := collPost_next hc hopen hfailed hidle howed hi rfl hwas hnear hother hlost hlt
    refine does_of_updIf rfl (by simpa using hch) ?_
    have hone := tpWrite_oneCove (b := s.blk) (c := w.1) (a := w.2.2.2) (w := leBytes 8 (was + 1))
    have hmem := tpWrite_mem (b := s.blk) (c := w.1) (a := w.2.2.2) (v := leBytes 8 (was + 1))
    generalize s.blk.tpWrite w.1 w.2.2.2 (leBytes 8 (was + 1)) = y at he hone hmem
    have hidle' : ({ y with chans := [(ch, s.blk.posted u i was w)] } : Blk).OneIdle ch (s.blk.posted u i was w) := ⟨rfl, hopen, hidle, howed, hready⟩
    have hrests' : ({ y with chans := [] } : Blk).rests = true := by
      rw [← hone.frame]
      exact hrests
    have hread := tpRead_of_written (t := { y with chans := [(ch, s.blk.posted u i was w)] }) hmem hwf
    rw [leBytes_length] at hread
    rw [he, pump_idle hidle' hrests', chan_single (ch := ch) rfl]
    refine ⟨rfl, rfl, ?_, fun k hk => ?_, hone.others, ?_⟩
    · rw [Blk.tpNat, hread, leNat_leBytes]
      exact Nat.mod_eq_of_lt (by omega)
    · exact peek_of_written (t := y) hmem (by rw [leBytes_length]; exact hk)
    · rw [← hone.frame]

end Sys2Proof.Machine
end
